-- ==== Sys2Proof/Word.lean ====
section
/-! DEFINITION. The words the module's manual counts bits in: bytes, 32-bit registers (R12), 64-bit
pairs (R12), SHA-256 digests, and a saturating increment.
No repair can mend this file: only the plainest arithmetic stands here. -/

namespace Sys2Proof

/-- A byte of memory. -/
abbrev Byte := BitVec 8

/-- A register: 32 bits (R12). -/
abbrev Word := BitVec 32

/-- A 64-bit quantity: a pair of registers (R12). -/
abbrev DWord := BitVec 64

/-- A SHA-256 digest or another 256-bit identity. -/
abbrev Hash := BitVec 256

/-- The word that holds `n` modulo 2^32. -/
def Word.ofNat (n : Nat) : Word := BitVec.ofNat 32 n

/-- One if the condition holds, else zero. -/
def bit (b : Bool) : Nat := if b then 1 else 0

end Sys2Proof
end

