-- ==== Sys2Proof/Syntax.lean ====
section
/-! DEFINITION. The commands: one constructor per row of the table of operations and events, with the operands that say
where the step happens and what the outside world (a pin, a link, a sensor, flash, a checker) shows in it.  The table
gives no operands; these are the model's own (log entry 2). -/

namespace Sys2Proof.Machine

/-- Who makes a register access (R27, R32, R33, R515): the management core, the safety manager, a control core of a die,
a maintenance session carried by the management core, or an initiator that cannot address the register views. -/
inductive Init where
  | mgmt | safety | ctrl (die core : Nat) | session | other (die unit : Nat)
  deriving DecidableEq, Repr

/-- A die-to-die link (Table ORG-5): the hub link of a die, the ring link from a die to its ascending neighbour, the
Cosy link. -/
inductive DieLink where
  | hub (die : Nat) | ring (die : Nat) | cosy
  deriving DecidableEq, Repr

/-- What a symbol-code decoder observes of one codeword: clean, a corrected symbol (or pin) number with the error inside
the check symbols or not, or uncorrectable. -/
inductive Ecc where
  | clean | corrected (symbol : Nat) (check : Bool) | uncorrectable
  deriving DecidableEq, Repr

/-- How a unit's work on a task ended, before the sequencer's rules (R88, R313, R475, R478). -/
inductive EndKind where
  | clean | checkFail | poisoned | poisonedTagged
  deriving DecidableEq, Repr

/-- A unit's end report: how, the out-of-range count, and whether a scatter-add had issued a write (R479). -/
structure TaskEnd where
  kind : EndKind
  oor : Nat
  scattered : Bool
  deriving DecidableEq, Repr

/-- An event as its source makes it (R515): code, value, source die, the detail field of Table EVR-4, device time and
frame number. -/
structure Event where
  code : Nat
  value : Word
  die : Nat
  field : Nat
  dt : Nat
  frame : Word
  deriving DecidableEq, Repr

/-- What, beyond its class, decides the recovery of a doubt (Table REC-2). -/
inductive DoubtWhy where
  | plain | hubLink | ringLink | clockPart | clockLastPart | noSpare | checker | hubChecker | hubCheckerAgain
  | coverage | failedDie | dead
  deriving DecidableEq, Repr

/-- The cause of a doubt (Table SAF-3): its class code, the die it arose on, the context, pair, stream, pipe or unit
concerned, what decides its recovery, and its frame. -/
structure DoubtCause where
  cls : Nat
  die : Nat
  sub : Nat
  why : DoubtWhy
  frame : Word
  deriving DecidableEq, Repr

/-- The state of a CSI-2 packet as it arrived (R130): good, one header bit corrected, header uncorrectable, or payload
CRC failed. -/
inductive PktState where
  | good | headerCorrected | headerBad | crcBad
  deriving DecidableEq, Repr

/-- A fault that start-up self-test found on a die (R492, R493), by unit number, row or part. -/
inductive StartFault where
  | core (c : Nat) | engine (u : Nat) | spdRow (c bank row : Nat) | storeRow (c bank row : Nat) | cmnRow (bank row : Nat)
  | trackRow (row : Nat) | memCtl (k : Nat) | part
  deriving DecidableEq, Repr

/-- A remote request (R245): the granule's address and the bytes of a write, clean or poisoned. -/
structure RemoteReq where
  addr : Nat
  write : Option (List Byte)
  poison : BitVec 4
  deriving DecidableEq, Repr

/-- Who updates a flag (Table SPD-4): a die sequencer's post, a DMA descriptor, ingress, software through the FLG
registers, or a write to the flag's address. -/
inductive FlagSrc where
  | sequencer (die : Nat) | dma (die : Nat) | ingress | reg (who : Init) | write (who : Init)
  deriving DecidableEq, Repr

/-- A neural core (R6) in the arithmetic cycle that is `cyc` after its task's first bundle (R297). -/
structure CoreRef where
  die : Nat
  core : Nat
  cyc : Nat
  deriving DecidableEq, Repr

/-- A DMA channel: die, engine and channel (R112). -/
structure ChanRef where
  die : Nat
  eng : Nat
  ch : Nat
  deriving DecidableEq, Repr

/-- A disagreement seen by a matrix engine checker (R311–R313), its kind as MX_FAIL_LAST codes it; kind 0 is a codeword of the bundle
store or slot-table store that cannot be corrected (R319). -/
structure MxFault where
  row : Nat
  col : Nat
  located : Bool
  kind : Nat
  deriving DecidableEq, Repr

/-- A vector operation: the core and cycle whose bundle holds it (Table NCO-10), and the lane in which the checker lane, or 64
for the second tree, disagrees in that cycle (R317). -/
structure VOp where
  core : CoreRef
  fault : Option Nat
  deriving DecidableEq, Repr

/-- A flit's header as received (Table SHD-5): sequence numbers, the credit it returns, the tag and byte offset of its info, its last-flit
mark, and whether its codewords decoded and whether they were corrected (R360, R361). -/
structure FlitHdr where
  seq : Nat
  ack : Nat
  credit : Nat
  tag : Nat
  off : Nat
  last : Bool
  ok : Bool
  corrected : Nat
  deriving DecidableEq, Repr

/-- A peer's IDENT (R363). -/
structure IdentInfo where
  serial : BitVec 64
  part : Nat
  slot : Nat
  pos : Nat
  modules : Nat
  params : Nat
  deriving DecidableEq, Repr

/-- One hub's CENSUS entry (R363). -/
structure CensusEntry where
  pos : Nat
  serial : BitVec 64
  part : Nat
  params : Nat
  deriving DecidableEq, Repr

/-- A merge at a memory controller (R399): bytes written within a codeword, or elements added to it. -/
inductive MergeOp where
  | bytes (off : Nat) (data : List Byte) | addF32 (off : Nat) (v : Word) | addI32 (off : Nat) (v : Word)
  deriving DecidableEq, Repr

/-- An Ethernet frame on a host port's ingress (R433, R434): how MACsec and FCS judged it, and its fields. -/
structure IngFrame where
  fcsOk : Bool
  icvOk : Bool
  replayOk : Bool
  streamId : BitVec 64
  size : Nat
  rtag : Nat
  msgSeq : Word
  fragIndex : Nat
  fragCount : Nat
  data : List Byte
  deriving DecidableEq, Repr

/-- A Cosy message on the Cosy link (R454, R460). -/
structure CosyMsg where
  stream : Nat
  frame : Word
  envelope : BitVec 16
  payload : List Byte
  crcOk : Bool
  checks : Nat
  deriving DecidableEq, Repr

/-- One message the Cosy computes for a frame: its Cosy stream, envelope code and payload. -/
structure CosyOut where
  stream : Nat
  envelope : BitVec 16
  payload : List Byte
  deriving DecidableEq, Repr

/-- How a logic slice or segment ended (R495): passed, failed, or ended with the rows it found bad. -/
structure SliceResult where
  pass : Bool
  kind : Nat
  memory : Nat
  bank : Nat
  row : Nat
  bitNo : Nat
  deriving DecidableEq, Repr

/-- A checker under test (Table BST-3): one in a unit that has a spare, by BIST unit number (a core's matrix, duplicated-stage,
vector, poison-marking, scratchpad or store checker, an engine's or a pipe's); one on a C-die (commons, flag and DRAM decoders,
window watchdog, DMA request paths); one on the hub (golden and diversity comparators, lockstep comparators). -/
inductive CheckerAt where
  | ofUnit (unit : Nat) | commons | flags | dram (k : Nat) | watchdog | dma (engine : Nat) | golden | diversity | lockstep
  deriving DecidableEq, Repr

/-- The monitors of Table PWR-8; a rail monitor's group is the sensor its command names. -/
inductive MonitorKind where
  | clock | rail | junction | inlet | power
  deriving DecidableEq, Repr

/-- A TAP instruction (R543); one of the IEEE 1687 instrument network by its number. -/
inductive TapInstr where
  | bypass | idcode | samplePreload | extest | instrument (n : Nat)
  deriving DecidableEq, Repr

end Sys2Proof.Machine

namespace Sys2Proof

open Machine

/-- The commands of the module: the rows of the table of operations and events, in the table's order of families. -/
inductive Instr where
  /-- REGISTER_WRITE (R14). -/
  | registerWrite (who : Init) (addr : Nat) (v : Word) (width : Nat)
  /-- REG_LO_READ (R33). -/
  | regLoRead (who : Init) (addr : Nat)
  /-- REG_HI_READ (R33). -/
  | regHiRead (who : Init) (addr : Nat)
  /-- REG_LO_WRITE (R33). -/
  | regLoWrite (who : Init) (addr : Nat) (v : Word)
  /-- REG_HI_WRITE (R33). -/
  | regHiWrite (who : Init) (addr : Nat) (v : Word)
  /-- COSY_MAILBOX_READ (R26). -/
  | cosyMailboxRead (addr : Nat)
  /-- INGRESS_BUFFER_WRITE (R26). -/
  | ingressBufferWrite (addr : Nat) (data : List Byte)
  /-- LINK_RETRAIN (R24). -/
  | linkRetrain (l : DieLink) (halfTrains : Bool)
  /-- COSY_LINK_TRAIN (R56). -/
  | cosyLinkTrain
  /-- POWER_GOOD (R44). -/
  | powerGood (slotId : BitVec 4)
  /-- HUB_SELFTEST_DONE (R46). -/
  | hubSelftestDone (failed : List Nat)
  /-- COSY_SELFTEST_REPORT (R47). -/
  | cosySelftestReport
  /-- COSY_RESULT_TIMEOUT (R47). -/
  | cosyResultTimeout
  /-- UFS_LINK_UP (R44). -/
  | ufsLinkUp (readErrA readErrB : Bool) (answers : List (List (Option (BitVec 24)))) (sealedOk : Bool)
  /-- CDIE_SELFTEST_DONE (R492). -/
  | cdieSelftestDone (die : Nat) (faults : List StartFault)
  /-- SECTION_HASHED (R42). -/
  | sectionHashed (k : Nat)
  /-- FIRMWARE_RUNNING (R44). -/
  | firmwareRunning
  /-- ROLLBACK_BURN_STEP (R43). -/
  | rollbackBurnStep
  /-- UPLOAD (R53). -/
  | upload (slot : Bool) (off : Nat) (data : List Byte)
  /-- COMMIT (R54). -/
  | commit
  /-- COMMIT_READBACK_DONE (R54). -/
  | commitReadbackDone (readErr : Bool)
  /-- HOLDING_COLD_START (R55). -/
  | holdingColdStart
  /-- COSY_POWER_GOOD (R56). -/
  | cosyPowerGood (selfTest : Bool)
  /-- COSY_IMAGE (R57). -/
  | cosyImage (off : Nat) (data : List Byte)
  /-- BOOT_REQ_WARM (R64). -/
  | bootReqWarm (who : Init)
  /-- BOOT_REQ_COLD (R64). -/
  | bootReqCold (who : Init) (alsoWarm : Bool)
  /-- DIE_RESTART (R483). -/
  | dieRestart (die : Nat)
  /-- DIE_REJOIN (R485). -/
  | dieRejoin (die : Nat)
  /-- DIE_RESTART_ESCALATE (R477). -/
  | dieRestartEscalate (die : Nat)
  /-- WARM_RESTART (R486). -/
  | warmRestart
  /-- WARM_REJOIN (R486). -/
  | warmRejoin
  /-- WARM_RESTART_TIMEOUT (R477). -/
  | warmRestartTimeout
  /-- REHASH_COMPLETE (R59). -/
  | rehashComplete (die : Nat)
  /-- NUMBERING_MARK (R62). -/
  | numberingMark
  /-- FRAME_START (R69). -/
  | frameStart
  /-- FRAME_START_EFFECT (R69). -/
  | frameStartEffect (die : Nat)
  /-- HELD_START_EFFECT (R81). -/
  | heldStartEffect (die : Nat)
  /-- CAMERA_TRIGGER (R133). -/
  | cameraTrigger (ctx : Nat)
  /-- FRAME_TRIGGER_OFFSET (R80). -/
  | frameTriggerOffset (die node : Nat) (frame : Word)
  /-- COMPLETION_NOTICE (R74). -/
  | completionNotice (src dst : Nat)
  /-- INGRESS_WINDOW_OPEN (R91). -/
  | ingressWindowOpen (die node : Nat) (frame : Word)
  /-- WIN_CLOSE (R89). -/
  | winClose (die node : Nat) (frame : Word)
  /-- VARIANT_LOAD (R97). -/
  | variantLoad (die : Nat)
  /-- SHADOW_REFRESH (R126). -/
  | shadowRefresh (die : Nat)
  /-- SLOT_GRANT (R105). -/
  | slotGrant (die : Nat)
  /-- DISPATCH (R119). -/
  | dispatch (die unit : Nat)
  /-- UNIT_END_REPORT (R103). -/
  | unitEndReport (die unit : Nat) (e : TaskEnd)
  /-- COMPLETION_RECORD_WRITE (R79). -/
  | completionRecordWrite (die slot : Nat)
  /-- QUEUE_RETRY (R116). -/
  | queueRetry (die queue : Nat)
  /-- DSP_PUSH (R117). -/
  | dspPush (who : Init) (die list : Nat)
  /-- DSP_CANCEL_NODE (R125). -/
  | dspCancelNode (who : Init) (die node : Nat)
  /-- DSP_CANCEL_SLOT (R125). -/
  | dspCancelSlot (who : Init) (die slot : Nat)
  /-- DSP_Q_HEAD_WRITE (R115). -/
  | dspQHeadWrite (who : Init) (die : Nat) (v : Word)
  /-- APHY_LINK_TRAIN (R128). -/
  | aphyLinkTrain (link gear latency : Nat)
  /-- CSI2_LONG_PACKET (R135). -/
  | csi2LongPacket (link vc dt : Nat) (payload : List Byte) (st : PktState)
  /-- CSI2_FS (R136). -/
  | csi2Fs (link vc : Nat) (st : PktState)
  /-- CSI2_FE (R137). -/
  | csi2Fe (link vc : Nat) (st : PktState)
  /-- ACCEPT_WINDOW_CLOSE (R137). -/
  | acceptWindowClose (ctx : Nat)
  /-- PIPE_LINE_DONE (R142). -/
  | pipeLineDone (pos : Nat) (errs : List (Nat × Nat))
  /-- STRIP_POST (R148). -/
  | stripPost (ctx die : Nat)
  /-- DROP_FLAG_RAISE (R138). -/
  | dropFlagRaise (ctx die : Nat)
  /-- GOLDEN_LINE_START (R153). -/
  | goldenLineStart (pos : Nat)
  /-- PIPE_HANDOVER (R155). -/
  | pipeHandover (pos : Nat)
  /-- HANDOVER_FORCED (R155). -/
  | handoverForced (pos : Nat)
  /-- ING_I2C_CMD (R132). -/
  | ingI2cCmd (who : Init) (v : Word)
  /-- I2C_COMPLETE (R132). -/
  | i2cComplete (ok : Bool) (data : BitVec 24)
  /-- PYR_TASK (R167). -/
  | pyrTask (die inst : Nat)
  /-- WRP_MESH_TASK (R172). -/
  | wrpMeshTask (die inst : Nat)
  /-- WRP_SAMPLER_TASK (R179). -/
  | wrpSamplerTask (die inst : Nat)
  /-- FTR_DETECT_MATCH (R193). -/
  | ftrDetectMatch (die inst : Nat) (errs : List Nat)
  /-- FTR_DETECT (R184). -/
  | ftrDetect (die inst : Nat)
  /-- FTR_RESET (R184). -/
  | ftrReset (die inst : Nat)
  /-- FTR_DUMP (R184). -/
  | ftrDump (die inst : Nat)
  /-- FTR_TRACK_SEL_WRITE (R209). -/
  | ftrTrackSelWrite (who : Init) (die inst : Nat) (v : Word)
  /-- FTR_TRACK_DATA_READ (R208). -/
  | ftrTrackDataRead (who : Init) (die inst : Nat)
  /-- FLW_TASK (R200). -/
  | flwTask (die inst : Nat)
  /-- STE_SGM (R217). -/
  | steSgm (die inst : Nat)
  /-- STE_TEST_FILL (R226). -/
  | steTestFill (die inst : Nat)
  /-- REMOTE_REQUEST (R245). -/
  | remoteRequest (die core : Nat) (req : RemoteReq)
  /-- REMOTE_ACCESS (R245). -/
  | remoteAccess (die core : Nat)
  /-- SPD_PATROL (R244). -/
  | spdPatrol (die core : Nat) (obs : List Ecc)
  /-- CMN_PATROL (R252). -/
  | cmnPatrol (die bank : Nat) (obs : List Ecc)
  /-- FLAG_ADD (R255). -/
  | flagAdd (src : FlagSrc) (die flag : Nat) (v : Word) (flagErr : Bool)
  /-- FLAG_SET (R255). -/
  | flagSet (src : FlagSrc) (die flag : Nat) (v : Word) (flagErr : Bool)
  /-- WATCH_ARRIVE (R260). -/
  | watchArrive (src dst : Nat)
  /-- WATCH_MET_NOTICE (R260). -/
  | watchMetNotice (src dst : Nat)
  /-- WATCH_RETRY (R260). -/
  | watchRetry (src dst : Nat)
  /-- WATCH_WITHDRAW (R260). -/
  | watchWithdraw (src dst slot : Nat)
  /-- RESTART_TAGGED_ACCESS (R475). -/
  | restartTaggedAccess (die addr : Nat) (wr : Option (List Byte))
  /-- GSET (R302). -/
  | gset (c : CoreRef)
  /-- ST (R304). -/
  | st (c : CoreRef)
  /-- LDA (R306). -/
  | lda (c : CoreRef)
  /-- LDB (R306). -/
  | ldb (c : CoreRef)
  /-- RUN (R307). -/
  | run (c : CoreRef)
  /-- BLOCK_CLOSE (R311). -/
  | blockClose (c : CoreRef) (dev : List (Nat × Nat × Int)) (fault : Option MxFault)
  /-- STORE (R308). -/
  | store (c : CoreRef) (fault : Option MxFault)
  /-- ACCIN (R308). -/
  | accin (c : CoreRef)
  /-- LOOP (R299). -/
  | loop (c : CoreRef)
  /-- END (R300). -/
  | endBundle (c : CoreRef)
  /-- VECTOR_LOAD (R315). -/
  | vectorLoad (c : CoreRef) (port : Nat)
  /-- VECTOR_STORE (R315). -/
  | vectorStore (c : CoreRef)
  /-- ADD (R316). -/
  | add (v : VOp)
  /-- SUB (R316). -/
  | sub (v : VOp)
  /-- MUL (R316). -/
  | mul (v : VOp)
  /-- FMA (R316). -/
  | fma (v : VOp)
  /-- MAX (R337). -/
  | max (v : VOp)
  /-- MIN (R337). -/
  | min (v : VOp)
  /-- ABS (R316). -/
  | abs (v : VOp)
  /-- NEG (R316). -/
  | neg (v : VOp)
  /-- CMPLT (R337). -/
  | cmplt (v : VOp)
  /-- CMPEQ (R337). -/
  | cmpeq (v : VOp)
  /-- SEL (R316). -/
  | sel (v : VOp)
  /-- RCP (R337). -/
  | rcp (v : VOp)
  /-- RSQRT (R337). -/
  | rsqrt (v : VOp)
  /-- SQRT (R337). -/
  | sqrt (v : VOp)
  /-- EXP2 (R337). -/
  | exp2 (v : VOp)
  /-- LOG2 (R337). -/
  | log2 (v : VOp)
  /-- TANH (R337). -/
  | tanh (v : VOp)
  /-- SIGMOID (R337). -/
  | sigmoid (v : VOp)
  /-- RSUM (R338). -/
  | rsum (v : VOp)
  /-- RMAX (R339). -/
  | rmax (v : VOp)
  /-- BCAST (R316). -/
  | bcast (v : VOp)
  /-- PERM (R316). -/
  | perm (v : VOp)
  /-- MOVI (R316). -/
  | movi (v : VOp)
  /-- PACKBF (R335). -/
  | packbf (v : VOp)
  /-- UNPKBF (R335). -/
  | unpkbf (v : VOp)
  /-- PACKH (R335). -/
  | packh (v : VOp)
  /-- UNPKH (R335). -/
  | unpkh (v : VOp)
  /-- CVTMX (R336). -/
  | cvtmx (v : VOp)
  /-- SCINS (R316). -/
  | scins (v : VOp)
  /-- IADD (R316). -/
  | iadd (v : VOp)
  /-- ISUB (R316). -/
  | isub (v : VOp)
  /-- IMUL (R316). -/
  | imul (v : VOp)
  /-- SHL (R316). -/
  | shl (v : VOp)
  /-- SHRA (R316). -/
  | shra (v : VOp)
  /-- SHRL (R316). -/
  | shrl (v : VOp)
  /-- AND (R316). -/
  | vand (v : VOp)
  /-- OR (R316). -/
  | vor (v : VOp)
  /-- XOR (R316). -/
  | vxor (v : VOp)
  /-- IMIN (R316). -/
  | imin (v : VOp)
  /-- IMAX (R316). -/
  | imax (v : VOp)
  /-- ICMPLT (R316). -/
  | icmplt (v : VOp)
  /-- CVTIF (R316). -/
  | cvtif (v : VOp)
  /-- CVTFI (R337). -/
  | cvtfi (v : VOp)
  /-- IOTA (R316). -/
  | iota (v : VOp)
  /-- DMA_DOORBELL (R380). -/
  | dmaDoorbell (who : Init) (die eng ch : Nat)
  /-- COPY (R374). -/
  | copy (ch : ChanRef)
  /-- LINEAR (R374). -/
  | linear (ch : ChanRef)
  /-- FILL (R374). -/
  | fill (ch : ChanRef)
  /-- GATHER (R287). -/
  | gather (ch : ChanRef)
  /-- SCATTER (R288). -/
  | scatter (ch : ChanRef)
  /-- SCATTER_ADD (R290). -/
  | scatterAdd (ch : ChanRef)
  /-- DMA_FLAG_OP (R377). -/
  | dmaFlagOp (ch : ChanRef)
  /-- JUMP (R379). -/
  | jump (ch : ChanRef)
  /-- POP (R384). -/
  | pop (ch : ChanRef)
  /-- DMA_NORESP_TIMEOUT (R381). -/
  | dmaNorespTimeout (ch : ChanRef) (addr offset : Nat) (mask : BitVec 64)
  /-- DMA_PAUSE (R381). -/
  | dmaPause (who : Init) (ch : ChanRef) (offset : Nat) (mask : BitVec 64)
  /-- DMA_RESUME (R383). -/
  | dmaResume (who : Init) (ch : ChanRef)
  /-- DMA_RETRY (R383). -/
  | dmaRetry (who : Init) (ch : ChanRef)
  /-- DMA_SKIP (R383). -/
  | dmaSkip (who : Init) (ch : ChanRef)
  /-- DMA_REQUEST_MISMATCH (R481). -/
  | dmaRequestMismatch (ch : ChanRef) (offset : Nat) (mask : BitVec 64)
  /-- HUNG_UNIT (R480). -/
  | hungUnit (die unit : Nat)
  /-- RELAY_TASK (R351). -/
  | relayTask (die : Nat)
  /-- RELAY_PATH_TAKE (R354). -/
  | relayPathTake (die : Nat) (dir : Bool)
  /-- RELAY_DATA (R355). -/
  | relayData (die : Nat) (dir : Bool)
  /-- RELAY_FLAG_ENTRY (R352). -/
  | relayFlagEntry (die : Nat) (dir : Bool)
  /-- RELAY_COMMIT (R347). -/
  | relayCommit (die : Nat) (dir : Bool)
  /-- RELAY_RESYNC (R365). -/
  | relayResync (die : Nat) (dir : Bool)
  /-- RELAY_ACK (R355). -/
  | relayAck (die : Nat)
  /-- FORWARD_RETRY (R357). -/
  | forwardRetry (die : Nat) (dir : Bool)
  /-- FLIT_IDLE (R360). -/
  | flitIdle (port : Nat) (h : FlitHdr)
  /-- FLIT_HEAD (R360). -/
  | flitHead (port : Nat) (h : FlitHdr) (entry : List Byte)
  /-- FLIT_DATA (R360). -/
  | flitData (port : Nat) (h : FlitHdr) (data : List Byte) (marks : BitVec 16)
  /-- FLIT_DELIVERED (R360). -/
  | flitDelivered (port : Nat) (h : FlitHdr)
  /-- FLIT_WATCH (R360). -/
  | flitWatch (port : Nat) (h : FlitHdr) (die flag : Nat) (value : Word)
  /-- FLIT_MET (R360). -/
  | flitMet (port : Nat) (h : FlitHdr)
  /-- FLIT_NAK (R361). -/
  | flitNak (port : Nat) (h : FlitHdr)
  /-- FLIT_IDENT (R363). -/
  | flitIdent (port : Nat) (h : FlitHdr) (id : IdentInfo)
  /-- FLIT_CENSUS (R363). -/
  | flitCensus (port : Nat) (h : FlitHdr) (list : List CensusEntry) (second : Bool)
  /-- FLIT_BREAK (R364). -/
  | flitBreak (port : Nat) (h : FlitHdr) (epoch : Word)
  /-- RING_BREAK (R364). -/
  | ringBreak
  /-- RELAY_LANE_FAIL (R362). -/
  | relayLaneFail (port lane : Nat)
  /-- RELAY_PORT_SILENT (R362). -/
  | relayPortSilent (port : Nat)
  /-- RELAY_PORT_TRAIN_TIMEOUT (R362). -/
  | relayPortTrainTimeout (port : Nat)
  /-- DRAM_READ (R398). -/
  | dramRead (die addr : Nat) (obs : List Ecc)
  /-- DRAM_WRITE (R399). -/
  | dramWrite (die addr : Nat) (data : List Byte) (poison : Bool)
  /-- DRAM_MERGE (R399). -/
  | dramMerge (die addr : Nat) (m : MergeOp)
  /-- DRAM_PATROL (R404). -/
  | dramPatrol (die ctl : Nat) (obs : List Ecc)
  /-- DRAM_RETIRE (R407). -/
  | dramRetire (die ctl : Nat)
  /-- DRAM_REFRESH (R410). -/
  | dramRefresh (die ctl : Nat)
  /-- DRAM_TEMP_READ (R410). -/
  | dramTempRead (die ctl : Nat) (temp : BitVec 8)
  /-- CALIBRATION_DUE (R411). -/
  | calibrationDue (die ctl : Nat)
  /-- QUIET_WINDOW_OPEN (R412). -/
  | quietWindowOpen (die ctl win : Nat) (pass : Bool)
  /-- CALIBRATION_FORCED (R413). -/
  | calibrationForced (die ctl : Nat) (stallNs : Nat) (pass : Bool)
  /-- SELF_REFRESH_ENTER (R415). -/
  | selfRefreshEnter (die ctl : Nat)
  /-- SELF_REFRESH_EXIT (R416). -/
  | selfRefreshExit (die ctl : Nat) (pass : Bool)
  /-- HOST_PORT_LINK (R428). -/
  | hostPortLink (port : Nat) (up : Bool)
  /-- GATE_CYCLE_START (R421). -/
  | gateCycleStart (port : Nat)
  /-- OUTPUT_ACCEPT (R429). -/
  | outputAccept (die node : Nat) (frame : Word) (payload : List Byte) (poisoned : Bool)
  /-- FRAGMENT_SEND (R426). -/
  | fragmentSend (stream : Nat)
  /-- GPTP_SYNC (R431). -/
  | gptpSync (port : Nat) (offset : Int)
  /-- SYNC_TIMEOUT (R432). -/
  | syncTimeout
  /-- INGRESS_FRAME (R434). -/
  | ingressFrame (port : Nat) (f : IngFrame)
  /-- REASSEMBLY_TIMEOUT (R434). -/
  | reassemblyTimeout (stream : Nat)
  /-- INGRESS_HOLD_RETRY (R436). -/
  | ingressHoldRetry (die ring : Nat)
  /-- CB_RESET (R420). -/
  | cbReset (stream : Nat)
  /-- MODE_REQUEST (R469). -/
  | modeRequest (stream : Nat) (payload : List Byte)
  /-- TSN_WALL_LO_READ (R442). -/
  | tsnWallLoRead (who : Init)
  /-- TSN_TIME_READ (R442). -/
  | tsnTimeRead (who : Init)
  /-- DOUBT_LATCH (R447). -/
  | doubtLatch (d : DoubtCause)
  /-- STREAM_DEADLINE (R452). -/
  | streamDeadline (stream : Nat)
  /-- COSY_MESSAGE (R454). -/
  | cosyMessage (m : CosyMsg)
  /-- DIVERSITY_VERDICT (R468). -/
  | diversityVerdict (pair : Nat) (frame : Word)
  /-- HUB_LOCKSTEP_FAIL (R487). -/
  | hubLockstepFail
  /-- ROTATION_STEP (R496). -/
  | rotationStep (die group : Nat)
  /-- SLICE_DONE (R495). -/
  | sliceDone (die unit : Nat) (r : SliceResult)
  /-- SEGMENT_START (R500). -/
  | segmentStart (die unit : Nat)
  /-- SEGMENT_DONE (R500). -/
  | segmentDone (die unit : Nat) (r : SliceResult)
  /-- COVERAGE_EXPIRY (R502). -/
  | coverageExpiry (die unit : Nat)
  /-- SUSPECT_CLEAR (R498). -/
  | suspectClear (die unit : Nat)
  /-- ROW_REPAIR (R503). -/
  | rowRepair (die : Nat)
  /-- REPAIR_RECORD_WRITE (R504). -/
  | repairRecordWrite
  /-- CHECKER_TEST (R505). -/
  | checkerTest (die : Nat) (k : CheckerAt) (pass : Bool)
  /-- EVENT_ARRIVE (R517). -/
  | eventArrive (e : Event)
  /-- ACCUMULATOR_CLOSE (R518). -/
  | accumulatorClose (code : BitVec 16)
  /-- EVR_RAISE_CODE (R515). -/
  | evrRaiseCode (who : Init) (priv : Bool) (code : BitVec 16)
  /-- EVR_FREEZE_SET (R529). -/
  | evrFreezeSet (who : Init)
  /-- EVR_FREEZE_CLEAR (R529). -/
  | evrFreezeClear (who : Init)
  /-- EVR_FREEZE_EXPIRE (R529). -/
  | evrFreezeExpire
  /-- LOG_PERSIST (R531). -/
  | logPersist (ok : Bool)
  /-- OPEN (R537). -/
  | openSession (role : Nat) (key : Hash) (nonce : Hash)
  /-- PROVE (R538). -/
  | prove (sig : List Byte)
  /-- CLOSE (R537). -/
  | close
  /-- SESSION_TIMEOUT (R537). -/
  | sessionTimeout
  /-- AUTH_LOCKOUT_END (R538). -/
  | authLockoutEnd
  /-- ATTEST (R540). -/
  | attest (nonce : Hash)
  /-- ATTEST_SIGNED (R540). -/
  | attestSigned
  /-- REG_READ (R537). -/
  | regRead (addr count : Nat)
  /-- REG_WRITE (R537). -/
  | regWrite (addr : Nat) (words : List Word)
  /-- LOG_READ (R537). -/
  | logRead (off len : Nat)
  /-- CAK_SET (R542). -/
  | cakSet (keys : List Byte)
  /-- PROVISION (R539). -/
  | provision (powerLost : Bool)
  /-- UNLOCK (R543). -/
  | unlock (token : List Byte) (sig : List Byte)
  /-- LOADER_WRITE (R36). -/
  | loaderWrite (off : Nat) (data : List Byte)
  /-- SCRAP (R535). -/
  | scrap
  /-- OTP_REREAD (R534). -/
  | otpReread (field : Nat) (agrees : Bool)
  /-- SECURITY_KAT (R541). -/
  | securityKat (which : Nat) (pass : Bool)
  /-- TRNG_SAMPLE (R541). -/
  | trngSample (pass : Bool)
  /-- BLADE_CONTACT (R559). -/
  | bladeContact
  /-- INRUSH_START (R559). -/
  | inrushStart
  /-- REMOVAL_REQUEST (R560). -/
  | removalRequest
  /-- INPUT_OUT_OF_RANGE (R548). -/
  | inputOutOfRange (cosyPath : Bool) (mv : Nat)
  /-- LOW_INPUT_TICK (R548). -/
  | lowInputTick (mv : Nat)
  /-- POWER_WINDOW (R549). -/
  | powerWindow (watts : Nat)
  /-- PHASE_FAIL (R550). -/
  | phaseFail (die group : Nat)
  /-- DOMAIN_SWITCH (R551). -/
  | domainSwitch (die domain : Nat) (on : Bool)
  /-- CLOCK_COMPARE (R555). -/
  | clockCompare (root0 root1 refs : Bool) (lossMain : Bool)
  /-- HOLDOVER_END (R555). -/
  | holdoverEnd
  /-- MONITOR_TRIP (R556). -/
  | monitorTrip (die : Nat) (m : MonitorKind) (sensor : Nat) (reading : Int)
  /-- MONITOR_TEST (R556). -/
  | monitorTest (die : Nat) (m : MonitorKind) (pass : Bool)
  /-- THERMAL_CUT (R557). -/
  | thermalCut (die : Nat)
  /-- MOD_RESET_N (R562). -/
  | modResetN (level : Bool)
  /-- PRESENT_N_MAKE (R563). -/
  | presentNMake
  /-- FREEZE_PIN (R570). -/
  | freezePin
  /-- FRZ_CTL_FREEZE (R570). -/
  | frzCtlFreeze (who : Init)
  /-- FREEZE (R570). -/
  | freeze
  /-- CLOCK_STOP (R572). -/
  | clockStop
  /-- READ_STATE (R574). -/
  | readState
  /-- READ_DRAM (R575). -/
  | readDram (die first last : Nat)
  /-- RESUME (R576). -/
  | resume
  /-- FREEZE_STATUS (R574). -/
  | freezeStatus
  /-- REGISTER_READ (R14). -/
  | registerRead (who : Init) (addr width : Nat)
  /-- CENSUS_TIMEOUT (R363). -/
  | censusTimeout
  /-- COSY_FRAME (R458). -/
  | cosyFrame (streams : List CosyOut) (wall : Nat)
  /-- APHY_LINK_LOST (R128). -/
  | aphyLinkLost (link : Nat) (backOnly : Bool)
  /-- TAP_ACCESS (R543). -/
  | tapAccess (instr : TapInstr)
  /-- ROOT_PLL_LOCK (R44). -/
  | rootPllLock
  /-- LOADER_RUNNING (R44). -/
  | loaderRunning
  deriving DecidableEq, Repr

end Sys2Proof
end

