-- ==== Sys2Proof/Decode.lean ====
section
/-! DEFINITION. The decoder of the table's words.  The table of operations and events gives no row any bits: the commands
are events of the module, not words, so no word spells one. -/

namespace Sys2Proof

/-- The command that a word of the table spells: none, since no row of the table has bits. -/
def decodeTableWord (_nbits _w : Nat) : Option Instr := none

end Sys2Proof
end

