-- ==== Sys2Proof/Machine/RegMap.lean ====
section
/-! DEFINITION. The register map (R13, R14, R29, R30, Table ORG-7 and the register table of every block): where each
register and field stands, its access, its view and its value after a cold start.  A register's place is its offset in
its die's 16 MiB window, block slot included.  A field whose reset column gives no number (from OTP, from the image,
per die) has reset 0 here; what is loaded into it, and when, the start commands say (log entry 12). -/

namespace Sys2Proof.Machine

/-- The access kinds of R14. -/
inductive Access where
  | rw | ro | wo | w1c | w1s | rc
  deriving DecidableEq, Repr

/-- Which dies hold a register. -/
inductive Space where
  | cdie | hub | both
  deriving DecidableEq, Repr

/-- One field of a register: its bits, access, view (privileged only or both), reset value, and whether reads go through
the block's shadow copy. -/
structure FieldSpec where
  lsb : Nat
  width : Nat
  access : Access
  priv : Bool
  reset : Nat
  shadow : Bool
  deriving DecidableEq, Repr

/-- One register of the map: `base` is slot × 0x1_0000 + offset, repeated for `cnt` instances at `stride`, and for `rep`
consecutive words; `sel` is the place of the register that selects what it reports. -/
structure RegSpec where
  base : Nat
  cnt : Nat
  stride : Nat
  rep : Nat
  space : Space
  sel : Option Nat
  fields : List FieldSpec
  deriving DecidableEq, Repr

/-- A field as the meanings name it: its register's place, instance stride, bits, and the register's reset value. -/
structure Fld where
  base : Nat
  stride : Nat
  lsb : Nat
  width : Nat
  rst : Nat
  deriving DecidableEq, Repr

/-! ### The ID block -/

/-- ID_DIE.die (R34). -/
def Fld.idDie_die : Fld := ⟨0x0, 0x0, 0, 3, 0x0⟩
/-- ID_DIE.kind (R34). -/
def Fld.idDie_kind : Fld := ⟨0x0, 0x0, 4, 2, 0x0⟩
/-- ID_DIE.stepping (R34). -/
def Fld.idDie_stepping : Fld := ⟨0x0, 0x0, 8, 8, 0x0⟩
/-- ID_DIE.design (R34). -/
def Fld.idDie_design : Fld := ⟨0x0, 0x0, 16, 16, 0x0⟩
/-- ID_MODULE.part (R34). -/
def Fld.idModule_part : Fld := ⟨0x4, 0x0, 0, 4, 0x0⟩
/-- ID_MODULE.cdies (R34). -/
def Fld.idModule_cdies : Fld := ⟨0x4, 0x0, 4, 4, 0x0⟩
/-- ID_MODULE.board (R34). -/
def Fld.idModule_board : Fld := ⟨0x4, 0x0, 8, 8, 0x0⟩
/-- ID_MODULE.slot_id (R34). -/
def Fld.idModule_slot_id : Fld := ⟨0x4, 0x0, 16, 4, 0x0⟩
/-- ID_UNITS.ncores (R34). -/
def Fld.idUnits_ncores : Fld := ⟨0x8, 0x0, 0, 8, 0x0⟩
/-- ID_UNITS.clusters (R34). -/
def Fld.idUnits_clusters : Fld := ⟨0x8, 0x0, 8, 4, 0x0⟩
/-- ID_UNITS.memctl (R34). -/
def Fld.idUnits_memctl : Fld := ⟨0x8, 0x0, 12, 4, 0x0⟩
/-- ID_UNITS.dma (R34). -/
def Fld.idUnits_dma : Fld := ⟨0x8, 0x0, 16, 4, 0x0⟩
/-- ID_UNITS.isp (R34). -/
def Fld.idUnits_isp : Fld := ⟨0x8, 0x0, 20, 4, 0x0⟩
/-- ID_UNITS.rly (R34). -/
def Fld.idUnits_rly : Fld := ⟨0x8, 0x0, 24, 4, 0x0⟩
/-- ID_SERIAL.serial (R34). -/
def Fld.idSerial_serial : Fld := ⟨0x10, 0x4, 0, 32, 0x0⟩

/-- The registers of the ID block. -/
def regsId : List RegSpec := [
  ⟨0x0, 1, 0x0, 1, .both, none, [⟨0, 3, .ro, false, 0x0, false⟩, ⟨4, 2, .ro, false, 0x0, false⟩, ⟨8, 8, .ro, false, 0x0, false⟩, ⟨16, 16, .ro, false, 0x0, false⟩]⟩ /- ID_DIE -/,
  ⟨0x4, 1, 0x0, 1, .both, none, [⟨0, 4, .ro, false, 0x0, false⟩, ⟨4, 4, .ro, false, 0x0, false⟩, ⟨8, 8, .ro, false, 0x0, false⟩, ⟨16, 4, .ro, false, 0x0, false⟩]⟩ /- ID_MODULE -/,
  ⟨0x8, 1, 0x0, 1, .both, none, [⟨0, 8, .ro, false, 0x0, false⟩, ⟨8, 4, .ro, false, 0x0, false⟩, ⟨12, 4, .ro, false, 0x0, false⟩, ⟨16, 4, .ro, false, 0x0, false⟩, ⟨20, 4, .ro, false, 0x0, false⟩, ⟨24, 4, .ro, false, 0x0, false⟩]⟩ /- ID_UNITS -/,
  ⟨0x10, 1, 0x0, 4, .both, none, [⟨0, 32, .ro, false, 0x0, false⟩]⟩ /- ID_SERIAL -/]

/-! ### The BOOT block -/

/-- BOOT_STATUS.phase (R63). -/
def Fld.bootStatus_phase : Fld := ⟨0x310000, 0x0, 0, 4, 0x0⟩
/-- BOOT_STATUS.slot (R63). -/
def Fld.bootStatus_slot : Fld := ⟨0x310000, 0x0, 4, 1, 0x0⟩
/-- BOOT_STATUS.trial (R63). -/
def Fld.bootStatus_trial : Fld := ⟨0x310000, 0x0, 5, 1, 0x0⟩
/-- BOOT_STATUS.fail_a (R63). -/
def Fld.bootStatus_fail_a : Fld := ⟨0x310000, 0x0, 8, 4, 0x0⟩
/-- BOOT_STATUS.fail_b (R63). -/
def Fld.bootStatus_fail_b : Fld := ⟨0x310000, 0x0, 12, 4, 0x0⟩
/-- BOOT_STATUS.sections (R63). -/
def Fld.bootStatus_sections : Fld := ⟨0x310000, 0x0, 16, 4, 0x0⟩
/-- BOOT_SLOT.active (R63). -/
def Fld.bootSlot_active : Fld := ⟨0x310004, 0x0, 0, 1, 0x0⟩
/-- BOOT_SLOT.pending (R63). -/
def Fld.bootSlot_pending : Fld := ⟨0x310004, 0x0, 1, 1, 0x0⟩
/-- BOOT_SLOT.pending_slot (R63). -/
def Fld.bootSlot_pending_slot : Fld := ⟨0x310004, 0x0, 2, 1, 0x0⟩
/-- BOOT_SLOT.commit_busy (R63). -/
def Fld.bootSlot_commit_busy : Fld := ⟨0x310004, 0x0, 3, 1, 0x0⟩
/-- BOOT_SLOT.commit_fail (R63). -/
def Fld.bootSlot_commit_fail : Fld := ⟨0x310004, 0x0, 4, 4, 0x0⟩
/-- BOOT_SLOT.record_seq (R63). -/
def Fld.bootSlot_record_seq : Fld := ⟨0x310004, 0x0, 16, 16, 0x0⟩
/-- BOOT_IMAGE.rollback_index (R63). -/
def Fld.bootImage_rollback_index : Fld := ⟨0x310008, 0x0, 0, 7, 0x0⟩
/-- BOOT_IMAGE.otp_counter (R63). -/
def Fld.bootImage_otp_counter : Fld := ⟨0x310008, 0x0, 8, 7, 0x0⟩
/-- BOOT_IMAGE.burn_pending (R63). -/
def Fld.bootImage_burn_pending : Fld := ⟨0x310008, 0x0, 15, 1, 0x0⟩
/-- BOOT_IMAGE.reload_size (R63). -/
def Fld.bootImage_reload_size : Fld := ⟨0x310008, 0x0, 16, 8, 0x0⟩
/-- BOOT_RESTART.last_class (R63). -/
def Fld.bootRestart_last_class : Fld := ⟨0x310018, 0x0, 0, 2, 0x0⟩
/-- BOOT_RESTART.last_die (R63). -/
def Fld.bootRestart_last_die : Fld := ⟨0x310018, 0x0, 4, 3, 0x0⟩
/-- BOOT_RESTART.requested (R63). -/
def Fld.bootRestart_requested : Fld := ⟨0x310018, 0x0, 7, 1, 0x0⟩
/-- BOOT_RESTART.die_restarts (R63). -/
def Fld.bootRestart_die_restarts : Fld := ⟨0x310018, 0x0, 8, 8, 0x0⟩
/-- BOOT_RESTART.warm_restarts (R63). -/
def Fld.bootRestart_warm_restarts : Fld := ⟨0x310018, 0x0, 16, 8, 0x0⟩
/-- BOOT_REQ.warm (R63). -/
def Fld.bootReq_warm : Fld := ⟨0x31001c, 0x0, 0, 1, 0x0⟩
/-- BOOT_REQ.cold (R63). -/
def Fld.bootReq_cold : Fld := ⟨0x31001c, 0x0, 1, 1, 0x0⟩
/-- BOOT_VERSION.image_version (R63). -/
def Fld.bootVersion_image_version : Fld := ⟨0x31000c, 0x0, 0, 32, 0x0⟩
/-- BOOT_FIRST_FRAME_LO.dt (R63). -/
def Fld.bootFirstFrameLo_dt : Fld := ⟨0x310010, 0x0, 0, 32, 0x0⟩
/-- BOOT_FIRST_FRAME_HI.dt (R63). -/
def Fld.bootFirstFrameHi_dt : Fld := ⟨0x310014, 0x0, 0, 32, 0x0⟩

/-- The registers of the BOOT block. -/
def regsBoot : List RegSpec := [
  ⟨0x310000, 1, 0x0, 1, .hub, none, [⟨0, 4, .ro, false, 0x0, false⟩, ⟨4, 1, .ro, false, 0x0, false⟩, ⟨5, 1, .ro, false, 0x0, false⟩, ⟨8, 4, .ro, false, 0x0, false⟩, ⟨12, 4, .ro, false, 0x0, false⟩, ⟨16, 4, .ro, false, 0x0, false⟩]⟩ /- BOOT_STATUS -/,
  ⟨0x310004, 1, 0x0, 1, .hub, none, [⟨0, 1, .ro, false, 0x0, false⟩, ⟨1, 1, .ro, false, 0x0, false⟩, ⟨2, 1, .ro, false, 0x0, false⟩, ⟨3, 1, .ro, true, 0x0, false⟩, ⟨4, 4, .ro, true, 0x0, false⟩, ⟨16, 16, .ro, false, 0x0, false⟩]⟩ /- BOOT_SLOT -/,
  ⟨0x310008, 1, 0x0, 1, .hub, none, [⟨0, 7, .ro, false, 0x0, false⟩, ⟨8, 7, .ro, false, 0x0, false⟩, ⟨15, 1, .ro, false, 0x0, false⟩, ⟨16, 8, .ro, false, 0x0, false⟩]⟩ /- BOOT_IMAGE -/,
  ⟨0x310018, 1, 0x0, 1, .hub, none, [⟨0, 2, .ro, false, 0x0, false⟩, ⟨4, 3, .ro, false, 0x0, false⟩, ⟨7, 1, .ro, false, 0x0, false⟩, ⟨8, 8, .ro, false, 0x0, false⟩, ⟨16, 8, .ro, false, 0x0, false⟩]⟩ /- BOOT_RESTART -/,
  ⟨0x31001c, 1, 0x0, 1, .hub, none, [⟨0, 1, .w1s, true, 0x0, false⟩, ⟨1, 1, .w1s, true, 0x0, false⟩]⟩ /- BOOT_REQ -/,
  ⟨0x31000c, 1, 0x0, 1, .hub, none, [⟨0, 32, .ro, false, 0x0, false⟩]⟩ /- BOOT_VERSION -/,
  ⟨0x310010, 1, 0x0, 1, .hub, none, [⟨0, 32, .ro, false, 0x0, false⟩]⟩ /- BOOT_FIRST_FRAME_LO -/,
  ⟨0x310014, 1, 0x0, 1, .hub, none, [⟨0, 32, .ro, false, 0x0, false⟩]⟩ /- BOOT_FIRST_FRAME_HI -/]

/-! ### The SEQHub block -/

/-- SEQ_FR_STATUS.running (R98). -/
def Fld.seqFrStatus_running : Fld := ⟨0x30000, 0x0, 0, 1, 0x0⟩
/-- SEQ_FR_STATUS.synced (R98). -/
def Fld.seqFrStatus_synced : Fld := ⟨0x30000, 0x0, 1, 1, 0x0⟩
/-- SEQ_FR_STATUS.holdover (R98). -/
def Fld.seqFrStatus_holdover : Fld := ⟨0x30000, 0x0, 2, 1, 0x0⟩
/-- SEQ_FR_STATUS.stretched (R98). -/
def Fld.seqFrStatus_stretched : Fld := ⟨0x30000, 0x0, 3, 1, 0x0⟩
/-- SEQ_FR_STATUS.epoch (R98). -/
def Fld.seqFrStatus_epoch : Fld := ⟨0x30000, 0x0, 16, 16, 0x0⟩
/-- SEQ_FR_VARIANT.var0 (R98). -/
def Fld.seqFrVariant_var0 : Fld := ⟨0x30028, 0x0, 0, 7, 0x0⟩
/-- SEQ_FR_VARIANT.unc0 (R98). -/
def Fld.seqFrVariant_unc0 : Fld := ⟨0x30028, 0x0, 7, 1, 0x0⟩
/-- SEQ_FR_VARIANT.var1 (R98). -/
def Fld.seqFrVariant_var1 : Fld := ⟨0x30028, 0x0, 8, 7, 0x0⟩
/-- SEQ_FR_VARIANT.unc1 (R98). -/
def Fld.seqFrVariant_unc1 : Fld := ⟨0x30028, 0x0, 15, 1, 0x0⟩
/-- SEQ_FR_VARIANT.var2 (R98). -/
def Fld.seqFrVariant_var2 : Fld := ⟨0x30028, 0x0, 16, 7, 0x0⟩
/-- SEQ_FR_VARIANT.unc2 (R98). -/
def Fld.seqFrVariant_unc2 : Fld := ⟨0x30028, 0x0, 23, 1, 0x0⟩
/-- SEQ_FR_VARIANT.var3 (R98). -/
def Fld.seqFrVariant_var3 : Fld := ⟨0x30028, 0x0, 24, 7, 0x0⟩
/-- SEQ_FR_VARIANT.unc3 (R98). -/
def Fld.seqFrVariant_unc3 : Fld := ⟨0x30028, 0x0, 31, 1, 0x0⟩
/-- SEQ_FR_FRAME.value (R98). -/
def Fld.seqFrFrame_value : Fld := ⟨0x30004, 0x0, 0, 32, 0x0⟩
/-- SEQ_FR_START_DT_LO.value (R98). -/
def Fld.seqFrStartDtLo_value : Fld := ⟨0x30008, 0x0, 0, 32, 0x0⟩
/-- SEQ_FR_START_DT_HI.value (R98). -/
def Fld.seqFrStartDtHi_value : Fld := ⟨0x3000c, 0x0, 0, 32, 0x0⟩
/-- SEQ_FR_START_WT_LO.value (R98). -/
def Fld.seqFrStartWtLo_value : Fld := ⟨0x30010, 0x0, 0, 32, 0x0⟩
/-- SEQ_FR_START_WT_HI.value (R98). -/
def Fld.seqFrStartWtHi_value : Fld := ⟨0x30014, 0x0, 0, 32, 0x0⟩
/-- SEQ_FR_PHASE_ERR.value (R98). -/
def Fld.seqFrPhaseErr_value : Fld := ⟨0x30018, 0x0, 0, 32, 0x0⟩
/-- SEQ_FR_REALIGN.value (R98). -/
def Fld.seqFrRealign_value : Fld := ⟨0x3001c, 0x0, 0, 32, 0x0⟩
/-- SEQ_FR_LOST_LO.value (R98). -/
def Fld.seqFrLostLo_value : Fld := ⟨0x30020, 0x0, 0, 32, 0x0⟩
/-- SEQ_FR_LOST_HI.value (R98). -/
def Fld.seqFrLostHi_value : Fld := ⟨0x30024, 0x0, 0, 32, 0x0⟩
/-- SEQ_FRAME_OLDEST.value (R99). -/
def Fld.seqFrameOldest_value : Fld := ⟨0x30004, 0x0, 0, 32, 0x0⟩
/-- SEQ_FRAME_NEWEST.value (R99). -/
def Fld.seqFrameNewest_value : Fld := ⟨0x30008, 0x0, 0, 32, 0x0⟩

/-- The registers of the SEQHub block. -/
def regsSeqHub : List RegSpec := [
  ⟨0x30000, 1, 0x0, 1, .hub, none, [⟨0, 1, .ro, false, 0x0, false⟩, ⟨1, 1, .ro, false, 0x0, false⟩, ⟨2, 1, .ro, false, 0x0, false⟩, ⟨3, 1, .ro, false, 0x0, false⟩, ⟨16, 16, .ro, false, 0x0, false⟩]⟩ /- SEQ_FR_STATUS -/,
  ⟨0x30028, 1, 0x0, 1, .hub, none, [⟨0, 7, .ro, false, 0x0, false⟩, ⟨7, 1, .ro, false, 0x0, false⟩, ⟨8, 7, .ro, false, 0x0, false⟩, ⟨15, 1, .ro, false, 0x0, false⟩, ⟨16, 7, .ro, false, 0x0, false⟩, ⟨23, 1, .ro, false, 0x0, false⟩, ⟨24, 7, .ro, false, 0x0, false⟩, ⟨31, 1, .ro, false, 0x0, false⟩]⟩ /- SEQ_FR_VARIANT -/,
  ⟨0x30004, 1, 0x0, 1, .hub, none, [⟨0, 32, .ro, false, 0x0, false⟩]⟩ /- SEQ_FR_FRAME -/,
  ⟨0x30008, 1, 0x0, 1, .hub, none, [⟨0, 32, .ro, false, 0x0, false⟩]⟩ /- SEQ_FR_START_DT_LO -/,
  ⟨0x3000c, 1, 0x0, 1, .hub, none, [⟨0, 32, .ro, false, 0x0, false⟩]⟩ /- SEQ_FR_START_DT_HI -/,
  ⟨0x30010, 1, 0x0, 1, .hub, none, [⟨0, 32, .ro, false, 0x0, false⟩]⟩ /- SEQ_FR_START_WT_LO -/,
  ⟨0x30014, 1, 0x0, 1, .hub, none, [⟨0, 32, .ro, false, 0x0, false⟩]⟩ /- SEQ_FR_START_WT_HI -/,
  ⟨0x30018, 1, 0x0, 1, .hub, none, [⟨0, 32, .ro, false, 0x0, false⟩]⟩ /- SEQ_FR_PHASE_ERR -/,
  ⟨0x3001c, 1, 0x0, 1, .hub, none, [⟨0, 32, .ro, false, 0x0, false⟩]⟩ /- SEQ_FR_REALIGN -/,
  ⟨0x30020, 1, 0x0, 1, .hub, none, [⟨0, 32, .ro, false, 0x0, false⟩]⟩ /- SEQ_FR_LOST_LO -/,
  ⟨0x30024, 1, 0x0, 1, .hub, none, [⟨0, 32, .ro, false, 0x0, false⟩]⟩ /- SEQ_FR_LOST_HI -/,
  ⟨0x30004, 1, 0x0, 1, .cdie, none, [⟨0, 32, .ro, false, 0x0, false⟩]⟩ /- SEQ_FRAME_OLDEST -/,
  ⟨0x30008, 1, 0x0, 1, .cdie, none, [⟨0, 32, .ro, false, 0x0, false⟩]⟩ /- SEQ_FRAME_NEWEST -/]

/-! ### The SEQ block -/

/-- SEQ_STATUS.variant (R99). -/
def Fld.seqStatus_variant : Fld := ⟨0x30000, 0x0, 0, 7, 0x0⟩
/-- SEQ_STATUS.fence (R99). -/
def Fld.seqStatus_fence : Fld := ⟨0x30000, 0x0, 7, 1, 0x0⟩
/-- SEQ_STATUS.in_flight (R99). -/
def Fld.seqStatus_in_flight : Fld := ⟨0x30000, 0x0, 8, 3, 0x0⟩
/-- SEQ_STATUS.held_start (R99). -/
def Fld.seqStatus_held_start : Fld := ⟨0x30000, 0x0, 11, 1, 0x0⟩
/-- SEQ_WD_FIRST.node (R99). -/
def Fld.seqWdFirst_node : Fld := ⟨0x3000c, 0x0, 0, 12, 0x0⟩
/-- SEQ_WD_FIRST.late (R99). -/
def Fld.seqWdFirst_late : Fld := ⟨0x3000c, 0x0, 12, 1, 0x0⟩
/-- SEQ_WD_FIRST.early (R99). -/
def Fld.seqWdFirst_early : Fld := ⟨0x3000c, 0x0, 13, 1, 0x0⟩
/-- SEQ_WD_FIRST.valid (R99). -/
def Fld.seqWdFirst_valid : Fld := ⟨0x3000c, 0x0, 31, 1, 0x0⟩
/-- SEQ_WD_COUNT.early (R99). -/
def Fld.seqWdCount_early : Fld := ⟨0x30014, 0x0, 0, 16, 0x0⟩
/-- SEQ_WD_COUNT.late (R99). -/
def Fld.seqWdCount_late : Fld := ⟨0x30014, 0x0, 16, 16, 0x0⟩
/-- SEQ_SKIP_COUNT.skipped (R99). -/
def Fld.seqSkipCount_skipped : Fld := ⟨0x30018, 0x0, 0, 16, 0x0⟩
/-- SEQ_SKIP_COUNT.held (R99). -/
def Fld.seqSkipCount_held : Fld := ⟨0x30018, 0x0, 16, 16, 0x0⟩
/-- SEQ_NODE_SEL.node (R99). -/
def Fld.seqNodeSel_node : Fld := ⟨0x30020, 0x0, 0, 12, 0x0⟩
/-- SEQ_NODE_SEL.slot (R99). -/
def Fld.seqNodeSel_slot : Fld := ⟨0x30020, 0x0, 12, 2, 0x0⟩
/-- SEQ_NODE_STATE.count (R99). -/
def Fld.seqNodeState_count : Fld := ⟨0x30024, 0x0, 0, 8, 0x0⟩
/-- SEQ_NODE_STATE.status (R99). -/
def Fld.seqNodeState_status : Fld := ⟨0x30024, 0x0, 8, 4, 0x0⟩
/-- SEQ_NODE_STATE.exists (R99). -/
def Fld.seqNodeState_exists : Fld := ⟨0x30024, 0x0, 12, 1, 0x0⟩
/-- SEQ_NODE_STATE.released (R99). -/
def Fld.seqNodeState_released : Fld := ⟨0x30024, 0x0, 13, 1, 0x0⟩
/-- SEQ_NODE_STATE.complete (R99). -/
def Fld.seqNodeState_complete : Fld := ⟨0x30024, 0x0, 14, 1, 0x0⟩
/-- SEQ_NODE_STATE.pending (R99). -/
def Fld.seqNodeState_pending : Fld := ⟨0x30024, 0x0, 16, 13, 0x0⟩
/-- SEQ_HELD_STARTS.value (R99). -/
def Fld.seqHeldStarts_value : Fld := ⟨0x3001c, 0x0, 0, 32, 0x0⟩
/-- SEQ_NODE_FRAME.value (R99). -/
def Fld.seqNodeFrame_value : Fld := ⟨0x30028, 0x0, 0, 32, 0x0⟩
/-- SEQ_WD_FRAME.value (R99). -/
def Fld.seqWdFrame_value : Fld := ⟨0x30010, 0x0, 0, 32, 0x0⟩

/-- The registers of the SEQ block. -/
def regsSeq : List RegSpec := [
  ⟨0x30000, 1, 0x0, 1, .cdie, none, [⟨0, 7, .ro, false, 0x0, false⟩, ⟨7, 1, .ro, false, 0x0, false⟩, ⟨8, 3, .ro, false, 0x0, false⟩, ⟨11, 1, .ro, false, 0x0, false⟩]⟩ /- SEQ_STATUS -/,
  ⟨0x3000c, 1, 0x0, 1, .cdie, none, [⟨0, 12, .ro, true, 0x0, false⟩, ⟨12, 1, .ro, true, 0x0, false⟩, ⟨13, 1, .ro, true, 0x0, false⟩, ⟨31, 1, .w1c, true, 0x0, false⟩]⟩ /- SEQ_WD_FIRST -/,
  ⟨0x30014, 1, 0x0, 1, .cdie, none, [⟨0, 16, .rc, true, 0x0, false⟩, ⟨16, 16, .rc, true, 0x0, false⟩]⟩ /- SEQ_WD_COUNT -/,
  ⟨0x30018, 1, 0x0, 1, .cdie, none, [⟨0, 16, .rc, false, 0x0, false⟩, ⟨16, 16, .rc, false, 0x0, false⟩]⟩ /- SEQ_SKIP_COUNT -/,
  ⟨0x30020, 1, 0x0, 1, .cdie, none, [⟨0, 12, .rw, false, 0x0, false⟩, ⟨12, 2, .rw, false, 0x0, false⟩]⟩ /- SEQ_NODE_SEL -/,
  ⟨0x30024, 1, 0x0, 1, .cdie, (some 0x30020), [⟨0, 8, .ro, false, 0x0, true⟩, ⟨8, 4, .ro, false, 0x0, true⟩, ⟨12, 1, .ro, false, 0x0, true⟩, ⟨13, 1, .ro, false, 0x0, true⟩, ⟨14, 1, .ro, false, 0x0, true⟩, ⟨16, 13, .ro, false, 0x0, true⟩]⟩ /- SEQ_NODE_STATE -/,
  ⟨0x3001c, 1, 0x0, 1, .cdie, none, [⟨0, 32, .ro, false, 0x0, false⟩]⟩ /- SEQ_HELD_STARTS -/,
  ⟨0x30028, 1, 0x0, 1, .cdie, (some 0x30020), [⟨0, 32, .ro, false, 0x0, true⟩]⟩ /- SEQ_NODE_FRAME -/,
  ⟨0x30010, 1, 0x0, 1, .cdie, none, [⟨0, 32, .ro, true, 0x0, false⟩]⟩ /- SEQ_WD_FRAME -/]

/-! ### The DSP block -/

/-- DSP_STATUS.slots_used (R127). -/
def Fld.dspStatus_slots_used : Fld := ⟨0x40000, 0x0, 0, 12, 0x0⟩
/-- DSP_STATUS.slots_peak (R127). -/
def Fld.dspStatus_slots_peak : Fld := ⟨0x40000, 0x0, 12, 12, 0x0⟩
/-- DSP_STATUS.held (R127). -/
def Fld.dspStatus_held : Fld := ⟨0x40000, 0x0, 24, 1, 0x0⟩
/-- DSP_STATUS.store_full (R127). -/
def Fld.dspStatus_store_full : Fld := ⟨0x40000, 0x0, 25, 1, 0x0⟩
/-- DSP_SLOT_HELD.count (R127). -/
def Fld.dspSlotHeld_count : Fld := ⟨0x40004, 0x0, 0, 32, 0x0⟩
/-- DSP_PLAN.dma_count (R127). -/
def Fld.dspPlan_dma_count : Fld := ⟨0x40008, 0x0, 0, 10, 0x0⟩
/-- DSP_PLAN.sw_slot_limit (R127). -/
def Fld.dspPlan_sw_slot_limit : Fld := ⟨0x40008, 0x0, 10, 12, 0x0⟩
/-- DSP_PUSH_DATA.word (R127). -/
def Fld.dspPushData_word : Fld := ⟨0x40010, 0x4, 0, 32, 0x0⟩
/-- DSP_PUSH_CTL.queue (R127). -/
def Fld.dspPushCtl_queue : Fld := ⟨0x40030, 0x0, 0, 14, 0x0⟩
/-- DSP_PUSH_RESULT.result (R127). -/
def Fld.dspPushResult_result : Fld := ⟨0x40034, 0x0, 0, 2, 0x0⟩
/-- DSP_PUSH_RESULT.cause (R127). -/
def Fld.dspPushResult_cause : Fld := ⟨0x40034, 0x0, 2, 1, 0x0⟩
/-- DSP_PUSH_RESULT.slot (R127). -/
def Fld.dspPushResult_slot : Fld := ⟨0x40034, 0x0, 16, 11, 0x0⟩
/-- DSP_CANCEL_CTL.target (R127). -/
def Fld.dspCancelCtl_target : Fld := ⟨0x40040, 0x0, 0, 12, 0x0⟩
/-- DSP_CANCEL_CTL.mode (R127). -/
def Fld.dspCancelCtl_mode : Fld := ⟨0x40040, 0x0, 12, 1, 0x0⟩
/-- DSP_CANCEL_FRAME.frame (R127). -/
def Fld.dspCancelFrame_frame : Fld := ⟨0x40044, 0x0, 0, 32, 0x0⟩
/-- DSP_CANCEL_RESULT.count (R127). -/
def Fld.dspCancelResult_count : Fld := ⟨0x40048, 0x0, 0, 13, 0x0⟩
/-- DSP_Q_SEL.queue (R127). -/
def Fld.dspQSel_queue : Fld := ⟨0x40050, 0x0, 0, 14, 0x0⟩
/-- DSP_Q_DEPTH.depth (R127). -/
def Fld.dspQDepth_depth : Fld := ⟨0x40054, 0x0, 0, 17, 0x0⟩
/-- DSP_Q_PEAK.peak (R127). -/
def Fld.dspQPeak_peak : Fld := ⟨0x40068, 0x0, 0, 17, 0x0⟩
/-- DSP_Q_REFUSED.count (R127). -/
def Fld.dspQRefused_count : Fld := ⟨0x40058, 0x0, 0, 32, 0x0⟩
/-- DSP_Q_WAIT.max (R127). -/
def Fld.dspQWait_max : Fld := ⟨0x4005c, 0x0, 0, 16, 0x0⟩
/-- DSP_Q_WAIT.mean (R127). -/
def Fld.dspQWait_mean : Fld := ⟨0x4005c, 0x0, 16, 16, 0x0⟩
/-- DSP_Q_HEAD.consumer (R127). -/
def Fld.dspQHead_consumer : Fld := ⟨0x40060, 0x0, 0, 17, 0x0⟩
/-- DSP_Q_TAIL.producer (R127). -/
def Fld.dspQTail_producer : Fld := ⟨0x40064, 0x0, 0, 17, 0x0⟩
/-- DSP_UNIT_SEL.unit (R127). -/
def Fld.dspUnitSel_unit : Fld := ⟨0x40070, 0x0, 0, 7, 0x0⟩
/-- DSP_UNIT_LOAD.busy (R127). -/
def Fld.dspUnitLoad_busy : Fld := ⟨0x40074, 0x0, 0, 16, 0x0⟩
/-- DSP_UNIT_LOAD.tasks (R127). -/
def Fld.dspUnitLoad_tasks : Fld := ⟨0x40074, 0x0, 16, 16, 0x0⟩
/-- DSP_UNIT_WAIT.max (R127). -/
def Fld.dspUnitWait_max : Fld := ⟨0x40078, 0x0, 0, 16, 0x0⟩
/-- DSP_UNIT_WAIT.idle (R127). -/
def Fld.dspUnitWait_idle : Fld := ⟨0x40078, 0x0, 16, 16, 0x0⟩

/-- The registers of the DSP block. -/
def regsDsp : List RegSpec := [
  ⟨0x40000, 1, 0x0, 1, .cdie, none, [⟨0, 12, .ro, false, 0x0, true⟩, ⟨12, 12, .ro, false, 0x0, true⟩, ⟨24, 1, .ro, false, 0x0, true⟩, ⟨25, 1, .ro, false, 0x0, true⟩]⟩ /- DSP_STATUS -/,
  ⟨0x40004, 1, 0x0, 1, .cdie, none, [⟨0, 32, .rc, false, 0x0, false⟩]⟩ /- DSP_SLOT_HELD -/,
  ⟨0x40008, 1, 0x0, 1, .cdie, none, [⟨0, 10, .ro, false, 0x0, true⟩, ⟨10, 12, .ro, false, 0x0, true⟩]⟩ /- DSP_PLAN -/,
  ⟨0x40010, 1, 0x0, 8, .cdie, none, [⟨0, 32, .wo, true, 0x0, false⟩]⟩ /- DSP_PUSH_DATA -/,
  ⟨0x40030, 1, 0x0, 1, .cdie, none, [⟨0, 14, .wo, true, 0x0, false⟩]⟩ /- DSP_PUSH_CTL -/,
  ⟨0x40034, 1, 0x0, 1, .cdie, none, [⟨0, 2, .ro, true, 0x0, false⟩, ⟨2, 1, .ro, true, 0x0, false⟩, ⟨16, 11, .ro, true, 0x0, false⟩]⟩ /- DSP_PUSH_RESULT -/,
  ⟨0x40040, 1, 0x0, 1, .cdie, none, [⟨0, 12, .wo, true, 0x0, false⟩, ⟨12, 1, .wo, true, 0x0, false⟩]⟩ /- DSP_CANCEL_CTL -/,
  ⟨0x40044, 1, 0x0, 1, .cdie, none, [⟨0, 32, .rw, true, 0x0, false⟩]⟩ /- DSP_CANCEL_FRAME -/,
  ⟨0x40048, 1, 0x0, 1, .cdie, none, [⟨0, 13, .ro, true, 0x0, false⟩]⟩ /- DSP_CANCEL_RESULT -/,
  ⟨0x40050, 1, 0x0, 1, .cdie, none, [⟨0, 14, .rw, false, 0x0, false⟩]⟩ /- DSP_Q_SEL -/,
  ⟨0x40054, 1, 0x0, 1, .cdie, (some 0x40050), [⟨0, 17, .ro, false, 0x0, true⟩]⟩ /- DSP_Q_DEPTH -/,
  ⟨0x40068, 1, 0x0, 1, .cdie, (some 0x40050), [⟨0, 17, .ro, false, 0x0, true⟩]⟩ /- DSP_Q_PEAK -/,
  ⟨0x40058, 1, 0x0, 1, .cdie, (some 0x40050), [⟨0, 32, .rc, false, 0x0, false⟩]⟩ /- DSP_Q_REFUSED -/,
  ⟨0x4005c, 1, 0x0, 1, .cdie, (some 0x40050), [⟨0, 16, .ro, false, 0x0, true⟩, ⟨16, 16, .ro, false, 0x0, true⟩]⟩ /- DSP_Q_WAIT -/,
  ⟨0x40060, 1, 0x0, 1, .cdie, (some 0x40050), [⟨0, 17, .rw, true, 0x0, false⟩]⟩ /- DSP_Q_HEAD -/,
  ⟨0x40064, 1, 0x0, 1, .cdie, (some 0x40050), [⟨0, 17, .ro, false, 0x0, true⟩]⟩ /- DSP_Q_TAIL -/,
  ⟨0x40070, 1, 0x0, 1, .cdie, none, [⟨0, 7, .rw, false, 0x0, false⟩]⟩ /- DSP_UNIT_SEL -/,
  ⟨0x40074, 1, 0x0, 1, .cdie, (some 0x40070), [⟨0, 16, .ro, false, 0x0, true⟩, ⟨16, 16, .ro, false, 0x0, true⟩]⟩ /- DSP_UNIT_LOAD -/,
  ⟨0x40078, 1, 0x0, 1, .cdie, (some 0x40070), [⟨0, 16, .ro, false, 0x0, true⟩, ⟨16, 16, .ro, false, 0x0, true⟩]⟩ /- DSP_UNIT_WAIT -/]

/-! ### The ING block -/

/-- ING_STATUS.link_up (R157). -/
def Fld.ingStatus_link_up : Fld := ⟨0x330000, 0x0, 0, 16, 0x0⟩
/-- ING_STATUS.scripts_done (R157). -/
def Fld.ingStatus_scripts_done : Fld := ⟨0x330000, 0x0, 16, 1, 0x0⟩
/-- ING_CTX_SEL.ctx (R157). -/
def Fld.ingCtxSel_ctx : Fld := ⟨0x330004, 0x0, 0, 6, 0x0⟩
/-- ING_CTX_STATUS.enabled (R157). -/
def Fld.ingCtxStatus_enabled : Fld := ⟨0x330008, 0x0, 0, 1, 0x0⟩
/-- ING_CTX_STATUS.lost (R157). -/
def Fld.ingCtxStatus_lost : Fld := ⟨0x330008, 0x0, 1, 1, 0x0⟩
/-- ING_CTX_STATUS.receiving (R157). -/
def Fld.ingCtxStatus_receiving : Fld := ⟨0x330008, 0x0, 2, 1, 0x0⟩
/-- ING_CTX_STATUS.position (R157). -/
def Fld.ingCtxStatus_position : Fld := ⟨0x330008, 0x0, 3, 2, 0x0⟩
/-- ING_CTX_STATUS.buffered (R157). -/
def Fld.ingCtxStatus_buffered : Fld := ⟨0x330008, 0x0, 8, 5, 0x0⟩
/-- ING_CTX_STATUS.missed (R157). -/
def Fld.ingCtxStatus_missed : Fld := ⟨0x330008, 0x0, 16, 8, 0x0⟩
/-- ING_CTX_STATUS.golden_missed (R157). -/
def Fld.ingCtxStatus_golden_missed : Fld := ⟨0x330008, 0x0, 24, 8, 0x0⟩
/-- ING_CTX_FRAMES.delivered (R157). -/
def Fld.ingCtxFrames_delivered : Fld := ⟨0x33000c, 0x0, 0, 32, 0x0⟩
/-- ING_CTX_DROPS.missing (R157). -/
def Fld.ingCtxDrops_missing : Fld := ⟨0x330010, 0x0, 0, 8, 0x0⟩
/-- ING_CTX_DROPS.short (R157). -/
def Fld.ingCtxDrops_short : Fld := ⟨0x330010, 0x0, 8, 8, 0x0⟩
/-- ING_CTX_DROPS.overflow (R157). -/
def Fld.ingCtxDrops_overflow : Fld := ⟨0x330010, 0x0, 16, 8, 0x0⟩
/-- ING_CTX_DROPS.error (R157). -/
def Fld.ingCtxDrops_error : Fld := ⟨0x330010, 0x0, 24, 8, 0x0⟩
/-- ING_CTX_LONG.long (R157). -/
def Fld.ingCtxLong_long : Fld := ⟨0x330014, 0x0, 0, 16, 0x0⟩
/-- ING_CTX_LONG.unassigned (R157). -/
def Fld.ingCtxLong_unassigned : Fld := ⟨0x330014, 0x0, 16, 16, 0x0⟩
/-- ING_CTX_GOLDEN.passed (R157). -/
def Fld.ingCtxGolden_passed : Fld := ⟨0x330018, 0x0, 0, 16, 0x0⟩
/-- ING_CTX_GOLDEN.abandoned (R157). -/
def Fld.ingCtxGolden_abandoned : Fld := ⟨0x330018, 0x0, 16, 8, 0x0⟩
/-- ING_CTX_GOLDEN.failed (R157). -/
def Fld.ingCtxGolden_failed : Fld := ⟨0x330018, 0x0, 24, 8, 0x0⟩
/-- ING_LINK_SEL.link (R157). -/
def Fld.ingLinkSel_link : Fld := ⟨0x330020, 0x0, 0, 4, 0x0⟩
/-- ING_LINK_STATUS.locked (R157). -/
def Fld.ingLinkStatus_locked : Fld := ⟨0x330024, 0x0, 0, 1, 0x0⟩
/-- ING_LINK_STATUS.bc_up (R157). -/
def Fld.ingLinkStatus_bc_up : Fld := ⟨0x330024, 0x0, 1, 1, 0x0⟩
/-- ING_LINK_STATUS.gear (R157). -/
def Fld.ingLinkStatus_gear : Fld := ⟨0x330024, 0x0, 2, 3, 0x0⟩
/-- ING_LINK_STATUS.retrains (R157). -/
def Fld.ingLinkStatus_retrains : Fld := ⟨0x330024, 0x0, 8, 8, 0x0⟩
/-- ING_LINK_LAT.latency (R157). -/
def Fld.ingLinkLat_latency : Fld := ⟨0x330028, 0x0, 0, 16, 0x0⟩
/-- ING_LINK_ERR.corrected (R157). -/
def Fld.ingLinkErr_corrected : Fld := ⟨0x33002c, 0x0, 0, 16, 0x0⟩
/-- ING_LINK_ERR.discarded (R157). -/
def Fld.ingLinkErr_discarded : Fld := ⟨0x33002c, 0x0, 16, 16, 0x0⟩
/-- ING_LOST_LO.lost (R157). -/
def Fld.ingLostLo_lost : Fld := ⟨0x330030, 0x0, 0, 32, 0x0⟩
/-- ING_LOST_HI.lost (R157). -/
def Fld.ingLostHi_lost : Fld := ⟨0x330034, 0x0, 0, 32, 0x0⟩
/-- ING_I2C_CMD.addr (R157). -/
def Fld.ingI2cCmd_addr : Fld := ⟨0x330040, 0x0, 0, 7, 0x0⟩
/-- ING_I2C_CMD.read (R157). -/
def Fld.ingI2cCmd_read : Fld := ⟨0x330040, 0x0, 7, 1, 0x0⟩
/-- ING_I2C_CMD.link (R157). -/
def Fld.ingI2cCmd_link : Fld := ⟨0x330040, 0x0, 8, 4, 0x0⟩
/-- ING_I2C_CMD.length (R157). -/
def Fld.ingI2cCmd_length : Fld := ⟨0x330040, 0x0, 12, 2, 0x0⟩
/-- ING_I2C_CMD.reg (R157). -/
def Fld.ingI2cCmd_reg : Fld := ⟨0x330040, 0x0, 16, 16, 0x0⟩
/-- ING_I2C_DATA.data (R157). -/
def Fld.ingI2cData_data : Fld := ⟨0x330044, 0x0, 0, 24, 0x0⟩
/-- ING_I2C_RESULT.result (R157). -/
def Fld.ingI2cResult_result : Fld := ⟨0x330048, 0x0, 0, 2, 0x0⟩

/-- The registers of the ING block. -/
def regsIng : List RegSpec := [
  ⟨0x330000, 1, 0x0, 1, .hub, none, [⟨0, 16, .ro, false, 0x0, false⟩, ⟨16, 1, .ro, false, 0x0, false⟩]⟩ /- ING_STATUS -/,
  ⟨0x330004, 1, 0x0, 1, .hub, none, [⟨0, 6, .rw, false, 0x0, false⟩]⟩ /- ING_CTX_SEL -/,
  ⟨0x330008, 1, 0x0, 1, .hub, (some 0x330004), [⟨0, 1, .ro, false, 0x0, false⟩, ⟨1, 1, .ro, false, 0x0, false⟩, ⟨2, 1, .ro, false, 0x0, false⟩, ⟨3, 2, .ro, false, 0x0, false⟩, ⟨8, 5, .ro, false, 0x0, false⟩, ⟨16, 8, .ro, false, 0x0, false⟩, ⟨24, 8, .ro, false, 0x0, false⟩]⟩ /- ING_CTX_STATUS -/,
  ⟨0x33000c, 1, 0x0, 1, .hub, (some 0x330004), [⟨0, 32, .rc, false, 0x0, false⟩]⟩ /- ING_CTX_FRAMES -/,
  ⟨0x330010, 1, 0x0, 1, .hub, (some 0x330004), [⟨0, 8, .rc, false, 0x0, false⟩, ⟨8, 8, .rc, false, 0x0, false⟩, ⟨16, 8, .rc, false, 0x0, false⟩, ⟨24, 8, .rc, false, 0x0, false⟩]⟩ /- ING_CTX_DROPS -/,
  ⟨0x330014, 1, 0x0, 1, .hub, (some 0x330004), [⟨0, 16, .rc, false, 0x0, false⟩, ⟨16, 16, .rc, false, 0x0, false⟩]⟩ /- ING_CTX_LONG -/,
  ⟨0x330018, 1, 0x0, 1, .hub, (some 0x330004), [⟨0, 16, .rc, false, 0x0, false⟩, ⟨16, 8, .rc, false, 0x0, false⟩, ⟨24, 8, .rc, false, 0x0, false⟩]⟩ /- ING_CTX_GOLDEN -/,
  ⟨0x330020, 1, 0x0, 1, .hub, none, [⟨0, 4, .rw, false, 0x0, false⟩]⟩ /- ING_LINK_SEL -/,
  ⟨0x330024, 1, 0x0, 1, .hub, (some 0x330020), [⟨0, 1, .ro, false, 0x0, false⟩, ⟨1, 1, .ro, false, 0x0, false⟩, ⟨2, 3, .ro, false, 0x0, false⟩, ⟨8, 8, .rc, false, 0x0, false⟩]⟩ /- ING_LINK_STATUS -/,
  ⟨0x330028, 1, 0x0, 1, .hub, (some 0x330020), [⟨0, 16, .ro, false, 0x0, false⟩]⟩ /- ING_LINK_LAT -/,
  ⟨0x33002c, 1, 0x0, 1, .hub, (some 0x330020), [⟨0, 16, .rc, false, 0x0, false⟩, ⟨16, 16, .rc, false, 0x0, false⟩]⟩ /- ING_LINK_ERR -/,
  ⟨0x330030, 1, 0x0, 1, .hub, none, [⟨0, 32, .ro, false, 0x0, false⟩]⟩ /- ING_LOST_LO -/,
  ⟨0x330034, 1, 0x0, 1, .hub, none, [⟨0, 32, .ro, false, 0x0, false⟩]⟩ /- ING_LOST_HI -/,
  ⟨0x330040, 1, 0x0, 1, .hub, none, [⟨0, 7, .wo, true, 0x0, false⟩, ⟨7, 1, .wo, true, 0x0, false⟩, ⟨8, 4, .wo, true, 0x0, false⟩, ⟨12, 2, .wo, true, 0x0, false⟩, ⟨16, 16, .wo, true, 0x0, false⟩]⟩ /- ING_I2C_CMD -/,
  ⟨0x330044, 1, 0x0, 1, .hub, none, [⟨0, 24, .rw, true, 0x0, false⟩]⟩ /- ING_I2C_DATA -/,
  ⟨0x330048, 1, 0x0, 1, .hub, none, [⟨0, 2, .ro, true, 0x0, false⟩]⟩ /- ING_I2C_RESULT -/]

/-! ### The ISP block -/

/-- ISP_STATUS.position (R158). -/
def Fld.ispStatus_position : Fld := ⟨0x340000, 0x2000, 0, 3, 0x0⟩
/-- ISP_STATUS.in_service (R158). -/
def Fld.ispStatus_in_service : Fld := ⟨0x340000, 0x2000, 3, 1, 0x0⟩
/-- ISP_STATUS.under_test (R158). -/
def Fld.ispStatus_under_test : Fld := ⟨0x340000, 0x2000, 4, 1, 0x0⟩
/-- ISP_STATUS.retired (R158). -/
def Fld.ispStatus_retired : Fld := ⟨0x340000, 0x2000, 5, 1, 0x0⟩
/-- ISP_STATUS.handover (R158). -/
def Fld.ispStatus_handover : Fld := ⟨0x340000, 0x2000, 6, 1, 0x0⟩
/-- ISP_STATUS.contexts (R158). -/
def Fld.ispStatus_contexts : Fld := ⟨0x340000, 0x2000, 8, 7, 0x0⟩
/-- ISP_CTX_LO.ctx (R158). -/
def Fld.ispCtxLo_ctx : Fld := ⟨0x340004, 0x2000, 0, 32, 0x0⟩
/-- ISP_CTX_HI.ctx (R158). -/
def Fld.ispCtxHi_ctx : Fld := ⟨0x340008, 0x2000, 0, 32, 0x0⟩
/-- ISP_LOAD.busy (R158). -/
def Fld.ispLoad_busy : Fld := ⟨0x34000c, 0x2000, 0, 16, 0x0⟩
/-- ISP_LOAD.golden (R158). -/
def Fld.ispLoad_golden : Fld := ⟨0x34000c, 0x2000, 16, 16, 0x0⟩
/-- ISP_LINES.lines (R158). -/
def Fld.ispLines_lines : Fld := ⟨0x340010, 0x2000, 0, 16, 0x0⟩
/-- ISP_LINES.peak (R158). -/
def Fld.ispLines_peak : Fld := ⟨0x340010, 0x2000, 16, 5, 0x0⟩

/-- The registers of the ISP block. -/
def regsIsp : List RegSpec := [
  ⟨0x340000, 5, 0x2000, 1, .hub, none, [⟨0, 3, .ro, false, 0x0, true⟩, ⟨3, 1, .ro, false, 0x0, true⟩, ⟨4, 1, .ro, false, 0x0, true⟩, ⟨5, 1, .ro, false, 0x0, true⟩, ⟨6, 1, .ro, false, 0x0, true⟩, ⟨8, 7, .ro, false, 0x0, true⟩]⟩ /- ISP_STATUS -/,
  ⟨0x340004, 5, 0x2000, 1, .hub, none, [⟨0, 32, .ro, false, 0x0, true⟩]⟩ /- ISP_CTX_LO -/,
  ⟨0x340008, 5, 0x2000, 1, .hub, none, [⟨0, 32, .ro, false, 0x0, true⟩]⟩ /- ISP_CTX_HI -/,
  ⟨0x34000c, 5, 0x2000, 1, .hub, none, [⟨0, 16, .ro, false, 0x0, true⟩, ⟨16, 16, .ro, false, 0x0, true⟩]⟩ /- ISP_LOAD -/,
  ⟨0x340010, 5, 0x2000, 1, .hub, none, [⟨0, 16, .ro, false, 0x0, true⟩, ⟨16, 5, .ro, false, 0x0, true⟩]⟩ /- ISP_LINES -/]

/-! ### The PYR block -/

/-- PYR_STATUS.position (R182). -/
def Fld.pyrStatus_position : Fld := ⟨0x200000, 0x4000, 0, 2, 0x0⟩
/-- PYR_STATUS.in_service (R182). -/
def Fld.pyrStatus_in_service : Fld := ⟨0x200000, 0x4000, 2, 1, 0x0⟩
/-- PYR_STATUS.under_test (R182). -/
def Fld.pyrStatus_under_test : Fld := ⟨0x200000, 0x4000, 3, 1, 0x0⟩
/-- PYR_STATUS.retired (R182). -/
def Fld.pyrStatus_retired : Fld := ⟨0x200000, 0x4000, 4, 1, 0x0⟩
/-- PYR_STATUS.busy (R182). -/
def Fld.pyrStatus_busy : Fld := ⟨0x200000, 0x4000, 5, 1, 0x0⟩
/-- PYR_LOAD.busy (R182). -/
def Fld.pyrLoad_busy : Fld := ⟨0x200004, 0x4000, 0, 16, 0x0⟩
/-- PYR_LOAD.tasks (R182). -/
def Fld.pyrLoad_tasks : Fld := ⟨0x200004, 0x4000, 16, 16, 0x0⟩
/-- PYR_PIXELS.pixels (R182). -/
def Fld.pyrPixels_pixels : Fld := ⟨0x200008, 0x4000, 0, 32, 0x0⟩
/-- PYR_STALL.stall (R182). -/
def Fld.pyrStall_stall : Fld := ⟨0x20000c, 0x4000, 0, 16, 0x0⟩

/-- The registers of the PYR block. -/
def regsPyr : List RegSpec := [
  ⟨0x200000, 3, 0x4000, 1, .cdie, none, [⟨0, 2, .ro, false, 0x0, true⟩, ⟨2, 1, .ro, false, 0x0, true⟩, ⟨3, 1, .ro, false, 0x0, true⟩, ⟨4, 1, .ro, false, 0x0, true⟩, ⟨5, 1, .ro, false, 0x0, true⟩]⟩ /- PYR_STATUS -/,
  ⟨0x200004, 3, 0x4000, 1, .cdie, none, [⟨0, 16, .ro, false, 0x0, true⟩, ⟨16, 16, .ro, false, 0x0, true⟩]⟩ /- PYR_LOAD -/,
  ⟨0x200008, 3, 0x4000, 1, .cdie, none, [⟨0, 32, .rc, false, 0x0, false⟩]⟩ /- PYR_PIXELS -/,
  ⟨0x20000c, 3, 0x4000, 1, .cdie, none, [⟨0, 16, .ro, false, 0x0, true⟩]⟩ /- PYR_STALL -/]

/-! ### The WRP block -/

/-- WRP_STATUS.position (R182). -/
def Fld.wrpStatus_position : Fld := ⟨0x210000, 0x4000, 0, 2, 0x0⟩
/-- WRP_STATUS.in_service (R182). -/
def Fld.wrpStatus_in_service : Fld := ⟨0x210000, 0x4000, 2, 1, 0x0⟩
/-- WRP_STATUS.under_test (R182). -/
def Fld.wrpStatus_under_test : Fld := ⟨0x210000, 0x4000, 3, 1, 0x0⟩
/-- WRP_STATUS.retired (R182). -/
def Fld.wrpStatus_retired : Fld := ⟨0x210000, 0x4000, 4, 1, 0x0⟩
/-- WRP_STATUS.busy (R182). -/
def Fld.wrpStatus_busy : Fld := ⟨0x210000, 0x4000, 5, 1, 0x0⟩
/-- WRP_LOAD.busy (R182). -/
def Fld.wrpLoad_busy : Fld := ⟨0x210004, 0x4000, 0, 16, 0x0⟩
/-- WRP_LOAD.tasks (R182). -/
def Fld.wrpLoad_tasks : Fld := ⟨0x210004, 0x4000, 16, 16, 0x0⟩
/-- WRP_PIXELS.pixels (R182). -/
def Fld.wrpPixels_pixels : Fld := ⟨0x210008, 0x4000, 0, 32, 0x0⟩
/-- WRP_STALL.stall (R182). -/
def Fld.wrpStall_stall : Fld := ⟨0x21000c, 0x4000, 0, 16, 0x0⟩
/-- WRP_OOR.oor (R182). -/
def Fld.wrpOor_oor : Fld := ⟨0x210010, 0x4000, 0, 32, 0x0⟩
/-- WRP_INVALID.invalid (R182). -/
def Fld.wrpInvalid_invalid : Fld := ⟨0x210014, 0x4000, 0, 16, 0x0⟩
/-- WRP_INVALID.split (R182). -/
def Fld.wrpInvalid_split : Fld := ⟨0x210014, 0x4000, 16, 16, 0x0⟩
/-- WRP_MESH_BASE_LO.base (R182). -/
def Fld.wrpMeshBaseLo_base : Fld := ⟨0x210018, 0x4000, 0, 32, 0x0⟩
/-- WRP_MESH_BASE_HI.base (R182). -/
def Fld.wrpMeshBaseHi_base : Fld := ⟨0x21001c, 0x4000, 0, 8, 0x0⟩

/-- The registers of the WRP block. -/
def regsWrp : List RegSpec := [
  ⟨0x210000, 3, 0x4000, 1, .cdie, none, [⟨0, 2, .ro, false, 0x0, true⟩, ⟨2, 1, .ro, false, 0x0, true⟩, ⟨3, 1, .ro, false, 0x0, true⟩, ⟨4, 1, .ro, false, 0x0, true⟩, ⟨5, 1, .ro, false, 0x0, true⟩]⟩ /- WRP_STATUS -/,
  ⟨0x210004, 3, 0x4000, 1, .cdie, none, [⟨0, 16, .ro, false, 0x0, true⟩, ⟨16, 16, .ro, false, 0x0, true⟩]⟩ /- WRP_LOAD -/,
  ⟨0x210008, 3, 0x4000, 1, .cdie, none, [⟨0, 32, .rc, false, 0x0, false⟩]⟩ /- WRP_PIXELS -/,
  ⟨0x21000c, 3, 0x4000, 1, .cdie, none, [⟨0, 16, .ro, false, 0x0, true⟩]⟩ /- WRP_STALL -/,
  ⟨0x210010, 3, 0x4000, 1, .cdie, none, [⟨0, 32, .rc, false, 0x0, false⟩]⟩ /- WRP_OOR -/,
  ⟨0x210014, 3, 0x4000, 1, .cdie, none, [⟨0, 16, .rc, false, 0x0, false⟩, ⟨16, 16, .rc, false, 0x0, false⟩]⟩ /- WRP_INVALID -/,
  ⟨0x210018, 3, 0x4000, 1, .cdie, none, [⟨0, 32, .ro, false, 0x0, true⟩]⟩ /- WRP_MESH_BASE_LO -/,
  ⟨0x21001c, 3, 0x4000, 1, .cdie, none, [⟨0, 8, .ro, false, 0x0, true⟩]⟩ /- WRP_MESH_BASE_HI -/]

/-! ### The FTR block -/

/-- FTR_STATUS.position (R208). -/
def Fld.ftrStatus_position : Fld := ⟨0x220000, 0x8000, 0, 2, 0x0⟩
/-- FTR_STATUS.in_service (R208). -/
def Fld.ftrStatus_in_service : Fld := ⟨0x220000, 0x8000, 2, 1, 0x0⟩
/-- FTR_STATUS.under_test (R208). -/
def Fld.ftrStatus_under_test : Fld := ⟨0x220000, 0x8000, 3, 1, 0x0⟩
/-- FTR_STATUS.retired (R208). -/
def Fld.ftrStatus_retired : Fld := ⟨0x220000, 0x8000, 4, 1, 0x0⟩
/-- FTR_STATUS.busy (R208). -/
def Fld.ftrStatus_busy : Fld := ⟨0x220000, 0x8000, 5, 1, 0x0⟩
/-- FTR_LOAD.busy (R208). -/
def Fld.ftrLoad_busy : Fld := ⟨0x220004, 0x8000, 0, 16, 0x0⟩
/-- FTR_LOAD.tasks (R208). -/
def Fld.ftrLoad_tasks : Fld := ⟨0x220004, 0x8000, 16, 16, 0x0⟩
/-- FTR_PIXELS.pixels (R208). -/
def Fld.ftrPixels_pixels : Fld := ⟨0x220008, 0x8000, 0, 32, 0x0⟩
/-- FTR_STALL.stall (R208). -/
def Fld.ftrStall_stall : Fld := ⟨0x22000c, 0x8000, 0, 16, 0x0⟩
/-- FTR_CORNERS.kept (R208). -/
def Fld.ftrCorners_kept : Fld := ⟨0x220010, 0x8000, 0, 16, 0x0⟩
/-- FTR_CORNERS.capped (R208). -/
def Fld.ftrCorners_capped : Fld := ⟨0x220010, 0x8000, 16, 16, 0x0⟩
/-- FTR_MATCH.matched (R208). -/
def Fld.ftrMatch_matched : Fld := ⟨0x220014, 0x8000, 0, 16, 0x0⟩
/-- FTR_MATCH.new (R208). -/
def Fld.ftrMatch_new : Fld := ⟨0x220014, 0x8000, 16, 16, 0x0⟩
/-- FTR_REFUSED.not_entered (R208). -/
def Fld.ftrRefused_not_entered : Fld := ⟨0x220018, 0x8000, 0, 16, 0x0⟩
/-- FTR_REFUSED.conflict (R208). -/
def Fld.ftrRefused_conflict : Fld := ⟨0x220018, 0x8000, 16, 16, 0x0⟩
/-- FTR_TRACK_ERR.errors (R208). -/
def Fld.ftrTrackErr_errors : Fld := ⟨0x22001c, 0x8000, 0, 16, 0x0⟩
/-- FTR_TRACK_SEL.entry (R208). -/
def Fld.ftrTrackSel_entry : Fld := ⟨0x220020, 0x8000, 0, 15, 0x0⟩
/-- FTR_TRACK_DATA.word (R208). -/
def Fld.ftrTrackData_word : Fld := ⟨0x220024, 0x8000, 0, 32, 0x0⟩

/-- The registers of the FTR block. -/
def regsFtr : List RegSpec := [
  ⟨0x220000, 2, 0x8000, 1, .cdie, none, [⟨0, 2, .ro, false, 0x0, true⟩, ⟨2, 1, .ro, false, 0x0, true⟩, ⟨3, 1, .ro, false, 0x0, true⟩, ⟨4, 1, .ro, false, 0x0, true⟩, ⟨5, 1, .ro, false, 0x0, true⟩]⟩ /- FTR_STATUS -/,
  ⟨0x220004, 2, 0x8000, 1, .cdie, none, [⟨0, 16, .ro, false, 0x0, true⟩, ⟨16, 16, .ro, false, 0x0, true⟩]⟩ /- FTR_LOAD -/,
  ⟨0x220008, 2, 0x8000, 1, .cdie, none, [⟨0, 32, .rc, false, 0x0, false⟩]⟩ /- FTR_PIXELS -/,
  ⟨0x22000c, 2, 0x8000, 1, .cdie, none, [⟨0, 16, .ro, false, 0x0, true⟩]⟩ /- FTR_STALL -/,
  ⟨0x220010, 2, 0x8000, 1, .cdie, none, [⟨0, 16, .rc, false, 0x0, false⟩, ⟨16, 16, .rc, false, 0x0, false⟩]⟩ /- FTR_CORNERS -/,
  ⟨0x220014, 2, 0x8000, 1, .cdie, none, [⟨0, 16, .rc, false, 0x0, false⟩, ⟨16, 16, .rc, false, 0x0, false⟩]⟩ /- FTR_MATCH -/,
  ⟨0x220018, 2, 0x8000, 1, .cdie, none, [⟨0, 16, .rc, false, 0x0, false⟩, ⟨16, 16, .rc, false, 0x0, false⟩]⟩ /- FTR_REFUSED -/,
  ⟨0x22001c, 2, 0x8000, 1, .cdie, none, [⟨0, 16, .rc, false, 0x0, false⟩]⟩ /- FTR_TRACK_ERR -/,
  ⟨0x220020, 2, 0x8000, 1, .cdie, none, [⟨0, 15, .rw, true, 0x0, false⟩]⟩ /- FTR_TRACK_SEL -/,
  ⟨0x220024, 2, 0x8000, 1, .cdie, none, [⟨0, 32, .ro, true, 0x0, false⟩]⟩ /- FTR_TRACK_DATA -/]

/-! ### The FLW block -/

/-- FLW_STATUS.position (R208). -/
def Fld.flwStatus_position : Fld := ⟨0x230000, 0x8000, 0, 2, 0x0⟩
/-- FLW_STATUS.in_service (R208). -/
def Fld.flwStatus_in_service : Fld := ⟨0x230000, 0x8000, 2, 1, 0x0⟩
/-- FLW_STATUS.under_test (R208). -/
def Fld.flwStatus_under_test : Fld := ⟨0x230000, 0x8000, 3, 1, 0x0⟩
/-- FLW_STATUS.retired (R208). -/
def Fld.flwStatus_retired : Fld := ⟨0x230000, 0x8000, 4, 1, 0x0⟩
/-- FLW_STATUS.busy (R208). -/
def Fld.flwStatus_busy : Fld := ⟨0x230000, 0x8000, 5, 1, 0x0⟩
/-- FLW_LOAD.busy (R208). -/
def Fld.flwLoad_busy : Fld := ⟨0x230004, 0x8000, 0, 16, 0x0⟩
/-- FLW_LOAD.tasks (R208). -/
def Fld.flwLoad_tasks : Fld := ⟨0x230004, 0x8000, 16, 16, 0x0⟩
/-- FLW_PIXELS.pixels (R208). -/
def Fld.flwPixels_pixels : Fld := ⟨0x230008, 0x8000, 0, 32, 0x0⟩
/-- FLW_STALL.stall (R208). -/
def Fld.flwStall_stall : Fld := ⟨0x23000c, 0x8000, 0, 16, 0x0⟩
/-- FLW_VALID.valid (R208). -/
def Fld.flwValid_valid : Fld := ⟨0x230010, 0x8000, 0, 32, 0x0⟩
/-- FLW_INVALID.low_texture (R208). -/
def Fld.flwInvalid_low_texture : Fld := ⟨0x230014, 0x8000, 0, 16, 0x0⟩
/-- FLW_INVALID.no_match (R208). -/
def Fld.flwInvalid_no_match : Fld := ⟨0x230014, 0x8000, 16, 16, 0x0⟩
/-- FLW_OCCLUDED.occluded (R208). -/
def Fld.flwOccluded_occluded : Fld := ⟨0x230018, 0x8000, 0, 16, 0x0⟩

/-- The registers of the FLW block. -/
def regsFlw : List RegSpec := [
  ⟨0x230000, 2, 0x8000, 1, .cdie, none, [⟨0, 2, .ro, false, 0x0, true⟩, ⟨2, 1, .ro, false, 0x0, true⟩, ⟨3, 1, .ro, false, 0x0, true⟩, ⟨4, 1, .ro, false, 0x0, true⟩, ⟨5, 1, .ro, false, 0x0, true⟩]⟩ /- FLW_STATUS -/,
  ⟨0x230004, 2, 0x8000, 1, .cdie, none, [⟨0, 16, .ro, false, 0x0, true⟩, ⟨16, 16, .ro, false, 0x0, true⟩]⟩ /- FLW_LOAD -/,
  ⟨0x230008, 2, 0x8000, 1, .cdie, none, [⟨0, 32, .rc, false, 0x0, false⟩]⟩ /- FLW_PIXELS -/,
  ⟨0x23000c, 2, 0x8000, 1, .cdie, none, [⟨0, 16, .ro, false, 0x0, true⟩]⟩ /- FLW_STALL -/,
  ⟨0x230010, 2, 0x8000, 1, .cdie, none, [⟨0, 32, .rc, false, 0x0, false⟩]⟩ /- FLW_VALID -/,
  ⟨0x230014, 2, 0x8000, 1, .cdie, none, [⟨0, 16, .rc, false, 0x0, false⟩, ⟨16, 16, .rc, false, 0x0, false⟩]⟩ /- FLW_INVALID -/,
  ⟨0x230018, 2, 0x8000, 1, .cdie, none, [⟨0, 16, .rc, false, 0x0, false⟩]⟩ /- FLW_OCCLUDED -/]

/-! ### The STE block -/

/-- STE_STATUS.position (R231). -/
def Fld.steStatus_position : Fld := ⟨0x240000, 0x4000, 0, 2, 0x0⟩
/-- STE_STATUS.in_service (R231). -/
def Fld.steStatus_in_service : Fld := ⟨0x240000, 0x4000, 2, 1, 0x0⟩
/-- STE_STATUS.under_test (R231). -/
def Fld.steStatus_under_test : Fld := ⟨0x240000, 0x4000, 3, 1, 0x0⟩
/-- STE_STATUS.retired (R231). -/
def Fld.steStatus_retired : Fld := ⟨0x240000, 0x4000, 4, 1, 0x0⟩
/-- STE_STATUS.busy (R231). -/
def Fld.steStatus_busy : Fld := ⟨0x240000, 0x4000, 5, 1, 0x0⟩
/-- STE_LOAD.busy (R231). -/
def Fld.steLoad_busy : Fld := ⟨0x240004, 0x4000, 0, 16, 0x0⟩
/-- STE_LOAD.tasks (R231). -/
def Fld.steLoad_tasks : Fld := ⟨0x240004, 0x4000, 16, 16, 0x0⟩
/-- STE_PIXELS.pixels (R231). -/
def Fld.stePixels_pixels : Fld := ⟨0x240008, 0x4000, 0, 32, 0x0⟩
/-- STE_STALL.stall (R231). -/
def Fld.steStall_stall : Fld := ⟨0x24000c, 0x4000, 0, 16, 0x0⟩
/-- STE_VALID.valid (R231). -/
def Fld.steValid_valid : Fld := ⟨0x240010, 0x4000, 0, 32, 0x0⟩
/-- STE_TEX_OCC.low_texture (R231). -/
def Fld.steTexOcc_low_texture : Fld := ⟨0x240014, 0x4000, 0, 16, 0x0⟩
/-- STE_TEX_OCC.occluded (R231). -/
def Fld.steTexOcc_occluded : Fld := ⟨0x240014, 0x4000, 16, 16, 0x0⟩
/-- STE_AMB_NOM.ambiguous (R231). -/
def Fld.steAmbNom_ambiguous : Fld := ⟨0x240018, 0x4000, 0, 16, 0x0⟩
/-- STE_AMB_NOM.no_match (R231). -/
def Fld.steAmbNom_no_match : Fld := ⟨0x240018, 0x4000, 16, 16, 0x0⟩
/-- STE_BRD_TST.border (R231). -/
def Fld.steBrdTst_border : Fld := ⟨0x24001c, 0x4000, 0, 16, 0x0⟩
/-- STE_BRD_TST.test (R231). -/
def Fld.steBrdTst_test : Fld := ⟨0x24001c, 0x4000, 16, 16, 0x0⟩

/-- The registers of the STE block. -/
def regsSte : List RegSpec := [
  ⟨0x240000, 3, 0x4000, 1, .cdie, none, [⟨0, 2, .ro, false, 0x0, true⟩, ⟨2, 1, .ro, false, 0x0, true⟩, ⟨3, 1, .ro, false, 0x0, true⟩, ⟨4, 1, .ro, false, 0x0, true⟩, ⟨5, 1, .ro, false, 0x0, true⟩]⟩ /- STE_STATUS -/,
  ⟨0x240004, 3, 0x4000, 1, .cdie, none, [⟨0, 16, .ro, false, 0x0, true⟩, ⟨16, 16, .ro, false, 0x0, true⟩]⟩ /- STE_LOAD -/,
  ⟨0x240008, 3, 0x4000, 1, .cdie, none, [⟨0, 32, .rc, false, 0x0, false⟩]⟩ /- STE_PIXELS -/,
  ⟨0x24000c, 3, 0x4000, 1, .cdie, none, [⟨0, 16, .ro, false, 0x0, true⟩]⟩ /- STE_STALL -/,
  ⟨0x240010, 3, 0x4000, 1, .cdie, none, [⟨0, 32, .rc, false, 0x0, false⟩]⟩ /- STE_VALID -/,
  ⟨0x240014, 3, 0x4000, 1, .cdie, none, [⟨0, 16, .rc, false, 0x0, false⟩, ⟨16, 16, .rc, false, 0x0, false⟩]⟩ /- STE_TEX_OCC -/,
  ⟨0x240018, 3, 0x4000, 1, .cdie, none, [⟨0, 16, .rc, false, 0x0, false⟩, ⟨16, 16, .rc, false, 0x0, false⟩]⟩ /- STE_AMB_NOM -/,
  ⟨0x24001c, 3, 0x4000, 1, .cdie, none, [⟨0, 16, .rc, false, 0x0, false⟩, ⟨16, 16, .rc, false, 0x0, false⟩]⟩ /- STE_BRD_TST -/]

/-! ### The SPD block -/

/-- SPD_STATUS.position (R262). -/
def Fld.spdStatus_position : Fld := ⟨0x1b0000, 0x200, 0, 4, 0x0⟩
/-- SPD_STATUS.in_service (R262). -/
def Fld.spdStatus_in_service : Fld := ⟨0x1b0000, 0x200, 4, 1, 0x0⟩
/-- SPD_STATUS.under_test (R262). -/
def Fld.spdStatus_under_test : Fld := ⟨0x1b0000, 0x200, 5, 1, 0x0⟩
/-- SPD_STATUS.retired (R262). -/
def Fld.spdStatus_retired : Fld := ⟨0x1b0000, 0x200, 6, 1, 0x0⟩
/-- SPD_STATUS.migrating (R262). -/
def Fld.spdStatus_migrating : Fld := ⟨0x1b0000, 0x200, 7, 1, 0x0⟩
/-- SPD_STATUS.busy (R262). -/
def Fld.spdStatus_busy : Fld := ⟨0x1b0000, 0x200, 8, 1, 0x0⟩
/-- SPD_RELOC.base (R262). -/
def Fld.spdReloc_base : Fld := ⟨0x1b0004, 0x200, 0, 9, 0x1800000⟩
/-- SPD_RELOC.bound (R262). -/
def Fld.spdReloc_bound : Fld := ⟨0x1b0004, 0x200, 16, 10, 0x1800000⟩
/-- SPD_ECC.corrected (R262). -/
def Fld.spdEcc_corrected : Fld := ⟨0x1b0008, 0x200, 0, 16, 0x0⟩
/-- SPD_ECC.uncorrectable (R262). -/
def Fld.spdEcc_uncorrectable : Fld := ⟨0x1b0008, 0x200, 16, 16, 0x0⟩
/-- SPD_ECC_LAST.bank (R262). -/
def Fld.spdEccLast_bank : Fld := ⟨0x1b000c, 0x200, 0, 4, 0x0⟩
/-- SPD_ECC_LAST.row (R262). -/
def Fld.spdEccLast_row : Fld := ⟨0x1b000c, 0x200, 4, 9, 0x0⟩
/-- SPD_ECC_LAST.codeword (R262). -/
def Fld.spdEccLast_codeword : Fld := ⟨0x1b000c, 0x200, 13, 2, 0x0⟩
/-- SPD_ECC_LAST.symbol (R262). -/
def Fld.spdEccLast_symbol : Fld := ⟨0x1b000c, 0x200, 15, 6, 0x0⟩
/-- SPD_ECC_LAST.kind (R262). -/
def Fld.spdEccLast_kind : Fld := ⟨0x1b000c, 0x200, 21, 2, 0x0⟩
/-- SPD_ECC_LAST.valid (R262). -/
def Fld.spdEccLast_valid : Fld := ⟨0x1b000c, 0x200, 31, 1, 0x0⟩
/-- SPD_SPARE_LO.used (R262). -/
def Fld.spdSpareLo_used : Fld := ⟨0x1b0010, 0x200, 0, 32, 0x0⟩
/-- SPD_SPARE_HI.used (R262). -/
def Fld.spdSpareHi_used : Fld := ⟨0x1b0014, 0x200, 0, 32, 0x0⟩
/-- SPD_PATROL.next (R262). -/
def Fld.spdPatrol_next : Fld := ⟨0x1b0018, 0x200, 0, 9, 0x0⟩
/-- SPD_PATROL.passes (R262). -/
def Fld.spdPatrol_passes : Fld := ⟨0x1b0018, 0x200, 16, 16, 0x0⟩
/-- SPD_REMOTE.served (R262). -/
def Fld.spdRemote_served : Fld := ⟨0x1b001c, 0x200, 0, 16, 0x0⟩
/-- SPD_REMOTE.wait (R262). -/
def Fld.spdRemote_wait : Fld := ⟨0x1b001c, 0x200, 16, 16, 0x0⟩

/-- The registers of the SPD block. -/
def regsSpd : List RegSpec := [
  ⟨0x1b0000, 72, 0x200, 1, .cdie, none, [⟨0, 4, .ro, false, 0x0, true⟩, ⟨4, 1, .ro, false, 0x0, true⟩, ⟨5, 1, .ro, false, 0x0, true⟩, ⟨6, 1, .ro, false, 0x0, true⟩, ⟨7, 1, .ro, false, 0x0, true⟩, ⟨8, 1, .ro, false, 0x0, true⟩]⟩ /- SPD_STATUS -/,
  ⟨0x1b0004, 72, 0x200, 1, .cdie, none, [⟨0, 9, .ro, false, 0x0, true⟩, ⟨16, 10, .ro, false, 0x180, true⟩]⟩ /- SPD_RELOC -/,
  ⟨0x1b0008, 72, 0x200, 1, .cdie, none, [⟨0, 16, .rc, false, 0x0, false⟩, ⟨16, 16, .rc, false, 0x0, false⟩]⟩ /- SPD_ECC -/,
  ⟨0x1b000c, 72, 0x200, 1, .cdie, none, [⟨0, 4, .ro, true, 0x0, true⟩, ⟨4, 9, .ro, true, 0x0, true⟩, ⟨13, 2, .ro, true, 0x0, true⟩, ⟨15, 6, .ro, true, 0x0, true⟩, ⟨21, 2, .ro, true, 0x0, true⟩, ⟨31, 1, .w1c, true, 0x0, false⟩]⟩ /- SPD_ECC_LAST -/,
  ⟨0x1b0010, 72, 0x200, 1, .cdie, none, [⟨0, 32, .ro, false, 0x0, true⟩]⟩ /- SPD_SPARE_LO -/,
  ⟨0x1b0014, 72, 0x200, 1, .cdie, none, [⟨0, 32, .ro, false, 0x0, true⟩]⟩ /- SPD_SPARE_HI -/,
  ⟨0x1b0018, 72, 0x200, 1, .cdie, none, [⟨0, 9, .ro, false, 0x0, true⟩, ⟨16, 16, .ro, false, 0x0, true⟩]⟩ /- SPD_PATROL -/,
  ⟨0x1b001c, 72, 0x200, 1, .cdie, none, [⟨0, 16, .ro, false, 0x0, true⟩, ⟨16, 16, .ro, false, 0x0, true⟩]⟩ /- SPD_REMOTE -/]

/-! ### The CMN block -/

/-- CMN_ECC.corrected (R263). -/
def Fld.cmnEcc_corrected : Fld := ⟨0x50000, 0x0, 0, 16, 0x0⟩
/-- CMN_ECC.uncorrectable (R263). -/
def Fld.cmnEcc_uncorrectable : Fld := ⟨0x50000, 0x0, 16, 16, 0x0⟩
/-- CMN_ECC_LAST.bank (R263). -/
def Fld.cmnEccLast_bank : Fld := ⟨0x50004, 0x0, 0, 6, 0x0⟩
/-- CMN_ECC_LAST.row (R263). -/
def Fld.cmnEccLast_row : Fld := ⟨0x50004, 0x0, 6, 14, 0x0⟩
/-- CMN_ECC_LAST.codeword (R263). -/
def Fld.cmnEccLast_codeword : Fld := ⟨0x50004, 0x0, 20, 2, 0x0⟩
/-- CMN_ECC_LAST.symbol (R263). -/
def Fld.cmnEccLast_symbol : Fld := ⟨0x50004, 0x0, 22, 6, 0x0⟩
/-- CMN_ECC_LAST.kind (R263). -/
def Fld.cmnEccLast_kind : Fld := ⟨0x50004, 0x0, 28, 2, 0x0⟩
/-- CMN_ECC_LAST.valid (R263). -/
def Fld.cmnEccLast_valid : Fld := ⟨0x50004, 0x0, 31, 1, 0x0⟩
/-- CMN_SPARE_SEL.bank (R263). -/
def Fld.cmnSpareSel_bank : Fld := ⟨0x50008, 0x0, 0, 6, 0x0⟩
/-- CMN_SPARE.used (R263). -/
def Fld.cmnSpare_used : Fld := ⟨0x5000c, 0x0, 0, 5, 0x0⟩
/-- CMN_SPARE.exhausted (R263). -/
def Fld.cmnSpare_exhausted : Fld := ⟨0x5000c, 0x0, 8, 1, 0x0⟩
/-- CMN_PATROL.next (R263). -/
def Fld.cmnPatrol_next : Fld := ⟨0x50010, 0x0, 0, 14, 0x0⟩
/-- CMN_PATROL.passes (R263). -/
def Fld.cmnPatrol_passes : Fld := ⟨0x50010, 0x0, 16, 16, 0x0⟩
/-- CMN_LOAD.busy (R263). -/
def Fld.cmnLoad_busy : Fld := ⟨0x50014, 0x0, 0, 16, 0x0⟩
/-- CMN_LOAD.conflict (R263). -/
def Fld.cmnLoad_conflict : Fld := ⟨0x50014, 0x0, 16, 16, 0x0⟩
/-- CMN_RMW.rmw (R263). -/
def Fld.cmnRmw_rmw : Fld := ⟨0x50018, 0x0, 0, 32, 0x0⟩

/-- The registers of the CMN block. -/
def regsCmn : List RegSpec := [
  ⟨0x50000, 1, 0x0, 1, .cdie, none, [⟨0, 16, .rc, false, 0x0, false⟩, ⟨16, 16, .rc, false, 0x0, false⟩]⟩ /- CMN_ECC -/,
  ⟨0x50004, 1, 0x0, 1, .cdie, none, [⟨0, 6, .ro, true, 0x0, true⟩, ⟨6, 14, .ro, true, 0x0, true⟩, ⟨20, 2, .ro, true, 0x0, true⟩, ⟨22, 6, .ro, true, 0x0, true⟩, ⟨28, 2, .ro, true, 0x0, true⟩, ⟨31, 1, .w1c, true, 0x0, false⟩]⟩ /- CMN_ECC_LAST -/,
  ⟨0x50008, 1, 0x0, 1, .cdie, none, [⟨0, 6, .rw, false, 0x0, false⟩]⟩ /- CMN_SPARE_SEL -/,
  ⟨0x5000c, 1, 0x0, 1, .cdie, (some 0x50008), [⟨0, 5, .ro, false, 0x0, true⟩, ⟨8, 1, .ro, false, 0x0, true⟩]⟩ /- CMN_SPARE -/,
  ⟨0x50010, 1, 0x0, 1, .cdie, none, [⟨0, 14, .ro, false, 0x0, true⟩, ⟨16, 16, .ro, false, 0x0, true⟩]⟩ /- CMN_PATROL -/,
  ⟨0x50014, 1, 0x0, 1, .cdie, none, [⟨0, 16, .ro, false, 0x0, true⟩, ⟨16, 16, .ro, false, 0x0, true⟩]⟩ /- CMN_LOAD -/,
  ⟨0x50018, 1, 0x0, 1, .cdie, none, [⟨0, 32, .rc, false, 0x0, false⟩]⟩ /- CMN_RMW -/]

/-! ### The FLG block -/

/-- FLG_SEL.flag (R264). -/
def Fld.flgSel_flag : Fld := ⟨0x60000, 0x0, 0, 12, 0x0⟩
/-- FLG_VALUE.value (R264). -/
def Fld.flgValue_value : Fld := ⟨0x60004, 0x0, 0, 32, 0x0⟩
/-- FLG_SET.value (R264). -/
def Fld.flgSet_value : Fld := ⟨0x60008, 0x0, 0, 32, 0x0⟩
/-- FLG_ADD.value (R264). -/
def Fld.flgAdd_value : Fld := ⟨0x6000c, 0x0, 0, 32, 0x0⟩
/-- FLG_WAITERS.local (R264). -/
def Fld.flgWaiters_local : Fld := ⟨0x60010, 0x0, 0, 12, 0x0⟩
/-- FLG_WAITERS.watches (R264). -/
def Fld.flgWaiters_watches : Fld := ⟨0x60010, 0x0, 16, 11, 0x0⟩
/-- FLG_POSTS.posts (R264). -/
def Fld.flgPosts_posts : Fld := ⟨0x60014, 0x0, 0, 32, 0x0⟩
/-- FLG_WATCH.used (R264). -/
def Fld.flgWatch_used : Fld := ⟨0x60018, 0x0, 0, 11, 0x0⟩
/-- FLG_WATCH.refused (R264). -/
def Fld.flgWatch_refused : Fld := ⟨0x60018, 0x0, 16, 16, 0x0⟩
/-- FLG_ERR.flag (R264). -/
def Fld.flgErr_flag : Fld := ⟨0x6001c, 0x0, 0, 12, 0x0⟩
/-- FLG_ERR.valid (R264). -/
def Fld.flgErr_valid : Fld := ⟨0x6001c, 0x0, 15, 1, 0x0⟩
/-- FLG_ERR.count (R264). -/
def Fld.flgErr_count : Fld := ⟨0x6001c, 0x0, 16, 16, 0x0⟩

/-- The registers of the FLG block. -/
def regsFlg : List RegSpec := [
  ⟨0x60000, 1, 0x0, 1, .cdie, none, [⟨0, 12, .rw, false, 0x0, false⟩]⟩ /- FLG_SEL -/,
  ⟨0x60004, 1, 0x0, 1, .cdie, (some 0x60000), [⟨0, 32, .ro, false, 0x0, false⟩]⟩ /- FLG_VALUE -/,
  ⟨0x60008, 1, 0x0, 1, .cdie, (some 0x60000), [⟨0, 32, .wo, true, 0x0, false⟩]⟩ /- FLG_SET -/,
  ⟨0x6000c, 1, 0x0, 1, .cdie, (some 0x60000), [⟨0, 32, .wo, true, 0x0, false⟩]⟩ /- FLG_ADD -/,
  ⟨0x60010, 1, 0x0, 1, .cdie, (some 0x60000), [⟨0, 12, .ro, false, 0x0, true⟩, ⟨16, 11, .ro, false, 0x0, true⟩]⟩ /- FLG_WAITERS -/,
  ⟨0x60014, 1, 0x0, 1, .cdie, none, [⟨0, 32, .rc, false, 0x0, false⟩]⟩ /- FLG_POSTS -/,
  ⟨0x60018, 1, 0x0, 1, .cdie, none, [⟨0, 11, .ro, false, 0x0, true⟩, ⟨16, 16, .rc, false, 0x0, false⟩]⟩ /- FLG_WATCH -/,
  ⟨0x6001c, 1, 0x0, 1, .cdie, none, [⟨0, 12, .ro, true, 0x0, true⟩, ⟨15, 1, .w1c, true, 0x0, false⟩, ⟨16, 16, .ro, true, 0x0, true⟩]⟩ /- FLG_ERR -/]

/-! ### The MX block -/

/-- MX_STATUS.array_busy (R320). -/
def Fld.mxStatus_array_busy : Fld := ⟨0x180000, 0x200, 0, 1, 0x0⟩
/-- MX_STATUS.chk_fail (R320). -/
def Fld.mxStatus_chk_fail : Fld := ⟨0x180000, 0x200, 1, 1, 0x0⟩
/-- MX_STATUS.poison (R320). -/
def Fld.mxStatus_poison : Fld := ⟨0x180000, 0x200, 2, 1, 0x0⟩
/-- MX_RUNS.runs (R320). -/
def Fld.mxRuns_runs : Fld := ⟨0x180004, 0x200, 0, 32, 0x0⟩
/-- MX_BUSY.busy (R320). -/
def Fld.mxBusy_busy : Fld := ⟨0x180008, 0x200, 0, 16, 0x0⟩
/-- MX_CHECKS.checks (R320). -/
def Fld.mxChecks_checks : Fld := ⟨0x18000c, 0x200, 0, 32, 0x0⟩
/-- MX_FAIL.checksum (R320). -/
def Fld.mxFail_checksum : Fld := ⟨0x180010, 0x200, 0, 16, 0x0⟩
/-- MX_FAIL.duplicate (R320). -/
def Fld.mxFail_duplicate : Fld := ⟨0x180010, 0x200, 16, 16, 0x0⟩
/-- MX_FAIL_LAST.row (R320). -/
def Fld.mxFailLast_row : Fld := ⟨0x180014, 0x200, 0, 7, 0x0⟩
/-- MX_FAIL_LAST.col (R320). -/
def Fld.mxFailLast_col : Fld := ⟨0x180014, 0x200, 8, 7, 0x0⟩
/-- MX_FAIL_LAST.located (R320). -/
def Fld.mxFailLast_located : Fld := ⟨0x180014, 0x200, 15, 1, 0x0⟩
/-- MX_FAIL_LAST.kind (R320). -/
def Fld.mxFailLast_kind : Fld := ⟨0x180014, 0x200, 16, 4, 0x0⟩
/-- MX_FAIL_LAST.block (R320). -/
def Fld.mxFailLast_block : Fld := ⟨0x180014, 0x200, 20, 4, 0x0⟩
/-- MX_FAIL_LAST.valid (R320). -/
def Fld.mxFailLast_valid : Fld := ⟨0x180014, 0x200, 31, 1, 0x0⟩
/-- MX_FAIL_FRAME.frame (R320). -/
def Fld.mxFailFrame_frame : Fld := ⟨0x180018, 0x200, 0, 32, 0x0⟩

/-- The registers of the MX block. -/
def regsMx : List RegSpec := [
  ⟨0x180000, 72, 0x200, 1, .cdie, none, [⟨0, 1, .ro, false, 0x0, true⟩, ⟨1, 1, .ro, false, 0x0, true⟩, ⟨2, 1, .ro, false, 0x0, true⟩]⟩ /- MX_STATUS -/,
  ⟨0x180004, 72, 0x200, 1, .cdie, none, [⟨0, 32, .rc, false, 0x0, false⟩]⟩ /- MX_RUNS -/,
  ⟨0x180008, 72, 0x200, 1, .cdie, none, [⟨0, 16, .ro, false, 0x0, true⟩]⟩ /- MX_BUSY -/,
  ⟨0x18000c, 72, 0x200, 1, .cdie, none, [⟨0, 32, .rc, false, 0x0, false⟩]⟩ /- MX_CHECKS -/,
  ⟨0x180010, 72, 0x200, 1, .cdie, none, [⟨0, 16, .rc, false, 0x0, false⟩, ⟨16, 16, .rc, false, 0x0, false⟩]⟩ /- MX_FAIL -/,
  ⟨0x180014, 72, 0x200, 1, .cdie, none, [⟨0, 7, .ro, true, 0x0, true⟩, ⟨8, 7, .ro, true, 0x0, true⟩, ⟨15, 1, .ro, true, 0x0, true⟩, ⟨16, 4, .ro, true, 0x0, true⟩, ⟨20, 4, .ro, true, 0x0, true⟩, ⟨31, 1, .w1c, true, 0x0, false⟩]⟩ /- MX_FAIL_LAST -/,
  ⟨0x180018, 72, 0x200, 1, .cdie, none, [⟨0, 32, .ro, true, 0x0, true⟩]⟩ /- MX_FAIL_FRAME -/]

/-! ### The VU block -/

/-- VU_STATUS.chk_fail (R320). -/
def Fld.vuStatus_chk_fail : Fld := ⟨0x190000, 0x200, 0, 1, 0x0⟩
/-- VU_OPS.ops (R320). -/
def Fld.vuOps_ops : Fld := ⟨0x190004, 0x200, 0, 32, 0x0⟩
/-- VU_FAIL.lane (R320). -/
def Fld.vuFail_lane : Fld := ⟨0x190008, 0x200, 0, 16, 0x0⟩
/-- VU_FAIL.tree (R320). -/
def Fld.vuFail_tree : Fld := ⟨0x190008, 0x200, 16, 16, 0x0⟩
/-- VU_FAIL_LAST.lane (R320). -/
def Fld.vuFailLast_lane : Fld := ⟨0x19000c, 0x200, 0, 6, 0x0⟩
/-- VU_FAIL_LAST.op (R320). -/
def Fld.vuFailLast_op : Fld := ⟨0x19000c, 0x200, 8, 6, 0x0⟩
/-- VU_FAIL_LAST.valid (R320). -/
def Fld.vuFailLast_valid : Fld := ⟨0x19000c, 0x200, 31, 1, 0x0⟩
/-- VU_SPECIAL.nan (R320). -/
def Fld.vuSpecial_nan : Fld := ⟨0x190010, 0x200, 0, 16, 0x0⟩
/-- VU_SPECIAL.inf (R320). -/
def Fld.vuSpecial_inf : Fld := ⟨0x190010, 0x200, 16, 16, 0x0⟩

/-- The registers of the VU block. -/
def regsVu : List RegSpec := [
  ⟨0x190000, 72, 0x200, 1, .cdie, none, [⟨0, 1, .ro, false, 0x0, true⟩]⟩ /- VU_STATUS -/,
  ⟨0x190004, 72, 0x200, 1, .cdie, none, [⟨0, 32, .ro, false, 0x0, true⟩]⟩ /- VU_OPS -/,
  ⟨0x190008, 72, 0x200, 1, .cdie, none, [⟨0, 16, .rc, false, 0x0, false⟩, ⟨16, 16, .rc, false, 0x0, false⟩]⟩ /- VU_FAIL -/,
  ⟨0x19000c, 72, 0x200, 1, .cdie, none, [⟨0, 6, .ro, true, 0x0, true⟩, ⟨8, 6, .ro, true, 0x0, true⟩, ⟨31, 1, .w1c, true, 0x0, false⟩]⟩ /- VU_FAIL_LAST -/,
  ⟨0x190010, 72, 0x200, 1, .cdie, none, [⟨0, 16, .rc, false, 0x0, false⟩, ⟨16, 16, .rc, false, 0x0, false⟩]⟩ /- VU_SPECIAL -/]

/-! ### The TAG block -/

/-- TAG_STATUS.running (R320). -/
def Fld.tagStatus_running : Fld := ⟨0x1a0000, 0x200, 0, 1, 0x0⟩
/-- TAG_STATUS.pulling (R320). -/
def Fld.tagStatus_pulling : Fld := ⟨0x1a0000, 0x200, 1, 1, 0x0⟩
/-- TAG_STATUS.draining (R320). -/
def Fld.tagStatus_draining : Fld := ⟨0x1a0000, 0x200, 2, 1, 0x0⟩
/-- TAG_STATUS.program (R320). -/
def Fld.tagStatus_program : Fld := ⟨0x1a0000, 0x200, 16, 10, 0x0⟩
/-- TAG_BUNDLE.bundle (R320). -/
def Fld.tagBundle_bundle : Fld := ⟨0x1a0004, 0x200, 0, 12, 0x0⟩
/-- TAG_TASK.node (R320). -/
def Fld.tagTask_node : Fld := ⟨0x1a0008, 0x200, 0, 12, 0x0⟩
/-- TAG_TASK.task_index (R320). -/
def Fld.tagTask_task_index : Fld := ⟨0x1a0008, 0x200, 12, 12, 0x0⟩
/-- TAG_FRAME.frame (R320). -/
def Fld.tagFrame_frame : Fld := ⟨0x1a000c, 0x200, 0, 32, 0x0⟩
/-- TAG_START.start (R320). -/
def Fld.tagStart_start : Fld := ⟨0x1a0010, 0x200, 0, 16, 0x0⟩
/-- TAG_START.drain (R320). -/
def Fld.tagStart_drain : Fld := ⟨0x1a0010, 0x200, 16, 16, 0x0⟩
/-- TAG_CYCLES.cycles (R320). -/
def Fld.tagCycles_cycles : Fld := ⟨0x1a0014, 0x200, 0, 32, 0x0⟩
/-- TAG_STORED.granules (R320). -/
def Fld.tagStored_granules : Fld := ⟨0x1a0018, 0x200, 0, 32, 0x0⟩
/-- TAG_STORE_ERR.corrected (R320). -/
def Fld.tagStoreErr_corrected : Fld := ⟨0x1a001c, 0x200, 0, 16, 0x0⟩
/-- TAG_STORE_ERR.uncorrectable (R320). -/
def Fld.tagStoreErr_uncorrectable : Fld := ⟨0x1a001c, 0x200, 16, 16, 0x0⟩

/-- The registers of the TAG block. -/
def regsTag : List RegSpec := [
  ⟨0x1a0000, 72, 0x200, 1, .cdie, none, [⟨0, 1, .ro, false, 0x0, true⟩, ⟨1, 1, .ro, false, 0x0, true⟩, ⟨2, 1, .ro, false, 0x0, true⟩, ⟨16, 10, .ro, false, 0x0, true⟩]⟩ /- TAG_STATUS -/,
  ⟨0x1a0004, 72, 0x200, 1, .cdie, none, [⟨0, 12, .ro, false, 0x0, true⟩]⟩ /- TAG_BUNDLE -/,
  ⟨0x1a0008, 72, 0x200, 1, .cdie, none, [⟨0, 12, .ro, false, 0x0, true⟩, ⟨12, 12, .ro, false, 0x0, true⟩]⟩ /- TAG_TASK -/,
  ⟨0x1a000c, 72, 0x200, 1, .cdie, none, [⟨0, 32, .ro, false, 0x0, true⟩]⟩ /- TAG_FRAME -/,
  ⟨0x1a0010, 72, 0x200, 1, .cdie, none, [⟨0, 16, .ro, false, 0x0, true⟩, ⟨16, 16, .ro, false, 0x0, true⟩]⟩ /- TAG_START -/,
  ⟨0x1a0014, 72, 0x200, 1, .cdie, none, [⟨0, 32, .ro, false, 0x0, true⟩]⟩ /- TAG_CYCLES -/,
  ⟨0x1a0018, 72, 0x200, 1, .cdie, none, [⟨0, 32, .ro, false, 0x0, true⟩]⟩ /- TAG_STORED -/,
  ⟨0x1a001c, 72, 0x200, 1, .cdie, none, [⟨0, 16, .rc, false, 0x0, false⟩, ⟨16, 16, .rc, false, 0x0, false⟩]⟩ /- TAG_STORE_ERR -/]

/-! ### The RLY block -/

/-- RLY_STATUS.ring_up (R368). -/
def Fld.rlyStatus_ring_up : Fld := ⟨0x280000, 0x0, 0, 1, 0x0⟩
/-- RLY_STATUS.broken (R368). -/
def Fld.rlyStatus_broken : Fld := ⟨0x280000, 0x0, 1, 1, 0x0⟩
/-- RLY_STATUS.modules (R368). -/
def Fld.rlyStatus_modules : Fld := ⟨0x280000, 0x0, 2, 2, 0x0⟩
/-- RLY_STATUS.part (R368). -/
def Fld.rlyStatus_part : Fld := ⟨0x280000, 0x0, 4, 4, 0x0⟩
/-- RLY_STATUS.next_busy (R368). -/
def Fld.rlyStatus_next_busy : Fld := ⟨0x280000, 0x0, 8, 1, 0x0⟩
/-- RLY_STATUS.prev_busy (R368). -/
def Fld.rlyStatus_prev_busy : Fld := ⟨0x280000, 0x0, 9, 1, 0x0⟩
/-- RLY_EPOCH.epoch (R368). -/
def Fld.rlyEpoch_epoch : Fld := ⟨0x280004, 0x0, 0, 32, 0x0⟩
/-- RLY_LOAD.next (R368). -/
def Fld.rlyLoad_next : Fld := ⟨0x280008, 0x0, 0, 16, 0x0⟩
/-- RLY_LOAD.prev (R368). -/
def Fld.rlyLoad_prev : Fld := ⟨0x280008, 0x0, 16, 16, 0x0⟩
/-- RLY_BYTES.bytes (R368). -/
def Fld.rlyBytes_bytes : Fld := ⟨0x28000c, 0x0, 0, 32, 0x0⟩
/-- RLY_ENTRIES.sent (R368). -/
def Fld.rlyEntries_sent : Fld := ⟨0x280010, 0x0, 0, 16, 0x0⟩
/-- RLY_ENTRIES.arrived (R368). -/
def Fld.rlyEntries_arrived : Fld := ⟨0x280010, 0x0, 16, 16, 0x0⟩
/-- RLY_CREDIT.max (R368). -/
def Fld.rlyCredit_max : Fld := ⟨0x280014, 0x0, 0, 16, 0x0⟩
/-- RLY_CREDIT.waited (R368). -/
def Fld.rlyCredit_waited : Fld := ⟨0x280014, 0x0, 16, 16, 0x0⟩
/-- RLY_DISCARD.ring (R368). -/
def Fld.rlyDiscard_ring : Fld := ⟨0x280018, 0x0, 0, 16, 0x0⟩
/-- RLY_DISCARD.dest (R368). -/
def Fld.rlyDiscard_dest : Fld := ⟨0x280018, 0x0, 16, 16, 0x0⟩
/-- RLY_COMMIT.applied (R368). -/
def Fld.rlyCommit_applied : Fld := ⟨0x28001c, 0x0, 0, 16, 0x0⟩
/-- RLY_COMMIT.refused (R368). -/
def Fld.rlyCommit_refused : Fld := ⟨0x28001c, 0x0, 16, 16, 0x0⟩

/-- The registers of the RLY block. -/
def regsRly : List RegSpec := [
  ⟨0x280000, 1, 0x0, 1, .cdie, none, [⟨0, 1, .ro, false, 0x0, true⟩, ⟨1, 1, .w1c, true, 0x0, false⟩, ⟨2, 2, .ro, false, 0x0, true⟩, ⟨4, 4, .ro, false, 0x0, true⟩, ⟨8, 1, .ro, false, 0x0, true⟩, ⟨9, 1, .ro, false, 0x0, true⟩]⟩ /- RLY_STATUS -/,
  ⟨0x280004, 1, 0x0, 1, .cdie, none, [⟨0, 32, .ro, false, 0x0, true⟩]⟩ /- RLY_EPOCH -/,
  ⟨0x280008, 1, 0x0, 1, .cdie, none, [⟨0, 16, .ro, false, 0x0, true⟩, ⟨16, 16, .ro, false, 0x0, true⟩]⟩ /- RLY_LOAD -/,
  ⟨0x28000c, 1, 0x0, 1, .cdie, none, [⟨0, 32, .rc, false, 0x0, false⟩]⟩ /- RLY_BYTES -/,
  ⟨0x280010, 1, 0x0, 1, .cdie, none, [⟨0, 16, .rc, false, 0x0, false⟩, ⟨16, 16, .rc, false, 0x0, false⟩]⟩ /- RLY_ENTRIES -/,
  ⟨0x280014, 1, 0x0, 1, .cdie, none, [⟨0, 16, .ro, false, 0x0, true⟩, ⟨16, 16, .ro, false, 0x0, true⟩]⟩ /- RLY_CREDIT -/,
  ⟨0x280018, 1, 0x0, 1, .cdie, none, [⟨0, 16, .rc, false, 0x0, false⟩, ⟨16, 16, .rc, false, 0x0, false⟩]⟩ /- RLY_DISCARD -/,
  ⟨0x28001c, 1, 0x0, 1, .cdie, none, [⟨0, 16, .rc, false, 0x0, false⟩, ⟨16, 16, .rc, true, 0x0, false⟩]⟩ /- RLY_COMMIT -/]

/-! ### The RLYHub block -/

/-- RLY_PORT_STATUS.trained (R369). -/
def Fld.rlyPortStatus_trained : Fld := ⟨0x280000, 0x4000, 0, 1, 0x0⟩
/-- RLY_PORT_STATUS.in_service (R369). -/
def Fld.rlyPortStatus_in_service : Fld := ⟨0x280000, 0x4000, 1, 1, 0x0⟩
/-- RLY_PORT_STATUS.spare_used (R369). -/
def Fld.rlyPortStatus_spare_used : Fld := ⟨0x280000, 0x4000, 2, 1, 0x0⟩
/-- RLY_PORT_STATUS.half (R369). -/
def Fld.rlyPortStatus_half : Fld := ⟨0x280000, 0x4000, 3, 1, 0x0⟩
/-- RLY_PORT_STATUS.lost (R369). -/
def Fld.rlyPortStatus_lost : Fld := ⟨0x280000, 0x4000, 4, 1, 0x0⟩
/-- RLY_PORT_STATUS.lanes (R369). -/
def Fld.rlyPortStatus_lanes : Fld := ⟨0x280000, 0x4000, 8, 9, 0x0⟩
/-- RLY_PORT_STATUS.peer_pos (R369). -/
def Fld.rlyPortStatus_peer_pos : Fld := ⟨0x280000, 0x4000, 20, 2, 0x0⟩
/-- RLY_PORT_STATUS.peer_slot (R369). -/
def Fld.rlyPortStatus_peer_slot : Fld := ⟨0x280000, 0x4000, 24, 4, 0x0⟩
/-- RLY_PORT_FLITS.flits (R369). -/
def Fld.rlyPortFlits_flits : Fld := ⟨0x280004, 0x4000, 0, 32, 0x0⟩
/-- RLY_PORT_FEC.corrected (R369). -/
def Fld.rlyPortFec_corrected : Fld := ⟨0x280008, 0x4000, 0, 16, 0x0⟩
/-- RLY_PORT_FEC.uncorrectable (R369). -/
def Fld.rlyPortFec_uncorrectable : Fld := ⟨0x280008, 0x4000, 16, 16, 0x0⟩
/-- RLY_PORT_RETRY.replays (R369). -/
def Fld.rlyPortRetry_replays : Fld := ⟨0x28000c, 0x4000, 0, 16, 0x0⟩
/-- RLY_PORT_RETRY.retrains (R369). -/
def Fld.rlyPortRetry_retrains : Fld := ⟨0x28000c, 0x4000, 16, 16, 0x0⟩
/-- RLY_PORT_PEER_LO.serial (R369). -/
def Fld.rlyPortPeerLo_serial : Fld := ⟨0x280010, 0x4000, 0, 32, 0x0⟩
/-- RLY_PORT_PEER_HI.serial (R369). -/
def Fld.rlyPortPeerHi_serial : Fld := ⟨0x280014, 0x4000, 0, 32, 0x0⟩
/-- RLY_RING.modules (R369). -/
def Fld.rlyRing_modules : Fld := ⟨0x280018, 0x4000, 0, 2, 0x0⟩
/-- RLY_RING.position (R369). -/
def Fld.rlyRing_position : Fld := ⟨0x280018, 0x4000, 2, 2, 0x0⟩
/-- RLY_RING.ring_up (R369). -/
def Fld.rlyRing_ring_up : Fld := ⟨0x280018, 0x4000, 4, 1, 0x0⟩
/-- RLY_RING.census_fail (R369). -/
def Fld.rlyRing_census_fail : Fld := ⟨0x280018, 0x4000, 5, 1, 0x0⟩
/-- RLY_RING.mismatch (R369). -/
def Fld.rlyRing_mismatch : Fld := ⟨0x280018, 0x4000, 6, 1, 0x0⟩

/-- The registers of the RLYHub block. -/
def regsRlyHub : List RegSpec := [
  ⟨0x280000, 4, 0x4000, 1, .hub, none, [⟨0, 1, .ro, false, 0x0, true⟩, ⟨1, 1, .ro, false, 0x0, true⟩, ⟨2, 1, .ro, false, 0x0, true⟩, ⟨3, 1, .ro, false, 0x0, true⟩, ⟨4, 1, .ro, false, 0x0, true⟩, ⟨8, 9, .ro, false, 0x0, true⟩, ⟨20, 2, .ro, false, 0x0, true⟩, ⟨24, 4, .ro, false, 0x0, true⟩]⟩ /- RLY_PORT_STATUS -/,
  ⟨0x280004, 4, 0x4000, 1, .hub, none, [⟨0, 32, .rc, false, 0x0, false⟩]⟩ /- RLY_PORT_FLITS -/,
  ⟨0x280008, 4, 0x4000, 1, .hub, none, [⟨0, 16, .rc, false, 0x0, false⟩, ⟨16, 16, .rc, false, 0x0, false⟩]⟩ /- RLY_PORT_FEC -/,
  ⟨0x28000c, 4, 0x4000, 1, .hub, none, [⟨0, 16, .rc, false, 0x0, false⟩, ⟨16, 16, .rc, false, 0x0, false⟩]⟩ /- RLY_PORT_RETRY -/,
  ⟨0x280010, 4, 0x4000, 1, .hub, none, [⟨0, 32, .ro, false, 0x0, true⟩]⟩ /- RLY_PORT_PEER_LO -/,
  ⟨0x280014, 4, 0x4000, 1, .hub, none, [⟨0, 32, .ro, false, 0x0, true⟩]⟩ /- RLY_PORT_PEER_HI -/,
  ⟨0x280018, 4, 0x4000, 1, .hub, none, [⟨0, 2, .ro, false, 0x0, true⟩, ⟨2, 2, .ro, false, 0x0, true⟩, ⟨4, 1, .ro, false, 0x0, true⟩, ⟨5, 1, .ro, false, 0x0, true⟩, ⟨6, 1, .ro, false, 0x0, true⟩]⟩ /- RLY_RING -/]

/-! ### The DMA block -/

/-- DMA_STATUS.active (R390). -/
def Fld.dmaStatus_active : Fld := ⟨0x80000, 0x10000, 0, 7, 0x0⟩
/-- DMA_STATUS.halted (R390). -/
def Fld.dmaStatus_halted : Fld := ⟨0x80000, 0x10000, 8, 7, 0x0⟩
/-- DMA_STATUS.paused (R390). -/
def Fld.dmaStatus_paused : Fld := ⟨0x80000, 0x10000, 16, 7, 0x0⟩
/-- DMA_DOORBELL.channel (R390). -/
def Fld.dmaDoorbell_channel : Fld := ⟨0x80004, 0x10000, 0, 6, 0x0⟩
/-- DMA_LOAD.busy (R390). -/
def Fld.dmaLoad_busy : Fld := ⟨0x80008, 0x10000, 0, 16, 0x0⟩
/-- DMA_LOAD.descs (R390). -/
def Fld.dmaLoad_descs : Fld := ⟨0x80008, 0x10000, 16, 16, 0x0⟩
/-- DMA_BYTES.bytes (R390). -/
def Fld.dmaBytes_bytes : Fld := ⟨0x8000c, 0x10000, 0, 32, 0x0⟩
/-- DMA_CH_SEL.channel (R390). -/
def Fld.dmaChSel_channel : Fld := ⟨0x80010, 0x10000, 0, 6, 0x0⟩
/-- DMA_CH_STATUS.state (R390). -/
def Fld.dmaChStatus_state : Fld := ⟨0x80014, 0x10000, 0, 3, 0x0⟩
/-- DMA_CH_STATUS.pending (R390). -/
def Fld.dmaChStatus_pending : Fld := ⟨0x80014, 0x10000, 3, 1, 0x0⟩
/-- DMA_CH_STATUS.error (R390). -/
def Fld.dmaChStatus_error : Fld := ⟨0x80014, 0x10000, 4, 4, 0x0⟩
/-- DMA_CH_STATUS.feeder (R390). -/
def Fld.dmaChStatus_feeder : Fld := ⟨0x80014, 0x10000, 8, 1, 0x0⟩
/-- DMA_CH_STATUS.safety (R390). -/
def Fld.dmaChStatus_safety : Fld := ⟨0x80014, 0x10000, 9, 1, 0x0⟩
/-- DMA_CH_STATUS.index (R390). -/
def Fld.dmaChStatus_index : Fld := ⟨0x80014, 0x10000, 16, 16, 0x0⟩
/-- DMA_CH_OFFSET.offset (R390). -/
def Fld.dmaChOffset_offset : Fld := ⟨0x80018, 0x10000, 0, 32, 0x0⟩
/-- DMA_CH_CTL.pause (R390). -/
def Fld.dmaChCtl_pause : Fld := ⟨0x8001c, 0x10000, 0, 1, 0x0⟩
/-- DMA_CH_CTL.retry (R390). -/
def Fld.dmaChCtl_retry : Fld := ⟨0x8001c, 0x10000, 1, 1, 0x0⟩
/-- DMA_CH_CTL.skip (R390). -/
def Fld.dmaChCtl_skip : Fld := ⟨0x8001c, 0x10000, 2, 1, 0x0⟩
/-- DMA_CH_MASK_LO.mask (R390). -/
def Fld.dmaChMaskLo_mask : Fld := ⟨0x80020, 0x10000, 0, 32, 0x0⟩
/-- DMA_CH_MASK_HI.mask (R390). -/
def Fld.dmaChMaskHi_mask : Fld := ⟨0x80024, 0x10000, 0, 32, 0x0⟩
/-- DMA_CH_ADDR_LO.addr (R390). -/
def Fld.dmaChAddrLo_addr : Fld := ⟨0x80028, 0x10000, 0, 32, 0x0⟩
/-- DMA_CH_ADDR_HI.addr (R390). -/
def Fld.dmaChAddrHi_addr : Fld := ⟨0x8002c, 0x10000, 0, 8, 0x0⟩
/-- DMA_CH_DONE.done (R390). -/
def Fld.dmaChDone_done : Fld := ⟨0x80030, 0x10000, 0, 32, 0x0⟩
/-- DMA_CH_ERR.halts (R390). -/
def Fld.dmaChErr_halts : Fld := ⟨0x80034, 0x10000, 0, 16, 0x0⟩
/-- DMA_CH_ERR.poison (R390). -/
def Fld.dmaChErr_poison : Fld := ⟨0x80034, 0x10000, 16, 16, 0x0⟩

/-- The registers of the DMA block. -/
def regsDma : List RegSpec := [
  ⟨0x80000, 8, 0x10000, 1, .cdie, none, [⟨0, 7, .ro, false, 0x0, true⟩, ⟨8, 7, .ro, false, 0x0, true⟩, ⟨16, 7, .ro, false, 0x0, true⟩]⟩ /- DMA_STATUS -/,
  ⟨0x80004, 8, 0x10000, 1, .cdie, none, [⟨0, 6, .wo, true, 0x0, false⟩]⟩ /- DMA_DOORBELL -/,
  ⟨0x80008, 8, 0x10000, 1, .cdie, none, [⟨0, 16, .ro, false, 0x0, true⟩, ⟨16, 16, .ro, false, 0x0, true⟩]⟩ /- DMA_LOAD -/,
  ⟨0x8000c, 8, 0x10000, 1, .cdie, none, [⟨0, 32, .rc, false, 0x0, false⟩]⟩ /- DMA_BYTES -/,
  ⟨0x80010, 8, 0x10000, 1, .cdie, none, [⟨0, 6, .rw, false, 0x0, false⟩]⟩ /- DMA_CH_SEL -/,
  ⟨0x80014, 8, 0x10000, 1, .cdie, (some 0x80010), [⟨0, 3, .ro, false, 0x0, false⟩, ⟨3, 1, .ro, false, 0x0, false⟩, ⟨4, 4, .ro, false, 0x0, false⟩, ⟨8, 1, .ro, false, 0x0, false⟩, ⟨9, 1, .ro, false, 0x0, false⟩, ⟨16, 16, .ro, false, 0x0, false⟩]⟩ /- DMA_CH_STATUS -/,
  ⟨0x80018, 8, 0x10000, 1, .cdie, (some 0x80010), [⟨0, 32, .ro, false, 0x0, false⟩]⟩ /- DMA_CH_OFFSET -/,
  ⟨0x8001c, 8, 0x10000, 1, .cdie, (some 0x80010), [⟨0, 1, .rw, true, 0x0, false⟩, ⟨1, 1, .w1s, true, 0x0, false⟩, ⟨2, 1, .w1s, true, 0x0, false⟩]⟩ /- DMA_CH_CTL -/,
  ⟨0x80020, 8, 0x10000, 1, .cdie, (some 0x80010), [⟨0, 32, .ro, false, 0x0, false⟩]⟩ /- DMA_CH_MASK_LO -/,
  ⟨0x80024, 8, 0x10000, 1, .cdie, (some 0x80010), [⟨0, 32, .ro, false, 0x0, false⟩]⟩ /- DMA_CH_MASK_HI -/,
  ⟨0x80028, 8, 0x10000, 1, .cdie, (some 0x80010), [⟨0, 32, .ro, true, 0x0, false⟩]⟩ /- DMA_CH_ADDR_LO -/,
  ⟨0x8002c, 8, 0x10000, 1, .cdie, (some 0x80010), [⟨0, 8, .ro, true, 0x0, false⟩]⟩ /- DMA_CH_ADDR_HI -/,
  ⟨0x80030, 8, 0x10000, 1, .cdie, (some 0x80010), [⟨0, 32, .rc, false, 0x0, false⟩]⟩ /- DMA_CH_DONE -/,
  ⟨0x80034, 8, 0x10000, 1, .cdie, (some 0x80010), [⟨0, 16, .rc, false, 0x0, false⟩, ⟨16, 16, .rc, false, 0x0, false⟩]⟩ /- DMA_CH_ERR -/]

/-! ### The MEM block -/

/-- MEM_STATUS.trained (R418). -/
def Fld.memStatus_trained : Fld := ⟨0x100000, 0x10000, 0, 1, 0x0⟩
/-- MEM_STATUS.self_refresh (R418). -/
def Fld.memStatus_self_refresh : Fld := ⟨0x100000, 0x10000, 1, 1, 0x0⟩
/-- MEM_STATUS.calibrating (R418). -/
def Fld.memStatus_calibrating : Fld := ⟨0x100000, 0x10000, 2, 1, 0x0⟩
/-- MEM_STATUS.due (R418). -/
def Fld.memStatus_due : Fld := ⟨0x100000, 0x10000, 3, 1, 0x0⟩
/-- MEM_STATUS.retiring (R418). -/
def Fld.memStatus_retiring : Fld := ⟨0x100000, 0x10000, 4, 1, 0x0⟩
/-- MEM_STATUS.exhausted (R418). -/
def Fld.memStatus_exhausted : Fld := ⟨0x100000, 0x10000, 5, 1, 0x0⟩
/-- MEM_STATUS.hot (R418). -/
def Fld.memStatus_hot : Fld := ⟨0x100000, 0x10000, 6, 1, 0x0⟩
/-- MEM_STATUS.temp (R418). -/
def Fld.memStatus_temp : Fld := ⟨0x100000, 0x10000, 8, 8, 0x0⟩
/-- MEM_ECC.corrected (R418). -/
def Fld.memEcc_corrected : Fld := ⟨0x100004, 0x10000, 0, 16, 0x0⟩
/-- MEM_ECC.uncorrectable (R418). -/
def Fld.memEcc_uncorrectable : Fld := ⟨0x100004, 0x10000, 16, 16, 0x0⟩
/-- MEM_ECC_LAST.pin (R418). -/
def Fld.memEccLast_pin : Fld := ⟨0x100008, 0x10000, 0, 6, 0x0⟩
/-- MEM_ECC_LAST.beats (R418). -/
def Fld.memEccLast_beats : Fld := ⟨0x100008, 0x10000, 6, 2, 0x0⟩
/-- MEM_ECC_LAST.check (R418). -/
def Fld.memEccLast_check : Fld := ⟨0x100008, 0x10000, 8, 1, 0x0⟩
/-- MEM_ECC_LAST.kind (R418). -/
def Fld.memEccLast_kind : Fld := ⟨0x100008, 0x10000, 9, 2, 0x0⟩
/-- MEM_ECC_LAST.locked (R418). -/
def Fld.memEccLast_locked : Fld := ⟨0x100008, 0x10000, 11, 1, 0x0⟩
/-- MEM_ECC_LAST.valid (R418). -/
def Fld.memEccLast_valid : Fld := ⟨0x100008, 0x10000, 31, 1, 0x0⟩
/-- MEM_ECC_ADDR_LO.addr (R418). -/
def Fld.memEccAddrLo_addr : Fld := ⟨0x10000c, 0x10000, 0, 32, 0x0⟩
/-- MEM_ECC_ADDR_HI.addr (R418). -/
def Fld.memEccAddrHi_addr : Fld := ⟨0x100010, 0x10000, 0, 8, 0x0⟩
/-- MEM_PATROL.slice (R418). -/
def Fld.memPatrol_slice : Fld := ⟨0x100014, 0x10000, 0, 21, 0x0⟩
/-- MEM_PATROL.passes (R418). -/
def Fld.memPatrol_passes : Fld := ⟨0x100014, 0x10000, 24, 8, 0x0⟩
/-- MEM_RETIRE.retired (R418). -/
def Fld.memRetire_retired : Fld := ⟨0x100018, 0x10000, 0, 16, 0x0⟩
/-- MEM_RETIRE.queued (R418). -/
def Fld.memRetire_queued : Fld := ⟨0x100018, 0x10000, 16, 16, 0x0⟩
/-- MEM_PIN.failed_lo (R418). -/
def Fld.memPin_failed_lo : Fld := ⟨0x10001c, 0x10000, 0, 32, 0x0⟩
/-- MEM_PIN_HI.failed_hi (R418). -/
def Fld.memPinHi_failed_hi : Fld := ⟨0x100020, 0x10000, 0, 32, 0x0⟩
/-- MEM_CAL.forced (R418). -/
def Fld.memCal_forced : Fld := ⟨0x100024, 0x10000, 0, 16, 0x0⟩
/-- MEM_CAL.deferred (R418). -/
def Fld.memCal_deferred : Fld := ⟨0x100024, 0x10000, 16, 16, 0x0⟩
/-- MEM_QUIET.open (R418). -/
def Fld.memQuiet_open : Fld := ⟨0x100028, 0x10000, 0, 16, 0x0⟩
/-- MEM_QUIET.close (R418). -/
def Fld.memQuiet_close : Fld := ⟨0x100028, 0x10000, 16, 16, 0x0⟩
/-- MEM_LOCKED.discarded (R418). -/
def Fld.memLocked_discarded : Fld := ⟨0x100038, 0x10000, 0, 32, 0x0⟩
/-- MEM_LOCKED_ADDR_LO.addr (R418). -/
def Fld.memLockedAddrLo_addr : Fld := ⟨0x10003c, 0x10000, 0, 32, 0x0⟩
/-- MEM_LOCKED_ADDR_HI.addr (R418). -/
def Fld.memLockedAddrHi_addr : Fld := ⟨0x100040, 0x10000, 0, 8, 0x0⟩
/-- MEM_LOCKED_ADDR_HI.valid (R418). -/
def Fld.memLockedAddrHi_valid : Fld := ⟨0x100040, 0x10000, 31, 1, 0x0⟩
/-- MEM_LOAD.busy (R418). -/
def Fld.memLoad_busy : Fld := ⟨0x100044, 0x10000, 0, 16, 0x0⟩
/-- MEM_LOAD.maint (R418). -/
def Fld.memLoad_maint : Fld := ⟨0x100044, 0x10000, 16, 16, 0x0⟩
/-- MEM_RMW.merges (R418). -/
def Fld.memRmw_merges : Fld := ⟨0x100048, 0x10000, 0, 32, 0x0⟩

/-- The registers of the MEM block. -/
def regsMem : List RegSpec := [
  ⟨0x100000, 8, 0x10000, 1, .cdie, none, [⟨0, 1, .ro, false, 0x0, true⟩, ⟨1, 1, .ro, false, 0x0, true⟩, ⟨2, 1, .ro, false, 0x0, true⟩, ⟨3, 1, .ro, false, 0x0, true⟩, ⟨4, 1, .ro, false, 0x0, true⟩, ⟨5, 1, .ro, false, 0x0, true⟩, ⟨6, 1, .ro, false, 0x0, true⟩, ⟨8, 8, .ro, false, 0x0, true⟩]⟩ /- MEM_STATUS -/,
  ⟨0x100004, 8, 0x10000, 1, .cdie, none, [⟨0, 16, .rc, false, 0x0, false⟩, ⟨16, 16, .rc, false, 0x0, false⟩]⟩ /- MEM_ECC -/,
  ⟨0x100008, 8, 0x10000, 1, .cdie, none, [⟨0, 6, .ro, true, 0x0, true⟩, ⟨6, 2, .ro, true, 0x0, true⟩, ⟨8, 1, .ro, true, 0x0, true⟩, ⟨9, 2, .ro, true, 0x0, true⟩, ⟨11, 1, .ro, true, 0x0, true⟩, ⟨31, 1, .w1c, true, 0x0, false⟩]⟩ /- MEM_ECC_LAST -/,
  ⟨0x10000c, 8, 0x10000, 1, .cdie, none, [⟨0, 32, .ro, true, 0x0, true⟩]⟩ /- MEM_ECC_ADDR_LO -/,
  ⟨0x100010, 8, 0x10000, 1, .cdie, none, [⟨0, 8, .ro, true, 0x0, true⟩]⟩ /- MEM_ECC_ADDR_HI -/,
  ⟨0x100014, 8, 0x10000, 1, .cdie, none, [⟨0, 21, .ro, false, 0x0, true⟩, ⟨24, 8, .ro, false, 0x0, true⟩]⟩ /- MEM_PATROL -/,
  ⟨0x100018, 8, 0x10000, 1, .cdie, none, [⟨0, 16, .ro, false, 0x0, true⟩, ⟨16, 16, .ro, false, 0x0, true⟩]⟩ /- MEM_RETIRE -/,
  ⟨0x10001c, 8, 0x10000, 1, .cdie, none, [⟨0, 32, .ro, false, 0x0, true⟩]⟩ /- MEM_PIN -/,
  ⟨0x100020, 8, 0x10000, 1, .cdie, none, [⟨0, 32, .ro, false, 0x0, true⟩]⟩ /- MEM_PIN_HI -/,
  ⟨0x100024, 8, 0x10000, 1, .cdie, none, [⟨0, 16, .rc, false, 0x0, false⟩, ⟨16, 16, .ro, false, 0x0, true⟩]⟩ /- MEM_CAL -/,
  ⟨0x100028, 8, 0x10000, 4, .cdie, none, [⟨0, 16, .ro, false, 0x0, true⟩, ⟨16, 16, .ro, false, 0x0, true⟩]⟩ /- MEM_QUIET -/,
  ⟨0x100038, 8, 0x10000, 1, .cdie, none, [⟨0, 32, .rc, false, 0x0, false⟩]⟩ /- MEM_LOCKED -/,
  ⟨0x10003c, 8, 0x10000, 1, .cdie, none, [⟨0, 32, .ro, true, 0x0, true⟩]⟩ /- MEM_LOCKED_ADDR_LO -/,
  ⟨0x100040, 8, 0x10000, 1, .cdie, none, [⟨0, 8, .ro, true, 0x0, true⟩, ⟨31, 1, .w1c, true, 0x0, false⟩]⟩ /- MEM_LOCKED_ADDR_HI -/,
  ⟨0x100044, 8, 0x10000, 1, .cdie, none, [⟨0, 16, .ro, false, 0x0, true⟩, ⟨16, 16, .ro, false, 0x0, true⟩]⟩ /- MEM_LOAD -/,
  ⟨0x100048, 8, 0x10000, 1, .cdie, none, [⟨0, 32, .rc, false, 0x0, false⟩]⟩ /- MEM_RMW -/]

/-! ### The ETH block -/

/-- ETH_STATUS.link_up (R441). -/
def Fld.ethStatus_link_up : Fld := ⟨0x350000, 0x4000, 0, 1, 0x0⟩
/-- ETH_STATUS.speed (R441). -/
def Fld.ethStatus_speed : Fld := ⟨0x350000, 0x4000, 1, 3, 0x0⟩
/-- ETH_STATUS.macsec_up (R441). -/
def Fld.ethStatus_macsec_up : Fld := ⟨0x350000, 0x4000, 4, 1, 0x0⟩
/-- ETH_STATUS.ptp_slave (R441). -/
def Fld.ethStatus_ptp_slave : Fld := ⟨0x350000, 0x4000, 5, 1, 0x0⟩
/-- ETH_STATUS.gate_on (R441). -/
def Fld.ethStatus_gate_on : Fld := ⟨0x350000, 0x4000, 6, 1, 0x0⟩
/-- ETH_TX.frames (R441). -/
def Fld.ethTx_frames : Fld := ⟨0x350004, 0x4000, 0, 32, 0x0⟩
/-- ETH_RX.frames (R441). -/
def Fld.ethRx_frames : Fld := ⟨0x350008, 0x4000, 0, 32, 0x0⟩
/-- ETH_RX_DROP.fcs (R441). -/
def Fld.ethRxDrop_fcs : Fld := ⟨0x35000c, 0x4000, 0, 16, 0x0⟩
/-- ETH_RX_DROP.filter (R441). -/
def Fld.ethRxDrop_filter : Fld := ⟨0x35000c, 0x4000, 16, 16, 0x0⟩
/-- ETH_MACSEC.icv_fail (R441). -/
def Fld.ethMacsec_icv_fail : Fld := ⟨0x350010, 0x4000, 0, 16, 0x0⟩
/-- ETH_MACSEC.replay (R441). -/
def Fld.ethMacsec_replay : Fld := ⟨0x350010, 0x4000, 16, 16, 0x0⟩
/-- ETH_OVERRUN.deferred (R441). -/
def Fld.ethOverrun_deferred : Fld := ⟨0x350014, 0x4000, 0, 16, 0x0⟩
/-- ETH_OVERRUN.retrains (R441). -/
def Fld.ethOverrun_retrains : Fld := ⟨0x350014, 0x4000, 16, 16, 0x0⟩
/-- ETH_PEER_DELAY.delay (R441). -/
def Fld.ethPeerDelay_delay : Fld := ⟨0x350018, 0x4000, 0, 32, 0x0⟩

/-- The registers of the ETH block. -/
def regsEth : List RegSpec := [
  ⟨0x350000, 3, 0x4000, 1, .hub, none, [⟨0, 1, .ro, false, 0x0, true⟩, ⟨1, 3, .ro, false, 0x0, true⟩, ⟨4, 1, .ro, false, 0x0, true⟩, ⟨5, 1, .ro, false, 0x0, true⟩, ⟨6, 1, .ro, false, 0x0, true⟩]⟩ /- ETH_STATUS -/,
  ⟨0x350004, 3, 0x4000, 1, .hub, none, [⟨0, 32, .rc, false, 0x0, false⟩]⟩ /- ETH_TX -/,
  ⟨0x350008, 3, 0x4000, 1, .hub, none, [⟨0, 32, .rc, false, 0x0, false⟩]⟩ /- ETH_RX -/,
  ⟨0x35000c, 3, 0x4000, 1, .hub, none, [⟨0, 16, .rc, false, 0x0, false⟩, ⟨16, 16, .rc, false, 0x0, false⟩]⟩ /- ETH_RX_DROP -/,
  ⟨0x350010, 3, 0x4000, 1, .hub, none, [⟨0, 16, .rc, true, 0x0, false⟩, ⟨16, 16, .rc, true, 0x0, false⟩]⟩ /- ETH_MACSEC -/,
  ⟨0x350014, 3, 0x4000, 1, .hub, none, [⟨0, 16, .rc, false, 0x0, false⟩, ⟨16, 16, .rc, false, 0x0, false⟩]⟩ /- ETH_OVERRUN -/,
  ⟨0x350018, 3, 0x4000, 1, .hub, none, [⟨0, 32, .ro, false, 0x0, true⟩]⟩ /- ETH_PEER_DELAY -/]

/-! ### The TSN block -/

/-- TSN_TIME.synced (R442). -/
def Fld.tsnTime_synced : Fld := ⟨0x360000, 0x0, 0, 1, 0x0⟩
/-- TSN_TIME.holdover (R442). -/
def Fld.tsnTime_holdover : Fld := ⟨0x360000, 0x0, 1, 1, 0x0⟩
/-- TSN_TIME.port (R442). -/
def Fld.tsnTime_port : Fld := ⟨0x360000, 0x0, 2, 1, 0x0⟩
/-- TSN_TIME.epoch (R442). -/
def Fld.tsnTime_epoch : Fld := ⟨0x360000, 0x0, 16, 16, 0x0⟩
/-- TSN_OFFSET.offset (R442). -/
def Fld.tsnOffset_offset : Fld := ⟨0x360004, 0x0, 0, 32, 0x0⟩
/-- TSN_RATE.rate (R442). -/
def Fld.tsnRate_rate : Fld := ⟨0x360008, 0x0, 0, 32, 0x0⟩
/-- TSN_WALL_LO.wall (R442). -/
def Fld.tsnWallLo_wall : Fld := ⟨0x36000c, 0x0, 0, 32, 0x0⟩
/-- TSN_WALL_HI.wall (R442). -/
def Fld.tsnWallHi_wall : Fld := ⟨0x360010, 0x0, 0, 32, 0x0⟩
/-- TSN_STEPS.back (R442). -/
def Fld.tsnSteps_back : Fld := ⟨0x360014, 0x0, 0, 16, 0x0⟩
/-- TSN_STEPS.forward (R442). -/
def Fld.tsnSteps_forward : Fld := ⟨0x360014, 0x0, 16, 16, 0x0⟩
/-- TSN_STR_SEL.stream (R442). -/
def Fld.tsnStrSel_stream : Fld := ⟨0x360018, 0x0, 0, 6, 0x0⟩
/-- TSN_STR_SEQ.seq (R442). -/
def Fld.tsnStrSeq_seq : Fld := ⟨0x36001c, 0x0, 0, 32, 0x0⟩
/-- TSN_STR_FRAME.frame (R442). -/
def Fld.tsnStrFrame_frame : Fld := ⟨0x360020, 0x0, 0, 32, 0x0⟩
/-- TSN_STR_KINDS.tombstones (R442). -/
def Fld.tsnStrKinds_tombstones : Fld := ⟨0x360024, 0x0, 0, 16, 0x0⟩
/-- TSN_STR_KINDS.fallbacks (R442). -/
def Fld.tsnStrKinds_fallbacks : Fld := ⟨0x360024, 0x0, 16, 16, 0x0⟩
/-- TSN_STR_DECIM.decimated (R442). -/
def Fld.tsnStrDecim_decimated : Fld := ⟨0x360028, 0x0, 0, 16, 0x0⟩
/-- TSN_STR_DECIM.backlog (R442). -/
def Fld.tsnStrDecim_backlog : Fld := ⟨0x360028, 0x0, 16, 16, 0x0⟩
/-- TSN_ING_SEL.stream (R442). -/
def Fld.tsnIngSel_stream : Fld := ⟨0x36002c, 0x0, 0, 5, 0x0⟩
/-- TSN_ING_COUNT.accepted (R442). -/
def Fld.tsnIngCount_accepted : Fld := ⟨0x360030, 0x0, 0, 16, 0x0⟩
/-- TSN_ING_COUNT.dropped (R442). -/
def Fld.tsnIngCount_dropped : Fld := ⟨0x360030, 0x0, 16, 16, 0x0⟩
/-- TSN_CB.eliminated (R442). -/
def Fld.tsnCb_eliminated : Fld := ⟨0x360034, 0x0, 0, 16, 0x0⟩
/-- TSN_CB.lost (R442). -/
def Fld.tsnCb_lost : Fld := ⟨0x360034, 0x0, 16, 16, 0x0⟩

/-- The registers of the TSN block. -/
def regsTsn : List RegSpec := [
  ⟨0x360000, 1, 0x0, 1, .hub, none, [⟨0, 1, .ro, false, 0x0, true⟩, ⟨1, 1, .ro, false, 0x0, true⟩, ⟨2, 1, .ro, false, 0x0, true⟩, ⟨16, 16, .ro, false, 0x0, true⟩]⟩ /- TSN_TIME -/,
  ⟨0x360004, 1, 0x0, 1, .hub, none, [⟨0, 32, .ro, false, 0x0, true⟩]⟩ /- TSN_OFFSET -/,
  ⟨0x360008, 1, 0x0, 1, .hub, none, [⟨0, 32, .ro, false, 0x0, true⟩]⟩ /- TSN_RATE -/,
  ⟨0x36000c, 1, 0x0, 1, .hub, none, [⟨0, 32, .ro, false, 0x0, false⟩]⟩ /- TSN_WALL_LO -/,
  ⟨0x360010, 1, 0x0, 1, .hub, none, [⟨0, 32, .ro, false, 0x0, false⟩]⟩ /- TSN_WALL_HI -/,
  ⟨0x360014, 1, 0x0, 1, .hub, none, [⟨0, 16, .ro, false, 0x0, true⟩, ⟨16, 16, .ro, false, 0x0, true⟩]⟩ /- TSN_STEPS -/,
  ⟨0x360018, 1, 0x0, 1, .hub, none, [⟨0, 6, .rw, false, 0x0, false⟩]⟩ /- TSN_STR_SEL -/,
  ⟨0x36001c, 1, 0x0, 1, .hub, (some 0x360018), [⟨0, 32, .ro, false, 0x0, true⟩]⟩ /- TSN_STR_SEQ -/,
  ⟨0x360020, 1, 0x0, 1, .hub, (some 0x360018), [⟨0, 32, .ro, false, 0x0, true⟩]⟩ /- TSN_STR_FRAME -/,
  ⟨0x360024, 1, 0x0, 1, .hub, (some 0x360018), [⟨0, 16, .rc, false, 0x0, false⟩, ⟨16, 16, .rc, false, 0x0, false⟩]⟩ /- TSN_STR_KINDS -/,
  ⟨0x360028, 1, 0x0, 1, .hub, (some 0x360018), [⟨0, 16, .rc, false, 0x0, false⟩, ⟨16, 16, .ro, false, 0x0, true⟩]⟩ /- TSN_STR_DECIM -/,
  ⟨0x36002c, 1, 0x0, 1, .hub, none, [⟨0, 5, .rw, false, 0x0, false⟩]⟩ /- TSN_ING_SEL -/,
  ⟨0x360030, 1, 0x0, 1, .hub, (some 0x36002c), [⟨0, 16, .rc, false, 0x0, false⟩, ⟨16, 16, .rc, false, 0x0, false⟩]⟩ /- TSN_ING_COUNT -/,
  ⟨0x360034, 1, 0x0, 1, .hub, (some 0x36002c), [⟨0, 16, .rc, false, 0x0, false⟩, ⟨16, 16, .rc, false, 0x0, false⟩]⟩ /- TSN_CB -/]

/-! ### The SAF block -/

/-- SAF_RAISED.classes (R471). -/
def Fld.safRaised_classes : Fld := ⟨0x2a0000, 0x0, 0, 21, 0x0⟩
/-- SAF_FIRST.class (R471). -/
def Fld.safFirst_class : Fld := ⟨0x2a0004, 0x0, 0, 5, 0x0⟩
/-- SAF_FIRST.valid (R471). -/
def Fld.safFirst_valid : Fld := ⟨0x2a0004, 0x0, 31, 1, 0x0⟩
/-- SAF_FIRST_FRAME.frame (R471). -/
def Fld.safFirstFrame_frame : Fld := ⟨0x2a0008, 0x0, 0, 32, 0x0⟩
/-- SAF_ACTIVE.classes (R471). -/
def Fld.safActive_classes : Fld := ⟨0x2a000c, 0x0, 0, 21, 0x0⟩
/-- SAF_MODE.mode (R471). -/
def Fld.safMode_mode : Fld := ⟨0x2a0010, 0x0, 0, 2, 0x0⟩
/-- SAF_MODE.request (R471). -/
def Fld.safMode_request : Fld := ⟨0x2a0010, 0x0, 16, 16, 0x0⟩
/-- SAF_COUNT.doubts (R471). -/
def Fld.safCount_doubts : Fld := ⟨0x2a0014, 0x0, 0, 16, 0x0⟩
/-- SAF_COUNT.cold_req (R471). -/
def Fld.safCount_cold_req : Fld := ⟨0x2a0014, 0x0, 16, 16, 0x0⟩

/-- The registers of the SAF block. -/
def regsSaf : List RegSpec := [
  ⟨0x2a0000, 1, 0x0, 1, .both, none, [⟨0, 21, .w1c, true, 0x0, false⟩]⟩ /- SAF_RAISED -/,
  ⟨0x2a0004, 1, 0x0, 1, .both, none, [⟨0, 5, .ro, true, 0x0, false⟩, ⟨31, 1, .w1c, true, 0x0, false⟩]⟩ /- SAF_FIRST -/,
  ⟨0x2a0008, 1, 0x0, 1, .both, none, [⟨0, 32, .ro, true, 0x0, false⟩]⟩ /- SAF_FIRST_FRAME -/,
  ⟨0x2a000c, 1, 0x0, 1, .hub, none, [⟨0, 21, .ro, false, 0x0, false⟩]⟩ /- SAF_ACTIVE -/,
  ⟨0x2a0010, 1, 0x0, 1, .hub, none, [⟨0, 2, .ro, false, 0x0, false⟩, ⟨16, 16, .ro, false, 0x0, false⟩]⟩ /- SAF_MODE -/,
  ⟨0x2a0014, 1, 0x0, 1, .hub, none, [⟨0, 16, .rc, false, 0x0, false⟩, ⟨16, 16, .ro, false, 0x0, false⟩]⟩ /- SAF_COUNT -/]

/-! ### The STR block -/

/-- STR_STATUS.main (R472). -/
def Fld.strStatus_main : Fld := ⟨0x370000, 0x0, 0, 7, 0x0⟩
/-- STR_STATUS.cosy (R472). -/
def Fld.strStatus_cosy : Fld := ⟨0x370000, 0x0, 8, 7, 0x0⟩
/-- STR_STATUS.returning (R472). -/
def Fld.strStatus_returning : Fld := ⟨0x370000, 0x0, 16, 7, 0x0⟩
/-- STR_STATUS.cover_lost (R472). -/
def Fld.strStatus_cover_lost : Fld := ⟨0x370000, 0x0, 23, 1, 0x0⟩
/-- STR_SEL.stream (R472). -/
def Fld.strSel_stream : Fld := ⟨0x370004, 0x0, 0, 6, 0x0⟩
/-- STR_STREAM.state (R472). -/
def Fld.strStream_state : Fld := ⟨0x370008, 0x0, 0, 2, 0x0⟩
/-- STR_STREAM.paired (R472). -/
def Fld.strStream_paired : Fld := ⟨0x370008, 0x0, 2, 1, 0x0⟩
/-- STR_STREAM.cover (R472). -/
def Fld.strStream_cover : Fld := ⟨0x370008, 0x0, 3, 1, 0x0⟩
/-- STR_STREAM.clean (R472). -/
def Fld.strStream_clean : Fld := ⟨0x370008, 0x0, 8, 8, 0x0⟩
/-- STR_DECIDED.frame (R472). -/
def Fld.strDecided_frame : Fld := ⟨0x37000c, 0x0, 0, 32, 0x0⟩
/-- STR_LATE.main_late (R472). -/
def Fld.strLate_main_late : Fld := ⟨0x370010, 0x0, 0, 16, 0x0⟩
/-- STR_LATE.cosy_absent (R472). -/
def Fld.strLate_cosy_absent : Fld := ⟨0x370010, 0x0, 16, 16, 0x0⟩
/-- STR_POISON.refused (R472). -/
def Fld.strPoison_refused : Fld := ⟨0x370014, 0x0, 0, 16, 0x0⟩
/-- STR_SWITCH.to_cosy (R472). -/
def Fld.strSwitch_to_cosy : Fld := ⟨0x370018, 0x0, 0, 16, 0x0⟩
/-- STR_SWITCH.to_main (R472). -/
def Fld.strSwitch_to_main : Fld := ⟨0x370018, 0x0, 16, 16, 0x0⟩
/-- STR_DIV_SEL.pair (R472). -/
def Fld.strDivSel_pair : Fld := ⟨0x37001c, 0x0, 0, 5, 0x0⟩
/-- STR_DIV.compared (R472). -/
def Fld.strDiv_compared : Fld := ⟨0x370020, 0x0, 0, 13, 0x0⟩
/-- STR_DIV.disagreed (R472). -/
def Fld.strDiv_disagreed : Fld := ⟨0x370020, 0x0, 13, 13, 0x0⟩
/-- STR_DIV.verdict (R472). -/
def Fld.strDiv_verdict : Fld := ⟨0x370020, 0x0, 26, 2, 0x0⟩
/-- STR_DIV_COUNT.disagree (R472). -/
def Fld.strDivCount_disagree : Fld := ⟨0x370024, 0x0, 0, 16, 0x0⟩
/-- STR_DIV_COUNT.inconclusive (R472). -/
def Fld.strDivCount_inconclusive : Fld := ⟨0x370024, 0x0, 16, 16, 0x0⟩

/-- The registers of the STR block. -/
def regsStr : List RegSpec := [
  ⟨0x370000, 1, 0x0, 1, .hub, none, [⟨0, 7, .ro, false, 0x0, true⟩, ⟨8, 7, .ro, false, 0x0, true⟩, ⟨16, 7, .ro, false, 0x0, true⟩, ⟨23, 1, .ro, false, 0x0, true⟩]⟩ /- STR_STATUS -/,
  ⟨0x370004, 1, 0x0, 1, .hub, none, [⟨0, 6, .rw, false, 0x0, false⟩]⟩ /- STR_SEL -/,
  ⟨0x370008, 1, 0x0, 1, .hub, (some 0x370004), [⟨0, 2, .ro, false, 0x0, true⟩, ⟨2, 1, .ro, false, 0x0, true⟩, ⟨3, 1, .ro, false, 0x0, true⟩, ⟨8, 8, .ro, false, 0x0, true⟩]⟩ /- STR_STREAM -/,
  ⟨0x37000c, 1, 0x0, 1, .hub, (some 0x370004), [⟨0, 32, .ro, false, 0x0, true⟩]⟩ /- STR_DECIDED -/,
  ⟨0x370010, 1, 0x0, 1, .hub, (some 0x370004), [⟨0, 16, .rc, false, 0x0, false⟩, ⟨16, 16, .rc, false, 0x0, false⟩]⟩ /- STR_LATE -/,
  ⟨0x370014, 1, 0x0, 1, .hub, (some 0x370004), [⟨0, 16, .rc, false, 0x0, false⟩]⟩ /- STR_POISON -/,
  ⟨0x370018, 1, 0x0, 1, .hub, (some 0x370004), [⟨0, 16, .rc, false, 0x0, false⟩, ⟨16, 16, .rc, false, 0x0, false⟩]⟩ /- STR_SWITCH -/,
  ⟨0x37001c, 1, 0x0, 1, .hub, none, [⟨0, 5, .rw, false, 0x0, false⟩]⟩ /- STR_DIV_SEL -/,
  ⟨0x370020, 1, 0x0, 1, .hub, (some 0x37001c), [⟨0, 13, .ro, false, 0x0, true⟩, ⟨13, 13, .ro, false, 0x0, true⟩, ⟨26, 2, .ro, false, 0x0, true⟩]⟩ /- STR_DIV -/,
  ⟨0x370024, 1, 0x0, 1, .hub, (some 0x37001c), [⟨0, 16, .rc, false, 0x0, false⟩, ⟨16, 16, .rc, false, 0x0, false⟩]⟩ /- STR_DIV_COUNT -/]

/-! ### The COSY block -/

/-- COSY_STATUS.link_up (R473). -/
def Fld.cosyStatus_link_up : Fld := ⟨0x380000, 0x0, 0, 1, 0x0⟩
/-- COSY_STATUS.running (R473). -/
def Fld.cosyStatus_running : Fld := ⟨0x380000, 0x0, 1, 1, 0x0⟩
/-- COSY_STATUS.ident_match (R473). -/
def Fld.cosyStatus_ident_match : Fld := ⟨0x380000, 0x0, 2, 1, 0x0⟩
/-- COSY_STATUS.available (R473). -/
def Fld.cosyStatus_available : Fld := ⟨0x380000, 0x0, 3, 1, 0x0⟩
/-- COSY_STATUS.unstamped (R473). -/
def Fld.cosyStatus_unstamped : Fld := ⟨0x380000, 0x0, 4, 1, 0x0⟩
/-- COSY_STATUS.envelope (R473). -/
def Fld.cosyStatus_envelope : Fld := ⟨0x380000, 0x0, 16, 16, 0x0⟩
/-- COSY_FRAME.frame (R473). -/
def Fld.cosyFrame_frame : Fld := ⟨0x380004, 0x0, 0, 32, 0x0⟩
/-- COSY_MSGS.received (R473). -/
def Fld.cosyMsgs_received : Fld := ⟨0x380008, 0x0, 0, 16, 0x0⟩
/-- COSY_MSGS.crc_fail (R473). -/
def Fld.cosyMsgs_crc_fail : Fld := ⟨0x380008, 0x0, 16, 16, 0x0⟩
/-- COSY_FAULTS.checks (R473). -/
def Fld.cosyFaults_checks : Fld := ⟨0x38000c, 0x0, 0, 16, 0x0⟩
/-- COSY_IDENT.ident (R473). -/
def Fld.cosyIdent_ident : Fld := ⟨0x380010, 0x4, 0, 32, 0x0⟩

/-- The registers of the COSY block. -/
def regsCosy : List RegSpec := [
  ⟨0x380000, 1, 0x0, 1, .hub, none, [⟨0, 1, .ro, false, 0x0, true⟩, ⟨1, 1, .ro, false, 0x0, true⟩, ⟨2, 1, .ro, false, 0x0, true⟩, ⟨3, 1, .ro, false, 0x0, true⟩, ⟨4, 1, .ro, false, 0x0, true⟩, ⟨16, 16, .ro, false, 0x0, true⟩]⟩ /- COSY_STATUS -/,
  ⟨0x380004, 1, 0x0, 1, .hub, none, [⟨0, 32, .ro, false, 0x0, true⟩]⟩ /- COSY_FRAME -/,
  ⟨0x380008, 1, 0x0, 1, .hub, none, [⟨0, 16, .rc, false, 0x0, false⟩, ⟨16, 16, .rc, false, 0x0, false⟩]⟩ /- COSY_MSGS -/,
  ⟨0x38000c, 1, 0x0, 1, .hub, none, [⟨0, 16, .rc, false, 0x0, false⟩]⟩ /- COSY_FAULTS -/,
  ⟨0x380010, 1, 0x0, 8, .hub, none, [⟨0, 32, .ro, false, 0x0, true⟩]⟩ /- COSY_IDENT -/]

/-! ### The BIST block -/

/-- BIST_STATUS.rotating (R510). -/
def Fld.bistStatus_rotating : Fld := ⟨0x290000, 0x0, 0, 1, 0x0⟩
/-- BIST_STATUS.degraded (R510). -/
def Fld.bistStatus_degraded : Fld := ⟨0x290000, 0x0, 1, 8, 0x0⟩
/-- BIST_STATUS.kinds_degraded (R510). -/
def Fld.bistStatus_kinds_degraded : Fld := ⟨0x290000, 0x0, 9, 5, 0x0⟩
/-- BIST_STATUS.k (R510). -/
def Fld.bistStatus_k : Fld := ⟨0x290000, 0x0, 24, 7, 0x0⟩
/-- BIST_SEL.unit (R510). -/
def Fld.bistSel_unit : Fld := ⟨0x290004, 0x0, 0, 7, 0x0⟩
/-- BIST_UNIT.state (R510). -/
def Fld.bistUnit_state : Fld := ⟨0x290008, 0x0, 0, 3, 0x0⟩
/-- BIST_UNIT.suspect (R510). -/
def Fld.bistUnit_suspect : Fld := ⟨0x290008, 0x0, 3, 1, 0x0⟩
/-- BIST_UNIT.segments (R510). -/
def Fld.bistUnit_segments : Fld := ⟨0x290008, 0x0, 4, 5, 0x0⟩
/-- BIST_UNIT.check_fails (R510). -/
def Fld.bistUnit_check_fails : Fld := ⟨0x290008, 0x0, 16, 8, 0x0⟩
/-- BIST_UNIT.aborted (R510). -/
def Fld.bistUnit_aborted : Fld := ⟨0x290008, 0x0, 24, 8, 0x0⟩
/-- BIST_UNIT_AGE.age (R510). -/
def Fld.bistUnitAge_age : Fld := ⟨0x29000c, 0x0, 0, 32, 0x0⟩
/-- BIST_RETIRED_0.units (R510). -/
def Fld.bistRetired0_units : Fld := ⟨0x290010, 0x0, 0, 32, 0x0⟩
/-- BIST_RETIRED_1.units (R510). -/
def Fld.bistRetired1_units : Fld := ⟨0x290014, 0x0, 0, 32, 0x0⟩
/-- BIST_RETIRED_2.units (R510). -/
def Fld.bistRetired2_units : Fld := ⟨0x290018, 0x0, 0, 21, 0x0⟩
/-- BIST_FAIL_LAST.unit (R510). -/
def Fld.bistFailLast_unit : Fld := ⟨0x29001c, 0x0, 0, 7, 0x0⟩
/-- BIST_FAIL_LAST.kind (R510). -/
def Fld.bistFailLast_kind : Fld := ⟨0x29001c, 0x0, 8, 3, 0x0⟩
/-- BIST_FAIL_LAST.valid (R510). -/
def Fld.bistFailLast_valid : Fld := ⟨0x29001c, 0x0, 31, 1, 0x0⟩
/-- BIST_FAIL_MEM.memory (R510). -/
def Fld.bistFailMem_memory : Fld := ⟨0x290020, 0x0, 0, 3, 0x0⟩
/-- BIST_FAIL_MEM.bank (R510). -/
def Fld.bistFailMem_bank : Fld := ⟨0x290020, 0x0, 3, 6, 0x0⟩
/-- BIST_FAIL_MEM.row (R510). -/
def Fld.bistFailMem_row : Fld := ⟨0x290020, 0x0, 9, 14, 0x0⟩
/-- BIST_FAIL_BIT.bit (R510). -/
def Fld.bistFailBit_bit : Fld := ⟨0x290024, 0x0, 0, 10, 0x0⟩
/-- BIST_CHECKER.run (R510). -/
def Fld.bistChecker_run : Fld := ⟨0x290028, 0x0, 0, 16, 0x0⟩
/-- BIST_CHECKER.failed (R510). -/
def Fld.bistChecker_failed : Fld := ⟨0x290028, 0x0, 16, 16, 0x0⟩
/-- BIST_REPAIRS.applied (R510). -/
def Fld.bistRepairs_applied : Fld := ⟨0x29002c, 0x0, 0, 16, 0x0⟩
/-- BIST_REPAIRS.written (R510). -/
def Fld.bistRepairs_written : Fld := ⟨0x29002c, 0x0, 16, 16, 0x0⟩

/-- The registers of the BIST block. -/
def regsBist : List RegSpec := [
  ⟨0x290000, 1, 0x0, 1, .both, none, [⟨0, 1, .ro, false, 0x0, true⟩, ⟨1, 8, .ro, false, 0x0, true⟩, ⟨9, 5, .ro, false, 0x0, true⟩, ⟨24, 7, .ro, false, 0x0, true⟩]⟩ /- BIST_STATUS -/,
  ⟨0x290004, 1, 0x0, 1, .both, none, [⟨0, 7, .rw, false, 0x0, false⟩]⟩ /- BIST_SEL -/,
  ⟨0x290008, 1, 0x0, 1, .both, (some 0x290004), [⟨0, 3, .ro, false, 0x0, true⟩, ⟨3, 1, .ro, false, 0x0, true⟩, ⟨4, 5, .ro, false, 0x0, true⟩, ⟨16, 8, .ro, false, 0x0, true⟩, ⟨24, 8, .ro, false, 0x0, true⟩]⟩ /- BIST_UNIT -/,
  ⟨0x29000c, 1, 0x0, 1, .both, (some 0x290004), [⟨0, 32, .ro, false, 0x0, true⟩]⟩ /- BIST_UNIT_AGE -/,
  ⟨0x290010, 1, 0x0, 1, .both, none, [⟨0, 32, .ro, false, 0x0, true⟩]⟩ /- BIST_RETIRED_0 -/,
  ⟨0x290014, 1, 0x0, 1, .both, none, [⟨0, 32, .ro, false, 0x0, true⟩]⟩ /- BIST_RETIRED_1 -/,
  ⟨0x290018, 1, 0x0, 1, .both, none, [⟨0, 21, .ro, false, 0x0, true⟩]⟩ /- BIST_RETIRED_2 -/,
  ⟨0x29001c, 1, 0x0, 1, .both, none, [⟨0, 7, .ro, true, 0x0, true⟩, ⟨8, 3, .ro, true, 0x0, true⟩, ⟨31, 1, .w1c, true, 0x0, false⟩]⟩ /- BIST_FAIL_LAST -/,
  ⟨0x290020, 1, 0x0, 1, .both, none, [⟨0, 3, .ro, true, 0x0, true⟩, ⟨3, 6, .ro, true, 0x0, true⟩, ⟨9, 14, .ro, true, 0x0, true⟩]⟩ /- BIST_FAIL_MEM -/,
  ⟨0x290024, 1, 0x0, 1, .both, none, [⟨0, 10, .ro, true, 0x0, true⟩]⟩ /- BIST_FAIL_BIT -/,
  ⟨0x290028, 1, 0x0, 1, .both, none, [⟨0, 16, .rc, false, 0x0, false⟩, ⟨16, 16, .rc, false, 0x0, false⟩]⟩ /- BIST_CHECKER -/,
  ⟨0x29002c, 1, 0x0, 1, .both, none, [⟨0, 16, .ro, false, 0x0, true⟩, ⟨16, 16, .ro, false, 0x0, true⟩]⟩ /- BIST_REPAIRS -/]

/-! ### The EVR block -/

/-- EVR_STATUS.mode (R533). -/
def Fld.evrStatus_mode : Fld := ⟨0x390000, 0x0, 0, 1, 0x0⟩
/-- EVR_STATUS.kept_full (R533). -/
def Fld.evrStatus_kept_full : Fld := ⟨0x390000, 0x0, 1, 1, 0x0⟩
/-- EVR_STATUS.persist_busy (R533). -/
def Fld.evrStatus_persist_busy : Fld := ⟨0x390000, 0x0, 2, 1, 0x0⟩
/-- EVR_STATUS.open (R533). -/
def Fld.evrStatus_open : Fld := ⟨0x390000, 0x0, 16, 11, 0x0⟩
/-- EVR_SEQ.seq (R533). -/
def Fld.evrSeq_seq : Fld := ⟨0x390004, 0x0, 0, 32, 0x0⟩
/-- EVR_BOOT.boot (R533). -/
def Fld.evrBoot_boot : Fld := ⟨0x390008, 0x0, 0, 32, 0x0⟩
/-- EVR_CURSOR.slot (R533). -/
def Fld.evrCursor_slot : Fld := ⟨0x39000c, 0x0, 0, 13, 0x0⟩
/-- EVR_FREEZE.freeze (R533). -/
def Fld.evrFreeze_freeze : Fld := ⟨0x390010, 0x0, 0, 1, 0x0⟩
/-- EVR_FREEZE.expired (R533). -/
def Fld.evrFreeze_expired : Fld := ⟨0x390010, 0x0, 1, 1, 0x0⟩
/-- EVR_LOST.events (R533). -/
def Fld.evrLost_events : Fld := ⟨0x390014, 0x0, 0, 16, 0x0⟩
/-- EVR_LOST.discarded (R533). -/
def Fld.evrLost_discarded : Fld := ⟨0x390014, 0x0, 16, 16, 0x0⟩
/-- EVR_PERSIST.failed (R533). -/
def Fld.evrPersist_failed : Fld := ⟨0x390018, 0x0, 0, 16, 0x0⟩
/-- EVR_PERSIST.pending (R533). -/
def Fld.evrPersist_pending : Fld := ⟨0x390018, 0x0, 16, 16, 0x0⟩
/-- EVR_RAISE_VALUE.value (R533). -/
def Fld.evrRaiseValue_value : Fld := ⟨0x39001c, 0x0, 0, 32, 0x0⟩
/-- EVR_RAISE_CODE.code (R533). -/
def Fld.evrRaiseCode_code : Fld := ⟨0x390020, 0x0, 0, 16, 0x0⟩
/-- EVR_WINDOW.word (R533). -/
def Fld.evrWindow_word : Fld := ⟨0x390100, 0x4, 0, 32, 0x0⟩

/-- The registers of the EVR block. -/
def regsEvr : List RegSpec := [
  ⟨0x390000, 1, 0x0, 1, .hub, none, [⟨0, 1, .ro, false, 0x0, false⟩, ⟨1, 1, .ro, false, 0x0, false⟩, ⟨2, 1, .ro, false, 0x0, false⟩, ⟨16, 11, .ro, false, 0x0, false⟩]⟩ /- EVR_STATUS -/,
  ⟨0x390004, 1, 0x0, 1, .hub, none, [⟨0, 32, .ro, false, 0x0, false⟩]⟩ /- EVR_SEQ -/,
  ⟨0x390008, 1, 0x0, 1, .hub, none, [⟨0, 32, .ro, false, 0x0, false⟩]⟩ /- EVR_BOOT -/,
  ⟨0x39000c, 1, 0x0, 1, .hub, none, [⟨0, 13, .rw, true, 0x0, false⟩]⟩ /- EVR_CURSOR -/,
  ⟨0x390010, 1, 0x0, 1, .hub, none, [⟨0, 1, .rw, true, 0x0, false⟩, ⟨1, 1, .ro, true, 0x0, false⟩]⟩ /- EVR_FREEZE -/,
  ⟨0x390014, 1, 0x0, 1, .hub, none, [⟨0, 16, .rc, true, 0x0, false⟩, ⟨16, 16, .rc, true, 0x0, false⟩]⟩ /- EVR_LOST -/,
  ⟨0x390018, 1, 0x0, 1, .hub, none, [⟨0, 16, .rc, true, 0x0, false⟩, ⟨16, 16, .ro, true, 0x0, false⟩]⟩ /- EVR_PERSIST -/,
  ⟨0x39001c, 1, 0x0, 1, .hub, none, [⟨0, 32, .rw, false, 0x0, false⟩]⟩ /- EVR_RAISE_VALUE -/,
  ⟨0x390020, 1, 0x0, 1, .hub, none, [⟨0, 16, .wo, false, 0x0, false⟩]⟩ /- EVR_RAISE_CODE -/,
  ⟨0x390100, 1, 0x0, 64, .hub, none, [⟨0, 32, .ro, true, 0x0, false⟩]⟩ /- EVR_WINDOW -/]

/-! ### The SEC block -/

/-- SEC_STATUS.lifecycle (R546). -/
def Fld.secStatus_lifecycle : Fld := ⟨0x320000, 0x0, 0, 2, 0xe00⟩
/-- SEC_STATUS.unlocked (R546). -/
def Fld.secStatus_unlocked : Fld := ⟨0x320000, 0x0, 2, 1, 0xe00⟩
/-- SEC_STATUS.scope (R546). -/
def Fld.secStatus_scope : Fld := ⟨0x320000, 0x0, 3, 3, 0xe00⟩
/-- SEC_STATUS.session (R546). -/
def Fld.secStatus_session : Fld := ⟨0x320000, 0x0, 6, 1, 0xe00⟩
/-- SEC_STATUS.role (R546). -/
def Fld.secStatus_role : Fld := ⟨0x320000, 0x0, 7, 2, 0xe00⟩
/-- SEC_STATUS.otp_ok (R546). -/
def Fld.secStatus_otp_ok : Fld := ⟨0x320000, 0x0, 9, 1, 0xe00⟩
/-- SEC_STATUS.kat_ok (R546). -/
def Fld.secStatus_kat_ok : Fld := ⟨0x320000, 0x0, 10, 1, 0xe00⟩
/-- SEC_STATUS.trng_ok (R546). -/
def Fld.secStatus_trng_ok : Fld := ⟨0x320000, 0x0, 11, 1, 0xe00⟩
/-- SEC_STATUS.sealed_ok (R546). -/
def Fld.secStatus_sealed_ok : Fld := ⟨0x320000, 0x0, 12, 1, 0xe00⟩
/-- SEC_STATUS.attest_busy (R546). -/
def Fld.secStatus_attest_busy : Fld := ⟨0x320000, 0x0, 13, 1, 0xe00⟩
/-- SEC_AUTH.failed (R546). -/
def Fld.secAuth_failed : Fld := ⟨0x320004, 0x0, 0, 16, 0x0⟩
/-- SEC_AUTH.lockout (R546). -/
def Fld.secAuth_lockout : Fld := ⟨0x320004, 0x0, 16, 16, 0x0⟩
/-- SEC_VIEW.count (R546). -/
def Fld.secView_count : Fld := ⟨0x320008, 0x0, 0, 32, 0x0⟩
/-- SEC_ATTEST.reports (R546). -/
def Fld.secAttest_reports : Fld := ⟨0x32000c, 0x0, 0, 16, 0x0⟩
/-- SEC_ATTEST.refused (R546). -/
def Fld.secAttest_refused : Fld := ⟨0x32000c, 0x0, 16, 16, 0x0⟩
/-- SEC_VKEY.hash (R546). -/
def Fld.secVkey_hash : Fld := ⟨0x320020, 0x4, 0, 32, 0x0⟩
/-- SEC_IKEY.hash (R546). -/
def Fld.secIkey_hash : Fld := ⟨0x320040, 0x4, 0, 32, 0x0⟩
/-- SEC_ATT_PUB.key (R546). -/
def Fld.secAttPub_key : Fld := ⟨0x320060, 0x4, 0, 32, 0x0⟩

/-- The registers of the SEC block. -/
def regsSec : List RegSpec := [
  ⟨0x320000, 1, 0x0, 1, .hub, none, [⟨0, 2, .ro, false, 0x0, false⟩, ⟨2, 1, .ro, false, 0x0, false⟩, ⟨3, 3, .ro, false, 0x0, false⟩, ⟨6, 1, .ro, false, 0x0, false⟩, ⟨7, 2, .ro, false, 0x0, false⟩, ⟨9, 1, .ro, false, 0x1, false⟩, ⟨10, 1, .ro, false, 0x1, false⟩, ⟨11, 1, .ro, false, 0x1, false⟩, ⟨12, 1, .ro, false, 0x0, false⟩, ⟨13, 1, .ro, false, 0x0, false⟩]⟩ /- SEC_STATUS -/,
  ⟨0x320004, 1, 0x0, 1, .hub, none, [⟨0, 16, .rc, true, 0x0, false⟩, ⟨16, 16, .ro, true, 0x0, false⟩]⟩ /- SEC_AUTH -/,
  ⟨0x320008, 1, 0x0, 1, .hub, none, [⟨0, 32, .rc, false, 0x0, false⟩]⟩ /- SEC_VIEW -/,
  ⟨0x32000c, 1, 0x0, 1, .hub, none, [⟨0, 16, .rc, false, 0x0, false⟩, ⟨16, 16, .rc, false, 0x0, false⟩]⟩ /- SEC_ATTEST -/,
  ⟨0x320020, 1, 0x0, 8, .hub, none, [⟨0, 32, .ro, false, 0x0, false⟩]⟩ /- SEC_VKEY -/,
  ⟨0x320040, 1, 0x0, 8, .hub, none, [⟨0, 32, .ro, false, 0x0, false⟩]⟩ /- SEC_IKEY -/,
  ⟨0x320060, 1, 0x0, 8, .hub, none, [⟨0, 32, .ro, false, 0x0, false⟩]⟩ /- SEC_ATT_PUB -/]

/-! ### The CLK block -/

/-- CLK_STATUS.root (R567). -/
def Fld.clkStatus_root : Fld := ⟨0x10000, 0x0, 0, 1, 0x60⟩
/-- CLK_STATUS.ref (R567). -/
def Fld.clkStatus_ref : Fld := ⟨0x10000, 0x0, 1, 1, 0x60⟩
/-- CLK_STATUS.main_lock (R567). -/
def Fld.clkStatus_main_lock : Fld := ⟨0x10000, 0x0, 2, 1, 0x60⟩
/-- CLK_STATUS.spare_lock (R567). -/
def Fld.clkStatus_spare_lock : Fld := ⟨0x10000, 0x0, 3, 1, 0x60⟩
/-- CLK_STATUS.holdover (R567). -/
def Fld.clkStatus_holdover : Fld := ⟨0x10000, 0x0, 4, 1, 0x60⟩
/-- CLK_STATUS.ref0_ok (R567). -/
def Fld.clkStatus_ref0_ok : Fld := ⟨0x10000, 0x0, 5, 1, 0x60⟩
/-- CLK_STATUS.ref1_ok (R567). -/
def Fld.clkStatus_ref1_ok : Fld := ⟨0x10000, 0x0, 6, 1, 0x60⟩
/-- CLK_DEV.ref0 (R567). -/
def Fld.clkDev_ref0 : Fld := ⟨0x10004, 0x0, 0, 16, 0x0⟩
/-- CLK_DEV.ref1 (R567). -/
def Fld.clkDev_ref1 : Fld := ⟨0x10004, 0x0, 16, 16, 0x0⟩
/-- CLK_REF_DEV.refs (R567). -/
def Fld.clkRefDev_refs : Fld := ⟨0x10008, 0x0, 0, 16, 0x0⟩
/-- CLK_SWITCH.pll (R567). -/
def Fld.clkSwitch_pll : Fld := ⟨0x1000c, 0x0, 0, 16, 0x0⟩
/-- CLK_SWITCH.ref (R567). -/
def Fld.clkSwitch_ref : Fld := ⟨0x1000c, 0x0, 16, 16, 0x0⟩

/-- The registers of the CLK block. -/
def regsClk : List RegSpec := [
  ⟨0x10000, 1, 0x0, 1, .both, none, [⟨0, 1, .ro, false, 0x0, false⟩, ⟨1, 1, .ro, false, 0x0, false⟩, ⟨2, 1, .ro, false, 0x0, false⟩, ⟨3, 1, .ro, false, 0x0, false⟩, ⟨4, 1, .ro, false, 0x0, false⟩, ⟨5, 1, .ro, false, 0x1, false⟩, ⟨6, 1, .ro, false, 0x1, false⟩]⟩ /- CLK_STATUS -/,
  ⟨0x10004, 1, 0x0, 1, .hub, none, [⟨0, 16, .ro, false, 0x0, false⟩, ⟨16, 16, .ro, false, 0x0, false⟩]⟩ /- CLK_DEV -/,
  ⟨0x10008, 1, 0x0, 1, .hub, none, [⟨0, 16, .ro, false, 0x0, false⟩]⟩ /- CLK_REF_DEV -/,
  ⟨0x1000c, 1, 0x0, 1, .hub, none, [⟨0, 16, .rc, true, 0x0, false⟩, ⟨16, 16, .rc, true, 0x0, false⟩]⟩ /- CLK_SWITCH -/]

/-! ### The PWR block -/

/-- PWR_TEMP.now (R568). -/
def Fld.pwrTemp_now : Fld := ⟨0x20000, 0x0, 0, 8, 0x0⟩
/-- PWR_TEMP.peak (R568). -/
def Fld.pwrTemp_peak : Fld := ⟨0x20000, 0x0, 8, 8, 0x0⟩
/-- PWR_TEMP.warn (R568). -/
def Fld.pwrTemp_warn : Fld := ⟨0x20000, 0x0, 16, 1, 0x0⟩
/-- PWR_TEMP.inlet (R568). -/
def Fld.pwrTemp_inlet : Fld := ⟨0x20000, 0x0, 24, 8, 0x0⟩
/-- PWR_DOM_SEL.domain (R568). -/
def Fld.pwrDomSel_domain : Fld := ⟨0x20004, 0x0, 0, 7, 0x0⟩
/-- PWR_DOM.state (R568). -/
def Fld.pwrDom_state : Fld := ⟨0x20008, 0x0, 0, 2, 0x0⟩
/-- PWR_DOM.retired (R568). -/
def Fld.pwrDom_retired : Fld := ⟨0x20008, 0x0, 2, 1, 0x0⟩
/-- PWR_DOM.policy (R568). -/
def Fld.pwrDom_policy : Fld := ⟨0x20008, 0x0, 3, 1, 0x0⟩
/-- PWR_RAIL_SEL.group (R568). -/
def Fld.pwrRailSel_group : Fld := ⟨0x2000c, 0x0, 0, 3, 0x0⟩
/-- PWR_RAIL.mv (R568). -/
def Fld.pwrRail_mv : Fld := ⟨0x20010, 0x0, 0, 16, 0x0⟩
/-- PWR_RAIL.phases (R568). -/
def Fld.pwrRail_phases : Fld := ⟨0x20010, 0x0, 16, 4, 0x0⟩
/-- PWR_RAIL.spare_used (R568). -/
def Fld.pwrRail_spare_used : Fld := ⟨0x20010, 0x0, 20, 1, 0x0⟩
/-- PWR_RAIL.second_loss (R568). -/
def Fld.pwrRail_second_loss : Fld := ⟨0x20010, 0x0, 21, 1, 0x0⟩
/-- PWR_RAIL.window (R568). -/
def Fld.pwrRail_window : Fld := ⟨0x20010, 0x0, 22, 1, 0x0⟩
/-- PWR_IN.volts (R568). -/
def Fld.pwrIn_volts : Fld := ⟨0x20014, 0x0, 0, 16, 0x0⟩
/-- PWR_IN.amps (R568). -/
def Fld.pwrIn_amps : Fld := ⟨0x20014, 0x0, 16, 16, 0x0⟩
/-- PWR_IN_POWER.avg (R568). -/
def Fld.pwrInPower_avg : Fld := ⟨0x20018, 0x0, 0, 16, 0x0⟩
/-- PWR_IN_POWER.peak (R568). -/
def Fld.pwrInPower_peak : Fld := ⟨0x20018, 0x0, 16, 16, 0x0⟩

/-- The registers of the PWR block. -/
def regsPwr : List RegSpec := [
  ⟨0x20000, 1, 0x0, 1, .both, none, [⟨0, 8, .ro, false, 0x0, true⟩, ⟨8, 8, .ro, false, 0x0, true⟩, ⟨16, 1, .ro, false, 0x0, true⟩, ⟨24, 8, .ro, false, 0x0, true⟩]⟩ /- PWR_TEMP -/,
  ⟨0x20004, 1, 0x0, 1, .both, none, [⟨0, 7, .rw, false, 0x0, false⟩]⟩ /- PWR_DOM_SEL -/,
  ⟨0x20008, 1, 0x0, 1, .both, (some 0x20004), [⟨0, 2, .ro, false, 0x0, true⟩, ⟨2, 1, .ro, false, 0x0, true⟩, ⟨3, 1, .ro, false, 0x0, true⟩]⟩ /- PWR_DOM -/,
  ⟨0x2000c, 1, 0x0, 1, .both, none, [⟨0, 3, .rw, false, 0x0, false⟩]⟩ /- PWR_RAIL_SEL -/,
  ⟨0x20010, 1, 0x0, 1, .both, (some 0x2000c), [⟨0, 16, .ro, false, 0x0, true⟩, ⟨16, 4, .ro, false, 0x0, true⟩, ⟨20, 1, .ro, false, 0x0, true⟩, ⟨21, 1, .ro, false, 0x0, true⟩, ⟨22, 1, .ro, false, 0x0, true⟩]⟩ /- PWR_RAIL -/,
  ⟨0x20014, 1, 0x0, 1, .hub, none, [⟨0, 16, .ro, false, 0x0, true⟩, ⟨16, 16, .ro, false, 0x0, true⟩]⟩ /- PWR_IN -/,
  ⟨0x20018, 1, 0x0, 1, .hub, none, [⟨0, 16, .ro, false, 0x0, true⟩, ⟨16, 16, .rc, false, 0x0, false⟩]⟩ /- PWR_IN_POWER -/]

/-! ### The HSW block -/

/-- HSW_STATUS.eject_req (R569). -/
def Fld.hswStatus_eject_req : Fld := ⟨0x300000, 0x0, 0, 1, 0x0⟩
/-- HSW_STATUS.removing (R569). -/
def Fld.hswStatus_removing : Fld := ⟨0x300000, 0x0, 1, 1, 0x0⟩
/-- HSW_STATUS.freeze_pin (R569). -/
def Fld.hswStatus_freeze_pin : Fld := ⟨0x300000, 0x0, 2, 1, 0x0⟩
/-- HSW_STATUS.fault_pin (R569). -/
def Fld.hswStatus_fault_pin : Fld := ⟨0x300000, 0x0, 3, 1, 0x0⟩
/-- HSW_STATUS.slot_id (R569). -/
def Fld.hswStatus_slot_id : Fld := ⟨0x300000, 0x0, 4, 4, 0x0⟩
/-- HSW_STATUS.inrush_ms (R569). -/
def Fld.hswStatus_inrush_ms : Fld := ⟨0x300000, 0x0, 16, 16, 0x0⟩
/-- HSW_UNDER.low_input (R569). -/
def Fld.hswUnder_low_input : Fld := ⟨0x300004, 0x0, 0, 16, 0x0⟩

/-- The registers of the HSW block. -/
def regsHsw : List RegSpec := [
  ⟨0x300000, 1, 0x0, 1, .hub, none, [⟨0, 1, .ro, false, 0x0, false⟩, ⟨1, 1, .ro, false, 0x0, false⟩, ⟨2, 1, .ro, false, 0x0, false⟩, ⟨3, 1, .ro, false, 0x0, false⟩, ⟨4, 4, .ro, false, 0x0, false⟩, ⟨16, 16, .ro, false, 0x0, false⟩]⟩ /- HSW_STATUS -/,
  ⟨0x300004, 1, 0x0, 1, .hub, none, [⟨0, 16, .rc, true, 0x0, false⟩]⟩ /- HSW_UNDER -/]

/-! ### The FRZ block -/

/-- FRZ_STATUS.permitted (R578). -/
def Fld.frzStatus_permitted : Fld := ⟨0x3a0000, 0x0, 0, 1, 0x0⟩
/-- FRZ_STATUS.pin_armed (R578). -/
def Fld.frzStatus_pin_armed : Fld := ⟨0x3a0000, 0x0, 1, 1, 0x0⟩
/-- FRZ_STATUS.last_source (R578). -/
def Fld.frzStatus_last_source : Fld := ⟨0x3a0000, 0x0, 2, 2, 0x0⟩
/-- FRZ_STATUS.last_dram (R578). -/
def Fld.frzStatus_last_dram : Fld := ⟨0x3a0000, 0x0, 4, 1, 0x0⟩
/-- FRZ_STATUS.count (R578). -/
def Fld.frzStatus_count : Fld := ⟨0x3a0000, 0x0, 16, 16, 0x0⟩
/-- FRZ_CTL.freeze (R578). -/
def Fld.frzCtl_freeze : Fld := ⟨0x3a0004, 0x0, 0, 1, 0x0⟩
/-- FRZ_REFUSED.refused (R578). -/
def Fld.frzRefused_refused : Fld := ⟨0x3a0008, 0x0, 0, 16, 0x0⟩
/-- FRZ_STOP_DT_LO.dt (R578). -/
def Fld.frzStopDtLo_dt : Fld := ⟨0x3a000c, 0x0, 0, 32, 0x0⟩
/-- FRZ_STOP_DT_HI.dt (R578). -/
def Fld.frzStopDtHi_dt : Fld := ⟨0x3a0010, 0x0, 0, 32, 0x0⟩
/-- FRZ_DURATION.ms (R578). -/
def Fld.frzDuration_ms : Fld := ⟨0x3a0014, 0x0, 0, 32, 0x0⟩

/-- The registers of the FRZ block. -/
def regsFrz : List RegSpec := [
  ⟨0x3a0000, 1, 0x0, 1, .hub, none, [⟨0, 1, .ro, false, 0x0, false⟩, ⟨1, 1, .ro, false, 0x0, false⟩, ⟨2, 2, .ro, false, 0x0, false⟩, ⟨4, 1, .ro, false, 0x0, false⟩, ⟨16, 16, .ro, false, 0x0, false⟩]⟩ /- FRZ_STATUS -/,
  ⟨0x3a0004, 1, 0x0, 1, .hub, none, [⟨0, 1, .w1s, true, 0x0, false⟩]⟩ /- FRZ_CTL -/,
  ⟨0x3a0008, 1, 0x0, 1, .hub, none, [⟨0, 16, .rc, true, 0x0, false⟩]⟩ /- FRZ_REFUSED -/,
  ⟨0x3a000c, 1, 0x0, 1, .hub, none, [⟨0, 32, .ro, false, 0x0, false⟩]⟩ /- FRZ_STOP_DT_LO -/,
  ⟨0x3a0010, 1, 0x0, 1, .hub, none, [⟨0, 32, .ro, false, 0x0, false⟩]⟩ /- FRZ_STOP_DT_HI -/,
  ⟨0x3a0014, 1, 0x0, 1, .hub, none, [⟨0, 32, .ro, false, 0x0, false⟩]⟩ /- FRZ_DURATION -/]

/-- Every register of the module. -/
def regTable : List RegSpec :=
  regsId ++
  regsBoot ++
  regsSeqHub ++
  regsSeq ++
  regsDsp ++
  regsIng ++
  regsIsp ++
  regsPyr ++
  regsWrp ++
  regsFtr ++
  regsFlw ++
  regsSte ++
  regsSpd ++
  regsCmn ++
  regsFlg ++
  regsMx ++
  regsVu ++
  regsTag ++
  regsRly ++
  regsRlyHub ++
  regsDma ++
  regsMem ++
  regsEth ++
  regsTsn ++
  regsSaf ++
  regsStr ++
  regsCosy ++
  regsBist ++
  regsEvr ++
  regsSec ++
  regsClk ++
  regsPwr ++
  regsHsw ++
  regsFrz

end Sys2Proof.Machine
end

