-- ==== Sys2Proof/Config.lean ====
section
/-! DEFINITION. What an implementation fixes and the values the manual leaves open: opaque constants with no body, so that
nothing can be proved of their values. -/

namespace Sys2Proof

/-- A fresh free value: the manual gives none here.  Applied to the state's own counter (log entry 4). -/
opaque Config.freeNat : Nat → Nat

/-- What an error of the host's own making leaves open within the bound of R8: by the state's own counter and the place (log entry 42). -/
opaque Config.unpredictable : Nat → Nat → Nat

/-- The vector unit's results where Table NCO-9 gives an accuracy and not a value: operation code and operand, FP32 bits
to FP32 bits.  A result outside the stated accuracy is not used (log entry 13). -/
opaque Config.vectorApprox : Nat → Nat → Nat

/-- The order in which a vision engine adds the FP32 terms of one output value, which R165 leaves open: for the number of terms
left, the positions (in turn) of the two that are added next (log entry 15). -/
opaque Config.sumChoice : Nat → Nat × Nat

/-- The burst slots that a DRAM access takes for its check burst beyond those of its data, by device time and data burst (log entry 92). -/
opaque Config.checkSlots : Nat → Nat → Nat

/-- The pad value, as FP32, of a sampler point whose source index names no source: the manual gives none (log entry 16). -/
opaque Config.padOfNoSource : Nat

/-- The orientation bin of a corner whose two moments are zero: atan2(0, 0) is not stated (log entry 17). -/
opaque Config.binOfNoMoment : Nat

/-- A level-0 coordinate of a corner that lies beyond the u12.4 format, which the manual does not give (log entry 82). -/
opaque Config.beyondLevelZero : Nat → Nat

/-- What the ISP stages leave open (their rounding, the grid's place, demosaic, noise and local tone formulas): by a tag for
the place and the values it depends on (log entry 21). -/
opaque Config.ispOpen : Nat → List Nat → Nat

/-- The size in bytes of the first-stage loader, and where its vendor signature, the key it verifies under, and the endorsement stand in the
xSPI NOR (log entry 38). -/
opaque Config.loaderSize : Nat
opaque Config.loaderSignatureAt : Nat
opaque Config.loaderKeyAt : Nat
opaque Config.endorsementAt : Nat

end Sys2Proof
end

