-- ==== Sys2Proof/Machine/Map.lean ====
section
/-! DEFINITION. Sparse maps from numbers to data as sorted lists of pairs in one canonical form: keys strictly
rising, and no entry equal to what an unlisted key reads as (the default `d`).  Equal maps are equal data. -/

namespace Sys2Proof.Machine

/-- A sparse map as plain data. -/
abbrev Map (α : Type) := List (Nat × α)

variable {α : Type}

/-- What the map holds at key `k`; `d` where nothing is listed. -/
def Map.get (d : α) : Map α → Nat → α
  | [], _ => d
  | (j, v) :: m, k => if k = j then v else Map.get d m k

/-- The map without its entry at `k`. -/
def Map.erase (m : Map α) (k : Nat) : Map α := m.filter (fun p => decide (p.1 ≠ k))

/-- The map with an entry for `k`, whatever the value. -/
def Map.put : Map α → Nat → α → Map α
  | [], k, v => [(k, v)]
  | (j, w) :: m, k, v =>
    if k = j then (k, v) :: m else if k < j then (k, v) :: (j, w) :: m else (j, w) :: Map.put m k v

/-- The map that holds `v` at `k`, in canonical form: the default is not listed. -/
def Map.set [DecidableEq α] (d : α) (m : Map α) (k : Nat) (v : α) : Map α :=
  if v = d then Map.erase m k else Map.put m k v

/-- Every key of the map is above `k`. -/
def Map.above (k : Nat) (m : Map α) : Bool := m.all (fun p => decide (k < p.1))

/-- The canonical form: keys strictly rising and no entry equal to the default. -/
def Map.wf [DecidableEq α] (d : α) : Map α → Bool
  | [] => true
  | (j, v) :: m => decide (v ≠ d) && Map.above j m && Map.wf d m

/-- Change the entry at `k`. -/
def Map.modify [DecidableEq α] (d : α) (m : Map α) (k : Nat) (f : α → α) : Map α :=
  Map.set d m k (f (Map.get d m k))

/-- The map with every listed entry changed by `f`, in canonical form. -/
def Map.mapAll [DecidableEq α] (d : α) (m : Map α) (f : α → α) : Map α :=
  (m.map (fun p => (p.1, f p.2))).filter (fun p => decide (p.2 ≠ d))

/-- The same with the key at hand. -/
def Map.mapAllKeys [DecidableEq α] (d : α) (m : Map α) (f : Nat → α → α) : Map α :=
  (m.map (fun p => (p.1, f p.1 p.2))).filter (fun p => decide (p.2 ≠ d))

/-- The map with the keys from `lo` up to but not including `hi` at their default. -/
def Map.clearRange (lo hi : Nat) (m : Map α) : Map α :=
  m.filter (fun p => decide (p.1 < lo) || decide (hi ≤ p.1))

/-- Sorted list of numbers without repeats, used as a set. -/
def setInsert (k : Nat) : List Nat → List Nat
  | [] => [k]
  | j :: l => if k = j then j :: l else if k < j then k :: j :: l else j :: setInsert k l

/-- The set without `k`. -/
def setErase (k : Nat) (l : List Nat) : List Nat := l.filter (fun j => decide (j ≠ k))

/-- The element at a list's position `n`, with a default. -/
def nth (d : α) (l : List α) (n : Nat) : α := l.getD n d

/-- The list with position `n` replaced; a position past the end changes nothing. -/
def setNth (l : List α) (n : Nat) (v : α) : List α := l.set n v

/-- The list with position `n` changed by `f`. -/
def modNth (l : List α) (n : Nat) (f : α → α) : List α := l.modify n f

end Sys2Proof.Machine
end

