-- ==== Sys2Proof/Machine/State.lean ====
section
/-! DEFINITION. The state of the module as plain data: every register, memory, queue, counter and mode the manual names,
the queue of waiting commands, the outcomes' reasons, and the state right after reset. -/

namespace Sys2Proof.Machine

open Sys2Proof

/-- Why a step stops with a fault.  Raised by the meanings named at each constructor. -/
inductive Fault where
  /-- A register access or a request for DRAM at an address beyond the 40 bits of a module address (R12): there is none.  Raised by
  the register and DRAM commands.  Safe. -/
  | noSuchAddress (addr : Nat)
  deriving DecidableEq, Repr

/-- Why a step is refused. -/
inductive Refusal where
  /-- No meaning yet for the command of this mnemonic; raised by an arm of exec only.  Safe. -/
  | notModelled (mnemonic : String)
  deriving DecidableEq, Repr

/-- What a command answers. -/
abbrev Result (σ : Type) := Host.Outcome σ Fault Refusal

/-! ### The event recorder (chapter 21) -/

/-- An open accumulator (R517, R519). -/
structure Accum where
  code : Nat
  openDt : Nat
  closeDt : Nat
  count : Nat
  sum : Int
  min : Int
  max : Int
  minDt : Nat
  maxDt : Nat
  minDetail : Nat
  maxDetail : Nat
  firstFrame : Word
  lastFrame : Word
  bins : List Nat
  saturated : Bool
  openWall : Nat
  openEpoch : Nat
  openSynced : Bool
  deriving DecidableEq, Repr

/-- The recorder: accumulators, events that wait for the next interval of their code (R517), record slots (R526),
the sequence counter, the hold of EVR_FREEZE, the value latches and the log partition. -/
structure Recorder where
  accums : List Accum
  later : List Event
  slots : Map (List Byte)
  nextSeq : Nat
  freezeFrom : Option Nat
  latches : Map Word
  unwritten : List Nat
  logRegion : Map (List Byte)
  boot : Nat
  deriving DecidableEq, Repr

/-! ### Doubts, the Strainer and the Cosy as the hub sees it (chapter 17) -/

/-- The recovery chosen for a doubt (Table REC-2). -/
inductive Recovery where
  | none | dieRestart (die : Nat) | warmRestart | handover (pipe : Nat) | variantChange (die : Nat)
  | forcedSlice (die unit : Nat) | ringForm | clockSpare | coldStart | untilColdStart
  deriving DecidableEq, Repr

/-- A latched doubt: its cause, its scope, the recovery that clears it, and whether that has begun. -/
structure Doubt where
  cause : DoubtCause
  scope : Nat
  recovery : Recovery
  deriving DecidableEq, Repr

/-- The three states of an output stream (R450). -/
inductive StreamState where
  | main | cosy | returning
  deriving DecidableEq, Repr

/-- A message as the hub holds it before the decision (R450): M(n) or C(n), with the device time it was accepted. -/
structure Msg where
  frame : Word
  tombstone : Bool
  payload : List Byte
  poisoned : Bool
  held : Bool
  degraded : Bool
  uncovered : Bool
  envelope : Nat
  dt : Nat
  deriving DecidableEq, Repr

/-- The kinds of Table TSN-5. -/
inductive MsgKind where
  | result | fallback | tombstone | provisional
  deriving DecidableEq, Repr

/-- A decided message in its stream's transmit queue: its bytes (header and payload), the fragments sent, the ports that have sent
the next one already, and the ports whose gate has held it back (R421). -/
structure OutMsg where
  frame : Word
  seq : Word
  kind : MsgKind
  wall : Nat
  bytes : List Byte
  sent : Nat
  given : List Nat
  deferred : List Nat
  deriving DecidableEq, Repr

/-- One output stream: its state and count of clean frames, the last frame decided, the messages held for undecided frames, the
stamps of the Cosy messages that count for its cover, until when a doubt covered it, whether a restart mark is due, the
numbers of its next message and fragment frame, and its transmit queue. -/
structure Stream where
  state : StreamState
  clean : Nat
  decided : Option Word
  main : List Msg
  cosy : List Msg
  stamps : List Word
  doubtUntil : Option Nat
  mark : Bool
  seq : Word
  seqNum : BitVec 8
  rtag : BitVec 16
  queue : List OutMsg
  deriving DecidableEq, Repr

/-- The verdicts of the diversity check (R467). -/
inductive Verdict where
  | agree | disagree | inconclusive
  deriving DecidableEq, Repr

/-- A diversity pair's running state (R468): the verdicts by frame, the run of DISAGREE, and whether AGREE has ended one since
the last frame start. -/
structure DivPair where
  verdicts : List (Word × Verdict)
  run : Nat
  agreed : Bool
  deriving DecidableEq, Repr

/-- A frame start as the frame root latched it (R69). -/
structure FrameStart where
  frame : Word
  dt : Nat
  wall : Nat
  epoch : Nat
  synced : Bool
  lost : Nat
  variants : List Nat
  uncovered : List Bool
  deriving DecidableEq, Repr

/-- The safety manager: latched doubts, the service mode and the one requested for the next frame start (R469), the
restarts it counts (R477), dies 0–3 held in reset for good, output framing stopped (R487), and the ports whose MACsec failure is
reported in this slot (R440), and that a checker of the hub has failed its test since the cold start (R506). -/
structure SafetyMgr where
  doubts : List Doubt
  outOfService : Bool
  nextMode : Option Bool
  dieRestartAt : Map Nat
  warmAt : List Nat
  dead : Bool
  framingStopped : Bool
  macsecReported : List Nat
  hubCheckFailed : Bool
  deriving DecidableEq, Repr

/-- The hub's side of the Cosy link (R47, R455, R463, R473): whether the Cosy has reported and when, its identity, its latest message and whether the link
is up. -/
structure CosyView where
  reported : Bool
  selfTestPass : Bool
  late : Bool
  ident : Hash
  lastMsgDt : Option Nat
  unavailable : Bool
  linkUp : Bool
  deriving DecidableEq, Repr

/-! ### Frames, the frame graph and dispatch (chapters 03 and 04) -/

/-- A task descriptor (Table GRF-5, Table GRF-5a). -/
structure TaskDesc where
  node : Nat
  index : Nat
  prio : Nat
  safety : Bool
  kind : Nat
  frame : Word
  program : Nat
  variant : Nat
  skippedIn : Bool
  mode : Nat
  cluster : Nat
  core : Nat
  args : Nat
  heldDelta : Nat
  cq : Nat
  heldIn : Bool
  waitFlag : Nat
  waitDie : Nat
  waitEn : Bool
  postFlag : Nat
  postDie : Nat
  postEn : Bool
  waitValue : Word
  deriving DecidableEq, Repr

/-- The completion statuses (Table GRF-7). -/
inductive Status where
  | done | cancelled | skipped | poisoned | timeout | held | substituted | empty
  deriving DecidableEq, Repr

/-- A completion record (R79), and whether the task's flag is posted with it. -/
structure Rec where
  node : Nat
  index : Nat
  status : Status
  reexec : Bool
  skippedIn : Bool
  heldIn : Bool
  early : Bool
  frame : Word
  dt : Nat
  die : Nat
  group : Nat
  core : Nat
  oor : Nat
  deriving DecidableEq, Repr

/-- A record that has not yet been written: in its slot, in the withheld-record store (R104), or owed by an instance. -/
structure Owed where
  record : Rec
  cq : Nat
  slot : Option Nat
  sw : Bool
  post : Option (Nat × Nat)
  refused : Bool
  deriving DecidableEq, Repr

/-- The states of a task slot other than FREE (Table DSP-1): a FREE slot is not listed. -/
inductive SlotState where
  | waiting | ready | running | withheld
  deriving DecidableEq, Repr

/-- A task slot in use. -/
structure Slot where
  desc : TaskDesc
  state : SlotState
  sw : Bool
  list : Nat
  since : Nat
  unit : Nat
  reexec : Nat
  stopped : Bool
  stopDt : Nat
  scattered : Bool
  substitute : Bool
  dmaAppended : Nat
  dmaDone : Nat
  dmaOor : Nat
  dmaPoison : Bool
  dmaHard : Bool
  dmaScattered : Bool
  dmaRefused : Bool
  dmaRing : Nat
  dmaCount : Nat
  deriving DecidableEq, Repr

/-- A node instance (R80). -/
structure Inst where
  node : Nat
  frame : Word
  startDt : Nat
  variant : Nat
  count : Nat
  skipped : Bool
  held : Bool
  heldDelta : Nat
  offsetMet : Bool
  released : Bool
  marked : Bool
  late : Bool
  ended : Option Status
  left : Nat
  poisoned : Bool
  cancelled : Bool
  substitute : Bool
  complete : Bool
  status : Status
  cancelAtRelease : Bool
  deriving DecidableEq, Repr

/-- An edge event for an instance: which successor, for which frame, and how its input looks (R73, R82, R85). -/
structure EdgeEvent where
  node : Nat
  frame : Word
  skipped : Bool
  held : Bool
  heldDelta : Nat
  deriving DecidableEq, Repr

/-- A completion notice between dies (R74). -/
structure Notice where
  src : Nat
  dst : Nat
  ev : EdgeEvent
  deriving DecidableEq, Repr

/-- A released task that has not yet taken a slot (R105), whether it comes from the substitute templates, and whether it
has been counted as held, and as refused for want of a slot (R116). -/
structure HeldTask where
  desc : TaskDesc
  substitute : Bool
  counted : Bool
  refused : Bool
  deriving DecidableEq, Repr

/-- A frame start on a C-die: message sent, held (R81), or in effect. -/
structure DieFrame where
  start : FrameStart
  variant : Nat
  rejoin : Bool
  deriving DecidableEq, Repr

/-- A ring's producer and consumer indices, each with a wrap bit (R114). -/
structure Ring where
  prod : Nat
  cons : Nat
  deriving DecidableEq, Repr

/-- A round-robin arbiter (R121): none until its first tie since reset, then the pointer. -/
abbrev Arbiter := Option Nat

/-- What an engine has read once: where, the bytes, and whether they were poisoned, and poisoned without a restart tag (R159, R243). -/
structure Fetched where
  addr : Nat
  bytes : List Byte
  poison : Bool
  hard : Bool
  deriving DecidableEq, Repr

/-- What a vision engine reads at the dispatch of its task: the parameter block, the descriptors that the argument block names, and the pair
table of a detection (R159, R189). -/
structure EngineTask where
  block : Fetched
  args : List Fetched
  table : Fetched
  deriving DecidableEq, Repr

/-- A write that becomes visible when its task ends (R160). -/
structure HeldWrite where
  addr : Nat
  bytes : List Byte
  poison : Bool
  deriving DecidableEq, Repr

/-- A unit of a die (units 0–71 cores, 72–84 vision engines, 85 relay engine, 86–89 control cores): the task it runs and
how that task goes so far, the position it fills, its self-test and retirement state (chapter 19), and when the copy of its scratchpad that
is under way ends (R249, R318); of a vision engine also what it read at dispatch, its writes, and the pixel cycles its chapter gives its
task. -/
structure UnitState where
  running : Option Nat
  done : Bool
  poisoned : Bool
  tagged : Bool
  scattered : Bool
  failed : Bool
  oor : Nat
  startDt : Nat
  position : Option Nat
  underTest : Bool
  retired : Bool
  suspect : Bool
  targeted : Bool
  forced : Bool
  abandoned : Bool
  hung : Bool
  segments : Nat
  segmentOpen : Bool
  failDt : Nat
  testDt : Nat
  fullDt : Nat
  uncovered : Bool
  copyEnd : Nat
  latch : Option EngineTask
  writes : List HeldWrite
  cycles : Nat
  deriving DecidableEq, Repr

/-- What a per-frame value is made of: a sum, a maximum, a mean, or the maximum of a level. -/
inductive FrameKind where
  | sum | max | mean | level
  deriving DecidableEq, Repr

/-- The per-frame value of a register field while its frame slot runs (R126): the field's place, the unit it is given in,
and what has been gathered (for a level, `cnt` is the present level). -/
structure FrameAcc where
  die : Nat
  place : Nat
  idx : Nat
  rst : Nat
  lsb : Nat
  width : Nat
  unit : Nat
  kind : FrameKind
  val : Nat
  cnt : Nat
  deriving DecidableEq, Repr

/-- The die sequencer and dispatch state of one C-die.  `early` are edge events, and `srcEnds` ends of SOURCE instances by context,
that came before their instance.  `dmaOwners` are, ring by ring from the channel's index on, the slots whose tasks own the descriptors, none
for one that was stopped.  `grantDt` is when the latest slot was granted, `gave` (plus one) when each list last gave a task. -/
structure Sequencer where
  starts : List DieFrame
  heldStarts : List DieFrame
  frames : List DieFrame
  toCreate : List (Nat × DieFrame)
  insts : List Inst
  early : List EdgeEvent
  srcEnds : List (Nat × Word × Status)
  fence : Bool
  loaded : Option Nat
  lastGood : Map (Option Word)
  firstFrame : Option Word
  slots : Map Slot
  heldTasks : List HeldTask
  owed : List Owed
  lists : Map (List Nat)
  rings : Map Ring
  dmaOwners : Map (List (Option Nat))
  arbiters : Map Arbiter
  grantDt : Option Nat
  gave : Map Nat
  deriving DecidableEq, Repr

/-! ### Ingress (chapter 05) -/

/-- A sensor frame tied to a module frame (R136): when its FS came, the lines received with their payloads, embedded lines,
the lines that have left the pipe and when the last did, whether extra lines came, whether the wait of R583 has ended, and the
strips posted on each die. -/
structure SFrame where
  frame : Word
  fsDt : Nat
  fsWall : Nat
  fsEpoch : Nat
  received : Nat
  rows : Map (List Byte)
  embedded : Nat
  done : Nat
  doneDt : Nat
  long : Bool
  ended : Bool
  delivered : Bool
  posted : Map Nat
  deriving DecidableEq, Repr

/-- One stream context: the frame of its latest trigger, its acceptance window (frame, opening, FS taken), the frame whose
lines arrive, its frames in progress, flags to be raised for drops (die, frame), and its runs of drops, deliveries and missed
golden runs; the state the pipe carries from frame to frame; and the place in its line buffer that the next line takes. -/
structure Ctx where
  trig : Option Word
  window : Option (Word × Nat × Bool)
  cur : Option Word
  frames : List SFrame
  raise : List (Nat × Word)
  lost : Bool
  dropRun : Nat
  goodRun : Nat
  doubted : Bool
  goldRun : Nat
  goldDoubted : Bool
  goldClear : Bool
  tone : Nat
  slot : Nat
  deriving DecidableEq, Repr

/-- A line in a line buffer: the device time it became ready, its context, frame and row. -/
structure Line where
  ready : Nat
  ctx : Nat
  frame : Word
  row : Nat
  deriving DecidableEq, Repr

/-- A golden run: its context, the next line to feed, and the frame that it follows. -/
structure GoldRun where
  ctx : Nat
  line : Nat
  frame : Word
  deriving DecidableEq, Repr

/-- One pipe position: the pipe that fills it, ready lines, the line or golden line in the pipe with its start, the golden runs
waiting, the arbiter (R140, R141), and a handover asked for: since when, the state copy's end, and whether the pipe
is to be retired (R155, R156). -/
structure PipePos where
  pipe : Option Nat
  ready : List Line
  line : Option Line
  gold : Bool
  startDt : Nat
  golds : List GoldRun
  arb : Arbiter
  handover : Option Nat
  copyEnd : Nat
  retire : Bool
  deriving DecidableEq, Repr

/-- A pipe's part in self-test: under test since, suspect, abandoned. -/
structure PipeTest where
  underTest : Bool
  since : Nat
  suspect : Bool
  failDt : Nat
  fullDt : Nat
  deriving DecidableEq, Repr

/-- Camera ingress: gears of the trained links, trained links whose back-channel is down, links once trained since the start, links whose script failed, contexts,
positions, pipes retired, pipes under test, a sensor transaction in progress, the trigger edges sent for a frame (pin, frame), the
hub's repair records that wait (R504), and the rotation of the pipes: the next position and the last grid point (R499). -/
structure Ingress where
  gear : Map Nat
  backDown : List Nat
  trained : List Nat
  scriptFailed : List Nat
  scriptsDone : Bool
  ctxs : Map Ctx
  positions : List PipePos
  retired : List Nat
  tests : Map PipeTest
  i2c : Option Word
  edges : List (Nat × Word)
  repairDue : List (List Byte)
  rotQ : Nat
  rotGrid : Nat
  deriving DecidableEq, Repr

/-! ### Memory (chapters 09 and 15) and DMA (chapter 14) -/

/-- A remote request at a scratchpad's remote port (R245): the 64-byte granule, its bytes if it is a write, the poison marks of its
codewords, and the cycle it arrived in. -/
structure RemoteItem where
  addr : Nat
  write : Option (List Byte)
  poison : BitVec 4
  since : Nat
  deriving DecidableEq, Repr

/-- One LPDDR5X controller: whether it is declared failed or in self-refresh, its remap table, spare slices that are unusable
and slices queued for retirement (R407, R408), the patrol's place, what it remembers of corrections, the codewords it is to write
back and its counts (R404–R406), calibration, refresh and temperature (R410–R413), and the uncorrectable reads of the last millisecond
with their channel pair (R397). -/
structure MemCtl where
  failed : Bool
  selfRefresh : Bool
  remap : Map Nat
  unusable : List Nat
  queue : List Nat
  patrol : Nat
  seen : Map Nat
  fix : List Nat
  pinCount : Map Nat
  sliceCount : Nat
  due : Bool
  dueDt : Nat
  lastCalDt : Nat
  calTemp : Int
  refreshDt : Nat
  temp : Int
  uncorrectable : List (Nat × Nat)
  deriving DecidableEq, Repr

/-- The states of a DMA channel (Table DMA-7). -/
inductive ChState where
  | idle | active | paused | halted
  deriving DecidableEq, Repr

/-- A DMA channel: its state, pending bit, index, and whether it goes on to the next descriptor by itself; of a descriptor in
progress the granules that are confirmed (R382), what it moved so far, a record that waits for room (R378), and what it read when it started the descriptor: the descriptor and the
tensor descriptors that it names (R374). -/
structure DmaChan where
  state : ChState
  pending : Bool
  more : Bool
  index : Nat
  offset : Nat
  mask : BitVec 64
  addr : Nat
  noresp : Bool
  poison : Bool
  hard : Bool
  recordDue : Option Nat
  held : Option (List Byte)
  deriving DecidableEq, Repr

/-- The updates of a flag in this arithmetic cycle so far (R256): its value before them, the initiators they came from, the set among
them, and the sum of the adds. -/
structure FlagCyc where
  before : Word
  froms : List Nat
  set : Option Word
  sum : Word
  deriving DecidableEq, Repr

/-- A watch held by a flag unit for a task of another die, and whether it has been counted as refused before (R260). -/
structure Watch where
  src : Nat
  slot : Nat
  flag : Nat
  value : Word
  counted : Bool
  deriving DecidableEq, Repr

/-- What travels between dies for flags (R259, R260): a watch, a met notice, a watch refused by a full table or a die in
restart and waiting for its retry, or an amount to add to a flag. -/
inductive TravelKind where
  | watch | met | refused | add
  deriving DecidableEq, Repr

/-- One of them on its way; for a watch the slot, flag and value are the waiting task's. -/
structure Travel where
  kind : TravelKind
  src : Nat
  dst : Nat
  slot : Nat
  flag : Nat
  value : Word
  counted : Bool
  deriving DecidableEq, Repr

/-! ### The neural core (chapter 11), the relay (chapter 13) and self-test (chapter 19) -/

/-- An address generator of a core: the fields of GSET and the access count m (R302). -/
structure Gen where
  a0 : Nat
  width : Nat
  skew : Bool
  col : Bool
  step1 : Int
  count1 : Nat
  step2 : Int
  count2 : Nat
  m : Nat
  deriving DecidableEq, Repr

/-- An operand group in one of the matrix engine's buffers: its granules as read, the lanes their poison reaches, the
cycle from which a RUN may consume it (R306, R314), and the lanes of the tensor's extent, all 64 where that is not known (R330). -/
structure Group where
  granules : List (List Byte)
  lanes : List Nat
  ready : Nat
  extent : Nat
  deriving DecidableEq, Repr

/-- Where a granule that an operation of several cycles reads goes: an A or a B buffer, or an accumulator (R306, R308). -/
inductive PortDst where
  | bufA (i : Nat) | bufB (i : Nat) | acc (i : Nat)
  deriving DecidableEq, Repr

/-- One granule of an operation that occupies its port for several cycles: the cycle, the port, the line offset and bank, and the granule
that is written with its marks, or where the one that is read goes, as its granule `pos` (R240, R306, R308). -/
structure PortOp where
  cycle : Nat
  port : Nat
  line : Nat
  bank : Nat
  write : Option (List Byte × List Bool)
  dst : PortDst
  pos : Nat
  deriving DecidableEq, Repr

/-- A RUN in progress: its issue cycle and length, accumulator, whether it starts from zero, its operands with their
formats, the buffers that held them, and the next block to close (R307). -/
structure RunState where
  start : Nat
  cycles : Nat
  acc : Nat
  init : Bool
  aFmt : Nat
  bFmt : Nat
  aBuf : Nat
  bBuf : Nat
  a : Group
  b : Group
  block : Nat
  deriving DecidableEq, Repr

/-- A loop of the tile program in progress: its counter, its body's first and last bundle, and the passes still to come
after this one (R299). -/
structure LoopState where
  counter : Nat
  first : Nat
  last : Nat
  left : Nat
  deriving DecidableEq, Repr

/-- A result of the vector unit on its way to its register: the cycle it is written in, its lanes and the poisoned ones
(R315). -/
structure VWrite where
  due : Nat
  reg : Nat
  lanes : List Word
  poison : List Nat
  deriving DecidableEq, Repr

/-- A store channel of a task: its kind, its tensor and index descriptors as read at dispatch, and the granules sent
(R304). -/
structure Chan where
  kind : Nat
  desc : List Byte
  idx : List Byte
  sent : Nat
  deriving DecidableEq, Repr

/-- One neural core: the bundle sequencer, registers, accumulators, checksum accumulators (of the block closed last) and generators, what its
ports have still to do and until when each is occupied, the local tensors that its task has pulled, whether a store gets no response, and
its scratchpad's phase, remote port (with the device times of the latest request accepted and performed, and until when a part write holds a
bank), patrol and repair state: in each bank the rows that its spare rows replace, and as many banks again for the bundle and slot-table stores. -/
structure Core where
  issuing : Bool
  cycle : Nat
  pc : Nat
  rep : Nat
  loops : List LoopState
  program : Nat
  v : Map Word
  vPoison : List Nat
  vPend : List VWrite
  acc : Map Word
  accPoison : List Nat
  gens : Map Gen
  bufA : Map Group
  bufB : Map Group
  runs : List RunState
  accBusy : Map Nat
  chans : List Chan
  tagCodes : List Nat
  endDt : Nat
  began : Bool
  phase : Nat
  ports : List PortOp
  portBusy : Map Nat
  locals : List (List Byte)
  chk : List Int
  noAck : Bool
  remote : List RemoteItem
  acceptDt : Option Nat
  remoteDt : Option Nat
  bankHold : Map Nat
  patrolDt : Option Nat
  patrolRow : Nat
  patrolSeen : Map Nat
  patrolFix : Map Nat
  repairQueue : List Nat
  spareRows : Map (List Nat)
  deriving DecidableEq, Repr

/-- The Cosy die (7, Table ORG-4): powered, its self-test passed, running an image it has verified, and that image's identity; its own
OTP (key hashes, rollback counter, serial); the two halves of its xSPI NOR, the half in use, the half it starts from next, and an image
being delivered (R56, R57); its SRAM, neural cores and switched domains; and the sequence numbers of its streams. -/
structure CosyDie where
  powered : Bool
  selfTest : Bool
  running : Bool
  ident : Hash
  vkey : Hash
  ikey : Hash
  counter : Nat
  serial : BitVec 128
  halfA : Map Byte
  halfB : Map Byte
  half : Bool
  next : Bool
  image : Map Byte
  sram : Map Byte
  cores : Map Core
  domains : List Nat
  seqs : Map Word
  deriving DecidableEq, Repr

/-- One transmit path of a relay engine (R354): the entry it carries, and since when. -/
structure RelayPath where
  busy : Option (List Byte)
  since : Nat
  deriving DecidableEq, Repr

/-- The relay engine of a C-die: its two paths; how many entries of its task's list it has appended, and whether a full queue holds it;
for each relay queue, which of its entries were forwarded and so bear their epoch; the credit waits it has asked for, and those
that are met; acknowledgements on their way to it (the flag to post); and by direction, an arrival whose forward a full queue
holds (R357). -/
structure Relay where
  next : RelayPath
  prev : RelayPath
  appended : Nat
  refused : Bool
  marks : Map (List Bool)
  asked : Map Nat
  met : List Nat
  acks : List (Option Nat)
  held : Map (List Byte)
  deriving DecidableEq, Repr

/-! ### Start, flash and links (chapters 01 and 02) -/

/-- One copy of a record that logical unit 3 holds twice (R51): its record sequence number, whether its CRC-32C is right, and what it
records. -/
structure Copy (α : Type) where
  seq : Word
  good : Bool
  val : α
  deriving DecidableEq, Repr

/-- The two copies of a record; a copy never written is absent. -/
structure Twin (α : Type) where
  a : Option (Copy α)
  b : Option (Copy α)
  deriving DecidableEq, Repr

/-- What the slot record names (R51): the active slot and, optionally, a pending slot. -/
structure SlotRecord where
  active : Bool
  pending : Option Bool
  deriving DecidableEq, Repr

/-- A numbering mark (R62). -/
structure Mark where
  frame : Word
  epoch : BitVec 16
  seqs : List Word
  deriving DecidableEq, Repr

/-- What flash keeps through a power loss: the two Caddy slots; in logical unit 3 the slot record, the numbering mark, the epoch record and
the sealed key record, two copies of each, and the repair log; in logical unit 4 the cold-start count, in two copies; the xSPI NOR's loader and endorsement; and the
record written last with the device time of the write, which a power loss at that time cuts (log entry 62). -/
structure Flash where
  slotA : Map Byte
  slotB : Map Byte
  record : Twin SlotRecord
  mark : Twin Mark
  epoch : Twin (BitVec 16)
  repairs : List (List Byte)
  boot : Twin Word
  sealedKeys : Twin (List Byte)
  loader : Map Byte
  writing : Option (Nat × Nat)
  deriving DecidableEq, Repr

/-- A link between dies (R24). -/
inductive LinkWidth where
  | full | half | lost
  deriving DecidableEq, Repr

/-- The progress of the current start (Table CDY-7): the last step done, the hub's self-test passed, a self-test of step 3 failed (R46), the Cosy's result waited for in
vain, check 9 in force; the slot tried, whether it is the pending one, the slots tried and those that cannot be read, sections
matched, C-dies whose self-test and training are done; the holding state; a first frame start since the cold start, and since the
latest restart; a COSY_LINK doubt and a SECURITY doubt for the first frame start; that the module itself began this start; that no valid
numbering mark was found (R62); C-dies with a re-hash in progress; and the slot of a commit in progress. -/
structure Boot where
  step : Nat
  hubPass : Bool
  failed : Bool
  waited : Bool
  check9 : Bool
  slot : Bool
  trial : Bool
  tried : List Bool
  unreadable : List Bool
  hashed : Nat
  tested : List Nat
  holding : Bool
  framed : Bool
  restarted : Bool
  cosyLost : Bool
  sealedBad : Bool
  requested : Bool
  noMark : Bool
  rehash : List Nat
  commit : Option Bool
  deriving DecidableEq, Repr

/-- A restart of C-dies in progress: since when, whether warm, and whether the hub's part is done (R483, R486). -/
structure Restart where
  since : Nat
  warm : Bool
  ready : Bool
  deriving DecidableEq, Repr

/-- Device time and the wall-time servo (R430–R432): the wall mapping in force and the one before the latest step. -/
structure WallSeg where
  dt : Nat
  wall : Nat
  ppb : Int
  epoch : Nat
  synced : Bool
  deriving DecidableEq, Repr

/-- The clock state of the hub's time base. -/
structure Timebase where
  seg : WallSeg
  prevSeg : WallSeg
  everSynced : Bool
  holdover : Bool
  port : Nat
  lastSyncDt : Nat
  gateStart : Map Nat
  deriving DecidableEq, Repr

/-- The frame root (R65–R69). -/
structure FrameRoot where
  running : Bool
  next : Word
  slotLen : Nat
  lastSlew : Nat
  startDt : Nat
  starts : List FrameStart
  deriving DecidableEq, Repr

/-- A message in reassembly (R434): its seq, when its first fragment came, the ports it came on, its fragments. -/
structure Partial where
  seq : Word
  firstDt : Nat
  ports : Nat
  count : Nat
  frags : Map (List Byte)
  deriving DecidableEq, Repr

/-- One ingress stream (R420, R434): the last R-TAG, those of the history seen, how far the
history reaches back, when a frame last came, what its flow meter
has taken out of its burst and as of when, and the messages in reassembly. -/
structure IngStream where
  rtagLast : Option Nat
  rtagSeen : List Nat
  span : Nat
  lastDt : Nat
  taken : Nat
  meterDt : Nat
  parts : List Partial
  deriving DecidableEq, Repr

/-- A C-die; `loaded` are the sections of the image as it holds them (firmware, graphs, schedules; R44, R59, R294); `trackTasks` are the
partitions of the track table (first entry, entries) with the frame of the latest task that has updated each (R192), `journalOf` the one that
the journal updates. -/
structure Die where
  loaded : Map Byte
  seq : Sequencer
  units : Map UnitState
  restart : Option Restart
  failed : Bool
  inReset : Bool
  testFaults : List Nat
  watches : List Watch
  flagHeld : List Nat
  flagCyc : Map FlagCyc
  mems : Map MemCtl
  chans : Map DmaChan
  cores : Map Core
  relay : Relay
  tracks : Map Byte
  trackBad : List Nat
  trackCtr : Word
  trackHold : Map (List Byte)
  trackPtr : Map Nat
  journal : List (Nat × List Byte)
  journalCtr : Word
  journalOf : List (Nat × Nat × Word)
  trackTasks : List (Nat × Nat × Word)
  cmnRow : Map Nat
  cmnSeen : Map Nat
  cmnFix : Map Nat
  cmnQueue : List Nat
  cmnRows : Map (List Nat)
  cmnDt : Map Nat
  rotation : Map Nat
  repairDue : List (List Byte)
  dmaMismatch : Map Word
  deriving DecidableEq, Repr

/-! ### Security, power and freeze (chapters 22, 23, 24) -/

/-- A maintenance session (R537, R538): its role, the role and key its OPEN named, the challenge that waits for a PROVE and when it
was sent, when its latest message came, and the slot its UPLOADs write with whether one has. -/
structure Session where
  role : Nat
  asked : Nat
  key : Hash
  nonce : Hash
  challenge : Option Nat
  lastDt : Nat
  slot : Option Bool
  wrote : Bool
  deriving DecidableEq, Repr

/-- OTP and the security block (Table SEC-1, R538–R543): lifecycle, counter, key hashes (the integrator's zero until burned), serial,
device secret and provisioning CAK; the session, the run of failed PROVEs and the end of a refusal of OPENs; the attestation body being signed; the unlocked
scope; the health of OTP, the known-answer tests and the generator; the acceptance of the sealed key
record, and the keys in use that it held, without which the maintenance port uses the provisioning CAK (R537, R542); and the hash of the first-stage loader as verified. -/
structure Security where
  lifecycle : Nat
  counter : Nat
  vkey : Hash
  ikey : Hash
  serial : BitVec 128
  secret : BitVec 256
  provisioningCak : BitVec 256
  session : Option Session
  failed : Nat
  lockout : Option Nat
  attest : Option (List Byte)
  unlocked : Bool
  scope : Nat
  otpOk : Bool
  katOk : Bool
  trngOk : Bool
  sealedOk : Bool
  keys : Option (List Byte)
  loaderHash : Hash
  deriving DecidableEq, Repr

/-- Power, clocks and hot-plug (chapter 23): the main blades in contact, inrush begun, power good; the active root PLL and
reference, the parts diagnosed as failed, and since when the PLLs are in holdover; phases lost by rail group; domains that are
switched on, and hub domains recorded as off for good (R493); the removal request; the input below 36 V reported at; the frame whose warn_w event is sent; the switch opened by heat, and the dies whose
hottest sensor reads 85 °C or more (R557);
the pins: SAFE_TO_REMOVE high, FAULT_N asserted (driven low), MOD_RESET_N released (high), PRESENT_N made. -/
structure Power where
  contact : Bool
  inrush : Bool
  good : Bool
  root : Nat
  ref : Nat
  rootFailed : List Nat
  refFailed : List Nat
  holdover : Option Nat
  phases : Map Nat
  domains : Map Bool
  hubOff : List Nat
  removal : Option Nat
  lowDt : Option Nat
  warned : Option Word
  cut : Bool
  hot : List Nat
  safeToRemove : Bool
  faultN : Bool
  resetN : Bool
  present : Bool
  deriving DecidableEq, Repr

/-- Freeze and read-out (chapter 24): a freeze accepted, the clocks stopped, the device time of the last cycle, the source, an image
read whole, the latest read-out non-destructive, and DRAM read; and the writes that wait in the mesh for controllers in self-refresh, by
address with their bytes and poison (R415, R572). -/
structure Freeze where
  requested : Bool
  stopped : Bool
  stopDt : Nat
  source : Nat
  image : Bool
  intact : Bool
  dram : Bool
  mesh : List (Nat × List Byte × Bool)
  deriving DecidableEq, Repr

/-- One fragment frame on a host port, by the fields of R426: addresses, VLAN tag, R-TAG, 1722 stream with its sequence number and timestamp, ACF type
and message, and whether MACsec protects it (log entry 97). -/
structure HostFrame where
  port : Nat
  dest : Nat
  source : Nat
  pcp : Nat
  vlan : Nat
  streamId : Nat
  acfType : Nat
  stream : Nat
  rtag : BitVec 16
  seqNum : BitVec 8
  timestamp : Word
  msgSeq : Word
  index : Nat
  count : Nat
  data : List Byte
  macsec : Bool
  deriving DecidableEq, Repr

/-- What the outside world has been given: register reads, session replies, fragment frames, Cosy port messages,
camera triggers and sensor transactions, relay flits, answers of remote ports (to a read its bytes with the marks of their codewords, to a write none), and the pins the hub drives. -/
structure Out where
  reads : List Word
  replies : List (List Byte)
  frames : List HostFrame
  cosyMsgs : List (List Byte)
  triggers : List (Nat × Nat)
  i2c : List (Nat × Nat × List Byte)
  flits : List (Nat × List Byte)
  remote : List (List Byte × BitVec 4)
  deriving DecidableEq, Repr

/-- A flit on its way out (Tables SHD-5, SHD-6): its type, the tag, offset and marks of its info, its last-flit mark, and its payload. -/
structure TxFlit where
  type : Nat
  tag : Nat
  off : Nat
  marks : Nat
  last : Bool
  payload : List Byte
  deriving DecidableEq, Repr

/-- A relay port of the hub (R359–R362): trained, in use on half its lanes or with its spare, lost, its failed lanes, its sequence
numbers and replay buffer (sequence number, flit, bytes), when it last carried a valid flit, since when it retrains, whether its
peer's IDENT has come, the receive-buffer flits freed since the last report, the credits it has at its peer's buffer, and its own receive
buffer. -/
structure RelayPort where
  trained : Bool
  half : Bool
  spare : Bool
  lost : Bool
  lanesFailed : List Nat
  txSeq : Nat
  rxSeq : Nat
  replay : List (Nat × TxFlit × List Byte)
  lastDt : Nat
  silentFrom : Option Nat
  ident : Bool
  freed : Nat
  credits : Nat
  rxq : List Instr
  deriving DecidableEq, Repr

/-- An entry that arrives in flits: its tag, its 64 bytes, and the pieces of its block with their offsets and the marks of their codewords. -/
structure RxEntry where
  tag : Nat
  entry : List Byte
  parts : List (Nat × List Byte × BitVec 16)
  deriving DecidableEq, Repr

/-- The hub's part in the ring of modules (R363–R365): formed, formed once and broken since, a break still to be told, when a census
was sent, the entry each pair receives, the flits that wait for a pair, the port of a pair that sends next and the one that is taken from
next, what a tag stands for: the die and done flag of an entry sent, and the die and queue of a watch; a census that waits here with its
epoch, and the epoch that the module took at its first forming since its cold start. -/
structure RingLink where
  up : Bool
  broken : Bool
  breakDue : Bool
  censusDt : Option Nat
  rx : Map RxEntry
  txq : Map (List TxFlit)
  turn : Map Nat
  rxTurn : Map Nat
  nextTag : Nat
  sent : List (Nat × Nat × Option Nat)
  watches : List (Nat × Nat × Nat)
  census : Option (List CensusEntry × Nat)
  joined : Option Nat
  deriving DecidableEq, Repr

/-- The whole module.  `poison` are the codewords that carry the poison pattern; `upsets` the symbols of a codeword of a scratchpad or the commons, or of a
flag word, that its check bits show wrong (R233, R254), as a mask. -/
structure State where
  pending : List Instr
  m2 : Bool
  deviceTime : Nat
  time : Timebase
  regs : Map Word
  shadow : Map Word
  captures : Map Word
  loHeld : Map Word
  mem : List Host.Cell
  poison : List Nat
  upsets : Map Nat
  locked : List (Nat × Nat)
  flags : Map Word
  caddy : Map Byte
  flash : Flash
  boot : Boot
  links : Map LinkWidth
  dies : List Die
  root : FrameRoot
  notices : List Notice
  travel : List Travel
  streams : Map Stream
  pairs : Map DivPair
  saf : SafetyMgr
  cosyView : CosyView
  cosy : CosyDie
  recorder : Recorder
  evDue : List Event
  doubtDue : List DoubtCause
  ingress : Ingress
  ingStreams : Map IngStream
  ringHold : Map (List (List Byte))
  ports : Map RelayPort
  ring : RingLink
  sec : Security
  pwr : Power
  frz : Freeze
  out : Out
  tally : Map Nat
  perFrame : List FrameAcc
  freeCtr : Nat
  deriving DecidableEq, Repr

/-! ### The state right after reset -/

/-- An idle path of a relay engine. -/
def RelayPath.idle : RelayPath := ⟨none, 0⟩

/-- A sequencer with nothing in it: what every start that clears a die leaves (Table CDY-8a). -/
def Sequencer.fresh : Sequencer := ⟨[], [], [], [], [], [], [], false, none, [], none, [], [], [], [], [], [], [], none, []⟩

/-- A C-die held in reset. -/
def Die.fresh : Die where
  loaded := []
  seq := Sequencer.fresh
  units := []
  restart := none
  failed := false
  inReset := true
  testFaults := []
  watches := []
  flagHeld := []
  flagCyc := []
  mems := []
  chans := []
  cores := []
  relay := ⟨.idle, .idle, 0, false, [], [], [], [], []⟩
  tracks := []
  trackBad := []
  trackCtr := 0
  trackHold := []
  trackPtr := []
  journal := []
  journalCtr := 0
  journalOf := []
  trackTasks := []
  cmnRow := []
  cmnSeen := []
  cmnFix := []
  cmnQueue := []
  cmnRows := []
  cmnDt := []
  rotation := []
  repairDue := []
  dmaMismatch := []

/-- A controller with nothing remapped and nothing queued. -/
def MemCtl.fresh : MemCtl :=
  ⟨false, false, [], [], [], 0, [], [], [], 0, false, 0, 0, 0, 0, 0, []⟩

/-- Wall time before the first synchronisation: from 0 at device time 0 at the nominal rate (R431). -/
def WallSeg.start (epoch : Nat) : WallSeg := ⟨0, 0, 0, epoch, false⟩

/-- A pipe position filled by its own pipe (R140). -/
def PipePos.fresh (p : Nat) : PipePos := ⟨some p, [], none, false, 0, [], none, none, 0, false⟩

/-- Ingress after a cold start: no link trained, pipe p at position p, pipe 4 the spare. -/
def Ingress.fresh : Ingress :=
  ⟨[], [], [], [], false, [], [PipePos.fresh 0, PipePos.fresh 1, PipePos.fresh 2, PipePos.fresh 3], [], [], none, [], [], 0, 0⟩

/-- The place of a register in the register file: die, slot × 0x1_0000 + offset. -/
def regAt (die base : Nat) : Nat := (die * 2 ^ 24 + base) * 2 ^ 16

/-- The ID block of a die (Table ORG-9 to ORG-11) of an ILK2-M4: stepping and board revision 1 (log entry 7). -/
def idRegs (die : Nat) : Map Word :=
  if die = 6 then
    [(regAt 6 0x0, Word.ofNat (6 + 1 * 16 + 1 * 256 + 0x1A02 * 65536)), (regAt 6 0x4, 0x00000144),
     (regAt 6 0x8, Word.ofNat (5 * 2 ^ 20 + 4 * 2 ^ 24))]
  else
    [(regAt die 0x0, Word.ofNat (die + 1 * 256 + 0x1C02 * 65536)), (regAt die 0x4, 0x00000144),
     (regAt die 0x8, Word.ofNat (72 + 8 * 2 ^ 8 + 8 * 2 ^ 12 + 8 * 2 ^ 16 + 1 * 2 ^ 24))]

/-- The progress of a start before its first step; whether the module itself began it. -/
def Boot.fresh (requested : Bool) : Boot :=
  ⟨0, false, false, false, false, false, false, [], [], 0, [], false, false, false, false, false, requested, false, [], none⟩

/-- Flash as it leaves the factory in this model: nothing written, slot A active (log entry 6). -/
def Flash.blank : Flash :=
  ⟨[], [], ⟨some ⟨0, true, ⟨false, none⟩⟩, none⟩, ⟨none, none⟩, ⟨none, none⟩, [], ⟨none, none⟩, ⟨none, none⟩, [], none⟩

/-- The Cosy before its own power comes: its OTP and its NOR as they leave the factory in this model (log entries 6, 41). -/
def CosyDie.off : CosyDie := ⟨false, false, false, 0, 0, 0, 0, 0, [], [], false, false, [], [], [], [], []⟩

/-- The module right after reset: power-good has not come, dies 0–3 are held in reset, nothing is listed in memory. -/
def State.reset : State where
  pending := []
  m2 := false
  deviceTime := 0
  time := ⟨WallSeg.start 0, WallSeg.start 0, false, false, 0, 0, []⟩
  regs := idRegs 0 ++ idRegs 1 ++ idRegs 2 ++ idRegs 3 ++ idRegs 6
  shadow := []
  captures := []
  loHeld := []
  mem := []
  poison := []
  upsets := []
  locked := []
  flags := []
  caddy := []
  flash := Flash.blank
  boot := Boot.fresh false
  links := []
  dies := [Die.fresh, Die.fresh, Die.fresh, Die.fresh]
  root := ⟨false, 0, 0, 0, 0, []⟩
  notices := []
  travel := []
  streams := []
  pairs := []
  saf := ⟨[], false, none, [], [], false, false, [], false⟩
  cosyView := ⟨false, false, false, 0, none, false, false⟩
  cosy := CosyDie.off
  recorder := ⟨[], [], [], 0, none, [], [], [], 0⟩
  evDue := []
  doubtDue := []
  ingress := Ingress.fresh
  ingStreams := []
  ringHold := []
  ports := []
  ring := ⟨false, false, false, none, [], [], [], [], 0, [], [], none, none⟩
  sec := ⟨0, 0, 0, 0, 0, 0, 0, none, 0, none, none, false, 0, true, true, true, false, none, 0⟩
  pwr := ⟨false, false, false, 0, 0, [], [], none, [], [], [], none, none, none, false, [], false, false, true, true⟩
  frz := ⟨false, false, 0, 0, false, false, false, []⟩
  out := ⟨[], [], [], [], [], [], [], []⟩
  tally := []
  perFrame := []
  freeCtr := 0

end Sys2Proof.Machine
end

