-- ==== Sys2Proof/Machine/Ops.lean ====
section
/-! DEFINITION. The named operations over the state: registers and their fields, bytes and the Caddy's tables, the module
address map, memory with poison, flags, events and doubts on their way, and wall time. -/

namespace Sys2Proof.Machine

open Sys2Proof

/-! ### Byte orders -/

/-- The number that bytes spell, least significant first. -/
def leNat : List Byte → Nat
  | [] => 0
  | b :: l => b.toNat + 256 * leNat l

/-- The number that bytes spell, most significant first (R422). -/
def beNat (l : List Byte) : Nat := l.foldl (fun n b => n * 256 + b.toNat) 0

/-- The `n` bytes of a number, least significant first. -/
def toLE : Nat → Nat → List Byte
  | 0, _ => []
  | n + 1, v => BitVec.ofNat 8 v :: toLE n (v / 256)

/-- The `n` bytes of a number, most significant first. -/
def toBE (n v : Nat) : List Byte := (toLE n v).reverse

/-- Bits [lsb + width − 1 : lsb] of a number. -/
def bits (v lsb width : Nat) : Nat := v / 2 ^ lsb % 2 ^ width

/-- A number's bit `n`. -/
def testBit (v n : Nat) : Bool := v / 2 ^ n % 2 == 1

/-- A two's-complement number of `w` bits, read as signed. -/
def signed (w v : Nat) : Int := if v % 2 ^ w < 2 ^ (w - 1) then ((v % 2 ^ w : Nat) : Int) else ((v % 2 ^ w : Nat) : Int) - 2 ^ w

/-- A signed number in `w` bits of two's complement, saturating at its limits. -/
def satSigned (w : Nat) (v : Int) : Nat :=
  if v < -(2 ^ (w - 1)) then 2 ^ (w - 1)
  else if v ≥ 2 ^ (w - 1) then 2 ^ (w - 1) - 1
  else (v % 2 ^ w).toNat

/-- A number cut to at most `m`. -/
def cap (m n : Nat) : Nat := if n ≤ m then n else m

/-- `n ÷ d` rounded to the nearest integer, halves away from zero (R65, R67). -/
def roundDiv (n : Int) (d : Nat) : Int := if n < 0 then -((-n * 2 + d) / (2 * d)) else (n * 2 + d) / (2 * d)

/-- Frame number a precedes b in serial order (R70). -/
def precedes (a b : Word) : Bool := let d := (b - a).toNat; decide (1 ≤ d ∧ d ≤ 2 ^ 31 - 1)

/-! ### Registers (R12, R14, R29, R30) -/

/-- The key of a register: die, place in the die's window with the instance's stride in it, and the value of the register
that selects what it reports. -/
def regKey (die base idx : Nat) : Nat := (die * 2 ^ 24 + base) * 2 ^ 16 + idx

/-- A register's word; at its reset value where nothing else is listed. -/
def State.reg (s : State) (die base idx rst : Nat) : Word := Map.get (Word.ofNat rst) s.regs (regKey die base idx)

/-- Write a register's word. -/
def State.setReg (s : State) (die base idx rst : Nat) (w : Word) : State :=
  { s with regs := Map.set (Word.ofNat rst) s.regs (regKey die base idx) w }

/-- The number in a field of a word. -/
def fieldOf (w : Word) (lsb width : Nat) : Nat := bits w.toNat lsb width

/-- A word with a field replaced. -/
def putField (w : Word) (lsb width v : Nat) : Word :=
  BitVec.ofNat 32 (w.toNat - bits w.toNat lsb width * 2 ^ lsb + v % 2 ^ width * 2 ^ lsb)

/-- A field of a register of `die`, instance `i`, selected entry `x`. -/
def State.getF (s : State) (die : Nat) (f : Fld) (i : Nat := 0) (x : Nat := 0) : Nat :=
  fieldOf (s.reg die (f.base + i * f.stride) x f.rst) f.lsb f.width

/-- Write a field. -/
def State.setF (s : State) (die : Nat) (f : Fld) (v : Nat) (i : Nat := 0) (x : Nat := 0) : State :=
  s.setReg die (f.base + i * f.stride) x f.rst
    (putField (s.reg die (f.base + i * f.stride) x f.rst) f.lsb f.width v)

/-- Add to a counter field, saturating. -/
def State.bumpF (s : State) (die : Nat) (f : Fld) (i : Nat := 0) (x : Nat := 0) (n : Nat := 1) : State :=
  s.setF die f (cap (2 ^ f.width - 1) (s.getF die f i x + n)) i x

/-- Raise a field to at least `v` (a peak), saturating. -/
def State.peakF (s : State) (die : Nat) (f : Fld) (v : Nat) (i : Nat := 0) (x : Nat := 0) : State :=
  s.setF die f (cap (2 ^ f.width - 1) (max (s.getF die f i x) v)) i x

/-- Add `n` to a counter that is kept in units of `u`: the part below one unit waits in the tally. -/
def State.bumpUnits (s : State) (die : Nat) (f : Fld) (u n : Nat) (i : Nat := 0) (x : Nat := 0) : State :=
  let k := regKey die (f.base + i * f.stride) x * 32 + f.lsb
  let t := Map.get 0 s.tally k + n
  ({ s with tally := Map.set 0 s.tally k (t % u) }).bumpF die f i x (t / u)

/-! ### Per-frame values (R126) -/

/-- The per-frame value of a field, as it stands. -/
def State.frameAcc (s : State) (die : Nat) (f : Fld) (unit : Nat) (kind : FrameKind) (i x : Nat) : FrameAcc :=
  match s.perFrame.find? (fun (a : FrameAcc) =>
      a.die == die && a.place == f.base + i * f.stride && a.idx == x && a.lsb == f.lsb && a.kind == kind) with
  | some a => a
  | none => ⟨die, f.base + i * f.stride, x, f.rst, f.lsb, f.width, unit, kind, 0, 0⟩

/-- Put a per-frame value back. -/
def State.putAcc (s : State) (a : FrameAcc) : State :=
  { s with perFrame := a :: s.perFrame.filter (fun (b : FrameAcc) =>
      !(b.die == a.die && b.place == a.place && b.idx == a.idx && b.lsb == a.lsb && b.kind == a.kind)) }

/-- Add to a per-frame sum given in units of `u`. -/
def State.addFrame (s : State) (die : Nat) (f : Fld) (u n : Nat) (i : Nat := 0) (x : Nat := 0) : State :=
  let a := s.frameAcc die f u .sum i x
  s.putAcc { a with val := a.val + n }

/-- Raise a per-frame maximum. -/
def State.maxFrame (s : State) (die : Nat) (f : Fld) (u n : Nat) (i : Nat := 0) (x : Nat := 0) : State :=
  let a := s.frameAcc die f u .max i x
  s.putAcc { a with val := max a.val n }

/-- Add a sample to a per-frame mean. -/
def State.meanFrame (s : State) (die : Nat) (f : Fld) (u n : Nat) (i : Nat := 0) (x : Nat := 0) : State :=
  let a := s.frameAcc die f u .mean i x
  s.putAcc { a with val := a.val + n, cnt := a.cnt + 1 }

/-- A level whose per-frame maximum a field reports has changed. -/
def State.levelFrame (s : State) (die : Nat) (f : Fld) (n : Nat) (i : Nat := 0) (x : Nat := 0) : State :=
  let a := s.frameAcc die f 1 .level i x
  s.putAcc { a with val := max a.val n, cnt := n }

/-- The value that a finished frame slot gives a field. -/
def FrameAcc.value (a : FrameAcc) : Nat :=
  let v := match a.kind with
    | .mean => if a.cnt = 0 then 0 else a.val / a.cnt
    | _ => a.val
  cap (2 ^ a.width - 1) (v / a.unit)

/-- A frame slot of a die ends: its per-frame values are published and begin anew. -/
def State.publishFrame (s : State) (die : Nat) : State :=
  let mine := s.perFrame.filter (fun (a : FrameAcc) => a.die == die)
  let s1 := mine.foldl (fun (s : State) (a : FrameAcc) =>
    s.setReg die a.place a.idx a.rst (putField (s.reg die a.place a.idx a.rst) a.lsb a.width a.value)) s
  { s1 with perFrame := s1.perFrame.map (fun (a : FrameAcc) =>
      if a.die = die then { a with val := if a.kind = .level then a.cnt else 0, cnt := if a.kind = .level then a.cnt else 0 }
      else a) }

/-- A 64-bit pair written as two registers, _LO first. -/
def State.setPair (s : State) (die : Nat) (lo hi : Fld) (v : Nat) (i : Nat := 0) (x : Nat := 0) : State :=
  (s.setF die lo (v % 2 ^ 32) i x).setF die hi (v / 2 ^ 32) i x

/-! ### The Caddy's sections in use -/

/-- Section kinds (Table CDY-5). -/
abbrev secFW : Nat := 1
abbrev secGRAPH : Nat := 2
abbrev secSCHED : Nat := 3
abbrev secWEIGHTS : Nat := 4
abbrev secISP : Nat := 5
abbrev secMESH : Nat := 6
abbrev secGOLDEN : Nat := 7
abbrev secSAFETY : Nat := 8
abbrev secTSN : Nat := 9
abbrev secPOWER : Nat := 10
abbrev secCOSYLINK : Nat := 11

/-- `n` bytes from a key of a byte map. -/
def mapBytes (m : Map Byte) (k : Nat) : Nat → List Byte
  | 0 => []
  | n + 1 => Map.get 0 m k :: mapBytes m (k + 1) n

/-- Write bytes into a byte map from a key on. -/
def mapPut (m : Map Byte) (k : Nat) : List Byte → Map Byte
  | [] => m
  | b :: l => mapPut (Map.set 0 m k b) (k + 1) l

/-- The key of a byte of a released section. -/
def cadKey (kind off : Nat) : Nat := kind * 2 ^ 40 + off

/-- Bytes of a released section. -/
def State.cadBytes (s : State) (kind off n : Nat) : List Byte := mapBytes s.caddy (cadKey kind off) n

/-- A little-endian field of a released section (R37). -/
def State.cad (s : State) (kind off n : Nat) : Nat := leNat (s.cadBytes kind off n)

/-- Bytes of a section as a C-die has loaded it. -/
def State.dieBytes (s : State) (d kind off n : Nat) : List Byte := mapBytes (s.dies.getD d Die.fresh).loaded (cadKey kind off) n

/-- A little-endian field of a section as a C-die has loaded it. -/
def State.dieCad (s : State) (d kind off n : Nat) : Nat := leNat (s.dieBytes d kind off n)

/-- A big-endian field of the TSN section (R422). -/
def State.tsn (s : State) (off n : Nat) : Nat := beNat (s.cadBytes secTSN off n)

/-! ### The module address map (R25–R28, Table ORG-6) -/

/-- Where a module address lies. -/
inductive Region where
  | dram (die off : Nat) | commons (die off : Nat) | flag (die f : Nat) | spd (die core off : Nat)
  | hubSram (off : Nat) | ingress (off : Nat) | mailbox (off : Nat) | view (priv : Bool) (off : Nat) | reserved
  deriving DecidableEq, Repr

/-- Number of C-dies fitted (R2, Table SCO-1). -/
def State.nDies (s : State) : Nat := if s.m2 then 2 else 4

/-- The region of an address, with the dies of the fitted part (R4, R28). -/
def State.region (s : State) (a : Nat) : Region :=
  if a < 0x8000000000 then
    let d := a / 0x2000000000
    let o := a % 0x2000000000
    if d < s.nDies ∧ o < 0x1C00000000 then .dram d o else .reserved
  else if a < 0x8100000000 then
    let d := (a - 0x8000000000) / 0x40000000
    let o := (a - 0x8000000000) % 0x40000000
    if s.nDies ≤ d then .reserved
    else if o < 0x01FFC000 then .commons d o
    else if o < 0x02000000 then .flag d ((o - 0x01FFC000) / 4)
    else if 0x10000000 ≤ o ∧ o < 0x10000000 + 72 * 0x100000 ∧ (o - 0x10000000) % 0x100000 < 0x60000 then
      .spd d ((o - 0x10000000) / 0x100000) ((o - 0x10000000) % 0x100000)
    else .reserved
  else if 0xC000000000 ≤ a ∧ a < 0xC001000000 then .hubSram (a - 0xC000000000)
  else if 0xC010000000 ≤ a ∧ a < 0xC011000000 then .ingress (a - 0xC010000000)
  else if 0xC400000000 ≤ a ∧ a < 0xC400100000 then .mailbox (a - 0xC400000000)
  else if 0xF000000000 ≤ a ∧ a < 0xF008000000 then .view true (a - 0xF000000000)
  else if 0xF800000000 ≤ a ∧ a < 0xF808000000 then .view false (a - 0xF800000000)
  else .reserved

/-- Where DRAM of a die starts. -/
def dramBase (d : Nat) : Nat := d * 0x2000000000

/-- Where the on-chip window of a die starts. -/
def chipBase (d : Nat) : Nat := 0x8000000000 + d * 0x40000000

/-- Where the scratchpad of core c of die d starts. -/
def spdBase (d c : Nat) : Nat := chipBase d + 0x10000000 + c * 0x100000

/-- Hub SRAM, the ingress window of a context, and the Cosy mailbox. -/
def hubSramBase : Nat := 0xC000000000
def ingressBase (ctx : Nat) : Nat := 0xC010000000 + ctx * 0x40000
def mailboxBase : Nat := 0xC400000000

/-! ### Dies -/

/-- Die `d`. -/
def State.die (s : State) (d : Nat) : Die := s.dies.getD d Die.fresh

/-- Change die `d`. -/
def State.modDie (s : State) (d : Nat) (f : Die → Die) : State := { s with dies := s.dies.modify d f }

/-- Change the sequencer of die `d`. -/
def State.modSeq (s : State) (d : Nat) (f : Sequencer → Sequencer) : State :=
  s.modDie d (fun x => { x with seq := f x.seq })

/-- The die runs: fitted, out of reset, not failed, not restarting. -/
def State.dieUp (s : State) (d : Nat) : Bool :=
  decide (d < s.nDies) && !(s.die d).inReset && !(s.die d).failed && (s.die d).restart.isNone && !s.frz.stopped

/-! ### Free values -/

/-- A fresh free value and the state that has used it up. -/
def State.free (s : State) : Nat × State := (Config.freeNat s.freeCtr, { s with freeCtr := s.freeCtr + 1 })

/-! ### Links (R21–R24) -/

/-- The key of a die-to-die link, which event 0x0600 reports as its value.  DESIGN CHOICE (log entry 61): Table EVR-4 says only
"link"; hub link d is d, the ring link from die d up is 8 + d, the Cosy link is 16, and the event's source die is 6. -/
def linkKey : DieLink → Nat
  | .hub d => d
  | .ring d => 8 + d
  | .cosy => 16

/-- A link's width. -/
def State.link (s : State) (l : DieLink) : LinkWidth := Map.get .full s.links (linkKey l)

/-- Set a link's width. -/
def State.setLink (s : State) (l : DieLink) (w : LinkWidth) : State :=
  { s with links := Map.set .full s.links (linkKey l) w }

/-- A link carries traffic: it is not lost (R24). -/
def State.linkUp (s : State) (l : DieLink) : Bool := s.link l != .lost

/-- The links of the fitted part (Tables SCO-1, ORG-5): on the ILK2-M2 C-dies 0 and 1 are joined by two ring links. -/
def State.hasLink (s : State) : DieLink → Bool
  | .hub d => decide (d < s.nDies)
  | .ring d => decide (d < s.nDies)
  | .cosy => true

/-- The ring links a transfer between two C-dies crosses (R22, R23): both bonded links of an ILK2-M2, the one between neighbours,
else two in ascending direction. -/
def State.route (s : State) (src dst : Nat) : List DieLink :=
  if s.m2 then [.ring 0, .ring 1]
  else if (src + 1) % 4 = dst then [.ring src]
  else if (dst + 1) % 4 = src then [.ring dst]
  else [.ring src, .ring ((src + 1) % 4)]

/-- Every link from one die to another carries traffic (die 6 is the hub).  A flag post or a notice, which comes after its task's earlier
writes, needs all of them: on the ILK2-M2 it waits for the writes of both bonded links (R23). -/
def State.reach (s : State) (src dst : Nat) : Bool :=
  if src = dst then true
  else if src = 6 then s.linkUp (.hub dst)
  else if dst = 6 then s.linkUp (.hub src)
  else (s.route src dst).all (fun l => s.linkUp l)

/-- The links that a transfer at a module address crosses: on the ILK2-M2 the address's 256-byte granule goes over one of the bonded
two (R22, R23). -/
def State.pathAt (s : State) (src dst a : Nat) : List DieLink :=
  if src = dst then []
  else if src = 6 then [.hub dst]
  else if dst = 6 then [.hub src]
  else if s.m2 then [.ring (a / 256 % 2)]
  else s.route src dst

/-- A transfer at a module address between two dies is carried; a lost link's traffic goes no other way (R24). -/
def State.carried (s : State) (src dst a : Nat) : Bool := (s.pathAt src dst a).all (fun l => s.linkUp l)

/-! ### Memory: bytes, poison marks, locks and restart tags (R243, R399–R403, R475) -/

/-- One byte as stored. -/
def State.byteAt (s : State) (a : Nat) : Byte := Map.get 0 s.mem a

/-- `n` bytes as stored. -/
def State.bytesAt (s : State) (a n : Nat) : List Byte := mapBytes s.mem a n

/-- A little-endian number as stored. -/
def State.memLE (s : State) (a n : Nat) : Nat := leNat (s.bytesAt a n)

/-- Store bytes, with no check. -/
def State.putBytes (s : State) (a : Nat) (l : List Byte) : State := { s with mem := mapPut s.mem a l }

/-- More than one symbol of a mask is wrong: the code detects it and cannot correct it (R233). -/
def manyWrong (m : Nat) : Bool := m &&& (m - 1) != 0

/-- The codeword that holds an address is delivered poisoned: it carries the poison pattern, or cannot be corrected (R243). -/
def State.poisonAt (s : State) (a : Nat) : Bool := s.poison.contains (a / 16) || manyWrong (Map.get 0 s.upsets (a / 16))

/-- Some codeword of `n` bytes from `a` is delivered poisoned. -/
def State.poisonIn (s : State) (a n : Nat) : Bool :=
  s.poison.any (fun c => decide (a / 16 ≤ c ∧ c * 16 < a + n)) ||
    s.upsets.any (fun (p : Nat × Nat) => decide (a / 16 ≤ p.1 ∧ p.1 * 16 < a + n) && manyWrong p.2)

/-- Mark or clear the poison of the codeword of an address, whose check bits are made anew. -/
def State.setPoison (s : State) (a : Nat) (p : Bool) : State :=
  { s with
    poison := if p then setInsert (a / 16) s.poison else setErase (a / 16) s.poison
    upsets := Map.set 0 s.upsets (a / 16) 0 }

/-- The key of a flag word among the words whose check bits show an error. -/
def flagWord (d f : Nat) : Nat := 2 ^ 40 + d * 4096 + f

/-! ### Errors that the check bits show in scratchpads and the commons (R233, R236–R244, R250) -/

/-- What a bank's spare row serves in place of a row: nothing yet, or nothing any more (R503). -/
abbrev spareFree : Nat := 2 ^ 21
abbrev spareBad : Nat := 2 ^ 20

/-- The physical row of a row: the spare row that has replaced it, if any; `rows` are the rows replaced, in the order of the spare rows,
which begin at `base`. -/
def physicalRow (rows : List Nat) (base row : Nat) : Nat :=
  (List.range rows.length).foldl (fun r j => if rows.getD j spareFree = row then base + j else r) row

/-- The row that a physical row serves: none for a row that has been replaced, and for a spare row that replaces none. -/
def servedRow (rows : List Nat) (base p : Nat) : Option Nat :=
  if p < base then (if rows.contains p then none else some p)
  else if rows.getD (p - base) spareFree < spareBad then some (rows.getD (p - base) spareFree) else none

/-- Spare rows in use or unusable. -/
def spareUsed (rows : List Nat) : Nat := (rows.filter (· != spareFree)).length

/-- The first of a bank's n spare rows that is free. -/
def freeSpare (rows : List Nat) (n : Nat) : Option Nat := (List.range n).find? (fun j => rows.getD j spareFree == spareFree)

/-- Spare row j is given a value. -/
def setSpare (rows : List Nat) (j v : Nat) : List Nat := (rows ++ List.replicate (j + 1 - rows.length) spareFree).set j v

/-- Spare row j replaces row r; one that has replaced it before is unusable (R503). -/
def mapSpare (rows : List Nat) (r j : Nat) : List Nat := setSpare (rows.map (fun x => if x = r then spareBad else x)) j r

/-- Latch a scratchpad error. -/
def State.latchSpd (s : State) (d c bank row cw symbol kind : Nat) : State :=
  if s.getF d .spdEccLast_valid c = 1 then s
  else (((((s.setF d .spdEccLast_bank bank c).setF d .spdEccLast_row row c).setF d .spdEccLast_codeword cw c).setF d
    .spdEccLast_symbol symbol c).setF d .spdEccLast_kind kind c).setF d .spdEccLast_valid 1 c

/-- Latch a commons error. -/
def State.latchCmn (s : State) (d bank row cw symbol kind : Nat) : State :=
  if s.getF d .cmnEccLast_valid = 1 then s
  else (((((s.setF d .cmnEccLast_bank bank).setF d .cmnEccLast_row row).setF d .cmnEccLast_codeword cw).setF d
    .cmnEccLast_symbol symbol).setF d .cmnEccLast_kind kind).setF d .cmnEccLast_valid 1

/-- The lowest symbol that a mask shows wrong. -/
def firstWrong (m : Nat) : Nat := ((List.range 36).find? (testBit m)).getD 0

/-- The rows of a bank of a core's scratchpad that spare rows replace, in the order of the spare rows. -/
def State.spareRows (s : State) (d c bank : Nat) : List Nat :=
  match (s.die d).cores.find? (fun (p : Nat × Core) => p.1 == c) with
  | some p => Map.get [] p.2.spareRows bank
  | none => []

/-! ### Errors of the host's own making (R8, R490) -/

/-- A range is write-locked at an address (R49). -/
def State.lockedAt (s : State) (a : Nat) : Bool := s.locked.any (fun r => decide (r.1 ≤ a ∧ a < r.2))

/-- A byte of memory that a die can reach takes a value, its codeword a poison mark; a locked byte, a die that does not run and what is
no memory of dies 0–6 stay as they are (R8, R403, R475, R490). -/
def State.spoilByte (s : State) (a : Nat) (v : Byte) (p : Bool) : State :=
  match s.region a with
  | .dram d _ => if s.lockedAt a || !s.dieUp d then s else (s.putBytes a [v]).setPoison a p
  | .commons d _ => if s.dieUp d then (s.putBytes a [v]).setPoison a p else s
  | .spd d _ _ => if s.dieUp d then (s.putBytes a [v]).setPoison a p else s
  | .hubSram _ => s.putBytes a [v]
  | .flag d f =>
    if s.dieUp d then
      { s with flags := Map.modify 0 s.flags (d * 4096 + f) (fun w => putField w (a % 4 * 8) 8 v.toNat) }
    else s
  | _ => s

/-- A message that waits for its frame's decision, with contents and time left open. -/
def Msg.spoil (open' : Nat → Nat) (m : Msg) : Msg :=
  { m with payload := m.payload.mapIdx (fun i _ => BitVec.ofNat 8 (open' (i + 2))), dt := open' 0, poisoned := open' 1 % 2 == 1 }

/-- The content and timing of the main path's messages that are not yet decided are left open (R8, R584). -/
def State.spoilMessages (s : State) : State :=
  { s with
    freeCtr := s.freeCtr + 1
    streams := s.streams.map (fun (p : Nat × Stream) =>
      (p.1, { p.2 with main := p.2.main.mapIdx (fun k m => m.spoil (fun i => Config.unpredictable (s.freeCtr + p.1 + k) i)) })) }

/-- What an error of the host's own making leaves (R8): any bytes of memory and flags have any values, and the messages of the main path
that are not yet decided any contents and times.  Nothing else changes: not the Cosy, the Strainer's states, the safety manager,
flash or the security block.  All of it is free (log entry 42). -/
def State.unpredictable (s : State) : State :=
  let v (i : Nat) : Nat := Config.unpredictable s.freeCtr i
  let s1 : State := (List.range (v 0)).foldl (fun (s : State) i =>
    s.spoilByte (v (3 * i + 1)) (BitVec.ofNat 8 (v (3 * i + 2))) (v (3 * i + 3) % 2 == 1)) { s with freeCtr := s.freeCtr + 1 }
  s1.spoilMessages

/-- The host-made error of a rule (R8): the module goes on, with memory and messages as the error leaves them. -/
def hostErr (s : State) (_rule : Nat) : Result State := .next s.unpredictable

/-- The controller of a DRAM offset (Table DRM-1). -/
def dramCtl (off : Nat) : Nat := bits off 10 3

/-- Controller `k` of die `d`. -/
def State.ctl (s : State) (d k : Nat) : MemCtl := Map.get MemCtl.fresh (s.die d).mems k

/-- Change a controller. -/
def State.modCtl (s : State) (d k : Nat) (f : MemCtl → MemCtl) : State :=
  s.modDie d (fun x => { x with mems := Map.modify MemCtl.fresh x.mems k f })

/-- A discarded write into a locked range is counted and the first is latched (R403). -/
def State.countLocked (s : State) (d k a : Nat) : State :=
  let s := s.bumpF d .memLocked_discarded k
  if s.getF d .memLockedAddrHi_valid k = 1 then s
  else ((s.setF d .memLockedAddrLo_addr (a % 2 ^ 32) k).setF d .memLockedAddrHi_addr (a / 2 ^ 32) k).setF d
    .memLockedAddrHi_valid 1 k

/-- One write within one codeword, performed where its address lies.  Clean data over the whole codeword clear its poison;
a merge into a poisoned codeword leaves it poisoned; poisoned data set it (R243, R401).  A failed controller discards writes (R397), and for one in
self-refresh they wait in the mesh (R415, R572).  The Cosy mailbox lies behind the Cosy link (R21), its
notice area is the frame root's (R460),
ingress buffers discard it (R26), and an address that no data write may name is the host's error (R27, R28, R257). -/
def State.writeCode (s : State) (a : Nat) (l : List Byte) (p : Bool) : State :=
  let whole := a % 16 == 0 && l.length == 16
  let land (s : State) : State := (s.putBytes a l).setPoison a (p || (s.poisonAt a && !whole))
  match s.region a with
  | .dram d o =>
    let k := dramCtl o
    if !s.dieUp d || (s.ctl d k).failed then s
    else if (s.ctl d k).selfRefresh then { s with frz := { s.frz with mesh := s.frz.mesh ++ [(a, l, p)] } }
    else if s.lockedAt a then s.countLocked d k a
    else if whole then land s else land (s.bumpF d .memRmw_merges k)
  | .commons d _ => if !s.dieUp d then s else if whole then land s else land (s.bumpF d .cmnRmw_rmw)
  | .spd d _ _ => if !s.dieUp d then s else land s
  | .hubSram _ => s.putBytes a l
  | .mailbox o => if o < 0x1000 then s.unpredictable else if s.linkUp .cosy then s.putBytes a l else s
  | .ingress _ => s
  | .flag _ _ | .view _ _ | .reserved => s.unpredictable

/-- A write by an initiator, codeword by codeword; the first argument bounds the number of codewords. -/
def State.writeFuel : Nat → State → Nat → List Byte → Bool → State
  | 0, s, _, _, _ => s
  | k + 1, s, a, l, p =>
    let n := 16 - a % 16
    if l.isEmpty then s else State.writeFuel k (s.writeCode a (l.take n) p) (a + n) (l.drop n) p

/-- The burst slots of one controller's package that a read or a write of `n` bytes from `a` uses are counted, data burst by data burst
(R399, MEM_LOAD): one for a burst read or written in whole codewords, two for each codeword that is merged, and those of its check burst,
which depend on what the check cache holds (R398; log entry 92). -/
def State.countSlots (s : State) (a n : Nat) (write : Bool) : State :=
  if n = 0 then s
  else (List.range ((a + n + 127) / 128 - a / 128)).foldl (fun (s : State) i =>
    let lo := max a ((a / 128 + i) * 128)
    let hi := min (a + n) ((a / 128 + i + 1) * 128)
    match s.region lo with
    | .dram d o =>
      let codes := (hi + 15) / 16 - lo / 16
      let whole := hi / 16 - (lo + 15) / 16
      let slots := if write then (if whole = 0 then 0 else 1) + 2 * (codes - whole) else 1
      if !s.dieUp d || (s.ctl d (dramCtl o)).failed then s
      else s.addFrame d .memLoad_busy 1024 (slots + Config.checkSlots s.deviceTime (lo / 128) % 3) (dramCtl o)
    | _ => s) s

/-- The bank cycles of the commons that a read or a write of `n` bytes from `a` uses: one for each 64 bytes of a row, two where a write merges
into a codeword (R246, R251, CMN_LOAD). -/
def State.countBanks (s : State) (a n : Nat) (write : Bool) : State :=
  match s.region a with
  | .commons d _ =>
    if n = 0 || !s.dieUp d then s
    else
      let cycles := (List.range ((a + n + 63) / 64 - a / 64)).foldl (fun k i =>
        let lo := max a ((a / 64 + i) * 64)
        let hi := min (a + n) ((a / 64 + i + 1) * 64)
        k + (if write && (decide (lo % 16 ≠ 0) || decide (hi % 16 ≠ 0)) then 2 else 1)) 0
      s.addFrame d .cmnLoad_busy 65536 cycles
  | _ => s

/-- A write by an initiator. -/
def State.write (s : State) (a : Nat) (l : List Byte) (p : Bool := false) : State :=
  ((State.writeFuel (l.length + 1) s a l p).countSlots a l.length true).countBanks a l.length true

/-- The die behind which an address lies, as seen from the links: 6 for the hub and what it reaches. -/
def State.homeDie (s : State) (a : Nat) : Nat :=
  match s.region a with
  | .dram d _ | .commons d _ | .flag d _ | .spd d _ _ => d
  | _ => 6

/-- A write by an initiator of die `src`: each 256-byte granule goes over the links to its die, and what a lost link would carry is
discarded (R22–R24, Table REC-1); the first argument bounds the number of granules. -/
def State.writeOver : Nat → State → Nat → Nat → List Byte → Bool → State
  | 0, s, _, _, _, _ => s
  | k + 1, s, src, a, l, p =>
    let n := 256 - a % 256
    if l.isEmpty then s
    else
      let t := if s.carried src (s.homeDie a) a then s.write a (l.take n) p else s
      State.writeOver k t src (a + n) (l.drop n) p

/-- A write by an initiator of die `src`. -/
def State.writeFrom (s : State) (src a : Nat) (l : List Byte) (p : Bool := false) : State :=
  State.writeOver (l.length / 256 + 2) s src a l p

/-- Every granule of `n` bytes from `a` can be read by an initiator of die `src`: no lost link lies between (R24). -/
def State.canRead (s : State) (src a n : Nat) : Bool :=
  (List.range ((a % 256 + n + 255) / 256)).all (fun k => s.carried src (s.homeDie (a + 256 * k)) (a + 256 * k))

/-- A write that carries a poison mark for each codeword in turn (a copy of data with their marks). -/
def State.writeMarked (s : State) (a : Nat) (l : List (List Byte × Bool)) : State :=
  (l.foldl (fun (x : State × Nat) c => (x.1.write x.2 c.1 c.2, x.2 + c.1.length)) (s, a)).1

/-- What a read of a byte delivers: zero from the Cosy mailbox (R26), a byte of the flag's word in a flag row, anything from an address that
is no memory (R8, R27, R28), else the byte as stored. -/
def State.byteRead (s : State) (a : Nat) : Byte :=
  match s.region a with
  | .mailbox _ => 0
  | .flag d f => BitVec.ofNat 8 ((Map.get 0 s.flags (d * 4096 + f)).toNat / 256 ^ (a % 4))
  | .view _ _ | .reserved => BitVec.ofNat 8 (Config.unpredictable s.freeCtr a)
  | _ => s.byteAt a

/-- What a read of `n` bytes delivers. -/
def State.read (s : State) (a n : Nat) : List Byte := (List.range n).map (fun i => s.byteRead (a + i))

/-- A read reaches a die that is in restart: the data come with the poison pattern and a restart tag (R475). -/
def State.tagged (s : State) (a : Nat) : Bool :=
  match s.region a with
  | .dram d _ => (s.die d).restart.isSome
  | .commons d _ => (s.die d).restart.isSome
  | .spd d _ _ => (s.die d).restart.isSome
  | _ => false

/-- A read of `n` bytes is delivered poisoned: a stored mark, a restart tag, or a failed controller (R243, R397, R475). -/
def State.readPoison (s : State) (a n : Nat) : Bool :=
  s.poisonIn a n || s.tagged a ||
  match s.region a with
  | .dram d o => (s.ctl d (dramCtl o)).failed
  | _ => false

/-- A codeword read with its mark, for copies. -/
def State.readCode (s : State) (a : Nat) : List Byte × Bool := (s.read a 16, s.readPoison a 16)

/-- An address can be read or written by a unit of dies 0–6 outside the register views (R27, R28, R257). -/
def State.dataAddr (s : State) (a : Nat) : Bool :=
  match s.region a with
  | .dram _ _ | .commons _ _ | .spd _ _ _ | .hubSram _ | .ingress _ | .mailbox _ => true
  | _ => false

/-- Clear every byte and poison mark from `lo` up to but not including `hi`. -/
def State.clearMem (s : State) (lo hi : Nat) : State :=
  { s with mem := Map.clearRange lo hi s.mem
           upsets := s.upsets.filter (fun (p : Nat × Nat) => decide (p.1 * 16 < lo) || decide (hi ≤ p.1 * 16))
           poison := s.poison.filter (fun c => decide (c * 16 < lo) || decide (hi ≤ c * 16)) }

/-! ### Wall time (R431, R524) -/

/-- Wall time at a device time by one mapping: 10 ÷ 9 ns a cycle, corrected by the servo's parts per billion. -/
def WallSeg.at (g : WallSeg) (dt : Nat) : Nat :=
  (((g.wall : Int) + (((dt : Int) - g.dt) * 10 * (1000000000 + g.ppb)) / (9 * 1000000000))).toNat

/-- The mapping in force at a device time. -/
def State.segAt (s : State) (dt : Nat) : WallSeg := if s.time.seg.dt ≤ dt then s.time.seg else s.time.prevSeg

/-- Wall time at a device time. -/
def State.wallAt (s : State) (dt : Nat) : Nat := (s.segAt dt).at dt

/-- Wall time now. -/
def State.wall (s : State) : Nat := s.wallAt s.deviceTime

/-- The epoch now. -/
def State.epoch (s : State) : Nat := s.time.seg.epoch

/-- Synchronised now. -/
def State.synced (s : State) : Bool := s.time.seg.synced

/-- What SEQ_FR_STATUS shows of the time base: synchronisation, holdover and epoch as they stand (R98). -/
def State.syncRegs (s : State) : State :=
  ((s.setF 6 .seqFrStatus_synced (bit s.synced)).setF 6 .seqFrStatus_holdover (bit s.time.holdover)).setF 6 .seqFrStatus_epoch s.epoch

/-! ### Events and doubts on their way (R447, R515) -/

/-- The number of the latest frame started. -/
def State.frame (s : State) : Word := Word.ofNat (s.getF 6 .seqFrFrame_value)

/-- A block sends an event to the recorder. -/
def State.raise (s : State) (code value : Nat) (die : Nat := 6) (field : Nat := 0) : State :=
  { s with evDue := s.evDue ++ [⟨code, Word.ofNat value, die, field, s.deviceTime, s.frame⟩] }

/-- A cause of a doubt arises; the safety manager latches it by the command DOUBT_LATCH. -/
def State.doubt (s : State) (cls die : Nat) (frame : Word) (sub : Nat := 0) (why : DoubtWhy := .plain) : State :=
  { s with doubtDue := s.doubtDue ++ [⟨cls, die, sub, why, frame⟩] }

/-! ### Doubt class codes (Table SAF-3) -/

abbrev dUNRECOVERED : Nat := 0x00
abbrev dPOISON_OUT : Nat := 0x01
abbrev dEARLY : Nat := 0x02
abbrev dLATE : Nat := 0x03
abbrev dGOLDEN_FAIL : Nat := 0x04
abbrev dGOLDEN_MISS : Nat := 0x05
abbrev dDIVERSITY : Nat := 0x06
abbrev dCAMERA : Nat := 0x07
abbrev dMONITOR : Nat := 0x08
abbrev dSELFTEST : Nat := 0x09
abbrev dLOCKED_MEM : Nat := 0x0A
abbrev dRELAY : Nat := 0x0B
abbrev dDIE_LINK : Nat := 0x0C
abbrev dMACSEC : Nat := 0x0D
abbrev dSECURITY : Nat := 0x0E
abbrev dUNCOVERED : Nat := 0x0F
abbrev dCANCEL : Nat := 0x10
abbrev dSPARES : Nat := 0x11
abbrev dFLAG : Nat := 0x12
abbrev dREHASH : Nat := 0x13
abbrev dCOSY_LINK : Nat := 0x14

/-! ### What reads meet (R241, R243, R395–R402) -/

/-- The pin of a symbol: a data symbol, or check symbol s, of codeword j of data burst m (Table DRM-2). -/
def dramPin (m j symbol : Nat) (check : Bool) : Nat :=
  if check then 32 * (1 - j % 2) + 4 * m + symbol % 4 else 32 * (j % 2) + symbol % 32

/-- MEM_STATUS, MEM_PATROL and MEM_RETIRE as they are now. -/
def State.ctlRegs (s : State) (d k : Nat) : State :=
  let c := s.ctl d k
  let b (s : State) (f : Fld) (v : Nat) : State := s.setF d f v k
  let s1 := b (b (b s .memStatus_trained (bit (!c.failed && s.dieUp d))) .memStatus_self_refresh (bit c.selfRefresh))
    .memStatus_due (bit c.due)
  let s2 := b (b s1 .memStatus_temp (c.temp % 256).toNat) .memStatus_hot (bit (decide (85 ≤ c.temp)))
  b (b s2 .memPatrol_slice (c.patrol / 64)) .memRetire_queued c.queue.length

/-- A channel pair is declared failed: the controller fails, and UNRECOVERED is raised for the die (R397). -/
def State.pairFailed (s : State) (d k : Nat) : State :=
  if (s.ctl d k).failed then s
  else ((s.modCtl d k (fun c => { c with failed := true })).ctlRegs d k).doubt dUNRECOVERED d s.frame

/-- Latch an error of a codeword of DRAM. -/
def State.latchMem (s : State) (d k a pin beats check kind : Nat) : State :=
  if s.getF d .memEccLast_valid k = 1 then s
  else
    let b (s : State) (f : Fld) (v : Nat) : State := s.setF d f v k
    b (b (b (b (b (b (b (b s .memEccLast_pin pin) .memEccLast_beats beats) .memEccLast_check check) .memEccLast_kind kind)
      .memEccLast_locked (bit (s.lockedAt a))) .memEccAddrLo_addr (a % 2 ^ 32)) .memEccAddrHi_addr (a / 2 ^ 32))
      .memEccLast_valid 1

/-- An uncorrectable error, or a read of poison, in a write-locked range: a doubt, and the codeword is rewritten with the poison
pattern (R402). -/
def State.lockedError (s : State) (d a : Nat) : State :=
  if s.lockedAt a then (s.setPoison a true).doubt dLOCKED_MEM d s.frame else s

/-- An uncorrectable codeword of a channel pair: sixteen of them within 1 ms declare the pair failed (R397). -/
def State.countPair (s : State) (d k pair : Nat) : State :=
  let now := s.deviceTime
  let l := (s.ctl d k).uncorrectable.filter (fun e => decide (now < e.2 + 900000)) ++ [(pair, now)]
  let s1 := s.modCtl d k (fun c => { c with uncorrectable := l })
  if 16 ≤ (l.filter (fun e => e.1 == pair)).length then s1.pairFailed d k else s1

/-- A corrected symbol of a codeword of DRAM is counted and latched. -/
def State.dramCorrected (s : State) (d k a sym : Nat) (chk : Bool) : State :=
  let j := bits a 4 3
  (s.bumpF d .memEcc_corrected k).latchMem d k a (dramPin (bits a 7 3) j sym chk) (j / 2) (bit chk) 1

/-- An uncorrectable codeword of DRAM is counted and latched; its pair is the one of its data symbols (R397, R401, R402). -/
def State.dramLost (s : State) (d k a : Nat) : State :=
  let j := bits a 4 3
  (((s.bumpF d .memEcc_uncorrectable k).latchMem d k a 0 (j / 2) 0 2).lockedError d a).countPair d k (j % 2)

/-- A read of poison in DRAM is latched and counts nothing (R401, R402). -/
def State.dramPoison (s : State) (d k a : Nat) : State := (s.latchMem d k a 0 (bits a 4 3 / 2) 0 3).lockedError d a

/-- A read meets a codeword whose check bits show symbols wrong: corrected or uncorrectable, it is counted and the first is latched; the array
keeps it (R241, R243, R401). -/
def State.countUpset (s : State) (code m : Nat) : State :=
  let many := manyWrong m
  let sym := if many then 0 else firstWrong m
  let kind := if many then 2 else 1
  match s.region (16 * code) with
  | .dram d o =>
    if many then s.dramLost d (dramCtl o) (16 * code) else s.dramCorrected d (dramCtl o) (16 * code) (sym % 32) (decide (32 ≤ sym))
  | .spd d c o =>
    let bank := bits o 6 4
    let row := physicalRow (s.spareRows d c bank) 384 (o / 1024)
    (s.bumpF d (if many then .spdEcc_uncorrectable else .spdEcc_corrected) c).latchSpd d c bank row (bits o 4 2) sym kind
  | .commons d o =>
    let bank := bits o 6 6
    let row := physicalRow (Map.get [] (s.die d).cmnRows bank) 8192 (o / 4096)
    (s.bumpF d (if many then .cmnEcc_uncorrectable else .cmnEcc_corrected)).latchCmn d bank row (bits o 4 2) sym kind
  | _ => s

/-- A read of `n` bytes from `a` counts the errors that it meets. -/
def State.countUpsets (s : State) (a n : Nat) : State :=
  (s.upsets.filter (fun (p : Nat × Nat) => decide (a / 16 ≤ p.1 ∧ p.1 * 16 < a + n))).foldl (fun (s : State) p =>
    s.countUpset p.1 p.2) s

/-- The codewords of DRAM that a read of `n` bytes from `a` finds poisoned are latched (R401, R402). -/
def State.countPoison (s : State) (a n : Nat) : State :=
  (s.poison.filter (fun c => decide (a / 16 ≤ c ∧ c * 16 < a + n))).foldl (fun (s : State) c =>
    match s.region (16 * c) with
    | .dram d o => s.dramPoison d (dramCtl o) (16 * c)
    | _ => s) s

/-- Reads that a failed controller serves are counted as uncorrectable (R397). -/
def State.countFailedReads (s : State) (a n : Nat) : State :=
  match s.region a with
  | .dram d o => s.bumpF d .memEcc_uncorrectable (dramCtl o) 0 ((n + 15) / 16)
  | _ => s

/-- What reads of `n` bytes from an address count: the slots of DRAM and the bank cycles of the commons, all of it as uncorrectable where a failed controller serves them, else
poison and symbols in error (R243, R397, R401). -/
def State.countReads (s : State) (a n : Nat) : State :=
  match s.region a with
  | .dram d o =>
    if (s.ctl d (dramCtl o)).failed then s.countFailedReads a n else ((s.countSlots a n false).countPoison a n).countUpsets a n
  | _ => (s.countBanks a n false).countUpsets a n

/-! ### The clock -/

/-- What a cycle does to the arrays of DRAM, scratchpads, commons and flags: one symbol of any codeword or flag word may turn wrong, or none.
Which is free (log entry 72). -/
def State.upset (s : State) : State :=
  let (v, t) := s.free
  let code := v / 72 % 2 ^ 36
  let key : Option Nat := match t.region (16 * code) with
    | .dram _ _ => some code
    | .spd _ _ _ => some code
    | .commons _ _ => some code
    | .flag d f => some (flagWord d (f + v / 72 / 2 ^ 36 % 4))
    | _ => none
  match key with
  | some k => if v % 2 = 0 then t else { t with upsets := Map.modify 0 t.upsets k (fun m => m ||| 2 ^ (v / 2 % 36)) }
  | none => t

/-- One arithmetic cycle: device time counts arithmetic cycles (R20) while power is good, the clocks run (R572) and reset is
not asserted. -/
def State.tick (s : State) : State :=
  if s.pwr.good && s.pwr.resetN && !s.frz.stopped then { s.upset with deviceTime := s.deviceTime + 1 } else s

/-! ### Pins -/

/-- FAULT_N as driven (Table PWR-12, R569). -/
def State.fault (s : State) (on : Bool) : State :=
  { s with pwr := { s.pwr with faultN := on } }.setF 6 .hswStatus_fault_pin (bit on)

/-! ### Records kept in two copies (R51) -/

/-- The copy that governs: of those whose CRC is right, the one with the higher sequence number; true for the second. -/
def Twin.governs {α : Type} (t : Twin α) : Option (Bool × Copy α) :=
  let a := t.a.filter (fun c => c.good)
  let b := t.b.filter (fun c => c.good)
  match a, b with
  | none, none => none
  | some x, none => some (false, x)
  | none, some y => some (true, y)
  | some x, some y => if x.seq.toNat < y.seq.toNat then some (true, y) else some (false, x)

/-- What the record says, if a copy governs. -/
def Twin.now {α : Type} (t : Twin α) : Option α := t.governs.map (fun p => p.2.val)

/-- The governing copy's sequence number. -/
def Twin.seqNo {α : Type} (t : Twin α) : Word := (t.governs.map (fun p => p.2.seq)).getD 0

/-- A new record goes over the copy that does not govern. -/
def Twin.write {α : Type} (t : Twin α) (v : α) : Twin α :=
  let c : Copy α := ⟨t.seqNo + 1, true, v⟩
  match t.governs with
  | some (false, _) => { t with b := some c }
  | _ => { t with a := some c }

/-- Power is lost while the newest copy is being written: its CRC is wrong. -/
def Twin.cut {α : Type} (t : Twin α) : Twin α :=
  match t.governs with
  | some (false, c) => { t with a := some { c with good := false } }
  | some (true, c) => { t with b := some { c with good := false } }
  | none => t

/-- The slot record in force; slot A without one (log entry 6). -/
def State.slotRecord (s : State) : SlotRecord := s.flash.record.now.getD ⟨false, none⟩

/-- The cold-start count as the log partition's headers hold it; 0 without a valid copy (R530). -/
def State.bootCount (s : State) : Nat := (s.flash.boot.now.getD 0).toNat

/-- A record in two copies is written: 0 slot record, 1 numbering mark, 2 epoch record, 3 sealed key record, 4 cold-start count. -/
def State.flashWrite (s : State) (k : Nat) (f : Flash → Flash) : State :=
  { s with flash := { f s.flash with writing := some (k, s.deviceTime) } }

/-- Power is lost: a record whose write began at this device time is cut (R51; log entry 62). -/
def Flash.powerLost (f : Flash) (dt : Nat) : Flash :=
  let g : Flash := match f.writing with
    | some (k, t) =>
      if t ≠ dt then f
      else if k = 0 then { f with record := f.record.cut }
      else if k = 1 then { f with mark := f.mark.cut }
      else if k = 2 then { f with epoch := f.epoch.cut }
      else if k = 3 then { f with sealedKeys := f.sealedKeys.cut }
      else { f with boot := f.boot.cut }
    | none => f
  { g with writing := none }

/-! ### Initiators of register accesses (R27) -/

/-- The key of an initiator's own latches and captures; a session's accesses are the management core's (R515). -/
def Init.key : Init → Nat
  | .mgmt => 0
  | .session => 0
  | .safety => 1
  | .ctrl d c => 16 + d * 4 + c
  | .other d u => 64 + d * 128 + u

/-- The die an access comes from. -/
def Init.die : Init → Nat
  | .ctrl d _ => d
  | .other d _ => d
  | _ => 6

/-- An initiator can address the register views (R27). -/
def Init.canAccess : Init → Bool
  | .other _ _ => false
  | _ => true

/-! ### Answers -/

/-- A register read answers a word. -/
def State.answer (s : State) (w : Word) : State := { s with out := { s.out with reads := s.out.reads ++ [w] } }

/-- A read that the host's own error spoils answers any word (R8). -/
def State.readErr (s : State) (rule : Nat) : Result State :=
  let (v, s1) := s.free
  hostErr (s1.answer (Word.ofNat v)) rule

/-- An access to an address that Table ORG-6 reserves is the host's error (R28); beyond the 40 bits of a module address there is none to access
(R12). -/
def State.noPlace (s : State) (addr : Nat) (bad : State → Nat → Result State) : Result State :=
  if addr < 2 ^ 40 then bad s 28 else .fault (.noSuchAddress addr)

/-- Go on from a result. -/
def andThen {σ : Type} (r : Result σ) (f : σ → Result σ) : Result σ :=
  match r with
  | .next t => f t
  | .fault e => .fault e
  | .refused e => .refused e

end Sys2Proof.Machine
end

