-- ==== Sys2Proof/Machine/Graph.lean ====
section
/-! DEFINITION. The GRAPH section as the frame root and the die sequencers read it (chapter 03, R111–R113): header, variant
directory, node descriptors, edges, queue plan, queue table, and task descriptors. -/

namespace Sys2Proof.Machine

open Sys2Proof

/-! ### Header (R95, Table GRF-1) -/

def State.periodNs (s : State) : Nat := s.cad secGRAPH 0x04 4
def State.phaseNs (s : State) : Nat := s.cad secGRAPH 0x08 4
def State.slewCycles (s : State) : Nat := s.cad secGRAPH 0x0C 4
def State.realignNs (s : State) : Nat := s.cad secGRAPH 0x10 4

/-- The trigger offset of a stream context; none for 0xFFFF_FFFF. -/
def State.triggerOffset (s : State) (ctx : Nat) : Option Nat :=
  let v := s.cad secGRAPH (0x100 + 4 * ctx) 4
  if v = 0xFFFFFFFF then none else some v

/-- The nominal slot length in arithmetic cycles (R65). -/
def State.slotNominal (s : State) : Nat := (s.periodNs * 9 * 2 + 10) / 20

/-- When a trigger that lies `ns` after device time `dt` is given: in the next pixel cycle, of 1.5 arithmetic cycles (R71), at the first
arithmetic cycle that does not precede it.  DEDUCED: pixel cycles begin at device time 0 with the arithmetic ones (log entry 65). -/
def triggerDt (dt ns : Nat) : Nat := (3 * ((10 * dt + 9 * ns + 14) / 15) + 1) / 2

/-! ### The variant directory (R95) -/

/-- A directory entry. -/
structure Variant where
  die : Nat
  cores : Nat
  nodes : Nat
  edges : Nat
  absent : Nat
  nodesOff : Nat
  edgesOff : Nat
  templatesOff : Nat
  templatesLen : Nat
  deriving DecidableEq, Repr

/-- The number that stands for no directory entry: what a failed die has selected. -/
abbrev noVariant : Nat := 128

/-- Directory entry `v`, 0–127; any other number names an entry with nothing in it. -/
def State.variant (s : State) (v : Nat) : Variant :=
  let g (o n : Nat) : Nat := if v < 128 then s.cad secGRAPH (0x200 + 64 * v + o) n else 0
  ⟨g 0 1, g 1 1, g 2 2, g 4 4, g 8 8, g 0x10 8, g 0x18 8, g 0x20 8, g 0x28 8⟩

/-- Ones in a 64-bit mask. -/
def popcount (n : Nat) : Nat := ((List.range 64).filter (testBit n)).length

/-- The graph variant of a die with `k` schedulable cores and lost-stream set `m`: the entry whose absent_mask contains
m with the fewest bits, lowest index first; failing that the entry with absent_mask 0, marked uncovered (R96). -/
def State.selectVariant (s : State) (d k m : Nat) : Nat × Bool :=
  let fits := (List.range 128).filter (fun v =>
    let e := s.variant v
    e.die == d && e.cores == k && (e.absent &&& m) == m)
  match fits.foldl (fun (o : Option Nat) v =>
    match o with
    | none => some v
    | some w => if popcount (s.variant v).absent < popcount (s.variant w).absent then some v else some w) none with
  | some v => (v, false)
  | none =>
    (((List.range 128).find? (fun v => let e := s.variant v; e.die == d && e.cores == k && e.absent == 0)).getD 0, true)

/-! ### Node descriptors (R76, Table GRF-4) -/

/-- The node kinds (Table GRF-2); reserved codes are kept apart. -/
inductive NodeKind where
  | tasks | source | output | ingress | barrier | reserved
  deriving DecidableEq, Repr

/-- The triggers. -/
inductive Trigger where
  | deps | frame | both | reserved
  deriving DecidableEq, Repr

/-- The skip policies (Table GRF-6). -/
inductive Skip where
  | propagate | substitute | hold | run | reserved
  deriving DecidableEq, Repr

/-- A node descriptor. -/
structure NodeDesc where
  node : Nat
  kind : NodeKind
  tasks : Nat
  prio : Nat
  safety : Bool
  trigger : Trigger
  skip : Skip
  depth : Nat
  rateDiv : Nat
  ratePhase : Nat
  preds : Nat
  succs : Nat
  offset : Nat
  winOpen : Nat
  winClose : Nat
  succIndex : Nat
  cq : Nat
  doneFlag : Nat
  doneDie : Nat
  doneEn : Bool
  stream : Nat
  template : Nat
  altTemplate : Nat
  deriving DecidableEq, Repr

/-- Code to kind, trigger and policy. -/
def NodeKind.ofCode : Nat → NodeKind
  | 0 => .tasks
  | 1 => .source
  | 2 => .output
  | 3 => .ingress
  | 4 => .barrier
  | _ => .reserved
def Trigger.ofCode : Nat → Trigger
  | 0 => .deps
  | 1 => .frame
  | 2 => .both
  | _ => .reserved
def Skip.ofCode : Nat → Skip
  | 0 => .propagate
  | 1 => .substitute
  | 2 => .hold
  | 3 => .run
  | _ => .reserved

/-- A node descriptor read from its 64 bytes; `tasks` counts tasks, `depth` instances, `rateDiv` frames. -/
def NodeDesc.ofBytes (l : List Byte) : NodeDesc :=
  let w (i : Nat) : Nat := leNat ((l.drop (4 * i)).take 4)
  { node := bits (w 0) 0 12, kind := .ofCode (bits (w 0) 12 4), tasks := bits (w 0) 16 12 + 1, prio := bits (w 0) 28 3,
    safety := testBit (w 0) 31, trigger := .ofCode (bits (w 1) 0 2), skip := .ofCode (bits (w 1) 2 3),
    depth := bits (w 1) 5 2 + 1, rateDiv := bits (w 1) 7 4 + 1, ratePhase := bits (w 1) 11 4, preds := bits (w 1) 15 8,
    succs := bits (w 1) 23 8, offset := w 2, winOpen := bits (w 3) 0 20 * 1024, winClose := bits (w 4) 0 20 * 1024,
    succIndex := bits (w 5) 0 16, cq := bits (w 5) 16 14, doneFlag := bits (w 6) 0 12, doneDie := bits (w 6) 12 3,
    doneEn := testBit (w 6) 15, stream := bits (w 6) 16 8, template := w 7 + bits (w 8) 0 8 * 2 ^ 32,
    altTemplate := w 9 + bits (w 10) 0 8 * 2 ^ 32 }

/-- Node `n` of variant `v`, in the node table that the variant's die has loaded (R76). -/
def State.node (s : State) (v n : Nat) : NodeDesc :=
  let e := s.variant v
  NodeDesc.ofBytes (s.dieBytes e.die secGRAPH (e.nodesOff + 64 * n) 64)

/-- The node runs on a frame by its rate_div and rate_phase (Table GRF-4). -/
def NodeDesc.runsOn (d : NodeDesc) (f : Word) : Bool := f.toNat % d.rateDiv == d.ratePhase

/-! ### Edges (R73, R77) -/

/-- The edge kinds (Table GRF-3). -/
inductive EdgeKind where
  | same | prev | stream | reserved
  deriving DecidableEq, Repr

/-- An outgoing edge. -/
structure Edge where
  node : Nat
  die : Nat
  kind : EdgeKind
  deriving DecidableEq, Repr

/-- Edge `i` of variant `v`, in the edge table that the variant's die has loaded. -/
def State.edge (s : State) (v i : Nat) : Edge :=
  let e := s.variant v
  let w := s.dieCad e.die secGRAPH (e.edgesOff + 4 * i) 4
  ⟨bits w 0 12, bits w 12 3, match bits w 15 3 with | 0 => .same | 1 => .prev | 2 => .stream | _ => .reserved⟩

/-- The outgoing edges of node `n` of variant `v`. -/
def State.outEdges (s : State) (v n : Nat) : List Edge :=
  let d := s.node v n
  (List.range d.succs).map (fun i => s.edge v (d.succIndex + i))

/-- The incoming edges of node `n` of die `d`: each with the predecessor's die and node, from the variants that the dies
run on the frame. -/
def State.inEdges (s : State) (variants : List Nat) (d n : Nat) : List (Nat × Nat × EdgeKind) :=
  ((List.range s.nDies).map (fun p =>
    let v := nth 0 variants p
    ((List.range (s.variant v).nodes).map (fun m =>
      ((s.outEdges v m).filter (fun e => e.node == n && e.die == d)).map (fun e => (p, m, e.kind)))).flatten)).flatten

/-! ### Task descriptors (R78, Table GRF-5, Table GRF-5a) -/

/-- A task descriptor read from its 32 bytes. -/
def TaskDesc.ofBytes (l : List Byte) : TaskDesc :=
  let w (i : Nat) : Nat := leNat ((l.drop (4 * i)).take 4)
  { node := bits (w 0) 0 12, index := bits (w 0) 12 12, prio := bits (w 0) 24 3, safety := testBit (w 0) 27,
    kind := bits (w 0) 28 4, frame := Word.ofNat (w 1), program := w 2 + bits (w 3) 0 8 * 2 ^ 32,
    variant := bits (w 3) 8 7, skippedIn := testBit (w 3) 15, mode := bits (w 3) 30 2, cluster := bits (w 3) 27 3,
    core := bits (w 3) 23 4, args := w 4 + bits (w 5) 0 8 * 2 ^ 32, heldDelta := bits (w 5) 8 8, cq := bits (w 5) 16 14,
    heldIn := testBit (w 5) 30, waitFlag := bits (w 6) 0 12, waitDie := bits (w 6) 12 3, waitEn := testBit (w 6) 15,
    postFlag := bits (w 6) 16 12, postDie := bits (w 6) 28 3, postEn := testBit (w 6) 31, waitValue := Word.ofNat (w 7) }

/-- Task `i` of an instance: its template, with what release fills in (R78). -/
def State.taskOf (s : State) (d : NodeDesc) (v i : Nat) (frame : Word) (alt skipped held : Bool) (delta : Nat) : TaskDesc :=
  let t := TaskDesc.ofBytes (s.bytesAt ((if alt then d.altTemplate else d.template) + 32 * i) 32)
  { t with node := d.node, index := i, prio := d.prio, safety := d.safety, frame := frame, variant := v,
           skippedIn := skipped, heldIn := held, heldDelta := delta, cq := d.cq }

/-- The completion status codes (Table GRF-7). -/
def Status.code : Status → Nat
  | .done => 0
  | .cancelled => 1
  | .skipped => 2
  | .poisoned => 3
  | .timeout => 4
  | .held => 5
  | .substituted => 6
  | .empty => 7

/-- A completion record's 16 bytes (R79). -/
def Rec.bytes (r : Rec) : List Byte :=
  toLE 4 (r.node % 4096 + r.index % 4096 * 2 ^ 12 + r.status.code * 2 ^ 24 + bit r.reexec * 2 ^ 28 +
    bit r.skippedIn * 2 ^ 29 + bit r.heldIn * 2 ^ 30 + bit r.early * 2 ^ 31) ++
  toLE 4 r.frame.toNat ++ toLE 4 (r.dt % 2 ^ 32) ++
  toLE 4 (r.die % 8 + r.group % 16 * 8 + r.core % 16 * 128 + cap 0xFFFF r.oor * 65536)

/-! ### Queues (R106, R111–R114) -/

/-- The queue plan of a die (Table DSP-4). -/
structure Plan where
  swLimit : Nat
  dma : Nat
  cq : Nat
  relay : Nat
  ingress : Nat
  table : Nat
  deriving DecidableEq, Repr

/-- Die d's queue plan entry; one whose table offset is zero is unused (R111). -/
def State.plan (s : State) (d : Nat) : Plan :=
  let o := 0x2200 + 64 * d
  let used := s.dieCad d secGRAPH (o + 16) 8 ≠ 0
  let g (k n : Nat) : Nat := if used then s.dieCad d secGRAPH (o + k) n else 0
  ⟨g 2 2, g 4 2, g 6 2, g 8 2, g 10 2, g 16 8⟩

/-- The kinds of a queue number (Table DSP-2). -/
inductive QueueKind where
  | ready | dma | cq | relay | ingress | none
  deriving DecidableEq, Repr

/-- The kind of queue `q` of die `d` (R112). -/
def State.queueKind (s : State) (d q : Nat) : QueueKind :=
  let p := s.plan d
  if q < 0x400 then .ready
  else if p.table = 0 then .none
  else if q < 0x400 + p.dma then .dma
  else if q < 0x400 + p.dma + p.cq then .cq
  else if q < 0x400 + p.dma + p.cq + p.relay then .relay
  else if q < 0x400 + p.dma + p.cq + p.relay + p.ingress then .ingress
  else .none

/-- A queue table entry (Table DSP-5). -/
structure QueueEntry where
  base : Nat
  log2n : Nat
  log2b : Nat
  params : Nat
  deriving DecidableEq, Repr

/-- The queue table entry of ring queue `q` of die `d`. -/
def State.queue (s : State) (d q : Nat) : QueueEntry :=
  let o := (s.plan d).table + 16 * (q - 0x400)
  ⟨s.dieCad d secGRAPH o 5, s.dieCad d secGRAPH (o + 5) 1, s.dieCad d secGRAPH (o + 6) 1, s.dieCad d secGRAPH (o + 8) 8⟩

/-- Entries of a ring. -/
def QueueEntry.size (q : QueueEntry) : Nat := 2 ^ q.log2n

/-- The address of the entry that an index with its wrap bit names. -/
def QueueEntry.addr (q : QueueEntry) (ix : Nat) : Nat := q.base + ix % q.size * 2 ^ q.log2b

/-- Entries a ring holds: its indices carry one wrap bit (R114). -/
def Ring.depth (r : Ring) (q : QueueEntry) : Nat := (r.prod + 2 * q.size - r.cons) % (2 * q.size)

/-- A ring is full when its indices differ only in the wrap bit (R114). -/
def Ring.full (r : Ring) (q : QueueEntry) : Bool := r.depth q == q.size

/-- A ring of a die; empty at the start. -/
def State.ringOf (s : State) (d q : Nat) : Ring := Map.get ⟨0, 0⟩ (s.die d).seq.rings q

/-- Store a ring's indices and what the queue registers report of it (R127, Table DSP-12). -/
def State.setRing (s : State) (d q : Nat) (r : Ring) : State :=
  let e := s.queue d q
  let s1 := s.modSeq d (fun x => { x with rings := Map.set ⟨0, 0⟩ x.rings q r })
  (((s1.setF d .dspQHead_consumer r.cons 0 q).setF d .dspQTail_producer r.prod 0 q).setF d .dspQDepth_depth (r.depth e) 0
    q).levelFrame d .dspQPeak_peak (r.depth e) 0 q

/-- Advance a ring's producer or consumer by one entry. -/
def State.pushRing (s : State) (d q : Nat) : State :=
  let r := s.ringOf d q
  s.setRing d q { r with prod := (r.prod + 1) % (2 * (s.queue d q).size) }
def State.popRing (s : State) (d q : Nat) : State :=
  let r := s.ringOf d q
  s.setRing d q { r with cons := (r.cons + 1) % (2 * (s.queue d q).size) }

/-- Append an entry to a ring's memory; the entry is visible before the producer index covers it (R115, OP-7). -/
def State.appendRing (s : State) (d q : Nat) (l : List Byte) (poison : Bool := false) : State :=
  (s.write ((s.queue d q).addr (s.ringOf d q).prod) l poison).pushRing d q

/-! ### The relay plan (R345, R346, R353) -/

/-- The relay queues of a die. -/
def State.relayQueues (s : State) (d : Nat) : List Nat :=
  let p := s.plan d
  if p.table = 0 then [] else (List.range p.relay).map (fun k => 0x400 + p.dma + p.cq + k)

/-- The relay params of a die; none without relay queues (R353). -/
def State.relayParams (s : State) (d : Nat) : Option Nat := (s.relayQueues d).head?.map (fun q => (s.queue d q).params)

/-- The address of a context's stretch descriptor on a die (R345). -/
def State.stretchAddr (s : State) (d ctx : Nat) : Nat :=
  dramBase d + bits ((s.relayParams d).getD 0) 40 24 * 65536 + 64 * ctx

/-- Some of `n` bytes from `a` belong to a context table, which only relay engines write after the first frame start (R346). -/
def State.inStretch (s : State) (a n : Nat) : Bool :=
  s.boot.framed && (List.range s.nDies).any (fun d =>
    (s.relayParams d).isSome && decide (a < s.stretchAddr d 16 ∧ s.stretchAddr d 0 < a + n))

end Sys2Proof.Machine
end

