-- ==== Sys2Proof/Machine/Units.lean ====
section
/-! DEFINITION. The units of a die and the positions they fill: spares, substitution, scratchpad migration, retirement and the
schedulable core count (chapter 19, R478–R482, R249). -/

namespace Sys2Proof.Machine

open Sys2Proof

/-! ### Units, groups and positions -/

/-- A unit of which nothing is known yet. -/
def UnitState.fresh : UnitState :=
  ⟨none, false, false, false, false, false, 0, 0, none, false, false, false, false, false, false, false, 0, false, 0, 0, 0, false, 0, none, [], 0⟩

/-- Unit `u` of die `d`: 0–71 cores (cluster × 9 + core), 72–84 vision engines as the BIST numbers them (R510), 85 the relay
engine, 86–89 the control cores. -/
def State.unit (s : State) (d u : Nat) : UnitState := Map.get UnitState.fresh (s.die d).units u

/-- Change a unit. -/
def State.modUnit (s : State) (d u : Nat) (f : UnitState → UnitState) : State :=
  s.modDie d (fun x => { x with units := Map.modify UnitState.fresh x.units u f })

/-- The groups that share a spare: clusters 0–7, then PYR, WRP, FTR, FLW, STE (8–12). -/
def groupUnits (g : Nat) : List Nat :=
  if g < 8 then (List.range 9).map (fun j => 9 * g + j)
  else match g with
    | 8 => [72, 73, 74]
    | 9 => [75, 76, 77]
    | 10 => [78, 79]
    | 11 => [80, 81]
    | 12 => [82, 83, 84]
    | _ => []

/-- The group of a unit; none for the relay engine and the control cores, which have no spare (R509). -/
def unitGroup (u : Nat) : Option Nat :=
  if u < 72 then some (u / 9)
  else if u < 75 then some 8
  else if u < 78 then some 9
  else if u < 80 then some 10
  else if u < 82 then some 11
  else if u < 85 then some 12
  else none

/-- The positions of a group under a variant of `k` schedulable cores, numbered as DSP_UNIT_SEL numbers them (Table DSP-13). -/
def groupPositions (k g : Nat) : List Nat :=
  if g < 8 then (List.range (k / 8)).map (fun j => 8 * g + j)
  else match g with
    | 8 => [64, 65]
    | 9 => [66, 67]
    | 10 => [68]
    | 11 => [69]
    | 12 => [70, 71]
    | _ => []

/-- The unit kind code of a unit (Table GRF-5). -/
def unitKind (u : Nat) : Nat :=
  match unitGroup u with
  | some g => if g < 8 then 0 else g - 7
  | none => if u = 85 then 7 else 8

/-- A unit's instance in its kind, for the registers and events. -/
def unitInstance (u : Nat) : Nat :=
  if u < 72 then u else if u < 75 then u - 72 else if u < 78 then u - 75 else if u < 80 then u - 78
  else if u < 82 then u - 80 else if u < 85 then u - 82 else if u = 85 then 0 else u - 86

/-- The unit that holds a position in service. -/
def State.holder (s : State) (d p : Nat) : Option Nat :=
  ((s.die d).units.find? (fun (x : Nat × UnitState) => x.2.position == some p && !x.2.retired)).map (·.1)

/-- The units of a group that are not retired. -/
def State.alive (s : State) (d g : Nat) : List Nat := (groupUnits g).filter (fun u => !(s.unit d u).retired)

/-- The positions that a cluster can fill, and the die's schedulable core count: 64, 56, or 0 for a die that is failed (R508). -/
def State.coreCount (s : State) (d : Nat) : Nat :=
  let n := (List.range 8).map (fun g => (s.alive d g).length)
  if n.all (fun m => decide (8 ≤ m)) then 64 else if n.all (fun m => decide (7 ≤ m)) then 56 else 0

/-- A group's spare for a substitution: not retired, in no position, and not under a targeted slice (R498). -/
def State.spare (s : State) (d g : Nat) : Option Nat :=
  (s.alive d g).find? (fun u => (s.unit d u).position.isNone && !(s.unit d u).targeted)

/-- A group with no spare at all is degraded (R500). -/
def State.degraded (s : State) (d g : Nat) : Bool := (s.alive d g).all (fun u => (s.unit d u).position.isSome)

/-- A unit is free: it fills a position, runs nothing, is under no test, and no copy of its scratchpad is under way (R120, R249). -/
def State.unitFree (s : State) (d u : Nat) : Bool :=
  let x := s.unit d u
  x.position.isSome && x.running.isNone && !x.underTest && !x.retired && !x.segmentOpen && !x.forced && decide (x.copyEnd ≤ s.deviceTime)

/-! ### Views (R544) -/

/-- An initiator is privileged now: the management core and the safety manager always, a control core unless it runs an integrator
task, a session with a role (R544, Table SEC-5). -/
def State.privileged (s : State) (who : Init) : Bool :=
  match who with
  | .mgmt => true
  | .safety => true
  | .ctrl d c => (s.unit d (86 + c)).running.isNone
  | .session => match s.sec.session with
    | some x => x.role != 0 && !(s.sec.lifecycle == 0 && x.role == 1)
    | none => false
  | .other _ _ => false

/-- An unprivileged access to the privileged view is counted (R544). -/
def State.viewMiss (s : State) : State := s.bumpF 6 .secView_count

/-! ### Candidate lists (R119) -/

/-- The position list base of a position; none for a position that does not exist. -/
def positionLists (p : Nat) : Nat :=
  if p < 64 then 8 * p else if p < 72 then 0x240 + 8 * (p - 64) else if p = 72 then 0x280 else 0x288 + 8 * (p - 73)

/-- The kind of unit that fills a position. -/
def positionKind (p : Nat) : Nat :=
  if p < 64 then 0 else if p < 66 then 1 else if p < 68 then 2 else if p = 68 then 3 else if p = 69 then 4
  else if p < 72 then 5 else if p = 72 then 7 else 8

/-- The candidate lists of a position with their ranks: position list 0, cluster list 1, kind list 2. -/
def candidateLists (p : Nat) : List (Nat × Nat) :=
  (List.range 8).map (fun i => (positionLists p + i, 0)) ++
  (if p < 64 then (List.range 8).map (fun i => (0x200 + p / 8 * 8 + i, 1)) else []) ++
  (List.range 8).map (fun i => (0x2C0 + positionKind p * 8 + i, 2))

/-- A safety task enters list q: a segment on a unit that has the list among its candidates is aborted and counted (R501). -/
def State.abortSegments (s : State) (d q : Nat) : State :=
  (s.die d).units.foldl (fun (s : State) (x : Nat × UnitState) =>
    match x.2.position with
    | some p =>
      if x.2.segmentOpen && (candidateLists p).any (fun c => c.1 == q) then
        (s.modUnit d x.1 (fun y => { y with segmentOpen := false })).bumpF d .bistUnit_aborted 0 x.1
      else s
    | none => s) s

/-! ### Scratchpad migration (R249, R318) -/

/-- Copy n bytes from one place to another: symbols in error are corrected, and codewords that are poisoned or uncorrectable carry the poison
pattern there (R249). -/
def State.copyRange (s : State) (src dst n : Nat) : State :=
  let moved := (s.mem.filter (fun (p : Nat × Byte) => decide (src ≤ p.1 ∧ p.1 < src + n))).map (fun p => (p.1 - src + dst, p.2))
  let rest := Map.clearRange dst (dst + n) s.mem
  let bad := (s.upsets.filter (fun (p : Nat × Nat) => manyWrong p.2)).map (fun p => p.1)
  let marks := ((s.poison ++ bad).filter (fun c => decide (src ≤ 16 * c ∧ 16 * c < src + n))).map (fun c => c - src / 16 + dst / 16)
  let out (c : Nat) : Bool := decide (16 * c < dst) || decide (dst + n ≤ 16 * c)
  let keep := s.poison.filter out
  { s with
    mem := rest.takeWhile (fun p => decide (p.1 < dst)) ++ moved ++ rest.dropWhile (fun p => decide (p.1 < dst))
    poison := marks.foldl (fun l c => setInsert c l) keep
    upsets := s.upsets.filter (fun p => out p.1) }

/-- Copy the whole scratchpad of one core to another's, through the remote ports of both: the position's next task is not dispatched before
the copy ends (R249, R318; log entry 76). -/
def State.migrate (s : State) (d c1 c2 : Nat) : State :=
  let busy (s : State) (c : Nat) : State := s.modUnit d c (fun x => { x with copyEnd := s.deviceTime + 6400 })
  busy (busy (s.copyRange (spdBase d c1) (spdBase d c2) 0x60000) c1) c2

/-! ### Retirement (R507) and repair records (R504) -/

/-- The first 12 bytes of a repair record (Table BST-4); its CRC is added when it is written. -/
def repairRecord (kind die unit target replacement : Nat) : List Byte :=
  toLE 1 kind ++ toLE 1 die ++ toLE 2 unit ++ toLE 4 target ++ toLE 4 replacement

/-- A repair or retirement waits for its record (R504). -/
def State.owesRecord (s : State) (d : Nat) (r : List Byte) : State :=
  s.modDie d (fun x => { x with repairDue := x.repairDue ++ [r] })

/-- Set a unit's bit in BIST_RETIRED. -/
def State.retiredBit (s : State) (d u : Nat) : State :=
  let f : Fld := if u < 32 then .bistRetired0_units else if u < 64 then .bistRetired1_units else .bistRetired2_units
  let w := s.getF d f
  if testBit w (u % 32) then s else s.setF d f (w + 2 ^ (u % 32))

/-- Retire a unit: out of service at once, recorded, never used again.  It keeps the number of the position it held, which is
unserved until a spare takes it or the variant changes; with no spare left the retirement raises SELFTEST (R507). -/
def State.retire (s : State) (d u : Nat) : State :=
  if (s.unit d u).retired then s
  else
    let held := (s.unit d u).position.isSome
    let s1 := ((s.modUnit d u (fun x =>
      { x with retired := true, underTest := false, targeted := false, forced := false, segmentOpen := false })).retiredBit d
        u).owesRecord d (repairRecord 6 d u 0 0)
    if held then s1.doubt dSELFTEST d s1.frame u .noSpare else s1

/-! ### Substitution (R478, R480, R482, R498) -/

/-- A failing unit leaves service and goes under test, with the targeted part of the slice or without; one that was suspect is
retired without a further slice. -/
def State.underTest (s : State) (d u : Nat) (targeted : Bool) : State :=
  if (s.unit d u).suspect then (s.modUnit d u (fun x => { x with position := none })).retire d u
  else s.modUnit d u (fun x =>
    { x with position := none, underTest := true, targeted := targeted, testDt := s.deviceTime, abandoned := false })

/-- Steps 1 and 2 of R478: the spare of the failing unit's group takes its position, scratchpad and all, abandoning its own slice;
the failing unit goes under test.  Without a spare the failing unit is retired.  The answer is the unit that has the
position now. -/
def State.substitute (s : State) (d u : Nat) (targeted : Bool) : State × Option Nat :=
  let s0 := (s.modUnit d u (fun x => { x with failDt := s.deviceTime, running := none })).bumpF d .bistUnit_check_fails 0 u
  match unitGroup u with
  | none => (s0, none)
  | some g =>
    match s.spare d g with
    | none => (s0.retire d u, none)
    | some v =>
      let p := (s.unit d u).position
      let s1 := if u < 72 then s0.migrate d u v else s0
      let s2 := s1.underTest d u targeted
      (s2.modUnit d v (fun x => { x with position := p, underTest := false, abandoned := x.underTest }), some v)

/-! ### The grid of rotation (R496, R499) -/

/-- How far a group's grid is offset. -/
def gridOffset (g : Nat) : Nat := if g < 8 then g * 562500 else (g - 8) * 900000

/-- The number of grid points of a group up to a device time. -/
def gridIndex (g t : Nat) : Nat := if t < gridOffset g then 0 else (t - gridOffset g) / 4500000 + 1

/-! ### Positions at a start and at a fence (R496, R508) -/

/-- Fill a position that nobody serves, from the units of its group that are alive and in no lower position; the scratchpad of the
unit that held it last comes along. -/
def State.fill (s : State) (d g k p : Nat) : State :=
  if (s.holder d p).isSome then s
  else
    match (s.alive d g).find? (fun u => match (s.unit d u).position with
        | none => !(s.unit d u).targeted
        | some q => !(groupPositions k g).contains q) with
    | none => s
    | some u =>
      let old := (s.die d).units.find? (fun (x : Nat × UnitState) => x.2.position == some p && x.2.retired)
      let s1 := match old with
        | some (o, _) => (if u < 72 then s.migrate d o u else s).modUnit d o (fun x => { x with position := none })
        | none => s
      s1.modUnit d u (fun x => { x with position := some p, underTest := false })

/-- At a variant fence the positions of the new variant are refilled, and a unit in no position of it is a spare again (R508). -/
def State.refill (s : State) (d k : Nat) : State :=
  (List.range 13).foldl (fun (s : State) g =>
    let ps := groupPositions k g
    let s1 := ps.foldl (fun (s : State) p => s.fill d g k p) s
    (s1.alive d g).foldl (fun (s : State) u =>
      match (s.unit d u).position with
      | some p => if ps.contains p then s else s.modUnit d u (fun x => { x with position := none })
      | none => s) s1) s

/-- The units of a die as a start leaves them: retired ones out, position p held by unit p of its group where that lives, the gaps
filled in order, the rest under test, and what is suspect still suspect (R496, R498; log entry 14). -/
def State.startUnits (s : State) (d : Nat) (retired : List Nat) : State :=
  let t := s.deviceTime
  let s0 := s.modDie d (fun x => { x with
    units := (List.range 90).foldl (fun m u =>
      let old := Map.get UnitState.fresh x.units u
      let y := { UnitState.fresh with
        retired := retired.contains u, fullDt := t, testDt := t, suspect := old.suspect, failDt := old.failDt }
      Map.set UnitState.fresh m u (if u = 85 then { y with position := some 72 }
        else if 86 ≤ u then { y with position := some (73 + (u - 86)) } else y)) []
    rotation := (List.range 13).foldl (fun m g => Map.set 0 m (g + 100) (gridIndex g t)) [] })
  let k := s0.coreCount d
  let own := (List.range 13).foldl (fun (s : State) g =>
    let us := groupUnits g
    let ps := groupPositions k g
    (List.range ps.length).foldl (fun (s : State) i =>
      let u := nth 0 us i
      if (s.unit d u).retired then s else s.modUnit d u (fun x => { x with position := some (nth 0 ps i) })) s) s0
  let full := own.refill d k
  (List.range 85).foldl (fun (s : State) u =>
    let x := s.unit d u
    if x.retired || x.position.isSome then s else s.modUnit d u (fun x => { x with underTest := true, testDt := t })) full

/-! ### What the registers report of units -/

/-- The state code of BIST_UNIT. -/
def UnitState.code (x : UnitState) : Nat :=
  if x.retired then 4 else if x.segmentOpen then 3 else if x.underTest || (x.forced && x.running.isNone) then 1
  else if x.position.isNone then 2 else 0

/-- Write BIST_STATUS, BIST_UNIT and its age, and SPD_STATUS, as they are now. -/
def State.unitRegs (s : State) (d : Nat) : State :=
  let s1 := ((((s.setF d .bistStatus_rotating 1).setF d .bistStatus_degraded
      ((List.range 8).foldl (fun n g => n + bit (s.degraded d g) * 2 ^ g) 0)).setF d .bistStatus_kinds_degraded
      ((List.range 5).foldl (fun n g => n + bit (s.degraded d (8 + g)) * 2 ^ g) 0)).setF d .bistStatus_k (s.coreCount d))
  let s2 := (List.range 85).foldl (fun (s : State) u =>
    let x := s.unit d u
    (((s.setF d .bistUnit_state x.code 0 u).setF d .bistUnit_suspect (bit x.suspect) 0 u).setF d .bistUnit_segments x.segments 0
      u).setF d .bistUnitAge_age (cap (2 ^ 32 - 1) ((s.deviceTime - x.fullDt) / 1024)) 0 u) s1
  (List.range 72).foldl (fun (s : State) c =>
    let x := s.unit d c
    (((((s.setF d .spdStatus_position (match x.position with | some p => p % 8 | none => 15) c).setF d .spdStatus_in_service
      (bit (x.position.isSome && !x.retired)) c).setF d .spdStatus_under_test (bit x.underTest) c).setF d .spdStatus_retired
      (bit x.retired) c).setF d .spdStatus_migrating (bit (decide (s.deviceTime < x.copyEnd))) c).setF d .spdStatus_busy (bit x.running.isSome) c) s2

end Sys2Proof.Machine
end

