-- ==== Sys2Proof/Machine/Flags.lean ====
section
/-! DEFINITION. Task slots, ready lists, the appending of DMA tasks, and the hardware flags with their waits and watches
(R101–R110, R254–R261, R385, R386). -/

namespace Sys2Proof.Machine

open Sys2Proof

/-! ### Slots and ready lists -/

/-- The slot numbered `k` of die `d`, if it is not FREE. -/
def State.slot (s : State) (d k : Nat) : Option Slot := ((s.die d).seq.slots.find? (fun p => p.1 == k)).map (·.2)

/-- Change a slot in use. -/
def State.modSlot (s : State) (d k : Nat) (f : Slot → Slot) : State :=
  s.modSeq d (fun x => { x with slots := x.slots.map (fun p => if p.1 = k then (k, f p.2) else p) })

/-- The lowest-numbered free slot of a die (R105), if any of the 2,048 is free (R101). -/
def State.freeSlot (s : State) (d : Nat) : Option Nat :=
  (List.range 2048).find? (fun k => (s.slot d k).isNone)

/-- Keep DSP_STATUS (R127). -/
def State.dspStatus (s : State) (d : Nat) : State :=
  let q := (s.die d).seq
  (((s.setF d .dspStatus_slots_used q.slots.length).levelFrame d .dspStatus_slots_peak q.slots.length).setF d .dspStatus_held
    (bit !q.heldTasks.isEmpty)).setF d .dspStatus_store_full
    (bit (decide ((q.owed.filter (fun o => o.slot.isNone)).length ≥ 4096)))

/-- A slot is freed (R103). -/
def State.freeTheSlot (s : State) (d k : Nat) : State :=
  (s.modSeq d (fun x => { x with slots := Map.erase x.slots k })).dspStatus d

/-- The position index of a vision engine or other position list (Table DSP-3); none where the instance does not exist. -/
def positionIndex (kind core : Nat) : Option Nat :=
  match kind with
  | 1 => if core < 2 then some core else none
  | 2 => if core < 2 then some (2 + core) else none
  | 3 => if core < 1 then some 4 else none
  | 4 => if core < 1 then some 5 else none
  | 5 => if core < 2 then some (6 + core) else none
  | _ => none

/-- The ready list that a task's placement and prio select (R109, Table DSP-3); none where the placement names a position
or instance that does not exist, or a reserved code. -/
def TaskDesc.list (t : TaskDesc) : Option Nat :=
  let kindList : Option Nat := if t.kind < 6 ∨ t.kind = 7 ∨ t.kind = 8 then some (0x2C0 + t.kind * 8 + t.prio) else none
  match t.mode with
  | 0 => kindList
  | 1 => if t.kind = 0 then some (0x200 + t.cluster * 8 + t.prio) else kindList
  | 2 =>
    if t.kind = 0 then (if t.core < 8 then some ((t.cluster * 8 + t.core) * 8 + t.prio) else none)
    else if t.kind = 7 then (if t.core = 0 then some (0x280 + t.prio) else none)
    else if t.kind = 8 then (if t.core < 4 then some (0x288 + t.core * 8 + t.prio) else none)
    else (positionIndex t.kind t.core).map (fun k => 0x240 + k * 8 + t.prio)
  | _ => none

/-- A list number that Table DSP-3 defines. -/
def readyListDefined (q : Nat) : Bool :=
  decide (q ≤ 0x2A7 ∨ (0x2C0 ≤ q ∧ q ≤ 0x2EF) ∨ (0x2F8 ≤ q ∧ q ≤ 0x307))

/-- The tasks of a ready list, head first, as slot numbers. -/
def State.readyList (s : State) (d q : Nat) : List Nat := Map.get [] (s.die d).seq.lists q

/-- Store a ready list and what the queue registers report of it. -/
def State.setReadyList (s : State) (d q : Nat) (l : List Nat) : State :=
  ((s.modSeq d (fun x => { x with lists := Map.set [] x.lists q l })).setF d .dspQDepth_depth l.length 0 q).levelFrame d
    .dspQPeak_peak l.length 0 q

/-- The slot's task is of safety class. -/
def State.slotSafety (s : State) (d k : Nat) : Bool := ((s.slot d k).map (fun x => x.desc.safety)).getD false

/-- The order of tasks that enter one list in one cycle (R110). -/
def entersBefore (a b : Slot) : Bool :=
  if a.desc.safety != b.desc.safety then a.desc.safety
  else if a.sw != b.sw then b.sw
  else if a.desc.frame ≠ b.desc.frame then precedes a.desc.frame b.desc.frame
  else if a.desc.node ≠ b.desc.node then decide (a.desc.node < b.desc.node)
  else decide (a.desc.index < b.desc.index)

/-- A task that enters a list goes ahead of another that is in it: of safety class ahead of the others, and within a class ahead of one that
has entered in the same cycle and comes after it (R110). -/
def State.goesAhead (s : State) (x y : Slot) : Bool :=
  if x.desc.safety = y.desc.safety then y.since == s.deviceTime && entersBefore x y else x.desc.safety

/-- A task enters a ready list where R110 places it. -/
def State.enterList (s : State) (d q k : Nat) : State :=
  match s.slot d k with
  | none => s
  | some x =>
    let l := s.readyList d q
    let ahead (j : Nat) : Bool := ((s.slot d j).map (fun y => s.goesAhead x y)).getD false
    let l' := l.takeWhile (fun j => !ahead j) ++ [k] ++ l.dropWhile (fun j => !ahead j)
    let s1 := (s.setReadyList d q l').modSlot d k (fun x => { x with state := .ready, list := q, since := s.deviceTime })
    if x.desc.safety then s1.abortSegments d q else s1

/-- A task leaves its ready list. -/
def State.leaveList (s : State) (d k : Nat) : State :=
  match s.slot d k with
  | some x => if x.state = .ready then s.setReadyList d x.list ((s.readyList d x.list).erase k) else s
  | none => s

/-! ### Cancellation in the same cycle (R123) -/

/-- The instance of a node for a frame on a die. -/
def State.inst (s : State) (d node : Nat) (f : Word) : Option Inst :=
  (s.die d).seq.insts.find? (fun i => i.node == node && i.frame == f)

/-- A command that writes DSP_CANCEL_CTL: who, of which die, slot mode, and the number it names. -/
def State.asCancel (s : State) : Instr → Option (Init × Nat × Bool × Nat)
  | .dspCancelNode who d n => some (who, d, false, n)
  | .dspCancelSlot who d n => some (who, d, true, n)
  | .registerWrite who addr v _ =>
    match s.region addr with
    | .view true off =>
      if off % 2 ^ 24 = Fld.dspCancelCtl_target.base then
        some (who, off / 2 ^ 24, testBit v.toNat 12, if testBit v.toNat 12 then v.toNat % 2048 else v.toNat % 4096)
      else none
    | _ => none
  | _ => none

/-- A command of this cycle that still waits cancels tasks of a die: of a node for the frame in DSP_CANCEL_FRAME, or the one in a slot. -/
def State.cancelWaits (s : State) (d : Nat) (slotMode : Bool) (n : Nat) : Bool :=
  s.pending.any (fun c => match s.asCancel c with
    | some (who, e, m, k) => e == d && m == slotMode && k == n && who.canAccess && s.privileged who
    | none => false)

/-- A task of an instance is cancelled in this cycle: its win_close has come, or a cancellation is among the cycle's commands (R123; log
entry 73). -/
def State.closing (s : State) (d : Nat) (t : TaskDesc) : Bool :=
  (match s.inst d t.node t.frame with
  | some i => !i.complete && decide (i.startDt + (s.node i.variant i.node).winClose ≤ s.deviceTime)
  | none => false) ||
  (Word.ofNat (s.getF d .dspCancelFrame_frame) == t.frame && s.cancelWaits d false t.node)

/-- The task in a slot is cancelled in this cycle. -/
def State.slotClosing (s : State) (d k : Nat) (x : Slot) : Bool := if x.sw then s.cancelWaits d true k else s.closing d x.desc

/-! ### DMA tasks (R385, R386) -/

/-- The channel of a ring: engine and channel (R112). -/
def ringChan (q : Nat) : Nat := q - 0x400

/-- A channel that has done nothing. -/
def DmaChan.fresh : DmaChan := ⟨.idle, false, false, 0, 0, 0, 0, false, false, false, none, none⟩

/-- Channel `c` (engine × 64 + channel) of a die. -/
def State.chan (s : State) (d c : Nat) : DmaChan := Map.get DmaChan.fresh (s.die d).chans c

/-- Change a channel. -/
def State.modChan (s : State) (d c : Nat) (f : DmaChan → DmaChan) : State :=
  s.modDie d (fun x => { x with chans := Map.modify DmaChan.fresh x.chans c f })

/-- Append one descriptor of a DMA task: codewords 1–3, then codeword 0 with owner = 1; record is forced to 0 (R386). -/
def State.appendDesc (s : State) (d q : Nat) (desc : List Byte) (slot : Nat) : State :=
  let f := (nth 0 desc 1).toNat
  let b1 : Byte := BitVec.ofNat 8 (f - bits f 0 2 + 1)
  let c0 := desc.take 1 ++ [b1] ++ (desc.drop 2).take 14
  let a := (s.queue d q).addr (s.ringOf d q).prod
  let s1 := ((s.write (a + 16) (desc.drop 16)).write a c0).pushRing d q
  (s1.modSeq d (fun x => { x with dmaOwners := Map.modify [] x.dmaOwners q (· ++ [some slot]) })).modChan d (ringChan q)
    (fun c => { c with pending := true })

/-- Append what is left of a DMA task's descriptors while the ring has room; a full ring holds the append (Table DSP-6). -/
def State.dmaAppend (n : Nat) (s : State) (d k : Nat) : State :=
  match n with
  | 0 => s
  | n + 1 =>
    match s.slot d k with
    | none => s
    | some x =>
      let q := x.dmaRing
      if x.dmaCount ≤ x.dmaAppended then s.modSlot d k (fun y => { y with dmaRefused := false })
      else if (s.ringOf d q).full (s.queue d q) then
        if x.dmaRefused then s
        else (s.bumpF d .dspQRefused_count 0 q).modSlot d k (fun y => { y with dmaRefused := true })
      else
        State.dmaAppend n
          ((s.appendDesc d q (s.read (x.desc.program + 64 * (x.dmaAppended + 1)) 64) k).modSlot d k
            (fun y => { y with dmaAppended := y.dmaAppended + 1 })) d k

/-- The DMA task in slot k is RUNNING: its block's header is read and its descriptors are appended.  A block that names no SEQUENCER ring of
the die, or no count of 1 to 16, or that does not lie in the die's own DRAM or commons, is the host's error (R385, R386). -/
def State.startDma (s : State) (d k : Nat) (x : Slot) : State :=
  let a := x.desc.program
  let q := leNat (s.read a 2)
  let n := leNat (s.read (a + 2) 1)
  let home := match s.region a with
    | .dram e _ | .commons e _ => e == d
    | _ => false
  let s1 := s.modSlot d k (fun y => { y with state := .running, unit := 200, dmaRing := q, dmaCount := n })
  if home && s.queueKind d q == .dma && testBit (s.queue d q).params 0 && decide (1 ≤ n ∧ n ≤ 16) then State.dmaAppend 17 s1 d k
  else s1.unpredictable

/-- A task whose wait is met, or that has none, becomes READY: a DMA task's descriptors are appended and its slot is
RUNNING (R386), any other enters its ready list (R109).  Cancellation in the same cycle wins (R123). -/
def State.makeReady (s : State) (d k : Nat) : State :=
  match s.slot d k with
  | none => s
  | some x =>
    if s.slotClosing d k x then s
    else if x.desc.kind = 6 then s.startDma d k x
    else
      match (if x.sw then some x.list else x.desc.list) with
      | some q => s.enterList d q k
      | none => s

/-! ### Hardware flags (R254–R261) -/

/-- A flag's value. -/
def State.flagVal (s : State) (d f : Nat) : Word := Map.get 0 s.flags (d * 4096 + f)

/-- A wait for w on a flag of value v is met (R258). -/
def waitMet (v w : Word) : Bool := decide ((v - w).toNat < 2 ^ 31)

/-- A flag word turns out uncorrectable: it is held, the first is latched, and FLAG is raised (R261). -/
def State.holdFlag (s : State) (d f : Nat) : State :=
  if (s.die d).flagHeld.contains f then s
  else
    let s1 := (s.modDie d (fun x => { x with flagHeld := setInsert f x.flagHeld, flagCyc := Map.erase x.flagCyc f })).bumpF d .flgErr_count
    let s2 := if s1.getF d .flgErr_valid = 1 then s1 else (s1.setF d .flgErr_flag f).setF d .flgErr_valid 1
    ({ s2 with flags := Map.set 0 s2.flags (d * 4096 + f) 0 }).doubt dFLAG d s.frame

/-- The flag unit reads a flag's word; one that its check bits show uncorrectable is held (R261). -/
def State.flagCheck (s : State) (d f : Nat) : State :=
  if manyWrong (Map.get 0 s.upsets (flagWord d f)) then s.holdFlag d f else s

/-- A flag's wait is met now: a held flag meets none (R258, R261). -/
def State.flagMeets (s : State) (d f : Nat) (w : Word) : Bool :=
  !(s.die d).flagHeld.contains f && waitMet (s.flagVal d f) w

/-- Keep FLG_WAITERS and FLG_WATCH. -/
def State.flagRegs (s : State) (d f : Nat) : State :=
  let x := s.die d
  let n := (x.seq.slots.filter (fun p =>
    p.2.state == .waiting && p.2.desc.waitEn && p.2.desc.waitDie == d && p.2.desc.waitFlag == f)).length
  ((s.setF d .flgWaiters_local n 0 f).setF d .flgWaiters_watches ((x.watches.filter (fun w => w.flag == f)).length) 0
    f).setF d .flgWatch_used x.watches.length

/-- The waits on a flag are evaluated: every waiting task and every watch that its value meets goes on; met is latched (R258, R260). -/
def State.flagWake (s0 : State) (d f : Nat) : State :=
  let s := s0.flagCheck d f
  let mine := (s.die d).seq.slots.filter (fun p =>
    p.2.state == .waiting && p.2.desc.waitEn && p.2.desc.waitDie == d && p.2.desc.waitFlag == f && s.flagMeets d f p.2.desc.waitValue)
  let woken := mine.foldl (fun s p => s.makeReady d p.1) s
  let met := (s.die d).watches.filter (fun w => w.flag == f && s.flagMeets d f w.value)
  let s1 := woken.modDie d (fun x => { x with watches := x.watches.filter (fun w => !(w.flag == f && s.flagMeets d f w.value)) })
  ({ s1 with travel := s1.travel ++ met.map (fun (w : Watch) => Travel.mk .met d w.src w.slot w.flag w.value w.counted) }).flagRegs d f

/-- A flag's updates in this cycle so far. -/
def State.flagCyc (s : State) (d f : Nat) : FlagCyc :=
  match (s.die d).flagCyc.find? (fun (p : Nat × FlagCyc) => p.1 == f) with
  | some p => p.2
  | none => ⟨s.flagVal d f, [], none, 0⟩

/-- The arithmetic cycle ends: the waits on the flags that it has updated are evaluated (R256, R258). -/
def State.flagsEnd (s : State) (d : Nat) : State :=
  ((s.die d).flagCyc.foldl (fun (s : State) p => s.flagWake d p.1) s).modDie d (fun x => { x with flagCyc := [] })

/-- A read of a flag: its value before the updates of this cycle; zero if it is held (R256, R261). -/
def State.flagRead (s0 : State) (d f : Nat) : Word × State :=
  let s := s0.flagCheck d f
  (if (s.die d).flagHeld.contains f then 0 else (s.flagCyc d f).before, s)

/-- A set (replace) or add of a flag by initiator `who` (Table SPD-4): within one cycle the set first, then the sum of the adds; of two sets
either value may stand; a second update of the same initiator falls in a cycle of its own (Table SPD-5).  A held flag discards it, and so
does a die that does not run. -/
def State.flagUpdate (s : State) (who d f : Nat) (set : Bool) (v : Word) : State :=
  let s0 := s.flagCheck d f
  if (s0.die d).flagHeld.contains f || !s0.dieUp d then s0
  else
    let again := (s0.flagCyc d f).froms.contains who
    let s1 := if again then s0.flagWake d f else s0
    let c : FlagCyc := if again then ⟨s1.flagVal d f, [], none, 0⟩ else s1.flagCyc d f
    let (pick, s2) := s1.free
    let s3 := if set && c.set.isSome then s2 else s1
    let c' : FlagCyc :=
      { c with froms := who :: c.froms
               set := if set then some (match c.set with | some w => if pick % 2 = 0 then v else w | none => v) else c.set
               sum := if set then c.sum else c.sum + v }
    let s4 := { s3.modDie d (fun x => { x with flagCyc := Map.put x.flagCyc f c' }) with
      flags := Map.set 0 s3.flags (d * 4096 + f) (c'.set.getD c'.before + c'.sum)
      upsets := Map.set 0 s3.upsets (flagWord d f) 0 }
    if set then s4 else s4.bumpUnits d .flgPosts_posts 1024 1

/-- The flag unit's initiators: a die's sequencer, a die's DMA engines, ingress, and the initiators of register accesses. -/
def seqKey (d : Nat) : Nat := 100000 + d
def dmaKey (d : Nat) : Nat := 200000 + d
def ingressKey : Nat := 300000

/-- A post or add by a unit of die `src`, initiator `who`: applied here on its own die, on its way to another (R259). -/
def State.flagPost (s : State) (who src d f : Nat) (v : Word) : State :=
  if src = d then s.flagUpdate who d f false v
  else { s with travel := s.travel ++ [⟨.add, src, d, 0, f, v, false⟩] }

/-- Remove the first traveller of a kind between two dies; answer it. -/
def State.takeTravel (s : State) (k : TravelKind) (src dst : Nat) : Option (Travel × State) :=
  match s.travel.find? (fun t => t.kind == k && t.src == src && t.dst == dst) with
  | some t => some (t, { s with travel := s.travel.erase t })
  | none => none

/-- Who may touch a flag, and how (Table SPD-4, R257). -/
def FlagSrc.allowed (set : Bool) : FlagSrc → Bool
  | .sequencer _ => !set
  | .dma _ => !set
  | .ingress => true
  | .reg w => match w with | .other _ _ => false | _ => true
  | .write w => set && match w with | .ctrl _ _ => true | .mgmt => true | _ => false

/-- The initiator that updates, as the flag unit tells them apart. -/
def FlagSrc.key : FlagSrc → Nat
  | .sequencer d => seqKey d
  | .dma d => dmaKey d
  | .ingress => ingressKey
  | .reg w => w.key
  | .write w => w.key

/-- The die an update comes from; 6 for ingress and the hub's software. -/
def FlagSrc.die : FlagSrc → Nat
  | .sequencer d => d
  | .dma d => d
  | .ingress => 6
  | .reg w => w.die
  | .write w => w.die

/-- A hardware update between C-dies, which travels. -/
def FlagSrc.travels : FlagSrc → Bool
  | .sequencer _ => true
  | .dma _ => true
  | _ => false

/-- The update comes through a privileged register from an initiator that is not privileged (R544). -/
def State.flagMiss (s : State) : FlagSrc → Bool
  | .reg w => !s.privileged w
  | _ => false

/-- An update reaches the flag unit, or is lost with a link (R24); `bad` says that the unit finds the word uncorrectable (R261). -/
def State.flagArrive (s : State) (src : FlagSrc) (d f : Nat) (set : Bool) (v : Word) (bad : Bool) : State :=
  if !s.dieUp d || !s.reach src.die d then s
  else (if bad then s.holdFlag d f else s).flagUpdate src.key d f set v

/-- FLAG_ADD: an add reaches the flag unit (R255, R256, R259).  An add from another die's sequencer or DMA engine is one that
is on its way; ingress and software add directly. -/
def execFlagAdd (src : FlagSrc) (d f : Nat) (v : Word) (flagErr : Bool) (s : State) : Result State :=
  if s.frz.stopped then .next s
  else if s.nDies ≤ d ∨ 4096 ≤ f ∨ src.allowed false = false then hostErr s 257
  else if s.flagMiss src then .next s.viewMiss
  else if !src.travels then .next (s.flagArrive src d f false v flagErr)
  else
    let t : Travel := ⟨.add, src.die, d, 0, f, v, false⟩
    if s.travel.contains t then .next ({ s with travel := s.travel.erase t }.flagArrive src d f false v flagErr) else .next s

/-- FLAG_SET: a set replaces the value (R255). -/
def execFlagSet (src : FlagSrc) (d f : Nat) (v : Word) (flagErr : Bool) (s : State) : Result State :=
  if s.frz.stopped then .next s
  else if s.nDies ≤ d ∨ 4096 ≤ f ∨ src.allowed true = false then hostErr s 257
  else if s.flagMiss src then .next s.viewMiss
  else .next (s.flagArrive src d f true v flagErr)

/-- WATCH_ARRIVE: a watch reaches the flag unit of the die it watches: met at once, held, or refused by a full table or a
die that does not run (R260); a lost link loses it (R24). -/
def execWatchArrive (src dst : Nat) (s : State) : Result State :=
  match s.takeTravel .watch src dst with
  | none => .next s
  | some (t, s0) =>
    if !s0.reach src dst && decide (src < 8) then .next s0
    else if !s0.dieUp dst || decide ((s0.die dst).watches.length ≥ 1024) then
      let s2 := if t.counted then s0 else s0.bumpF dst .flgWatch_refused
      .next { s2 with travel := s2.travel ++ [{ t with kind := .refused, counted := true }] }
    else
      let s1 := s0.flagCheck dst t.flag
      if s1.flagMeets dst t.flag t.value then
        .next { s1 with travel := s1.travel ++ [⟨.met, dst, src, t.slot, t.flag, t.value, t.counted⟩] }
      else .next ((s1.modDie dst (fun x => { x with watches := x.watches ++ [⟨src, t.slot, t.flag, t.value, t.counted⟩] })).flagRegs dst t.flag)

/-- WATCH_RETRY: a refused watch is sent again (R260). -/
def execWatchRetry (src dst : Nat) (s : State) : Result State :=
  if s.frz.stopped then .next s else
  match s.takeTravel .refused src dst with
  | none => .next s
  | some (t, s1) => .next { s1 with travel := s1.travel ++ [{ t with kind := .watch }] }

/-- Withdraw the watch of a slot, wherever it is (R260). -/
def State.withdrawWatch (s : State) (src dst slot : Nat) : State :=
  let gone := (s.die dst).watches.filter (fun w => w.src == src && w.slot == slot)
  let s1 := { s with travel := s.travel.filter (fun (t : Travel) =>
    !((t.kind == TravelKind.watch || t.kind == TravelKind.refused) && t.src == src && t.dst == dst && t.slot == slot)) }
  let s2 := s1.modDie dst (fun x => { x with watches := x.watches.filter (fun w => !(w.src == src && w.slot == slot)) })
  gone.foldl (fun (s : State) w => s.flagRegs dst w.flag) s2

/-- WATCH_WITHDRAW: the watch of a task that was cancelled is withdrawn (R260).  A watch of a task that still waits is
not. -/
def execWatchWithdraw (src dst slot : Nat) (s : State) : Result State :=
  if s.frz.stopped then .next s else
  match s.slot src slot with
  | some x =>
    if x.state = .waiting ∧ x.desc.waitDie = dst then .next s else .next (s.withdrawWatch src dst slot)
  | none => .next (s.withdrawWatch src dst slot)

end Sys2Proof.Machine
end

