-- ==== Sys2Proof/Machine/Numbers.lean ====
section
/-! DEFINITION. Number formats and accumulation (chapter 12): binary floating-point with exact intermediate values, MX elements
and scales, the quantisation of blocks, and the accuracy bounds of the vector unit's approximations. -/

namespace Sys2Proof.Machine

open Sys2Proof

/-! ### Binary formats (R321, R322) -/

/-- A binary format: exponent and mantissa bits; the bias is 2^(exponent bits − 1) − 1. -/
structure FFmt where
  eb : Nat
  mb : Nat
  deriving DecidableEq, Repr

/-- The formats of Table NUM-1. -/
def FFmt.fp32 : FFmt := ⟨8, 23⟩
def FFmt.bf16 : FFmt := ⟨8, 7⟩
def FFmt.fp16 : FFmt := ⟨5, 10⟩

/-- The exponent of the smallest subnormal. -/
def FFmt.qmin (f : FFmt) : Int := 1 - (2 ^ (f.eb - 1) - 1 : Int) - f.mb

/-- Infinity's encoding without sign, the sign bit, and the canonical NaN. -/
def FFmt.inf (f : FFmt) : Nat := (2 ^ f.eb - 1) * 2 ^ f.mb
def FFmt.sign (f : FFmt) : Nat := 2 ^ (f.eb + f.mb)
def FFmt.nan (f : FFmt) : Nat := f.inf + 2 ^ (f.mb - 1)

/-- A floating-point value: NaN, an infinity, or (−1)^neg × m × 2^e. -/
inductive FVal where
  | nan
  | inf (neg : Bool)
  | fin (neg : Bool) (m : Nat) (e : Int)
  deriving DecidableEq, Repr

/-- The value of an encoding. -/
def FFmt.decode (f : FFmt) (n : Nat) : FVal :=
  let neg := testBit n (f.eb + f.mb)
  let ex := bits n f.mb f.eb
  let m := bits n 0 f.mb
  if ex = 2 ^ f.eb - 1 then (if m = 0 then .inf neg else .nan)
  else if ex = 0 then .fin neg m f.qmin
  else .fin neg (2 ^ f.mb + m) (f.qmin + (ex - 1 : Nat))

/-- `m ÷ 2^k` rounded to nearest, ties to even. -/
def rne (m k : Nat) : Nat :=
  let q := m / 2 ^ k
  let r := m % 2 ^ k
  if 2 * r > 2 ^ k ∨ (2 * r = 2 ^ k ∧ q % 2 = 1) then q + 1 else q

/-- `m × 2^e` in units of `2^q`, rounded to nearest even. -/
def rneAt (m : Nat) (e q : Int) : Nat := if q ≤ e then m * 2 ^ (e - q).toNat else rne m (q - e).toNat

/-- The encoding of (−1)^neg × m × 2^e, rounded once to nearest, ties to even; overflow gives infinity (R335). -/
def FFmt.round (f : FFmt) (neg : Bool) (m : Nat) (e : Int) : Nat :=
  let sg := if neg then f.sign else 0
  if m = 0 then sg
  else
    let q := max ((Nat.log2 m : Int) + e - f.mb) f.qmin
    let b := (q - f.qmin).toNat * 2 ^ f.mb + rneAt m e q
    sg + (if b ≥ f.inf then f.inf else b)

/-- The encoding of a value in a format. -/
def FFmt.encode (f : FFmt) : FVal → Nat
  | .nan => f.nan
  | .inf neg => (if neg then f.sign else 0) + f.inf
  | .fin neg m e => f.round neg m e

/-- A value's sign. -/
def FVal.neg : FVal → Bool
  | .nan => false
  | .inf n => n
  | .fin n _ _ => n

/-- A value with its sign inverted. -/
def FVal.negate : FVal → FVal
  | .nan => .nan
  | .inf n => .inf !n
  | .fin n m e => .fin (!n) m e

/-- A signed mantissa. -/
def smant (neg : Bool) (m : Nat) : Int := if neg then -(m : Int) else m

/-- Exact sum; an exact zero sum is +0 unless both operands are negative zeros (Table NUM-4). -/
def FVal.add : FVal → FVal → FVal
  | .nan, _ => .nan
  | _, .nan => .nan
  | .inf a, .inf b => if a = b then .inf a else .nan
  | .inf a, _ => .inf a
  | _, .inf b => .inf b
  | .fin na a ea, .fin nb b eb =>
    let e := min ea eb
    let s := smant na a * 2 ^ (ea - e).toNat + smant nb b * 2 ^ (eb - e).toNat
    if s = 0 then .fin (na && nb && a == 0 && b == 0) 0 e else .fin (decide (s < 0)) s.natAbs e

/-- Exact product. -/
def FVal.mul : FVal → FVal → FVal
  | .nan, _ => .nan
  | _, .nan => .nan
  | .inf a, .inf b => .inf (a != b)
  | .inf a, .fin nb b _ => if b = 0 then .nan else .inf (a != nb)
  | .fin na a _, .inf b => if a = 0 then .nan else .inf (na != b)
  | .fin na a ea, .fin nb b eb => .fin (na != nb) (a * b) (ea + eb)

/-- The value is zero. -/
def FVal.isZero : FVal → Bool
  | .fin _ m _ => m == 0
  | _ => false

/-- a < b, for values that are not NaN. -/
def FVal.lt : FVal → FVal → Bool
  | .nan, _ => false
  | _, .nan => false
  | .inf a, .inf b => a && !b
  | .inf a, _ => a
  | _, .inf b => !b
  | .fin na a ea, .fin nb b eb =>
    let e := min ea eb
    decide (smant na a * 2 ^ (ea - e).toNat < smant nb b * 2 ^ (eb - e).toNat)

/-- a = b as numbers. -/
def FVal.eqv (a b : FVal) : Bool :=
  match a, b with
  | .nan, _ => false
  | _, .nan => false
  | .inf x, .inf y => x == y
  | .inf _, _ => false
  | _, .inf _ => false
  | .fin _ _ _, .fin _ _ _ => !a.lt b && !b.lt a

/-- The larger and the smaller of two values; NaN if either is; MAX of zeros is +0 and MIN is −0 (Table NUM-4). -/
def FVal.max (a b : FVal) : FVal :=
  match a, b with
  | .nan, _ => .nan
  | _, .nan => .nan
  | _, _ => if a.lt b then b else if b.lt a then a else if a.neg then b else a
def FVal.min (a b : FVal) : FVal :=
  match a, b with
  | .nan, _ => .nan
  | _, .nan => .nan
  | _, _ => if a.lt b then a else if b.lt a then b else if a.neg then a else b

/-- FP32 arithmetic on encodings, rounded once. -/
def f32add (a b : Nat) : Nat := FFmt.fp32.encode ((FFmt.fp32.decode a).add (FFmt.fp32.decode b))
def f32sub (a b : Nat) : Nat := FFmt.fp32.encode ((FFmt.fp32.decode a).add (FFmt.fp32.decode b).negate)
def f32mul (a b : Nat) : Nat := FFmt.fp32.encode ((FFmt.fp32.decode a).mul (FFmt.fp32.decode b))

/-- One format's encoding in another (R335): widening is exact. -/
def FFmt.convert (f g : FFmt) (n : Nat) : Nat := g.encode (f.decode n)

/-- An integer as FP32. -/
def f32ofInt (v : Int) : Nat := FFmt.fp32.round (decide (v < 0)) v.natAbs 0

/-- FP32 to INT32, ties to even, saturating; NaN gives 0 (Table NUM-4). -/
def f32toInt32 (n : Nat) : Nat :=
  match FFmt.fp32.decode n with
  | .nan => 0
  | .inf neg => if neg then 2 ^ 31 else 2 ^ 31 - 1
  | .fin neg m e => satSigned 32 (smant neg (rneAt m e 0))

/-! ### Quotients and roots, correctly rounded -/

/-- The quotient num ÷ den as m × 2^e with at least 60 significant bits and a sticky bit. -/
def quotient (num den : Nat) : Nat × Int :=
  let k := 64 + Nat.log2 den
  let q := num * 2 ^ k / den
  (2 * q + (if num * 2 ^ k % den = 0 then 0 else 1), -(k : Int) - 1)

/-- Integer square root, one bit at a time from bit `k` − 1 down. -/
def isqrtBits (n : Nat) : Nat → Nat → Nat
  | 0, r => r
  | k + 1, r => isqrtBits n k (if (r + 2 ^ k) * (r + 2 ^ k) ≤ n then r + 2 ^ k else r)

/-- Integer square root. -/
def isqrt (n : Nat) : Nat := isqrtBits n (Nat.log2 n / 2 + 1) 0

/-- The root of m × 2^e as a mantissa and exponent with a sticky bit. -/
def rootOf (m : Nat) (e : Int) : Nat × Int :=
  let (m, e) := if e % 2 = 0 then (m, e) else (2 * m, e - 1)
  let n := m * 2 ^ 128
  let r := isqrt n
  (2 * r + (if r * r = n then 0 else 1), (e - 128) / 2 - 1)

/-! ### Approximations of known accuracy (Table NCO-9) -/

/-- Fixed-point values below have 96 fraction bits. -/
abbrev fixOne : Nat := 2 ^ 96

/-- ln 2 with 96 fraction bits. -/
def ln2Fix : Nat := 54916777467707473351141471128

/-- e^x for 0 ≤ x < 1 by its series, `n` further terms, the present term `t`. -/
def expSeries (x : Nat) : Nat → Nat → Nat → Nat
  | 0, _, t => t
  | n + 1, k, t => t + expSeries x n (k + 1) (t * x / fixOne / k)

/-- 2^x for x = v ÷ 2^96, as a mantissa with 96 fraction bits and a power of two. -/
def exp2Fix (v : Int) : Nat × Int :=
  let n := v / fixOne
  let f := (v - n * fixOne).toNat
  (expSeries (f * ln2Fix / fixOne) 30 1 fixOne, n)

/-- The fraction bits of log₂ m for m in [1, 2), by repeated squaring. -/
def log2Bits (m : Nat) : Nat → Nat → Nat
  | 0, acc => acc
  | n + 1, acc =>
    let q := m * m / fixOne
    if q ≥ 2 * fixOne then log2Bits (q / 2) n (2 * acc + 1) else log2Bits q n (2 * acc)

/-- log₂(m × 2^e) with 80 fraction bits. -/
def log2Fix (m : Nat) (e : Int) : Int :=
  let l := Nat.log2 m
  (e + l) * 2 ^ 80 + (log2Bits (m * fixOne / 2 ^ l) 80 0 : Nat)

/-- A value as fixed point with 96 fraction bits, rounded down in magnitude. -/
def toFix (neg : Bool) (m : Nat) (e : Int) : Int :=
  smant neg (if -96 ≤ e then m * 2 ^ (e + 96).toNat else m / 2 ^ (-96 - e).toNat)

/-- The magnitude of a candidate with encoding `c` differs from m × 2^e by at most `u` ulp of the exact value and 2^−150, or by
2^−`abs`. -/
def within (c m : Nat) (e : Int) (u : Nat) (abs : Option Nat) : Bool :=
  match FFmt.fp32.decode c with
  | .fin _ mc ec =>
    let q := min (min e ec) (-200)
    let x := (m : Int) * 2 ^ (e - q).toNat
    let y := (mc : Int) * 2 ^ (ec - q).toNat
    let ulp : Int := max ((Nat.log2 m : Int) + e - 23) (-149)
    let bound : Int := (u : Int) * 2 ^ (ulp - q).toNat + 2 ^ (-150 - q).toNat
    let bound := match abs with
      | some a => max bound (2 ^ (-(a : Int) - q).toNat)
      | none => bound
    decide ((x - y).natAbs ≤ bound.natAbs)
  | _ => false

/-- The result of an approximated operation whose exact magnitude is m × 2^e: the unit's own value where it keeps the accuracy of
Table NCO-9, else the nearest FP32 value. -/
def approx (op a : Nat) (neg : Bool) (m : Nat) (e : Int) (u : Nat) (abs : Option Nat) : Nat :=
  let c := Config.vectorApprox op a
  if c < 2 ^ 32 ∧ (FFmt.fp32.decode c).neg = neg ∧ within c m e u abs then c else FFmt.fp32.round neg m e

/-- RCP. -/
def f32rcp (a : Nat) : Nat :=
  match FFmt.fp32.decode a with
  | .nan => FFmt.fp32.nan
  | .inf n => FFmt.fp32.round n 0 0
  | .fin n m e =>
    if m = 0 then FFmt.fp32.encode (.inf n)
    else let (q, k) := quotient 1 m
         approx 0x0C a n q (k - e) 1 none

/-- SQRT, correctly rounded. -/
def f32sqrt (a : Nat) : Nat :=
  match FFmt.fp32.decode a with
  | .nan => FFmt.fp32.nan
  | .inf n => if n then FFmt.fp32.nan else FFmt.fp32.inf
  | .fin n m e =>
    if m = 0 then FFmt.fp32.round n 0 0
    else if n then FFmt.fp32.nan
    else let (r, k) := rootOf m e
         FFmt.fp32.round false r k

/-- RSQRT. -/
def f32rsqrt (a : Nat) : Nat :=
  match FFmt.fp32.decode a with
  | .nan => FFmt.fp32.nan
  | .inf n => if n then FFmt.fp32.nan else 0
  | .fin n m e =>
    if m = 0 then FFmt.fp32.encode (.inf n)
    else if n then FFmt.fp32.nan
    else
      let (r, k) := rootOf m e
      let (q, j) := quotient 1 r
      approx 0x0D a false q (j - k) 1 none

/-- EXP2. -/
def f32exp2 (a : Nat) : Nat :=
  match FFmt.fp32.decode a with
  | .nan => FFmt.fp32.nan
  | .inf n => if n then 0 else FFmt.fp32.inf
  | .fin n m e =>
    let v := toFix n m e
    if v ≥ 128 * fixOne then FFmt.fp32.inf
    else if v < -(150 * fixOne) then 0
    else let (t, k) := exp2Fix v
         approx 0x0F a false t (k - 96) 2 none

/-- LOG2: within 2 ulp, and within 2^−22 absolute for operands from 0.5 to 2. -/
def f32log2 (a : Nat) : Nat :=
  match FFmt.fp32.decode a with
  | .nan => FFmt.fp32.nan
  | .inf n => if n then FFmt.fp32.nan else FFmt.fp32.inf
  | .fin n m e =>
    if m = 0 then FFmt.fp32.encode (.inf true)
    else if n then FFmt.fp32.nan
    else
      let v := log2Fix m e
      let near := FVal.lt (.fin false m e) (.fin false 1 (-1)) = false && FVal.lt (.fin false 1 1) (.fin false m e) = false
      if v = 0 then 0 else approx 0x10 a (decide (v < 0)) v.natAbs (-80) 2 (if near then some 22 else none)

/-- e^x for x = v ÷ 2^96 as a mantissa with 96 fraction bits and a power of two: 2^(x ÷ ln 2). -/
def expFix (v : Int) : Nat × Int :=
  let t := v * fixOne / ln2Fix
  exp2Fix t

/-- TANH, by 1 − 2 ÷ (e^(2|x|) + 1); below 2^−30 the value is |x| itself to within the accuracy given. -/
def f32tanh (a : Nat) : Nat :=
  match FFmt.fp32.decode a with
  | .nan => FFmt.fp32.nan
  | .inf n => FFmt.fp32.round n 1 0
  | .fin n m e =>
    if m = 0 then FFmt.fp32.round n 0 0
    else
      let v := (toFix false m e).toNat
      if v < 2 ^ 66 then approx 0x11 a n m e 3 (some 23)
      else if v ≥ 40 * fixOne then approx 0x11 a n 1 0 3 (some 23)
      else
        let (t, k) := expFix (2 * v)
        let d := t * 2 ^ k.toNat + fixOne
        approx 0x11 a n (fixOne - 2 * fixOne * fixOne / d) (-96) 3 (some 23)

/-- SIGMOID, 1 ÷ (1 + e^−a). -/
def f32sigmoid (a : Nat) : Nat :=
  match FFmt.fp32.decode a with
  | .nan => FFmt.fp32.nan
  | .inf n => if n then 0 else FFmt.fp32.round false 1 0
  | .fin n m e =>
    let v := toFix n m e
    if v ≥ 60 * fixOne then approx 0x12 a false 1 0 3 (some 23)
    else if v ≤ -(200 * fixOne) then approx 0x12 a false 0 0 3 (some 23)
    else
      let (t, k) := expFix v
      let (p, j) : Nat × Int := if 0 ≤ k then (t * 2 ^ k.toNat, -96) else (t, k - 96)
      -- e^a ÷ (1 + e^a)
      let den := p + 2 ^ (-j).toNat
      let (q, i) := quotient p den
      approx 0x12 a false q i 3 (some 23)

/-! ### MX elements (R323–R326) -/

/-- An MX element format. -/
structure MxFmt where
  width : Nat
  eb : Nat
  mb : Nat
  bias : Int
  deriving DecidableEq, Repr

/-- The MX floating-point formats of Table NUM-2. -/
def mxFmt : Nat → Option MxFmt
  | 0x4 => some ⟨8, 4, 3, 7⟩
  | 0x5 => some ⟨8, 5, 2, 15⟩
  | 0x6 => some ⟨6, 3, 2, 3⟩
  | 0x7 => some ⟨6, 2, 3, 1⟩
  | 0x8 => some ⟨4, 2, 1, 1⟩
  | _ => none

/-- An element is NaN or infinite. -/
def mxSpecial (code v : Nat) : Bool :=
  match code with
  | 0x4 => v % 128 == 127
  | 0x5 => v % 128 ≥ 0x7C
  | _ => false

/-- The element integer of an MX element (R326): NaN and infinite elements take 0. -/
def mxInt (code v : Nat) : Int :=
  match mxFmt code with
  | some f =>
    if mxSpecial code v then 0
    else
      let ex := bits v f.mb f.eb
      let m := bits v 0 f.mb
      smant (testBit v (f.eb + f.mb)) (if ex = 0 then m else (2 ^ f.mb + m) * 2 ^ (ex - 1))
  | none => if code = 0x9 then signed 8 v else 0

/-- The exponent k of Table NUM-3. -/
def mxK (code : Nat) : Int :=
  match mxFmt code with
  | some f => 1 - f.bias - f.mb
  | none => -6

/-- An element with its scale byte as FP32 (R336). -/
def mxToF32 (code v x : Nat) : Nat :=
  if x = 0xFF ∨ mxSpecial code v then FFmt.fp32.nan
  else
    let n := mxInt code v
    FFmt.fp32.round (if n = 0 then testBit v 7 && code != 0x9 else decide (n < 0)) n.natAbs (mxK code + x - 127)

/-! ### Writing MX formats (R332–R334) -/

/-- Largest exponent and largest magnitude (in units of 2^k) of a format that is written. -/
def mxEmax : Nat → Int
  | 0x4 => 8
  | 0x5 => 15
  | _ => 0
def mxLargest : Nat → Nat
  | 0x4 => 229376
  | 0x5 => 3758096384
  | _ => 127

/-- The magnitude a × 2^(127 − x), rounded to the format's grid (in units of 2^k), without saturation (R333). -/
def mxRound (code m : Nat) (e : Int) (x : Nat) : Nat :=
  let e' := e + 127 - x
  let k := mxK code
  if m = 0 then 0
  else match mxFmt code with
    | some f =>
      let q := max ((Nat.log2 m : Int) + e' - f.mb) k
      rneAt m e' q * 2 ^ (q - k).toNat
    | none => rneAt m e' k

/-- The scale byte of a block of FP32 values (R332). -/
def mxScale (code : Nat) (v : List Nat) : Nat :=
  let vals := v.map FFmt.fp32.decode
  if vals.any (fun x => match x with | .fin _ _ _ => false | _ => true) then 0xFF
  else
    let top := vals.foldl (fun a x => let y := match x with | .fin _ m e => FVal.fin false m e | z => z
                                      if a.lt y then y else a) (.fin false 0 0)
    match top with
    | .fin _ m e =>
      if m = 0 then 0
      else
        let x0 := (Nat.log2 m : Int) + e - mxEmax code + 127
        let x := if x0 < 0 then 0 else if x0 > 254 then 254 else x0.toNat
        if x < 254 ∧ mxRound code m e x > mxLargest code then x + 1 else x
    | _ => 0xFF

/-- The encoding of a magnitude on a format's grid with a sign (R333). -/
def mxEncode (code : Nat) (neg : Bool) (n : Nat) : Nat :=
  let n := cap (mxLargest code) n
  match mxFmt code with
  | some f =>
    let sg := if neg then 2 ^ (f.eb + f.mb) else 0
    if n < 2 ^ f.mb then sg + n
    else let l := Nat.log2 n - f.mb
         sg + (l + 1) * 2 ^ f.mb + (n / 2 ^ l - 2 ^ f.mb)
  | none => if neg then (256 - n) % 256 else n

/-- A block of FP32 values as elements with their scale byte first (R332–R334). -/
def mxQuantise (code : Nat) (v : List Nat) : Nat × List Nat :=
  let x := mxScale code v
  (x, v.map (fun a => if x = 0xFF then 0 else
    match FFmt.fp32.decode a with
    | .fin neg m e => mxEncode code neg (mxRound code m e x)
    | _ => 0))

end Sys2Proof.Machine
end

