-- ==== Sys2Proof/Machine/Dram.lean ====
section
/-! DEFINITION. The LPDDR5X controllers (chapter 15): reads, writes and merges, the patrol, retirement to the spare pool,
calibration, refresh and self-refresh. -/

namespace Sys2Proof.Machine

open Sys2Proof

/-! ### Slices and places (R392–R396) -/

/-- Physical slices of a package, and the first of the spare pool (R392, R394). -/
def slicesAll : Nat := 1864135
def slicesMain : Nat := 1835008

/-- The physical slice that holds a frame. -/
def MemCtl.slice (c : MemCtl) (frame : Nat) : Nat := ((c.remap.find? (fun (p : Nat × Nat) => p.1 == frame)).map (·.2)).getD frame

/-- The frame that a physical slice holds, if any. -/
def MemCtl.frame (c : MemCtl) (slice : Nat) : Option Nat :=
  match c.remap.find? (fun (p : Nat × Nat) => p.2 == slice) with
  | some p => some p.1
  | none => if slice < slicesMain ∧ (c.remap.any (fun (p : Nat × Nat) => p.1 == slice)) = false then some slice else none

/-- The module address of codeword j of data burst m of group g of a frame, by Table DRM-1. -/
def dramAddr (d k frame g m j : Nat) : Nat := dramBase d + frame * 65536 + g * 8192 + k * 1024 + m * 128 + j * 16

/-- The lowest free slice of the pool at or after n (R407). -/
def MemCtl.freeFrom (c : MemCtl) : Nat → Nat → Option Nat
  | 0, _ => none
  | k + 1, n =>
    if c.unusable.contains n || (c.remap.any (fun (p : Nat × Nat) => p.2 == n)) then c.freeFrom k (n + 1) else some n

/-- The lowest-numbered free slice. -/
def MemCtl.free (c : MemCtl) : Option Nat := c.freeFrom (slicesAll - slicesMain) slicesMain

/-! ### What is queued -/

/-- A slice is queued for retirement once. -/
def State.queueSlice (s : State) (d k slice : Nat) : State :=
  if (s.ctl d k).queue.contains slice || (s.ctl d k).unusable.contains slice then s
  else s.modCtl d k (fun c => { c with queue := c.queue ++ [slice] })

/-! ### Reads, writes and merges (R398–R403) -/

/-- What the decoder finds in a codeword: the symbols that its check bits show wrong, beside what the command says of it (R395). -/
def State.eccOf (s : State) (a : Nat) (e : Ecc) : Ecc :=
  let m := Map.get 0 s.upsets (a / 16)
  if m = 0 then e
  else if manyWrong m || e != .clean then .uncorrectable
  else .corrected (firstWrong m % 32) (decide (32 ≤ firstWrong m))

/-- One codeword of a read: what is delivered, and what is counted. -/
def State.readWord (s : State) (d k a : Nat) (e : Ecc) : State × (List Byte × Bool) :=
  let data := s.bytesAt a 16
  if (s.ctl d k).failed then (s.bumpF d .memEcc_uncorrectable k, (data, true))
  else if s.poison.contains (a / 16) then (s.dramPoison d k a, (data, true))
  else match s.eccOf a e with
    | .clean => (s, (data, false))
    | .corrected sym chk => (s.dramCorrected d k a sym chk, (data, false))
    | .uncorrectable => (s.dramLost d k a, (data, true))

/-- A burst as it is answered: its two halves of 64 bytes with the marks of their codewords. -/
def burstAnswer (l : List (List Byte × Bool)) : List (List Byte × BitVec 4) :=
  let half (l : List (List Byte × Bool)) : List Byte × BitVec 4 :=
    ((l.map (·.1)).flatten, BitVec.ofNat 4 ((List.range 4).foldl (fun n i => n + bit (l.getD i ([], false)).2 * 2 ^ i) 0))
  [half (l.take 4), half (l.drop 4)]

/-- A request for DRAM at an address: one of another die's DRAM does not come to this die's controllers; a reserved address is the
host's error (R28). -/
def State.dramAt (s : State) (d addr : Nat) (f : Nat → Result State) : Result State :=
  match s.region addr with
  | .dram e off => if e = d then f (dramCtl off) else .next s
  | .reserved => s.noPlace addr hostErr
  | _ => .next s

/-- DRAM_READ: a data burst is read, each of its eight codewords corrected or poisoned; `obs` is what the decoder shows.  A die in restart
answers poison (R475); a controller in self-refresh holds the request (R415). -/
def execDramRead (d addr : Nat) (obs : List Ecc) (s : State) : Result State :=
  s.dramAt d addr (fun k =>
    let base := addr - addr % 128
    if (s.die d).restart.isSome then
      let marked := burstAnswer ((List.range 8).map (fun i => (s.bytesAt (base + 16 * i) 16, true)))
      .next { s with out := { s.out with remote := s.out.remote ++ marked } }
    else if !s.dieUp d || (s.ctl d k).selfRefresh then .next s
    else
      let r := (List.range 8).foldl (fun (x : State × List (List Byte × Bool)) i =>
        let q := x.1.readWord d k (base + 16 * i) (obs.getD i .clean)
        (q.1, x.2 ++ [q.2])) (s.countSlots base 128 false, [])
      .next { r.1 with out := { r.1.out with remote := r.1.out.remote ++ burstAnswer r.2 } })

/-- DRAM_WRITE: a write of whole codewords is accepted and is visible from then on; poisoned data store the poison pattern, a write into a
locked range is discarded, and a codeword that is not covered whole is merged (R399, R401, R403). -/
def execDramWrite (d addr : Nat) (data : List Byte) (poison : Bool) (s : State) : Result State :=
  if s.frz.stopped then .next s else
  s.dramAt d addr (fun _ => .next (s.write addr data poison))

/-- DRAM_MERGE: a write narrower than a codeword, or an addition, is one atomic read-modify-write of its codeword (R399, R290); one that is
not aligned to its element is the host's error (R290). -/
def execDramMerge (d addr : Nat) (m : MergeOp) (s : State) : Result State :=
  if s.frz.stopped then .next s else
  s.dramAt d addr (fun _ =>
    let word (o : Nat) : Nat := s.memLE (addr + o) 4
    match m with
    | .bytes o l => .next (s.write (addr + o) l)
    | .addF32 o v => if (addr + o) % 4 = 0 then .next (s.write (addr + o) (toLE 4 (f32add (word o) v.toNat))) else hostErr s 290
    | .addI32 o v => if (addr + o) % 4 = 0 then .next (s.write (addr + o) (toLE 4 ((word o + v.toNat) % 2 ^ 32))) else hostErr s 290)

/-! ### Patrol (R404–R406) -/

/-- A pin's corrections reach 256 in a pass: it is declared failed and reported (R406). -/
def State.pinFailed (s : State) (d k pin : Nat) : State :=
  let f : Fld := if pin < 32 then .memPin_failed_lo else .memPinHi_failed_hi
  let w := s.getF d f k
  if testBit w (pin % 32) then s else (s.setF d f (w + 2 ^ (pin % 32)) k).raise 0x0901 pin d k

/-- The pin is declared failed. -/
def State.pinBad (s : State) (d k pin : Nat) : Bool :=
  testBit (s.getF d (if pin < 32 then Fld.memPin_failed_lo else .memPinHi_failed_hi) k) (pin % 32)

/-- The patrol's look at one codeword of its burst; a slice that holds no frame has no address. -/
def State.dramPatrolWord (s : State) (d k slice n j : Nat) (e : Ecc) : State :=
  let key := slice * 512 + n * 8 + j
  let m := n % 8
  let addr := ((s.ctl d k).frame slice).map (fun f => dramAddr d k f (n / 8) m j)
  let look : Ecc := match addr with
    | some a => s.eccOf a e
    | none => e
  match addr with
  | some a =>
    if s.poison.contains (a / 16) then s.dramPoison d k a
    else go look a key m
  | none => go look 0 key m
where
  /-- What a codeword that is not poisoned calls for. -/
  go (e : Ecc) (a key m : Nat) : State :=
    match e with
    | .clean => s.modCtl d k (fun c => { c with seen := Map.erase c.seen key })
    | .corrected sym chk =>
      let pin := dramPin m j sym chk
      let mark := sym % 32 + 32 * bit chk + 1
      let again := Map.get 0 (s.ctl d k).seen key = mark
      let s1 := ((s.bumpF d .memEcc_corrected k).latchMem d k a pin (j / 2) (bit chk) 1).modCtl d k (fun c => { c with
        fix := c.fix ++ [key], seen := Map.set 0 c.seen key mark, pinCount := Map.modify 0 c.pinCount pin (· + 1) })
      let s2 := if 256 ≤ Map.get 0 (s1.ctl d k).pinCount pin then s1.pinFailed d k pin else s1
      let s3 := s2.modCtl d k (fun c => { c with sliceCount := c.sliceCount + 1 })
      if s3.pinBad d k pin then s3
      else if again ∨ 32 < (s3.ctl d k).sliceCount then s3.queueSlice d k slice else s3
    | .uncorrectable =>
      match (s.ctl d k).frame slice with
      | some _ => ((s.dramLost d k a).queueSlice d k slice).setPoison a true
      | none => (((s.bumpF d .memEcc_uncorrectable k).latchMem d k a 0 (j / 2) 0 2).queueSlice d k slice).countPair d k (j % 2)

/-- The address of a codeword by its place in the package; none in a slice that holds no frame. -/
def MemCtl.address (c : MemCtl) (d k key : Nat) : Option Nat :=
  (c.frame (key / 512)).map (fun f => dramAddr d k f (key % 512 / 64) (key % 64 / 8) (key % 8))

/-- DRAM_PATROL: the controller's patrol writes back the codewords it has corrected, or reads its next burst, with the check burst of a
group for its first (R404, R405). -/
def execDramPatrol (d k : Nat) (obs : List Ecc) (s : State) : Result State :=
  if !s.dieUp d || decide (8 ≤ k) || (s.ctl d k).selfRefresh || (s.ctl d k).failed then .next s
  else
    let c := s.ctl d k
    if c.fix ≠ [] then
      let t := (s.addFrame d .memLoad_maint 1024 1 k).modCtl d k (fun c => { c with fix := [] })
      let mended (m : Map Nat) (key : Nat) : Map Nat := match c.address d k key with
        | some a => if manyWrong (Map.get 0 m (a / 16)) then m else Map.erase m (a / 16)
        | none => m
      .next { t with upsets := c.fix.foldl mended t.upsets }
    else
      let slice := c.patrol / 64
      let n := c.patrol % 64
      let s0 := s.addFrame d .memLoad_maint 1024 (if n % 8 = 0 then 2 else 1) k
      let s1 := if n = 0 then s0.modCtl d k (fun c => { c with sliceCount := 0 }) else s0
      let s2 := (List.range 8).foldl (fun (x : State) j => x.dramPatrolWord d k slice n j (obs.getD j .clean)) s1
      let wrap := decide (c.patrol + 1 = slicesAll * 64)
      let s3 := s2.modCtl d k (fun c => { c with patrol := if wrap then 0 else c.patrol + 1,
                                                 pinCount := if wrap then [] else c.pinCount })
      .next ((if wrap then s3.bumpF d .memPatrol_passes k else s3).ctlRegs d k)

/-! ### Retirement (R407–R409) -/

/-- The copy of a frame's slice: each codeword as it reads: corrected, or poisoned (R407). -/
def State.copied (s : State) (d k frame : Nat) : State :=
  let mine := s.upsets.filter (fun (p : Nat × Nat) => match s.region (16 * p.1) with
    | .dram e o => e == d && dramCtl o == k && o / 65536 == frame
    | _ => false)
  mine.foldl (fun (s : State) p => (s.countUpset p.1 p.2).setPoison (16 * p.1) (manyWrong p.2)) s

/-- DRAM_RETIRE: the oldest queued slice is retired: its data go to the lowest free slice of the pool and the remap entry takes effect; a
slice of the pool that held nothing is only marked unusable.  With no slice free it stays in service, which is a doubt. -/
def execDramRetire (d k : Nat) (s : State) : Result State :=
  if !s.dieUp d || decide (8 ≤ k) || (s.ctl d k).selfRefresh then .next s
  else
    let c := s.ctl d k
    match c.queue with
    | [] => .next s
    | p :: rest =>
      match c.frame p with
      | none => .next ((s.modCtl d k (fun c => { c with queue := rest, unusable := setInsert p c.unusable })).ctlRegs d k)
      | some f =>
        match c.free with
        | none =>
          if s.getF d .memStatus_exhausted k = 1 then .next s
          else .next ((s.setF d .memStatus_exhausted 1 k).doubt dSPARES d s.frame k)
        | some q =>
          let s1 := s.modCtl d k (fun c => { c with
            queue := rest, remap := Map.put c.remap f q,
            unusable := if slicesMain ≤ p then setInsert p c.unusable else c.unusable })
          .next (((((s1.copied d k f).bumpF d .memRetire_retired k).addFrame d .memLoad_maint 1024 144 k).owesRecord d
            (repairRecord 3 d k f q)).ctlRegs d k)

/-! ### Refresh and calibration (R410–R414) -/

/-- DRAM_REFRESH: refresh takes burst slots: how many is a free value, at most 3 % of the slots since the refresh before it, 6 % at 85 °C
or above (R410; log entry 93). -/
def execDramRefresh (d k : Nat) (s : State) : Result State :=
  if !s.dieUp d || decide (8 ≤ k) || (s.ctl d k).selfRefresh then .next s
  else
    let (n, s1) := s.free
    let most := (s.deviceTime - (s.ctl d k).refreshDt) / 2 * (if 85 ≤ (s.ctl d k).temp then 6 else 3) / 100
    .next ((s1.addFrame d .memLoad_maint 1024 (n % (most + 1)) k).modCtl d k (fun c => { c with refreshDt := s.deviceTime }))

/-- A calibration becomes due. -/
def State.calDue (s : State) (d k : Nat) : State :=
  if (s.ctl d k).due then s
  else (s.modCtl d k (fun c => { c with due := true, dueDt := s.deviceTime })).ctlRegs d k

/-- DRAM_TEMP_READ: the package's temperature is read; a move of more than 10 °C since the last calibration makes one due. -/
def execDramTempRead (d k : Nat) (temp : BitVec 8) (s : State) : Result State :=
  if !s.dieUp d || decide (8 ≤ k) then .next s
  else
    let s1 := (s.modCtl d k (fun c => { c with temp := temp.toInt })).ctlRegs d k
    .next (if 10 < (temp.toInt - (s1.ctl d k).calTemp).natAbs then s1.calDue d k else s1)

/-- CALIBRATION_DUE: 32 ms have passed since the last calibration (R411). -/
def execCalibrationDue (d k : Nat) (s : State) : Result State :=
  if !s.dieUp d || decide (8 ≤ k) || decide (s.deviceTime < (s.ctl d k).lastCalDt + 28800000) then .next s
  else .next (s.calDue d k)

/-- A calibration has run, and its pair trained or not; the longest deferral is kept in ms. -/
def State.calibrated (s : State) (d k slots : Nat) (pass : Bool) : State :=
  let c := s.ctl d k
  let s1 := ((s.modCtl d k (fun c => { c with due := false, lastCalDt := s.deviceTime, calTemp := c.temp })).peakF d
    .memCal_deferred ((s.deviceTime - c.dueDt) / 900000) k).addFrame d .memLoad_maint 1024 slots k
  (if pass then s1 else s1.pairFailed d k).ctlRegs d k

/-- The bounds of quiet window w of a die in arithmetic cycles after the frame start; none where it is unused (R412, R553). -/
def State.quietWindow (s : State) (d w : Nat) : Option (Nat × Nat) :=
  let o := s.cad secPOWER (0x100 + 64 * d + 4 * w) 2
  let c := s.cad secPOWER (0x100 + 64 * d + 4 * w + 2) 2
  if o = 0 ∧ c = 0 then none else some (1024 * o, 1024 * c)

/-- The cycles a calibration may stall its package: 2 µs. -/
def calCycles : Nat := 1800

/-- QUIET_WINDOW_OPEN: a due calibration runs at the start of a quiet window that it can finish in (R412). -/
def execQuietWindowOpen (d k w : Nat) (pass : Bool) (s : State) : Result State :=
  match s.quietWindow d w with
  | none => .next s
  | some (o, c) =>
    let start := s.root.startDt
    if !s.dieUp d || decide (8 ≤ k ∨ 4 ≤ w) || !(s.ctl d k).due || (s.ctl d k).selfRefresh ||
        decide (s.deviceTime < start + o ∨ start + c < s.deviceTime + calCycles) then .next s
    else
      let (n, s1) := s.free
      .next (s1.calibrated d k (n % (calCycles / 2 + 1)) pass)

/-- CALIBRATION_FORCED: a calibration due for 100 ms is forced; it is counted, and its stall of at most 2 µs is recorded (R413). -/
def execCalibrationForced (d k stallNs : Nat) (pass : Bool) (s : State) : Result State :=
  if !s.dieUp d || decide (8 ≤ k) || !(s.ctl d k).due || (s.ctl d k).selfRefresh ||
      decide (s.deviceTime < (s.ctl d k).dueDt + 90000000) then .next s
  else
    let ns := cap 2000 stallNs
    .next (((s.calibrated d k (ns * 9 / 20) pass).bumpF d .memCal_forced k).raise 0x0900 ns d k)

/-! ### Self-refresh (R415, R416) -/

/-- SELF_REFRESH_ENTER: a die restart, a warm restart or a freeze has asked for it. -/
def execSelfRefreshEnter (d k : Nat) (s : State) : Result State :=
  if decide (s.nDies ≤ d ∨ 8 ≤ k) || ((s.die d).restart.isNone && !s.frz.stopped && !s.frz.requested) then .next s
  else .next ((s.modCtl d k (fun c => { c with selfRefresh := true })).ctlRegs d k)

/-- The writes that wait in the mesh for a controller reach it in turn (R572). -/
def State.fromMesh (s : State) (d k : Nat) : State :=
  let mine (x : Nat × List Byte × Bool) : Bool := match s.region x.1 with
    | .dram e o => e == d && dramCtl o == k
    | _ => false
  (s.frz.mesh.filter mine).foldl (fun (t : State) x => t.writeCode x.1 x.2.1 x.2.2)
    { s with frz := { s.frz with mesh := s.frz.mesh.filter (fun x => !mine x) } }

/-- SELF_REFRESH_EXIT: the package retrains and calibrates.  A pair that fails again at the restart that its first failure brought fails
the die (R397, R416). -/
def execSelfRefreshExit (d k : Nat) (pass : Bool) (s : State) : Result State :=
  if decide (s.nDies ≤ d ∨ 8 ≤ k) || !(s.ctl d k).selfRefresh || s.frz.requested then .next s
  else
    let again := (s.ctl d k).failed
    let s1 := s.modCtl d k (fun c => { c with
      selfRefresh := false, due := false, lastCalDt := s.deviceTime, calTemp := c.temp, uncorrectable := [] })
    if pass then .next (((s1.modCtl d k (fun c => { c with failed := false })).fromMesh d k).ctlRegs d k)
    else if again then .next ((s1.modDie d (fun x => { x with testFaults := setInsert k x.testFaults })).ctlRegs d k)
    else .next (s1.pairFailed d k)

end Sys2Proof.Machine
end

