-- ==== Sys2Proof/Machine/Operands.lean ====
section
/-! DEFINITION. Operand forms: tensor descriptors, their addresses and layouts, the granule moves that copies, gathers and
scatters are made of, and scatter-add (chapter 10). -/

namespace Sys2Proof.Machine

open Sys2Proof

/-! ### Descriptors (R266, Table TNS-1) -/

/-- A tensor descriptor. -/
structure TDesc where
  format : Nat
  layout : Nat
  rank : Nat
  border : Nat
  skew : Nat
  indexDim : Nat
  modules : Nat
  base : Nat
  isLocal : Bool
  scaleBase : Nat
  pad : Nat
  padScale : Nat
  extent : List Nat
  stride : List Int
  global : List Nat
  shard : List Nat
  deriving DecidableEq, Repr

/-- A descriptor read from its 128 bytes; `stride` has an entry for dimension 0, which is not used. -/
def TDesc.ofBytes (l : List Byte) : TDesc :=
  let n (o k : Nat) : Nat := leNat ((l.drop o).take k)
  { format := n 0 1, layout := n 1 1, rank := n 2 1, border := n 3 1, skew := n 4 1, indexDim := n 5 1,
    modules := n 6 1, base := n 8 8 % 2 ^ 40, isLocal := testBit (n 8 8) 63, scaleBase := n 0x10 8 % 2 ^ 40,
    pad := n 0x18 4, padScale := n 0x1B 1,
    extent := (List.range 6).map (fun k => n (0x20 + 4 * k) 4),
    stride := 0 :: (List.range 5).map (fun k => signed 32 (n (0x38 + 4 * k) 4)),
    global := (List.range 6).map (fun k => n (0x50 + 4 * k) 4),
    shard := (List.range 6).map (fun k => n (0x68 + 4 * k) 4) }

/-- The descriptor at an address. -/
def State.tdesc (s : State) (a : Nat) : TDesc := TDesc.ofBytes (s.read a 128)

/-- Bits per element (Table TNS-2). -/
def elemBits : Nat → Nat
  | 0x0 => 8
  | 0x1 | 0x2 | 0x3 | 0xA => 16
  | 0x4 | 0x5 | 0x9 => 8
  | 0x6 | 0x7 => 6
  | 0x8 => 4
  | 0xB | 0xC => 32
  | _ => 0

/-- A format has block scales. -/
def hasScale (f : Nat) : Bool := decide (4 ≤ f ∧ f ≤ 9)

/-- Bytes of one vector of 32 elements (R276). -/
def vecBytes (f : Nat) : Nat := elemBits f * 4

/-- Extent and stride of dimension k. -/
def TDesc.ext (d : TDesc) (k : Nat) : Nat := nth 1 d.extent k
def TDesc.str (d : TDesc) (k : Nat) : Int := nth 0 d.stride k

/-- 64-byte granules of one innermost run (R271). -/
def TDesc.runGranules (d : TDesc) : Nat := (d.ext 0 * elemBits d.format + 511) / 512

/-- Elements of K in one granule, scale granules of a group, and the group's footprint (Table TNS-4). -/
def opE : Nat → Nat
  | 0x8 => 128
  | 0x2 => 32
  | _ => 64
def opScales : Nat → Nat
  | 0x8 => 4
  | 0x2 => 0
  | _ => 2
def opGroup (f : Nat) : Nat := 4096 + 64 * opScales f

/-- A format and layout that Table TNS-2 allows together (R267). -/
def TDesc.formatOk (d : TDesc) : Bool :=
  decide (d.format ≤ 0xC) &&
  match d.layout with
  | 0 => decide (d.format < 4 ∨ 0xA ≤ d.format)
  | 1 => decide (d.format = 2 ∨ 4 ≤ d.format)
  | 2 => decide (d.format = 2 ∨ (4 ≤ d.format ∧ d.format ≤ 9))
  | _ => false

/-- What a layout asks of dimension 0 and of the outer strides (R276, R277). -/
def TDesc.layoutOk (d : TDesc) : Bool :=
  match d.layout with
  | 1 => d.ext 0 * elemBits d.format % 512 == 0 &&
      (!hasScale d.format || (List.range (d.rank - 1)).all (fun k => 64 * d.str (k + 1) % (vecBytes d.format : Int) == 0))
  | 2 => decide (2 ≤ d.rank) && d.ext 0 % opE d.format == 0 && decide (d.ext 1 ≤ 64) && d.str 1 == 0 && d.scaleBase == 0
  | _ => true

/-- A skewed descriptor meets the conditions of R282; the other codes of the field are reserved. -/
def TDesc.skewOk (d : TDesc) : Bool :=
  d.skew == 0 ||
    (d.skew == 1 && d.isLocal && decide (d.layout ≤ 1) && decide (2 ≤ d.rank) && d.str 1 != 0 && d.str 1 % 16 == 0)

/-- Dimension k of a descriptor is split over the dies, or over modules (Table TNS-5). -/
def TDesc.dieSplit (d : TDesc) (k : Nat) : Bool :=
  let w := nth 0 d.shard k
  (bits w 0 2 == 1 || bits w 0 2 == 2) && testBit w 2
def TDesc.moduleSplit (d : TDesc) (k : Nat) : Bool :=
  let w := nth 0 d.shard k
  (bits w 0 2 == 1 || bits w 0 2 == 2) && testBit w 3

/-- At most one dimension is split over each level, no reserved kind or level is named, and a local descriptor is not distributed (R278,
R280, R281). -/
def TDesc.shardOk (d : TDesc) : Bool :=
  let dims := List.range d.rank
  decide ((dims.filter d.dieSplit).length ≤ 1) && decide ((dims.filter d.moduleSplit).length ≤ 1) &&
    dims.all (fun k =>
      let w := nth 0 d.shard k
      bits w 0 2 == 0 || (bits w 0 2 != 3 && bits w 2 2 != 0 && !d.isLocal))

/-- A descriptor that the rules of chapter 10 allow; any other is an error of the host's own making (R266, R267, R271, R276, R277, R280–R282). -/
def TDesc.allowed (d : TDesc) : Bool :=
  decide (1 ≤ d.rank ∧ d.rank ≤ 6) && d.formatOk && d.layoutOk && d.skewOk && d.shardOk && d.base % 64 == 0 &&
    (List.range d.rank).all (fun k => decide (1 ≤ d.ext k))

/-! ### Addresses (R247, R269, R270, R282) -/

/-- Where a local descriptor's offsets lead: the core that runs the task and its relocation base row. -/
structure LocalAt where
  die : Nat
  core : Nat
  base : Nat
  deriving DecidableEq, Repr

/-- The physical address of a byte offset in a core's scratchpad, relocated. -/
def LocalAt.addr (p : LocalAt) (off : Nat) : Nat :=
  spdBase p.die p.core + ((p.base + off / 1024) % 384) * 1024 + off % 1024

/-- The byte address A of an outer index (i1, …), before locality (R269). -/
def TDesc.runBase (d : TDesc) (base : Nat) (idx : List Nat) : Int :=
  (List.range idx.length).foldl (fun a k => a + 64 * ((nth 0 idx k : Nat) : Int) * d.str (k + 1)) base

/-- Which memory an address of a tensor lies in: the backed part of a DRAM window, a commons, hub SRAM, or one scratchpad; none elsewhere
(R269). -/
def memoryOf (a : Nat) : Option Nat :=
  if a < 0x8000000000 then (if a % 0x2000000000 < 0x1C00000000 then some (a / 0x2000000000) else none)
  else if a < 0x8100000000 then
    let d := (a - 0x8000000000) / 0x40000000
    let o := (a - 0x8000000000) % 0x40000000
    if o < 0x01FFC000 then some (4 + d)
    else if 0x10000000 ≤ o ∧ o < 0x10000000 + 72 * 0x100000 ∧ o % 0x100000 < 0x60000 then
      some (8 + d * 72 + (o - 0x10000000) / 0x100000)
    else none
  else if 0xC000000000 ≤ a ∧ a < 0xC001000000 then some 1000
  else none

/-- An address that lies in no memory: what an address outside the memory of its base becomes, an error of the host's own making (R269). -/
def noAddress : Nat := 2 ^ 40

/-- The address that a descriptor's arithmetic forms from a base: of a local one, of that offset in its core's scratchpad; no memory's where it
leaves the memory that the base lies in (R269, R270). -/
def TDesc.place (d : TDesc) (p : LocalAt) (base : Nat) (a : Int) : Nat :=
  if d.isLocal then (if 0 ≤ a ∧ a < 0x60000 then p.addr a.toNat else noAddress)
  else if 0 ≤ a ∧ (memoryOf base).isSome ∧ memoryOf a.toNat = memoryOf base then a.toNat else noAddress

/-- The bank that a skewed descriptor gives an offset of index i1 in dimension 1 (R282). -/
def skewed (a : Int) (i1 : Nat) : Int := a - bits a.toNat 6 4 * 64 + ((bits a.toNat 6 4 + i1) % 16 : Nat) * 64

/-- The address of granule g of the run of an outer index, skewed if the descriptor is (R282). -/
def TDesc.granuleAddr (d : TDesc) (p : LocalAt) (base : Nat) (idx : List Nat) (g : Nat) : Nat :=
  let b := if d.isLocal then base % 2 ^ 19 else base
  let a := d.runBase b idx + 64 * g
  d.place p b (if d.skew = 1 then skewed a (nth 0 idx 0) else a)

/-- The address of a scale byte whose vector starts at byte offset δ from base (R276). -/
def TDesc.scaleAddr (d : TDesc) (p : LocalAt) (scaleBase : Nat) (δ : Int) : Nat :=
  let b := if d.isLocal then scaleBase % 2 ^ 19 else scaleBase
  d.place p b ((b : Int) + δ / (vecBytes d.format : Int))

/-- An index's digits over extents, first fastest. -/
def unrank : List Nat → Nat → List Nat
  | [], _ => []
  | e :: es, n => n % max e 1 :: unrank es (n / max e 1)

/-- Product of extents. -/
def prodOf (l : List Nat) : Nat := l.foldl (· * ·) 1

/-- Extents of dimensions 1 to rank − 1. -/
def TDesc.outer (d : TDesc) : List Nat := (List.range (d.rank - 1)).map (fun k => d.ext (k + 1))

/-- The least whole number of bytes that pad elements fill, filled with them: the pad value is the low bits of the field (R268, R274). -/
def TDesc.padUnit (d : TDesc) : List Byte :=
  match elemBits d.format with
  | 8 => toLE 1 d.pad
  | 16 => toLE 2 d.pad
  | 32 => toLE 4 d.pad
  | 4 => toLE 1 (d.pad % 16 * 17)
  | 6 => toLE 3 (d.pad % 64 * 266305)
  | _ => [0]

/-- The pad elements' bytes from byte `off` of a run on, n of them (R273, R274). -/
def TDesc.padBytes (d : TDesc) (off n : Nat) : List Byte :=
  let u := d.padUnit
  ((List.replicate (n / u.length + 2) u).flatten.drop (off % u.length)).take n

/-! ### Moves -/

/-- One destination granule of a transfer: where its bytes come from (none: `fill` alone), how many are read before the fill,
and the scale bytes that go with it. -/
structure Move where
  dst : Nat
  src : Option Nat
  len : Nat
  fill : List Byte
  sdst : Nat
  ssrc : Option Nat
  slen : Nat
  sfill : Nat
  deriving DecidableEq, Repr

/-- Whether what was moved carried poison, and whether any of it was poison without a restart tag (R243, R475). -/
structure Taint where
  poison : Bool
  hard : Bool
  deriving DecidableEq, Repr

/-- Both. -/
def Taint.or (a b : Taint) : Taint := ⟨a.poison || b.poison, a.hard || b.hard⟩

/-- No poison. -/
def Taint.none : Taint := ⟨false, false⟩

/-- The mark of reading n bytes. -/
def State.taintOf (s : State) (a n : Nat) : Taint := ⟨s.readPoison a n, s.readPoison a n && !s.tagged a⟩

/-- The addresses of a move, of data and of scales, lie in memory that a unit can reach (R27, R28). -/
def State.moveOk (s : State) (m : Move) : Bool :=
  s.dataAddr m.dst && !s.inStretch m.dst (m.len + m.fill.length) && (match m.src with | some a => s.dataAddr a | none => true) &&
    (m.slen == 0 || (s.dataAddr m.sdst && !s.inStretch m.sdst m.slen && (match m.ssrc with | some a => s.dataAddr a | none => true)))

/-- A granule can be moved by a unit of die d: no lost link lies on its way (R24). -/
def State.moveCarried (s : State) (d : Nat) (m : Move) : Bool :=
  s.carried d (s.homeDie m.dst) m.dst && (match m.src with | some a => s.canRead d a m.len | none => true) &&
    (m.slen == 0 || (s.carried d (s.homeDie m.sdst) m.sdst && (match m.ssrc with | some a => s.canRead d a m.slen | none => true)))

/-- Codewords read from an address with their poison, n bytes in all, granule by codeword. -/
def State.readMarked (s : State) (a n : Nat) : List (List Byte × Bool) :=
  (List.range ((n + 15) / 16)).map (fun k => (s.read (a + 16 * k) (min 16 (n - 16 * k)), s.readPoison (a + 16 * k) 16))

/-- Perform a move. -/
def State.doMove (s : State) (m : Move) : State × Taint :=
  let (s1, k1) : State × Taint := match m.src with
    | some a =>
      let whole := s.readMarked a m.len
      match m.fill with
      | [] => ((s.countReads a m.len).writeMarked m.dst whole, s.taintOf a m.len)
      | f =>
        -- the last codeword that holds data takes the pad behind them
        let bytes := s.read a m.len ++ f
        let marked := (List.range ((bytes.length + 15) / 16)).map (fun k =>
          ((bytes.drop (16 * k)).take 16, decide (16 * k < m.len) && s.readPoison (a + 16 * k) 16))
        ((s.countReads a m.len).writeMarked m.dst marked, s.taintOf a m.len)
    | none => (s.write m.dst m.fill, Taint.none)
  if m.slen = 0 then (s1, k1)
  else match m.ssrc with
    | some a =>
      let s2 := (List.range m.slen).foldl (fun (x : State) k =>
        x.write (m.sdst + k) (x.read (a + k) 1) (x.readPoison (a + k) 1)) (s1.countReads a m.slen)
      (s2, k1.or (s.taintOf a m.slen))
    | none => (s1.write m.sdst (List.replicate m.slen (BitVec.ofNat 8 m.sfill)), k1)

/-- Granules that a unit reads from or writes to a scratchpad pass its remote port, which counts them (R245, R262). -/
def State.countRemote (s : State) (a n : Nat) : State :=
  match s.region a with
  | .spd d c _ => if s.dieUp d then s.addFrame d .spdRemote_served 1024 ((a % 64 + n + 63) / 64) c else s
  | _ => s

/-- The read of a move passes the remote port of a scratchpad that holds its source. -/
def State.countSource (s : State) (m : Move) : State :=
  match m.src with
  | some a => s.countRemote a m.len
  | none => s

/-- Perform moves in order that land through their own port (R248). -/
def State.doMoves (s : State) (ms : List Move) : State × Taint :=
  ms.foldl (fun (x : State × Taint) m => let r := x.1.doMove m; (r.1.countSource m, x.2.or r.2)) (s, Taint.none)

/-! ### Tensor to tensor (R273, Table DMA-3 COPY, R286–R289) -/

/-- One side of a transfer: its descriptor, where local offsets lead, and its bases (moved to another die for a die-split
source). -/
structure Side where
  d : TDesc
  at_ : LocalAt
  base : Nat
  scaleBase : Nat
  deriving DecidableEq, Repr

/-- A side at its own bases. -/
def Side.of (d : TDesc) (p : LocalAt) : Side := ⟨d, p, d.base, d.scaleBase⟩

/-- The scale bytes of granule g of a run: the byte offset of their first vector and their number. -/
def scaleSpan (f g : Nat) : Nat × Nat :=
  let v := vecBytes f
  let lo := (64 * g + v - 1) / v
  let hi := (64 * (g + 1) + v - 1) / v
  (lo * v, hi - lo)

/-- The move of granule g of a run from index `si` of a source (none: its pad) to index `di` of a destination. -/
def runMove (src : Side) (si : Option (List Nat)) (dst : Side) (di : List Nat) (g : Nat) : Move :=
  let d := dst.d
  let bytes := d.ext 0 * elemBits d.format / 8
  let len := min 64 (bytes - 64 * g)
  let scaled := hasScale d.format && d.layout == 1
  let sp := scaleSpan d.format g
  let δ (s : Side) (i : List Nat) : Int := s.d.runBase s.base i - s.base + sp.1
  { dst := d.granuleAddr dst.at_ dst.base di g
    src := si.map (fun i => src.d.granuleAddr src.at_ src.base i g)
    len := if si.isSome then len else 0
    fill := if si.isSome then d.padBytes (64 * g + len) (64 - len)
      else src.d.padBytes (64 * g) len ++ d.padBytes (64 * g + len) (64 - len)
    sdst := d.scaleAddr dst.at_ dst.scaleBase (δ dst di)
    ssrc := si.map (fun i => src.d.scaleAddr src.at_ src.scaleBase (δ src i))
    slen := if scaled then sp.2 else 0
    sfill := src.d.padScale }

/-- Data bytes of a lane granule (Table TNS-4). -/
def opBytes (f : Nat) : Nat := if f = 6 ∨ f = 7 then 48 else 64

/-- The moves of an OPERAND tensor: group by group, the lanes of the extent, then their scale bytes; bytes that hold no data are written
zero (R277). -/
def operandMoves (src dst : Side) : List Move :=
  let d := dst.d
  let f := d.format
  let steps := d.ext 0 / opE f
  let outer := (List.range (d.rank - 2)).map (fun k => d.ext (k + 2))
  let lanes := min 64 (d.ext 1)
  let at_ (s : Side) (i : List Nat) (off : Nat) : Nat :=
    let b := if s.d.isLocal then s.base % 2 ^ 19 else s.base
    s.d.place s.at_ b (s.d.runBase b (0 :: i) + off)
  ((List.range (prodOf outer)).map (fun n =>
    let i := unrank outer n
    ((List.range steps).map (fun q =>
      let o := q * opGroup f
      let m (off len pad : Nat) : Move := ⟨at_ dst i (o + off), some (at_ src i (o + off)), len, List.replicate pad 0, 0, none, 0, 0⟩
      (List.range lanes).map (fun j => m (64 * j) (opBytes f) (64 - opBytes f)) ++
        (List.range (opScales f)).map (fun j => m (4096 + 64 * j) lanes 0))).flatten)).flatten

/-- A descriptor's arithmetic, over its dimensions from 2 up and the first `n` multiples of `step`, forms byte offset x of its memory. -/
def TDesc.forms (d : TDesc) (step n : Nat) (x : Int) : Bool :=
  let outer := (List.range (d.rank - 2)).map (fun k => d.ext (k + 2))
  let b := if d.isLocal then d.base % 2 ^ 19 else d.base
  (List.range (prodOf outer)).any (fun m =>
    let a := d.runBase b (0 :: unrank outer m)
    decide (a ≤ x ∧ x < a + step * n) && (x - a) % (step : Int) == 0)

/-- The moves of a copy in transfer order. -/
def copyMoves (src dst : Side) : List Move :=
  if dst.d.layout = 2 then operandMoves src dst
  else
    let r := dst.d.runGranules
    (List.range (r * prodOf dst.d.outer)).map (fun n =>
      let i := unrank dst.d.outer (n / r)
      runMove src (some i) dst i (n % r))

/-- Two tensors can be copied one into the other: equal format, layout and local extents (Table DMA-3). -/
def copyable (a b : TDesc) : Bool :=
  a.allowed && b.allowed && a.format == b.format && a.layout == b.layout && a.rank == b.rank &&
    (a.extent.take a.rank) == (b.extent.take a.rank)

/-- An outer index with the index j of dimension k put in among the others. -/
def insertIdx (k j : Nat) (others : List Nat) : List Nat := others.take (k - 1) ++ [j] ++ others.drop (k - 1)

/-- Extents of the outer dimensions but k. -/
def TDesc.others (d : TDesc) (k : Nat) : List Nat := d.outer.eraseIdx (k - 1)

/-- A coordinate brought inside an axis of extent n by a border mode; none where the mode gives the pad value. -/
def borderIndex (mode : Nat) (n : Nat) (q : Int) : Option Nat :=
  if 0 ≤ q ∧ q < n then some q.toNat
  else match mode with
    | 0 => some (if q < 0 then 0 else n - 1)
    | 1 =>
      if n ≤ 1 then some 0
      else
        let p : Int := 2 * (n - 1 : Nat)
        let r := q % p
        some (if r < n then r else p - r).toNat
    | _ => none

/-- The indices of an index tensor (R286). -/
def State.indices (s : State) (d : TDesc) (p : LocalAt) : List Int :=
  (List.range (d.ext 0)).map (fun m => signed 32 (leNat (s.read (d.granuleAddr p d.base [] (m / 16) + m % 16 * 4) 4)))

/-- What poison a read of an index tensor meets. -/
def State.indexTaint (s : State) (d : TDesc) (p : LocalAt) : Taint :=
  (List.range (d.ext 0)).foldl (fun (t : Taint) m => t.or (s.taintOf (d.granuleAddr p d.base [] (m / 16) + m % 16 * 4) 4)) Taint.none

/-- The part and local index of global index i of a split dimension with extent `e` over n parts (R280). -/
def partOf (shard e n i : Nat) : Nat × Nat :=
  if bits shard 0 2 = 1 then
    let q := (e + n - 1) / n
    (i / q, i % q)
  else
    let b := max 1 (bits shard 8 24)
    let k := i / b
    (k % n, k / n * b + i % b)

/-- A base on another die (R281). -/
def State.onDie (s : State) (a d : Nat) : Nat :=
  match s.region a with
  | .dram e o => let _ := e; dramBase d + o
  | .commons e o => let _ := e; chipBase d + o
  | .spd _ c o => spdBase d c + o
  | _ => a

/-- The side and local index of index i in dimension k of a source; none where it is out of range (R288, R289). -/
def State.locate (s : State) (src : Side) (k : Nat) (i : Int) : Option (Side × Nat) :=
  if i < 0 then none
  else if src.d.dieSplit k then
    let e := nth 1 src.d.global k
    if i.toNat ≥ e then none
    else
      let (p, l) := partOf (nth 0 src.d.shard k) e s.nDies i.toNat
      some ({ src with base := s.onDie src.base p, scaleBase := s.onDie src.scaleBase p }, l)
  else if i.toNat ≥ src.d.ext k then none
  else some (src, i.toNat)

/-- The moves of a gather, and its out-of-range count; a slice at or above the destination's extent is outside it and not written (R273, R287,
R288). -/
def State.gatherMoves (s : State) (src dst : Side) (idx : List Int) : List Move × Nat :=
  let k := src.d.indexDim
  let r := dst.d.runGranules
  let oth := dst.d.others k
  let found := idx.map (fun i => s.locate src k i)
  (((List.range (min found.length (dst.d.ext k))).map (fun m =>
    (List.range (r * prodOf oth)).map (fun n =>
      let o := unrank oth (n / r)
      match nth none found m with
      | some (sd, l) => runMove sd (some (insertIdx k l o)) dst (insertIdx k m o) (n % r)
      | none => runMove src none dst (insertIdx k m o) (n % r)))).flatten,
   cap 0xFFFF (found.filter (fun f => f.isNone)).length)

/-- The moves of a scatter, and its out-of-range count; a source slice at or above the source's extent is outside it and read by its border
field (R273). -/
def scatterMoves (src dst : Side) (idx : List Int) : List Move × Nat :=
  let k := dst.d.indexDim
  let r := src.d.runGranules
  let oth := src.d.others k
  let found := idx.map (fun i => if i < 0 ∨ i.toNat ≥ dst.d.ext k then none else some i.toNat)
  (((List.range found.length).map (fun m =>
    match nth none found m with
    | some l => (List.range (r * prodOf oth)).map (fun n =>
        let o := unrank oth (n / r)
        let si := (borderIndex src.d.border (src.d.ext k) m).map (fun m => insertIdx k m o)
        runMove src si { dst with d := { dst.d with extent := src.d.extent } } (insertIdx k l o) (n % r))
    | none => [])).flatten,
   cap 0xFFFF (found.filter (fun f => f.isNone)).length)

/-- A gather or scatter that the rules allow: an index dimension from 1 to 5 that is no module split, no OPERAND tensor, and
an index tensor of INT32, PLAIN, rank 1; source and destination of equal format, layout and local extents but for the index dimension's (R286,
R287, R289). -/
def gatherOk (data other idx : TDesc) : Bool :=
  data.allowed && other.allowed && decide (1 ≤ data.indexDim ∧ data.indexDim < data.rank) && data.layout != 2 &&
    !data.moduleSplit data.indexDim && data.format == other.format && data.layout == other.layout &&
    data.rank == other.rank && (List.range data.rank).all (fun k => k == data.indexDim || data.ext k == other.ext k) &&
    idx.allowed && idx.format == 0xC && idx.layout == 0 && idx.rank == 1

/-! ### Scatter-add (R290, R291) -/

/-- Add the elements of one codeword (or part of one) to those at `dst`.  A poisoned source or target leaves the target
poisoned. -/
def State.addCode (s : State) (format dst : Nat) (l : List Byte) (p : Bool) : State :=
  let sum := ((List.range (l.length / 4)).map (fun j =>
    let u := leNat ((l.drop (4 * j)).take 4)
    let v := leNat (s.read (dst + 4 * j) 4)
    toLE 4 (if format = 0xC then (u + v) % 2 ^ 32 else f32add v u))).flatten
  s.write dst sum (p || s.poisonAt dst)

/-- Add the elements of n bytes at `src` to those at `dst`, codeword by codeword; format INT32 or FP32. -/
def State.addWords (s : State) (format src dst n : Nat) : State :=
  (List.range ((n + 15) / 16)).foldl (fun (x : State) k =>
    x.addCode format (dst + 16 * k) (x.read (src + 16 * k) (min 16 (n - 16 * k))) (x.readPoison (src + 16 * k) 16)) s

/-- Perform the move of a scatter-add. -/
def State.addMove (s : State) (format : Nat) (m : Move) : State × Taint :=
  match m.src with
  | some a => ((s.countReads a m.len).addWords format a m.dst m.len, s.taintOf a m.len)
  | none => (s, Taint.none)

/-! ### Elements of images (R273, Table PWP-2) -/

/-- The element (x, y) of a PLAIN image, as its encoding. -/
def State.pixel (s : State) (d : TDesc) (x y : Nat) : Nat :=
  let b := elemBits d.format / 8
  leNat (s.read ((d.runBase d.base [y]).toNat + x * b) b)

/-- The codeword of element (x, y) is delivered poisoned. -/
def State.pixelMark (s : State) (d : TDesc) (x y : Nat) : Taint :=
  let b := elemBits d.format / 8
  s.taintOf ((d.runBase d.base [y]).toNat + x * b) b

end Sys2Proof.Machine
end

