-- ==== Sys2Proof/Machine/Imaging.lean ====
section
/-! DEFINITION. What the vision engines share (chapters 06–08): the task an engine runs, its parameter and argument blocks, image
taps with their borders and poison marks, sampling positions and weights, and the writing of output rows. -/

namespace Sys2Proof.Machine

open Sys2Proof

/-! ### Arithmetic -/

/-- `n ÷ d` rounded to the nearest integer, ties to even. -/
def roundEven (n : Int) (d : Nat) : Int :=
  let q := n / (d : Int)
  let r := n % (d : Int)
  if 2 * r > d ∨ (2 * r = d ∧ q % 2 = 1) then q + 1 else q

/-- `n ÷ d` rounded to the nearest integer, ties upward (R165). -/
def roundUp (n : Int) (d : Nat) : Int := (2 * n + d) / (2 * (d : Int))

/-- A number brought between two limits. -/
def clampInt (lo hi v : Int) : Int := if v < lo then lo else if hi < v then hi else v

/-- `⌈n ÷ d⌉`. -/
def ceilDiv (n d : Nat) : Nat := (n + d - 1) / d

/-- Sum of a list. -/
def sumNat (l : List Nat) : Nat := l.foldl (· + ·) 0
def sumInt (l : List Int) : Int := l.foldl (· + ·) 0

/-- Insert by a strict order; an equal element goes behind. -/
def insertBy {α : Type} (before : α → α → Bool) (x : α) : List α → List α
  | [] => [x]
  | y :: l => if before x y then x :: y :: l else y :: insertBy before x l

/-- A stable sort. -/
def sortBy {α : Type} (before : α → α → Bool) (l : List α) : List α := l.foldl (fun acc x => insertBy before x acc) []

/-- FP32 sum of terms, each addition rounded; the order is the implementation's (log entry 15). -/
def sumTerms : Nat → List Nat → Nat
  | 0, l => nth 0 l 0
  | n + 1, l =>
    if l.length < 2 then nth 0 l 0
    else
      let (i, j) := Config.sumChoice l.length
      let a := i % l.length
      let l1 := l.eraseIdx a
      let b := j % l1.length
      sumTerms n (f32add (nth 0 l a) (nth 0 l1 b) :: l1.eraseIdx b)

/-- The FP32 sum of a list of terms; of none, zero. -/
def f32sum (l : List Nat) : Nat := sumTerms l.length l

/-! ### The task of an engine (R159, R160) -/

/-- The unit number of instance i of a vision engine kind (Table GRF-5); none beyond its instances. -/
def engineUnit (kind i : Nat) : Option Nat := (groupUnits (7 + kind))[i]?

/-- Read n bytes at an address, with their marks. -/
def State.fetched (s : State) (a n : Nat) : Fetched := ⟨a, s.read a n, (s.taintOf a n).poison, (s.taintOf a n).hard⟩

/-- The mark of what has been read. -/
def Fetched.taint (f : Fetched) : Taint := ⟨f.poison, f.hard⟩

/-- Field of `n` bytes at offset `o` of a block. -/
def blockField (l : List Byte) (o n : Nat) : Nat := leNat ((l.drop o).take n)

/-- The descriptors that an argument block holds for a kind of engine and a parameter block (R166, R170, R184, R199, R210). -/
def argCount (kind : Nat) (l : List Byte) : Nat :=
  let p := blockField l
  min 32 (match kind with
    | 1 => p 0 1 + 1
    | 2 => if p 0 1 = 0 then 2 * p 4 1 + p 6 1 else p 4 1 + 2 + p 6 1
    | 3 => if p 0 1 ≤ 1 then p 2 1 + 1 else if p 0 1 = 3 then 1 else 0
    | 4 => 2 * p 0 1 + bit (testBit (p 0xC 1) 2) + bit (testBit (p 0xC 1) 3) + 1 + bit (testBit (p 0xC 1) 4)
    | 5 => 3 + bit (testBit (p 7 1) 2)
    | _ => 0)

/-- A task's engine looks for a pair table: it detects (R189). -/
def usesTable (kind : Nat) (l : List Byte) : Bool := kind == 3 && decide (blockField l 0 1 ≤ 1)

/-- What an engine reads at the dispatch of a task (R159, R189). -/
def State.engineTask (s : State) (t : TaskDesc) : EngineTask :=
  let b := s.fetched t.program 64
  ⟨b, (List.range (argCount t.kind b.bytes)).map (fun k =>
      let e := s.fetched (t.args + 8 * k) 8
      let f := s.fetched (leNat e.bytes % 2 ^ 40) 128
      { f with poison := f.poison || e.poison, hard := f.hard || e.hard }),
    if usesTable t.kind b.bytes then s.fetched (blockField b.bytes 0x20 8 % 2 ^ 40) 1024 else ⟨0, [], false, false⟩⟩

/-- The spans of memory that the reads at dispatch cover, from the first byte to one past the last. -/
def EngineTask.spans (e : EngineTask) (t : TaskDesc) : List (Nat × Nat) :=
  (t.program, t.program + 64) :: (if e.args.isEmpty then [] else [(t.args, t.args + 8 * e.args.length)]) ++
    e.args.map (fun f => (f.addr, f.addr + 128)) ++ (if e.table.bytes.isEmpty then [] else [(e.table.addr, e.table.addr + 1024)])

/-- Every span lies in memory that a unit can reach (R27, R28). -/
def State.spansOk (s : State) (l : List (Nat × Nat)) : Bool :=
  l.all (fun p => s.dataAddr p.1 && (memoryOf p.1).isSome && memoryOf p.1 == memoryOf (p.2 - 1))

/-- Every span can be read by an engine of die d (R24). -/
def State.spansReach (s : State) (d : Nat) (l : List (Nat × Nat)) : Bool := l.all (fun p => s.canRead d p.1 (p.2 - p.1))

/-- An engine reads spans once (log entry 81). -/
def State.readSpans (s : State) (l : List (Nat × Nat)) : State :=
  l.foldl (fun (s : State) p => (s.countReads p.1 (p.2 - p.1)).countRemote p.1 (p.2 - p.1)) s

/-- A vision engine takes a task: it reads its blocks and descriptors once; one that a lost link keeps from it leaves it waiting (R24,
R159). -/
def State.startEngine (s : State) (d u : Nat) (t : TaskDesc) : State :=
  let e := s.engineTask t
  if s.spansReach d (e.spans t) then (s.readSpans (e.spans t)).modUnit d u (fun x => { x with latch := some e }) else s

/-- An engine's task: unit, slot, descriptor, and what was read at its dispatch. -/
structure Job where
  unit : Nat
  slot : Nat
  task : TaskDesc
  latch : EngineTask
  deriving DecidableEq, Repr

/-- The task that instance i of a kind runs and has not finished, nor been stopped in. -/
def State.job (s : State) (d kind i : Nat) : Option Job :=
  match engineUnit kind i with
  | none => none
  | some u =>
    let x := s.unit d u
    match x.running, x.latch with
    | some k, some l =>
      match s.slot d k with
      | none => none
      | some y => if s.dieUp d && !x.done && !y.stopped && y.desc.kind == kind then some ⟨u, k, y.desc, l⟩ else none
    | _, _ => none

/-- Field of `n` bytes at offset `o` of the parameter block. -/
def Job.p (j : Job) (o n : Nat) : Nat := blockField j.latch.block.bytes o n

/-- Bytes from `o` up to but not including `e` of the parameter block are zero. -/
def Job.zero (j : Job) (o e : Nat) : Bool := ((j.latch.block.bytes.drop o).take (e - o)).all (fun b => b == 0)

/-- Tensor descriptor n of the argument block. -/
def Job.arg (j : Job) (n : Nat) : TDesc :=
  match j.latch.args[n]? with
  | some f => TDesc.ofBytes f.bytes
  | none => TDesc.ofBytes []

/-- The marks of all that was read at dispatch. -/
def Job.taint (j : Job) : Taint := j.latch.args.foldl (fun t f => t.or f.taint) (j.latch.block.taint.or j.latch.table.taint)

/-- What a task has done: its writes in order, the marks of what it read, its out-of-range count, and the pixel cycles its chapter gives it. -/
structure Work where
  writes : List HeldWrite
  taint : Taint
  oor : Nat
  cycles : Nat

/-- An engine has done its task, having read these spans: what it read marks its end (R243); its writes wait for the end (R160). -/
def State.workDone (s : State) (d : Nat) (j : Job) (read : List (Nat × Nat)) (w : Work) : State :=
  (s.readSpans read).modUnit d j.unit (fun x => { x with
    done := true, poisoned := x.poisoned || w.taint.hard, tagged := x.tagged || (w.taint.poison && !w.taint.hard),
    oor := cap 0xFFFF (x.oor + w.oor), writes := w.writes, cycles := w.cycles })

/-- Held writes are made, by an initiator of die d. -/
def State.makeWrites (s : State) (d : Nat) (l : List HeldWrite) : State :=
  l.foldl (fun (s : State) w => if s.inStretch w.addr w.bytes.length then s.unpredictable else s.writeFrom d w.addr w.bytes w.poison) s

/-- The writes of a unit's task become visible (R160). -/
def State.showWrites (s : State) (d u : Nat) : State :=
  match (s.unit d u).writes with
  | [] => s
  | l => (s.modUnit d u (fun x => { x with writes := [] })).makeWrites d l

/-- The load registers of a kind. -/
structure LoadRegs where
  busy : Fld
  tasks : Fld
  stall : Fld

/-- The load registers of a vision engine's kind. -/
def loadRegs (kind : Nat) : LoadRegs :=
  match kind with
  | 1 => ⟨.pyrLoad_busy, .pyrLoad_tasks, .pyrStall_stall⟩
  | 2 => ⟨.wrpLoad_busy, .wrpLoad_tasks, .wrpStall_stall⟩
  | 3 => ⟨.ftrLoad_busy, .ftrLoad_tasks, .ftrStall_stall⟩
  | 4 => ⟨.flwLoad_busy, .flwLoad_tasks, .flwStall_stall⟩
  | _ => ⟨.steLoad_busy, .steLoad_tasks, .steStall_stall⟩

/-- A unit is a vision engine. -/
def isEngine (u : Nat) : Bool := decide (72 ≤ u ∧ u < 85)

/-- The pixel cycles that end in the arithmetic cycle at device time t: two in three (R71, log entry 65). -/
def pixelCycles (t : Nat) : Nat := (t + 1) * 2 / 3 - t * 2 / 3

/-- An arithmetic cycle of a running engine counts in its LOAD register (R182, R208, R231). -/
def State.engineCycle (s : State) (d u : Nat) : State :=
  s.addFrame d (loadRegs (unitKind u)).busy 1024 (pixelCycles s.deviceTime) (unitInstance u)

/-- An engine has completed its task: it is counted, with the pixel cycles beyond those its chapter gives (R182, R208, R231). -/
def State.engineDone (s : State) (d u : Nat) : State :=
  if isEngine u then
    let x := s.unit d u
    (s.addFrame d (loadRegs (unitKind u)).tasks 1 1 (unitInstance u)).addFrame d (loadRegs (unitKind u)).stall 1024
      ((s.deviceTime - x.startDt) * 2 / 3 - x.cycles) (unitInstance u)
  else s

/-! ### Images -/

/-- Components of a pixel and bits of each (Table PWP-1): UV8 has two of 8. -/
def pixParts (f : Nat) : Nat := if f = 3 then 2 else 1
def pixBits (f : Nat) : Nat := if f = 0 ∨ f = 3 then 8 else 16

/-- The corners of a box of indices. -/
def corners : List Nat → List (List Nat)
  | [] => [[]]
  | e :: es => ((corners es).map (fun i => [0 :: i, (e - 1) :: i])).flatten

/-- All runs of a tensor lie in the memory of its base (R28, R269); strides are linear, so its corners say it. -/
def TDesc.runsIn (t : TDesc) : Bool :=
  (memoryOf t.base).isSome && (corners t.outer).all (fun i =>
    let a := t.runBase t.base i
    decide (0 ≤ a) && memoryOf a.toNat == memoryOf t.base && memoryOf (a.toNat + 64 * t.runGranules - 1) == memoryOf t.base)

/-- All scale bytes of a tensor lie in the memory of its scale base (R28, R276). -/
def TDesc.scalesIn (t : TDesc) : Bool :=
  (corners t.outer).all (fun i =>
    let δ := t.runBase t.base i - t.base
    t.scaleAddr ⟨0, 0, 0⟩ t.scaleBase δ != noAddress &&
      t.scaleAddr ⟨0, 0, 0⟩ t.scaleBase (δ + (t.ext 0 * elemBits t.format / 8 - 1 : Nat)) != noAddress)

/-- A tensor that an engine can read or write: allowed, not local, its data and scales where a unit can reach them (R27, R28, R159, R267). -/
def State.tensor (s : State) (t : TDesc) : Bool :=
  t.allowed && !t.isLocal && s.dataAddr t.base && t.runsIn &&
    (!(hasScale t.format && t.layout == 1) || (s.dataAddr t.scaleBase && t.scalesIn))

/-- An image that an engine can read or write: a PLAIN tensor of two dimensions and w × h pixels. -/
def State.image (s : State) (t : TDesc) (w h : Nat) : Bool :=
  s.tensor t && t.layout == 0 && t.rank == 2 && t.ext 0 == w && t.ext 1 == h

/-- The rows of an image follow the pitch rule of Table ING-8. -/
def pitchOk (t : TDesc) : Bool := t.str 1 == (t.runGranules : Int)

/-- The address of pixel (x, y). -/
def pixAddr (t : TDesc) (x y : Nat) : Nat := (t.runBase t.base [y]).toNat + x * (elemBits t.format / 8)

/-- Component c of the pixel (x, y) inside the image, with its mark. -/
def State.pix (s : State) (t : TDesc) (c x y : Nat) : Nat := bits (leNat (s.read (pixAddr t x y) (elemBits t.format / 8))) (c * pixBits t.format) (pixBits t.format)

/-- The mark of a pixel. -/
def State.pixTaint (s : State) (t : TDesc) (x y : Nat) : Taint := s.taintOf (pixAddr t x y) (elemBits t.format / 8)

/-- A tap at (x, y) under a border mode: inside it is the pixel, beyond it what Table PWP-2 gives (none: the pad value). -/
def tapAt (t : TDesc) (border : Nat) (x y : Int) : Option (Nat × Nat) :=
  match borderIndex border (t.ext 0) x, borderIndex border (t.ext 1) y with
  | some a, some b => some (a, b)
  | _, _ => none

/-- The pad value's component c. -/
def padPart (t : TDesc) (c : Nat) : Nat := bits t.pad (c * pixBits t.format) (pixBits t.format)

/-- Component c of a tap. -/
def State.tap (s : State) (t : TDesc) (border c : Nat) (x y : Int) : Nat :=
  match tapAt t border x y with
  | some (a, b) => s.pix t c a b
  | none => padPart t c

/-- The mark of a tap. -/
def State.tapTaint (s : State) (t : TDesc) (border : Nat) (x y : Int) : Taint :=
  match tapAt t border x y with
  | some (a, b) => s.pixTaint t a b
  | none => Taint.none

/-- A pixel with coordinates brought inside the image (REPLICATE). -/
def State.clampPix (s : State) (t : TDesc) (x y : Int) : Nat := s.tap t 0 0 x y

/-- The marks of a rectangle of pixels, brought inside the image. -/
def State.rectTaint (s : State) (t : TDesc) (x0 x1 y0 y1 : Int) : Taint :=
  (List.range ((y1 - y0 + 1).toNat)).foldl (fun (m : Taint) (j : Nat) =>
    let y := (clampInt 0 (t.ext 1 - 1 : Nat) (y0 + j)).toNat
    let a := (clampInt 0 (t.ext 0 - 1 : Nat) x0).toNat
    let b := (clampInt 0 (t.ext 0 - 1 : Nat) x1).toNat
    m.or (s.taintOf (pixAddr t a y) ((b + 1 - a) * (elemBits t.format / 8)))) Taint.none

/-- The marks of a whole image. -/
def State.imageTaint (s : State) (t : TDesc) : Taint := s.rectTaint t 0 (t.ext 0 - 1 : Nat) 0 (t.ext 1 - 1 : Nat)

/-! ### Writing rows -/

/-- The writes that store elements in order from an address, each codeword poisoned if any of its elements is (R243). -/
def elemWrites (a : Nat) (es : List (List Byte × Bool)) : List HeldWrite :=
  let bytes := (es.map (fun e => e.1)).flatten
  let marks := (es.map (fun e => e.1.map (fun _ => e.2))).flatten
  (List.range (ceilDiv bytes.length 16)).map (fun k =>
    ⟨a + 16 * k, (bytes.drop (16 * k)).take 16, ((marks.drop (16 * k)).take 16).any id⟩)

/-- The writes of a whole run from its address: its elements, then the pad in the unused bits of its last granule (R273). -/
def runWrites (t : TDesc) (a : Nat) (es : List (List Byte × Bool)) : List HeldWrite :=
  let n := t.ext 0 * elemBits t.format / 8
  elemWrites a (es ++ [(t.padBytes n (64 * t.runGranules - n), false)])

/-- The writes of row y of an image. -/
def rowWrites (t : TDesc) (y : Nat) (es : List (List Byte × Bool)) : List HeldWrite := runWrites t (pixAddr t 0 y) es

/-- Rows written by a block: all h of them, or first to last; none where the range is wrong. -/
def rowRange (first last h : Nat) : Option (List Nat) :=
  if first = 0xFFFF then some (List.range h)
  else if first ≤ last ∧ last < h then some ((List.range (last + 1 - first)).map (fun k => first + k))
  else none

/-- Byte spans of the rows of an image in whole granules, first byte and one past the last. -/
def rowSpans (t : TDesc) (rows : List Nat) : List (Nat × Nat) :=
  rows.map (fun y => (pixAddr t 0 y, pixAddr t 0 y + 64 * t.runGranules))

/-- Byte spans of all runs of a tensor, and of their scale bytes. -/
def runSpans (t : TDesc) : List (Nat × Nat) :=
  ((List.range (prodOf t.outer)).map (fun n =>
    let a := t.runBase t.base (unrank t.outer n)
    let sa := t.scaleAddr ⟨0, 0, 0⟩ t.scaleBase (a - t.base)
    (a.toNat, a.toNat + 64 * t.runGranules) ::
      (if hasScale t.format && t.layout == 1 then [(sa, sa + ceilDiv (t.ext 0) 32)] else []))).flatten

/-- Two lists of spans share a byte (R161). -/
def spansMeet (a b : List (Nat × Nat)) : Bool :=
  a.any (fun p => b.any (fun q => decide (p.1 < q.2 ∧ q.1 < p.2)))

/-- All rows of an image. -/
def allSpans (t : TDesc) : List (Nat × Nat) := rowSpans t (List.range (t.ext 1))

/-! ### Sampling (R163, R164, R173) -/

/-- The taps of one axis at a position in 1/256 pixel, with their weights; the weights' sum is 2^14 (BICUBIC), 256 or 1. -/
def axisTaps (filter : Nat) (pos : Int) : List (Int × Int) :=
  let p := pos / 256
  let f := pos % 256
  match filter with
  | 0 => [(if 128 ≤ f then p + 1 else p, 1)]
  | 1 => [(p, 256 - f), (p + 1, f)]
  | _ =>
    -- each weight is a cubic in f ÷ 256, here in units of 2^−14 after rounding
    let w (n : Int) : Int := roundEven n 2048
    let a := w (-(f * f * f) + 512 * f * f - 65536 * f)
    let c := w (-3 * f * f * f + 1024 * f * f + 65536 * f)
    let d := w (f * f * f - 256 * f * f)
    [(p - 1, a), (p, 16384 - a - c - d), (p + 1, c), (p + 2, d)]

/-- The sum of an axis's weights. -/
def axisUnit (filter : Nat) : Nat := if filter = 0 then 1 else if filter = 1 then 256 else 16384

/-- The footprint of a sample: taps and their weights in both axes. -/
def footprint (filter : Nat) (px py : Int) : List ((Int × Int) × (Int × Int)) :=
  ((axisTaps filter py).map (fun b => (axisTaps filter px).map (fun a => ((a.1, b.1), (a.2, b.2))))).flatten

/-- A tap lies inside the extent. -/
def inside (t : TDesc) (x y : Int) : Bool := decide (0 ≤ x ∧ x < t.ext 0 ∧ 0 ≤ y ∧ y < t.ext 1)

/-- The status bits OUTSIDE and PARTIAL of a sample (Table PWP-7). -/
def sampleStatus (t : TDesc) (fp : List ((Int × Int) × (Int × Int))) : Nat :=
  let n := (fp.filter (fun q => inside t q.1.1 q.1.2)).length
  if n = 0 then 1 else if n < fp.length then 2 else 0

/-- A weight in units of 1 ÷ u as FP32; exact, or rounded once. -/
def f32frac (w : Int) (u : Nat) : Nat := FFmt.fp32.round (decide (w < 0)) w.natAbs (-(Nat.log2 u : Int))

/-- The weighted sum of taps in an integer format: exact, rounded once with ties upward, saturated (R165). -/
def intSample (bitsOut unit : Nat) (l : List (Int × Nat)) : Nat :=
  (clampInt 0 (2 ^ bitsOut - 1) (roundUp (sumInt (l.map (fun p => p.1 * (p.2 : Int)))) unit)).toNat

/-- The weighted sum of taps in FP32: the two axes' weights are multiplied, then the tap, then the terms are added (R165, R173). -/
def floatSample (unit : Nat) (l : List ((Int × Int) × Nat)) : Nat :=
  f32sum (l.map (fun p => f32mul (f32mul (f32frac p.1.1 unit) (f32frac p.1.2 unit)) p.2))

end Sys2Proof.Machine
end

