-- ==== Sys2Proof/Machine/Isp.lean ====
section
/-! DEFINITION. The ISP section's tables and the pipe's stages (R131, R134, R145, R146, R150): what a context's received
lines become at each stage, in its output planes, its taps and its flicker record.  What the manual leaves open in a stage
is `Config.ispOpen` (log entry 21). -/

namespace Sys2Proof.Machine

open Sys2Proof

/-! ### Tables of the ISP section -/

/-- A link table entry (Table ING-3). -/
structure LinkCfg where
  used : Bool
  gear : Nat
  rate : Nat
  trigWidth : Nat
  scriptOff : Nat
  scriptLen : Nat
  deriving DecidableEq, Repr

/-- A link table entry, its fields given by offset and size in the entry. -/
def LinkCfg.of (g : Nat → Nat → Nat) : LinkCfg := ⟨g 0 1 == 1, g 1 1, g 2 1, g 3 1, g 4 4, g 8 4⟩

/-- Link `l`'s entry. -/
def State.linkCfg (s : State) (l : Nat) : LinkCfg := LinkCfg.of (fun o n => s.cad secISP (0x100 + 32 * l + o) n)

/-! ### Sensor scripts (R131, R132) -/

/-- The bytes of a sensor transaction as the tunnel carries it: address and direction, register, then the data, or the length of a read. -/
def i2cBytes (addr reg n : Nat) (read : Bool) (data : Nat) : List Byte :=
  toLE 1 (addr % 128 + 128 * bit read) ++ toLE 2 reg ++ (if read then toLE 1 n else toLE n data)

/-- Run the entries of a sensor script against the sensor's answers, one for each transaction (none: NACK or no answer): what goes out on the
link, and whether the script ran to its end.  Op 0 writes, op 1 waits, op 2 reads and compares; a failed compare or a NACK stops the script,
and so does an op that the manual does not define (log entry 86). -/
def runScript : List (List Byte) → List (Option (BitVec 24)) → List (List Byte) × Bool
  | [], _ => ([], true)
  | e :: l, as_ =>
    let n (o k : Nat) : Nat := leNat ((e.drop o).take k)
    let len := min 3 (n 4 1)
    match n 0 1 with
    | 0 =>
      let r := runScript l (as_.drop 1)
      let m := i2cBytes (n 1 1) (n 2 2) len false (n 5 3)
      if (as_.headD none).isSome then (m :: r.1, r.2) else ([m], false)
    | 1 => runScript l as_
    | 2 =>
      let r := runScript l (as_.drop 1)
      let m := i2cBytes (n 1 1) (n 2 2) len true 0
      match as_.headD none with
      | some v => if v.toNat % 256 ^ len = n 5 3 % 256 ^ len then (m :: r.1, r.2) else ([m], false)
      | none => ([m], false)
    | _ => ([], false)

/-- A byte string cut into entries of 8. -/
def entries8 (l : List Byte) : List (List Byte) := (List.range (l.length / 8)).map (fun k => (l.drop (8 * k)).take 8)

/-- A context table entry (Table ING-4). -/
structure CtxCfg where
  enable : Bool
  link : Nat
  vc : Nat
  dt : Nat
  width : Nat
  height : Nat
  position : Nat
  cfa : Nat
  phase : Nat
  compand : Nat
  params : Nat
  format : Nat
  strip : Nat
  buffers : Nat
  long : Nat
  mask : Nat
  lossLimit : Nat
  doubtLimit : Nat
  returnCount : Nat
  firstLine : Nat
  gpio : Nat
  embedded : Nat
  tap0 : Nat
  tap1 : Nat
  golden : Nat
  goldenDiv : Nat
  goldenK : Nat
  band : Nat
  flag : Nat
  stage : Nat
  stride : Nat
  tap0Off : Nat
  tap1Off : Nat
  bandOff : Nat
  deriving DecidableEq, Repr

/-- Context `c`'s entry. -/
def State.ctxCfg (s : State) (c : Nat) : CtxCfg :=
  let g (o n : Nat) : Nat := s.cad secISP (0x300 + 128 * c + o) n
  { enable := g 0 1 == 1, link := g 1 1 % 16, vc := g 2 1 % 4, dt := g 3 1, width := g 4 2, height := g 6 2,
    position := g 8 1 % 4, cfa := bits (g 9 1) 0 4, phase := bits (g 9 1) 4 2, compand := g 0xA 1, params := g 0xB 1,
    format := g 0xC 1, strip := g 0xD 1, buffers := g 0xE 1, long := g 0xF 1, mask := g 0x10 1, lossLimit := g 0x11 1,
    doubtLimit := g 0x12 1, returnCount := g 0x13 1, firstLine := g 0x14 2, gpio := g 0x16 1, embedded := g 0x17 1,
    tap0 := g 0x18 1, tap1 := g 0x19 1, golden := g 0x1A 1, goldenDiv := g 0x1B 1, goldenK := g 0x1C 1, band := g 0x1D 1,
    flag := bits (g 0x1E 2) 0 12, stage := g 0x20 4, stride := g 0x24 4, tap0Off := g 0x28 4, tap1Off := g 0x2C 4,
    bandOff := g 0x30 4 }

/-- Where buffer 0 of context `c` lies on die `d`. -/
def State.ctxDest (s : State) (c d : Nat) : Nat := s.cad secISP (0x300 + 128 * c + 0x40 + 8 * d) 5

/-- A field of a parameter set (Table ING-7). -/
def State.isp (s : State) (p off n : Nat) : Nat := s.cad secISP (0x3000 + 4096 * p + off) n

/-- Strips of a frame (R148). -/
def CtxCfg.strips (g : CtxCfg) : Nat := if g.strip = 0 then 0 else (g.height + g.strip - 1) / g.strip

/-- Arithmetic cycles a line of `w` pixels takes in the pipe: ceil(w ÷ 2) + 24 pixel cycles (R140). -/
def lineCycles (w : Nat) : Nat := (((w + 1) / 2 + 24) * 3 + 1) / 2

/-- Pixel cycles of a line. -/
def linePixelCycles (w : Nat) : Nat := (w + 1) / 2 + 24

/-! ### Rounding that the manual leaves open -/

/-- n ÷ d where no rounding is stated: the quotient where it is exact, else one of the two integers beside it. -/
def openDiv (tag n d : Nat) : Nat :=
  if n % d = 0 then n / d else n / d + Config.ispOpen tag [n, d] % 2

/-- A number cut to 24 bits. -/
def cap24 (n : Nat) : Nat := cap 0xFFFFFF n

/-! ### Stage 1: unpack (R129; packing of the CSI-2 data types, log entry 22) -/

/-- Byte `i` of a line's payload; what a payload shorter than its line gives is open. -/
def payByte (l : List Byte) (i : Nat) : Nat :=
  match l[i]? with
  | some b => b.toNat
  | none => Config.ispOpen 1 [i] % 256

/-- The code of pixel `x` of a line of a data type; of YUV lines, the Y code (`odd`: the line carries U and V too).  PRESUMED (log entry 22):
RAW8 to RAW16 and YUV as in CSI-2; DESIGN CHOICE (log entry 22): of RAW20 (0x2F) two pixels take five bytes, the upper 16 bits of each high
byte first, then the two low nibbles in the fifth, the first pixel's below; RAW24 (0x27) takes three bytes, high byte first. -/
def unpackPixel (dt : Nat) (odd : Bool) (l : List Byte) (x : Nat) : Nat :=
  let b (i : Nat) : Nat := payByte l i
  match dt with
  | 0x18 => if odd then b (2 * x + 1) else b x
  | 0x2A => b x
  | 0x2B => b (x / 4 * 5 + x % 4) * 4 + bits (b (x / 4 * 5 + 4)) (2 * (x % 4)) 2
  | 0x2C => b (x / 2 * 3 + x % 2) * 16 + bits (b (x / 2 * 3 + 2)) (4 * (x % 2)) 4
  | 0x2D =>
    let o := x / 4 * 7
    let low := b (o + 4) + b (o + 5) * 256 + b (o + 6) * 65536
    b (o + x % 4) * 64 + bits low (6 * (x % 4)) 6
  | 0x2E => b (2 * x) * 256 + b (2 * x + 1)
  | 0x2F =>
    let o := x / 2 * 5
    b (o + 2 * (x % 2)) * 4096 + b (o + 2 * (x % 2) + 1) * 16 + bits (b (o + 4)) (4 * (x % 2)) 4
  | 0x27 => b (3 * x) * 65536 + b (3 * x + 1) * 256 + b (3 * x + 2)
  | _ => 0

/-- Stage 1 of a row. -/
def CtxCfg.codes (g : CtxCfg) (w r : Nat) (l : List Byte) : List Nat :=
  (List.range w).map (fun x => unpackPixel g.dt (r % 2 == 1) l x)

/-- The image data types (Table ING-1), and the width in bytes of a RAW tap's pixel (Table ING-9). -/
def imageType (dt : Nat) : Bool := [0x18, 0x2A, 0x2B, 0x2C, 0x2D, 0x2E, 0x2F, 0x27].contains dt
def rawBytes (dt : Nat) : Nat := if dt = 0x2F ∨ dt = 0x27 then 4 else 2

/-! ### Stages 2 to 6 -/

/-- Stage 2: the compand curve (Table ING-6): linear between knees, clamped above the last; below the first it is open. -/
def State.decompand (s : State) (k v : Nat) : Nat :=
  if k = 0 then v
  else
    let base := 0x2300 + (k - 1) * 128
    let kin (i : Nat) : Nat := s.cad secISP (base + 8 * i) 4
    let kout (i : Nat) : Nat := s.cad secISP (base + 8 * i + 4) 4
    if kin 15 < v then 0xFFFFFF
    else if v < kin 0 then Config.ispOpen 2 [k, v] % 2 ^ 24
    else match ((List.range 16).reverse.find? (fun i => decide (kin i ≤ v))) with
      | none => 0
      | some 15 => cap24 (kout 15)
      | some i =>
        let t : Int := ((kout (i + 1) : Int) - kout i) * ((v : Int) - kin i)
        let d := kin (i + 1) - kin i
        if t < 0 then cap24 (kout i - openDiv 3 t.natAbs d) else cap24 (kout i + openDiv 3 t.natAbs d)

/-- The CFA channel of a pixel: its place in the 2 × 2 pattern, shifted by the phase (bit 0 across, bit 1 down); 0 for mono. -/
def CtxCfg.channel (g : CtxCfg) (x y : Nat) : Nat :=
  if g.cfa = 0 then 0 else (y + g.phase / 2) % 2 * 2 + (x + g.phase) % 2

/-- Stages 2 and 3 of a row: the LINEAR point.  YUV bypasses them; what that point holds for YUV is open. -/
def State.linearRow (s : State) (g : CtxCfg) (r : Nat) (codes : List Nat) : List Nat :=
  if g.dt = 0x18 then codes.mapIdx (fun x v => Config.ispOpen 4 [r, x, v] % 2 ^ 24)
  else codes.mapIdx (fun x v => cap24 (s.decompand g.compand v) - s.isp g.params (4 * g.channel x r) 4 % 2 ^ 24)

/-- The pixel of an image of h rows with its border replicated, by steps that keep the channel. -/
def edgePixel (rows : List (List Nat)) (h : Int) (step : Nat) (r x : Nat) (dr dx : Int) : Nat :=
  let w : Int := (nth [] rows r).length
  let y : Int := r + dr * step
  let z : Int := x + dx * step
  let y' : Nat := if y < 0 ∨ h ≤ y then r else y.toNat
  let z' : Nat := if z < 0 ∨ w ≤ z then x else z.toNat
  nth 0 (nth [] rows y') z'

/-- Stage 4: a pixel beyond the range of its 8 same-channel neighbours by more than the threshold becomes their median (of
the two middle values either, or between: open). -/
def State.defectRow (s : State) (g : CtxCfg) (h : Nat) (rows : List (List Nat)) (r : Nat) : List Nat :=
  let p := g.params
  let row := nth [] rows r
  if s.isp p 0x12 1 = 0 then row
  else
    let step := if g.cfa = 0 then 1 else 2
    let thr := s.isp p 0x10 2
    row.mapIdx (fun x v =>
      let ns := sortBy (fun (a b : Nat) => decide (a ≤ b))
        ([(-1, -1), (-1, 0), (-1, 1), (0, -1), (0, 1), (1, -1), (1, 0), (1, 1)].map
          (fun (q : Int × Int) => edgePixel rows h step r x q.1 q.2))
      let lo := nth 0 ns 0
      let hi := nth 0 ns 7
      if v + thr < lo ∨ hi + thr < v then
        let a := nth 0 ns 3
        let b := nth 0 ns 4
        a + Config.ispOpen 5 [a, b] % (b - a + 1)
      else v)

/-- The gain of stage 5 at a pixel in u2.14: bilinear between grid points; where the 17 points lie across the image is open,
as is the rounding. -/
def State.shadeGain (s : State) (g : CtxCfg) (ch x y : Nat) : Nat :=
  let px := Config.ispOpen 6 [x, g.width] % (16 * 65536 + 1)
  let py := Config.ispOpen 6 [y, g.height] % (16 * 65536 + 1)
  let pt (i j : Nat) : Nat := s.isp g.params (0x100 + ((ch * 17 + cap 16 j) * 17 + cap 16 i) * 2) 2
  let fx := px % 65536
  let fy := py % 65536
  let i := px / 65536
  let j := py / 65536
  let top := pt i j * (65536 - fx) + pt (i + 1) j * fx
  let low := pt i (j + 1) * (65536 - fx) + pt (i + 1) (j + 1) * fx
  openDiv 7 (top * (65536 - fy) + low * fy) (2 ^ 32)

/-- Stages 5 and 6 of a row. -/
def State.balanceRow (s : State) (g : CtxCfg) (r : Nat) (row : List Nat) : List Nat :=
  row.mapIdx (fun x v =>
    let ch := g.channel x r
    let a := cap24 (openDiv 8 (v * s.shadeGain g ch x r) (2 ^ 14))
    cap24 (openDiv 9 (a * s.isp g.params (0x20 + 2 * ch) 2) (2 ^ 12)))

/-! ### Stages 7 to 11 -/

/-- A pixel of three channels. -/
abbrev Rgb := Nat × Nat × Nat

/-- Three open values of 24 bits. -/
def openRgb (tag : Nat) (l : List Nat) : Rgb :=
  (Config.ispOpen tag (0 :: l) % 2 ^ 24, Config.ispOpen tag (1 :: l) % 2 ^ 24, Config.ispOpen tag (2 :: l) % 2 ^ 24)

/-- The rows of the LINEAR point that the vertical windows of output row r can hold: 3 above and 3 below (R144). -/
def windowRows (rows : List (List Nat)) (r : Nat) : List (List Nat) := (rows.drop (r - 3)).take (r + 4 - (r - 3))

/-- A row after stages 4 to 6, of an image of h rows of which the rows that its windows hold have been received. -/
def State.balanced (s : State) (g : CtxCfg) (h : Nat) (lin : List (List Nat)) (r : Nat) : List Nat :=
  s.balanceRow g r (s.defectRow g h lin r)

/-- Stage 7: mono passes through; the method for the colour patterns is open. -/
def State.demosaic (s : State) (g : CtxCfg) (h : Nat) (lin : List (List Nat)) (r : Nat) : List Rgb :=
  (s.balanced g h lin r).mapIdx (fun x v => if g.cfa = 0 then (v, v, v) else openRgb 10 ([g.cfa, g.phase, r, x] ++ (windowRows lin r).flatten))

/-- Stage 8: a 5 × 5 edge-preserving filter whose formula is open, of the rows its window holds. -/
def State.denoise (s : State) (g : CtxCfg) (h : Nat) (lin : List (List Nat)) (r : Nat) : List Rgb :=
  let bal := s.balanced g h lin r
  bal.mapIdx (fun x _ =>
    let l := [s.isp g.params 0x30 2, s.isp g.params 0x32 2, g.cfa, g.phase, r, x] ++ bal ++ (windowRows lin r).flatten
    if g.cfa = 0 then let v := Config.ispOpen 11 l % 2 ^ 24; (v, v, v) else openRgb 11 l)

/-- Stage 9: the colour matrix in s3.12, saturating; identity for mono and RCCC. -/
def State.colour (s : State) (g : CtxCfg) (p : Rgb) : Rgb :=
  if g.cfa = 0 ∨ g.cfa = 3 then p
  else
    let m (i : Nat) : Int := signed 16 (s.isp g.params (0x40 + 2 * i) 2)
    let row (i : Nat) : Nat :=
      let t : Int := m (3 * i) * p.1 + m (3 * i + 1) * p.2.1 + m (3 * i + 2) * p.2.2
      if t ≤ 0 then 0 else cap24 (openDiv 12 t.natAbs (2 ^ 12))
    (row 0, row 1, row 2)

/-- Stage 10's global curve: 257 points over the 24-bit range, to 16 bits. -/
def State.curve (s : State) (g : CtxCfg) (v : Nat) : Nat :=
  let pt (i : Nat) : Int := s.isp g.params (0xA10 + 2 * cap 256 i) 2
  let i := v / 65536
  let t := (pt (i + 1) - pt i) * (v % 65536 : Nat)
  (if t < 0 then pt i - openDiv 13 t.natAbs 65536 else pt i + openDiv 13 t.natAbs 65536).toNat % 65536

/-- Stage 10: the curve, then local contrast by the frame-to-frame state, whose formula is open. -/
def State.tone (s : State) (g : CtxCfg) (st r x : Nat) (p : Rgb) : Rgb :=
  let f (c v : Nat) : Nat := Config.ispOpen 14 [s.isp g.params 0x60 2, st, r, x, c, s.curve g v] % 65536
  if g.cfa = 0 then let v := f 0 p.1; (v, v, v) else (f 0 p.1, f 1 p.2.1, f 2 p.2.2)

/-- The upper 8 bits of a 16-bit value, to nearest with ties up (stage 11). -/
def upper8 (v : Nat) : Nat := cap 255 ((v + 128) / 256)

/-- BT.709 luma of a 16-bit pixel; its rounding is open. -/
def luma (g : CtxCfg) (p : Rgb) : Nat :=
  if g.cfa = 0 then p.1 else cap 65535 (openDiv 15 (2126 * p.1 + 7152 * p.2.1 + 722 * p.2.2) 10000)

/-- A chroma value in 16 bits about the middle of the range: (component − luma) ÷ (divisor ÷ 10,000) of BT.709 full range; its rounding is
open. -/
def chroma (tag comp luma10000 divisor : Nat) : Nat :=
  if luma10000 ≤ comp * 10000 then cap 65535 (32768 + openDiv tag (comp * 10000 - luma10000) divisor)
  else 32768 - openDiv tag (luma10000 - comp * 10000) divisor

/-- U and V of four 16-bit pixels: of one RGB value that lies, channel by channel, between the least and the greatest of them (how the four are
combined is open); mono has neither (stage 11). -/
def chromaPair (g : CtxCfg) (px : List Rgb) : Nat × Nat :=
  if g.cfa = 0 then (128, 128)
  else
    let pick (c : Nat) (l : List Nat) : Nat :=
      let lo := l.foldl min (l.headD 0)
      let hi := l.foldl max 0
      lo + Config.ispOpen 16 (c :: l) % (hi - lo + 1)
    let r := pick 0 (px.map (fun p => p.1))
    let e := pick 1 (px.map (fun p => p.2.1))
    let b := pick 2 (px.map (fun p => p.2.2))
    let y := 2126 * r + 7152 * e + 722 * b
    (upper8 (chroma 17 b y 18556), upper8 (chroma 17 r y 15748))

/-! ### Rows of a frame at each stage -/

/-- The rows received, as codes. -/
def CtxCfg.allCodes (g : CtxCfg) (w n : Nat) (rows : Map (List Byte)) : List (List Nat) :=
  (List.range n).map (fun r => g.codes w r (Map.get [] rows r))

/-- The rows at the LINEAR point. -/
def State.allLinear (s : State) (g : CtxCfg) (codes : List (List Nat)) : List (List Nat) :=
  codes.mapIdx (fun r l => s.linearRow g r l)

/-- A row after stage 10; YUV bypasses it. -/
def State.toneRow (s : State) (g : CtxCfg) (h st : Nat) (lin : List (List Nat)) (r : Nat) : List Rgb :=
  (s.denoise g h lin r).mapIdx (fun x p => s.tone g st r x (s.colour g p))

/-- A line's pitch (Table ING-8). -/
def pitch64 (n : Nat) : Nat := (n + 63) / 64 * 64

/-- One plane of an output or a tap: offset of the plane, its row numbers for a range of image rows, its line bytes. -/
structure PlaneRow where
  off : Nat
  bytes : List Byte
  deriving DecidableEq, Repr

/-- The main output of image row r as plane rows; `off` counts from the first main plane (R145, Table ING-8).  `h` is the height
of the planes, `lin` the rows at the LINEAR point. -/
def State.mainRow (s : State) (g : CtxCfg) (w h st : Nat) (rows : Map (List Byte)) (codes lin : List (List Nat)) (r : Nat) :
    List PlaneRow :=
  let p8 := pitch64 w
  let byte (l : List Nat) : List Byte := l.map (fun v => BitVec.ofNat 8 v)
  if g.dt = 0x18 then
    let y : PlaneRow := ⟨r * p8, byte (nth [] codes r)⟩
    if g.format = 2 ∧ r % 2 = 1 then
      let l := Map.get [] rows r
      [y, ⟨h * p8 + r / 2 * p8, (List.range w).map (fun i => BitVec.ofNat 8 (payByte l (2 * i)))⟩]
    else [y]
  else
    let t := s.toneRow g h st lin r
    let y8 : PlaneRow := ⟨r * p8, byte (t.map (fun p => upper8 (luma g p)))⟩
    match g.format with
    | 0 => [y8]
    | 1 => [⟨r * pitch64 (2 * w), (t.map (fun p => toLE 2 (luma g p))).flatten⟩]
    | 2 =>
      if r % 2 = 1 then
        let above := s.toneRow g h st lin (r - 1)
        [y8, ⟨h * p8 + r / 2 * p8, ((List.range (w / 2)).map (fun i =>
          let q := chromaPair g [nth (0, 0, 0) above (2 * i), nth (0, 0, 0) above (2 * i + 1), nth (0, 0, 0) t (2 * i), nth (0, 0, 0) t (2 * i + 1)]
          [BitVec.ofNat 8 q.1, BitVec.ofNat 8 q.2])).flatten⟩]
      else [y8]
    | 3 =>
      [⟨r * p8, byte (t.map (fun p => upper8 p.1))⟩, ⟨h * p8 + r * p8, byte (t.map (fun p => upper8 p.2.1))⟩,
       ⟨2 * (h * p8) + r * p8, byte (t.map (fun p => upper8 p.2.2))⟩]
    | _ => []

/-- A tap's output of row r; `off` counts from the tap's offset (R146, Table ING-9). -/
def State.tapRow (s : State) (g : CtxCfg) (w h st tap : Nat) (codes lin : List (List Nat)) (r : Nat) : List PlaneRow :=
  let plane (n k : Nat) (l : List Nat) : PlaneRow := ⟨k * (h * pitch64 (n * w)) + r * pitch64 (n * w), (l.map (toLE n)).flatten⟩
  match tap with
  | 1 => [plane (rawBytes g.dt) 0 (nth [] codes r)]
  | 2 => [plane 4 0 (nth [] lin r)]
  | 3 =>
    let l := s.demosaic g h lin r
    [plane 4 0 (l.map (·.1)), plane 4 1 (l.map (·.2.1)), plane 4 2 (l.map (·.2.2))]
  | 4 =>
    let l := s.toneRow g h st lin r
    if g.cfa = 0 then [plane 2 0 (l.map (·.1))] else [plane 2 0 (l.map (·.1)), plane 2 1 (l.map (·.2.1)), plane 2 2 (l.map (·.2.2))]
  | _ => []

/-! ### Flicker (R150) -/

/-- The mean, rounded down, of a channel over a band of rows. -/
def CtxCfg.bandMean (g : CtxCfg) (lin : List (List Nat)) (first last ch : Nat) : Nat :=
  let vs := ((List.range (last - first)).map (fun i =>
    ((nth [] lin (first + i)).mapIdx (fun x v => (g.channel x (first + i), v))).filter (fun (p : Nat × Nat) => p.1 == ch))).flatten
  if vs.isEmpty then 0 else (vs.map (·.2)).foldl (· + ·) 0 / vs.length

/-- The flicker record of a frame. -/
def State.flickerRecord (s : State) (g : CtxCfg) (frame : Word) (codes : List (List Nat)) : List Byte :=
  let lin := s.allLinear g codes
  let n := (g.height + g.band - 1) / g.band
  let chs := if g.cfa = 0 then 1 else 4
  toLE 4 frame.toNat ++ toLE 2 n ++ toLE 1 chs ++ List.replicate 9 0 ++
    ((List.range n).map (fun b => ((List.range 4).map (fun c =>
      toLE 4 (if c < chs then g.bandMean lin (b * g.band) (min ((b + 1) * g.band) g.height) c else 0))).flatten)).flatten

/-! ### Golden segments (R151) -/

/-- A golden entry (Table ING-11). -/
structure GoldCfg where
  width : Nat
  lines : Nat
  input : Nat
  expect : Nat
  state : Nat
  tolerance : Nat
  countLimit : Nat
  deriving DecidableEq, Repr

/-- The length of the GOLDEN section, the seventh of the image's table, and where its copy in hub SRAM starts: DESIGN CHOICE (log entry 90):
it ends where hub SRAM ends. -/
def State.goldLength (s : State) : Nat := s.cad 0 (0x100 + 64 * 6 + 16) 8
def State.goldBase (s : State) : Nat := hubSramBase + 0x1000000 - (s.goldLength + 63) / 64 * 64

/-- A field of the GOLDEN section as it stands in hub SRAM (R151). -/
def State.gold (s : State) (off n : Nat) : Nat := leNat (s.bytesAt (s.goldBase + off) n)

/-- Golden entry `n`. -/
def State.goldCfg (s : State) (n : Nat) : GoldCfg :=
  let g (o k : Nat) : Nat := s.gold (64 * n + o) k
  ⟨g 0 2, g 2 2, g 4 4, g 8 4, g 0xC 4, g 0x10 2, g 0x12 2⟩

/-- Bytes of a line on the link; of YUV, of the line's parity. -/
def lineBytes (dt w r : Nat) : Nat :=
  match dt with
  | 0x18 => if r % 2 = 1 then 2 * w else w
  | 0x2A => w
  | 0x2B => (w + 3) / 4 * 5
  | 0x2C => (w + 1) / 2 * 3
  | 0x2D => (w + 3) / 4 * 7
  | 0x2E => 2 * w
  | 0x2F => (w + 1) / 2 * 5
  | _ => 3 * w

/-- The input rows of a golden entry, one after another as on the link. -/
def State.goldRows (s : State) (g : CtxCfg) (e : GoldCfg) : Map (List Byte) :=
  (List.range e.lines).map (fun r =>
    (r, s.bytesAt (s.goldBase + e.input + ((List.range r).map (lineBytes g.dt e.width)).foldl (· + ·) 0) (lineBytes g.dt e.width r)))

/-- Bytes of one output sample. -/
def CtxCfg.sampleBytes (g : CtxCfg) : Nat := if g.format = 1 then 2 else 1

/-- Output samples of a golden run that differ from the expected ones by more than the tolerance (R154).  `errs` gives, by its
running number, a sample that the pipe got wrong and what it gave. -/
def State.goldBeyond (s : State) (g : CtxCfg) (e : GoldCfg) (errs : List (Nat × Nat)) : Nat :=
  let rows := s.goldRows g e
  let codes := g.allCodes e.width e.lines rows
  let lin := s.allLinear g codes
  let n := g.sampleBytes
  let st := Config.ispOpen 18 ((s.bytesAt (s.goldBase + e.state) (s.goldLength - e.state)).map (fun b => b.toNat))
  let out := ((List.range e.lines).map (fun r => s.mainRow g e.width e.lines st rows codes lin r)).flatten
  let samples := (out.map (fun (p : PlaneRow) => (List.range (p.bytes.length / n)).map (fun i =>
    (leNat ((p.bytes.drop (i * n)).take n), s.gold (e.expect + p.off + i * n) n)))).flatten
  ((samples.mapIdx (fun i (q : Nat × Nat) =>
    let v := match errs.find? (fun (x : Nat × Nat) => x.1 == i) with
      | some x => x.2 % 256 ^ n
      | none => q.1
    (v, q.2))).filter (fun (q : Nat × Nat) => decide (e.tolerance < (if q.1 ≤ q.2 then q.2 - q.1 else q.1 - q.2)))).length

end Sys2Proof.Machine
end

