-- ==== Sys2Proof/Machine/Hash.lean ====
section
/-! DEFINITION. The two digests the manual names in its formats: CRC-32C (Table TSN-5, EVR-1, SAF-7) and SHA-256 (R41, R42),
computed bit by bit as their published definitions give them (PRESUMED: the manual names them and gives no tables; log entry 9). -/

namespace Sys2Proof.Machine

open Sys2Proof

/-! ### CRC-32C -/

/-- One bit step of the reflected Castagnoli polynomial. -/
def crcBit (c : Word) : Word := if c.getLsbD 0 then (c >>> 1) ^^^ 0x82F63B78 else c >>> 1

/-- One byte. -/
def crcByte (c : Word) (b : Byte) : Word :=
  crcBit (crcBit (crcBit (crcBit (crcBit (crcBit (crcBit (crcBit (c ^^^ b.zeroExtend 32))))))))

/-- CRC-32C of a byte list. -/
def crc32c (l : List Byte) : Word := ~~~ (l.foldl crcByte 0xFFFFFFFF)

/-! ### SHA-256 (FIPS 180-4)

The eight working variables of a round are two runs of four: the values that the first and the fifth variable had in the last four
rounds, newest first.  Words are numbers below 2^32. -/

/-- The round constants in one number, that of round 0 in its lowest 32 bits. -/
def shaK : Nat :=
  ((0xc67178f2bef9a3f7a4506ceb90befffa8cc7020884c8781478a5636f748f82ee682e6ff35b9cca4f4ed8aa4a391c0cb334b0bcb52748774c1e376c0819a4c116 * 2 ^ 512 +
    0x106aa070f40e3585d6990624d192e819c76c51a3c24b8b70a81a664ba2bfe8a192722c8581c2c92e766a0abb650a735453380d134d2c6dfc2e1b213827b70a85) * 2 ^ 512 +
    0x1429296706ca6351d5a79147c6e00bf3bf597fc7b00327c8a831c66d983e515276f988da5cb0a9dc4a7484aa2de92c6f240ca1cc0fc19dc6efbe4786e49b69c1) * 2 ^ 512 +
    0xc19bf1749bdc06a780deb1fe72be5d74550c7dc3243185be12835b01d807aa98ab1c5ed5923f82a459f111f13956c25be9b5dba5b5c0fbcf71374491428a2f98

/-- The chaining value before the first block, word 0 in its lowest 32 bits. -/
def shaInit : Nat := 0x5be0cd191f83d9ab9b05688c510e527fa54ff53a3c6ef372bb67ae856a09e667

/-- Word `i` of a number that packs words. -/
def packed (n i : Nat) : Nat := n / 4294967296 ^ i % 4294967296

/-- A word turned right by `n` places. -/
def turn (x n : Nat) : Nat := x / 2 ^ n + x % 2 ^ n * 2 ^ (32 - n)

/-- The exclusive or of three words. -/
def xor3 (x y z : Nat) : Nat := (x ^^^ y) ^^^ z

/-- Where a block's digest stands: the two runs, newest first, and the next sixteen words of the message schedule, oldest first. -/
structure ShaRun where
  top : List Nat
  mid : List Nat
  next : List Nat
  deriving DecidableEq, Repr

/-- One round with its constant: both runs take a new value, the schedule moves on by a word. -/
def ShaRun.round (r : ShaRun) (k : Nat) : ShaRun :=
  let a (i : Nat) : Nat := nth 0 r.top i
  let e (i : Nat) : Nat := nth 0 r.mid i
  let w (i : Nat) : Nat := nth 0 r.next i
  let choice := (e 0 &&& e 1) ^^^ ((4294967295 - e 0) &&& e 2)
  let most := xor3 (a 0 &&& a 1) (a 0 &&& a 2) (a 1 &&& a 2)
  let t := e 3 + xor3 (turn (e 0) 6) (turn (e 0) 11) (turn (e 0) 25) + choice + k + w 0
  let u := xor3 (turn (a 0) 2) (turn (a 0) 13) (turn (a 0) 22) + most
  let fresh := w 0 + xor3 (turn (w 1) 7) (turn (w 1) 18) (w 1 / 8) + w 9 + xor3 (turn (w 14) 17) (turn (w 14) 19) (w 14 / 1024)
  { top := (t + u) % 4294967296 :: r.top.take 3
    mid := (a 3 + t) % 4294967296 :: r.mid.take 3
    next := r.next.drop 1 ++ [fresh % 4294967296] }

/-- The chaining value after a block of 64 bytes. -/
def shaAbsorb (h : Nat) (block : List Byte) : Nat :=
  let start : ShaRun := ⟨[packed h 0, packed h 1, packed h 2, packed h 3], [packed h 4, packed h 5, packed h 6, packed h 7],
    (List.range 16).map (fun i => beNat ((block.drop (4 * i)).take 4))⟩
  let stop := (List.range 64).foldl (fun (r : ShaRun) t => r.round (packed shaK t)) start
  (stop.top ++ stop.mid).zipIdx.foldl (fun n p => n + (packed h p.2 + p.1) % 4294967296 * 4294967296 ^ p.2) 0

/-- What stands behind a message of `n` bytes: a one bit, zeros up to the last eight bytes of a block, the length in bits. -/
def shaTail (n : Nat) : List Byte := 0x80 :: List.replicate (63 - (n + 8) % 64) 0 ++ toBE 8 (8 * n)

/-- SHA-256 as 32 bytes. -/
def sha256Bytes (l : List Byte) : List Byte :=
  let whole := l ++ shaTail l.length
  let h := (List.range (whole.length / 64)).foldl (fun h b => shaAbsorb h ((whole.drop (64 * b)).take 64)) shaInit
  ((List.range 8).map (fun i => toBE 4 (packed h i))).flatten

/-- The number that an identity's bytes hold, byte 0 in bits [7:0]. -/
def Hash.ofBytes (l : List Byte) : Hash := BitVec.ofNat 256 (leNat l)

/-- SHA-256 as an identity. -/
def sha256 (l : List Byte) : Hash := Hash.ofBytes (sha256Bytes l)

end Sys2Proof.Machine
end

