-- ==== Sys2Proof/Machine/Sequencer.lean ====
section
/-! DEFINITION. The die sequencer's part of the frame graph (chapter 03): node instances, their inputs, release, completion,
completion records, windows, and frame starts as they take effect on a C-die. -/

namespace Sys2Proof.Machine

open Sys2Proof

/-! ### Instances -/

/-- Change an instance. -/
def State.modInst (s : State) (d node : Nat) (f : Word) (g : Inst → Inst) : State :=
  s.modSeq d (fun q => { q with insts := q.insts.map (fun i => if i.node = node ∧ i.frame = f then g i else i) })

/-- An earlier instance of the same node is still incomplete (R84). -/
def State.earlierOpen (s : State) (d node : Nat) (f : Word) : Bool :=
  (s.die d).seq.insts.any (fun i => i.node == node && !i.complete && precedes i.frame f)

/-- The latest DONE or SUBSTITUTED instance of a node since its die's latest start (R82, R85). -/
def State.lastGood (s : State) (d node : Nat) : Option Word := Map.get none (s.die d).seq.lastGood node

/-- The distance back to a held result, in the 8 bits of held_delta.  DESIGN CHOICE (log entry 66): a result more than 255 frames back gives
the distance modulo 256, for the manual gives no rule. -/
def heldDelta (f good : Word) : Nat := (f - good).toNat % 256

/-- A status that a successor sees as a skipped input. -/
def Status.skips : Status → Bool
  | .skipped | .cancelled | .timeout | .poisoned => true
  | _ => false

/-- An edge event takes its effect on an instance: one decrement, and its marks (R73, R80).  DESIGN CHOICE (log entry 66): of several held
inputs the latest event gives the distance, for the manual says nothing. -/
def Inst.decrement (i : Inst) (e : EdgeEvent) : Inst :=
  { i with count := i.count - 1, skipped := i.skipped || e.skipped, held := i.held || e.held,
           heldDelta := if e.held then e.heldDelta else i.heldDelta }

/-- An edge event reaches a die: its instance takes it, or it waits for the instance to be created; an event for an instance
that will never exist is dropped. -/
def State.deliverEdge (s : State) (d : Nat) (e : EdgeEvent) : State :=
  match s.inst d e.node e.frame with
  | some i => if i.complete then s else s.modInst d e.node e.frame (fun i => i.decrement e)
  | none =>
    let q := (s.die d).seq
    if q.frames.any (fun f => f.start.frame == e.frame) && !q.toCreate.any (fun p => p.1 == e.node && p.2.start.frame == e.frame)
    then s
    else s.modSeq d (fun q => { q with early := q.early ++ [e] })

/-- A node that does not run on frame f by its rate (or has none of its results yet) gives a held input, or a skipped one
where it has no DONE or SUBSTITUTED instance (R82). -/
def State.rateInput (s : State) (p m node : Nat) (f : Word) : EdgeEvent :=
  match s.lastGood p m with
  | some g => ⟨node, f, false, true, heldDelta f g⟩
  | none => ⟨node, f, true, false, 0⟩

/-- The inputs of an instance that are satisfied at its creation: by rate (R82), for want of a previous frame (R83), and on a
rejoining frame from other dies (R485).  A previous frame is wanting on a die's first frame since it started; later, the hub has told the
die of every frame that another one abandoned (R485), and those edges come by that way. -/
def State.atCreation (s : State) (d node : Nat) (df : DieFrame) : List EdgeEvent :=
  let f := df.start.frame
  ((s.inEdges df.start.variants d node).map (fun e =>
    let (p, m, k) := e
    let pd := s.node (nth 0 df.start.variants p) m
    let first := (s.die d).seq.firstFrame == some f
    if df.rejoin && p != d then [EdgeEvent.mk node f true false 0]
    else match k with
      | .same => if pd.runsOn f then [] else [s.rateInput p m node f]
      | .prev =>
        if !pd.runsOn (f - 1) then [s.rateInput p m node f]
        else if first then [EdgeEvent.mk node f true false 0] else []
      | _ => [])).flatten

/-- Create a node's instance for a frame (R80): its count is pred_count less what is satisfied already. -/
def State.createInst (s : State) (d node : Nat) (df : DieFrame) : State :=
  let f := df.start.frame
  let nd := s.node df.variant node
  let q := (s.die d).seq
  let mine := s.atCreation d node df ++ q.early.filter (fun e => e.node == node && e.frame == f)
  let i : Inst :=
    ⟨node, f, df.start.dt, df.variant, nd.preds, false, false, 0, false, false, false, false, none,
     if nd.kind == .tasks then nd.tasks else 0, false, false,
     false, false, .done, false⟩
  let i := mine.foldl Inst.decrement i
  let i := if df.rejoin && nd.kind == .source then { i with ended := some .skipped } else i
  let srcEnd := if nd.kind == .source then q.srcEnds.find? (fun (e : Nat × Word × Status) => e.1 == nd.stream && e.2.1 == f) else none
  let i := match srcEnd with
    | some e => { i with ended := some e.2.2 }
    | none => i
  s.modSeq d (fun q =>
    { q with insts := q.insts ++ [i]
             early := q.early.filter (fun e => !(e.node == node && e.frame == f))
             srcEnds := match srcEnd with
               | some e => q.srcEnds.erase e
               | none => q.srcEnds
             toCreate := q.toCreate.filter (fun p => !(p.1 == node && p.2.start.frame == f)) })

/-- Fewer than `depth` instances of a node exist (R80): an instance exists until it completes. -/
def State.roomFor (s : State) (d node variant : Nat) : Bool :=
  decide (((s.die d).seq.insts.filter (fun i => i.node == node && !i.complete)).length < (s.node variant node).depth)

/-! ### Records -/

/-- The record of a task that never ran, built from its instance's state (R85, R124).  DESIGN CHOICE (log entry 67): no unit ran it, and
the two fields of word 3 that name one are zero. -/
def State.unrunRecord (s : State) (d : Nat) (i : Inst) (nd : NodeDesc) (index : Nat) (st : Status) : Owed :=
  ⟨⟨i.node, index, st, false, i.skipped || i.marked, i.held, decide (s.deviceTime < i.startDt + nd.winOpen), i.frame,
    s.deviceTime, d, 0, 0, 0⟩, nd.cq, none, false, none, false⟩

/-- Records become owed.  DESIGN CHOICE (log entry 71): those of tasks that have no slot wait beside the withheld-record store's 4,096 when it is
full, for the manual names no other place. -/
def State.owe (s : State) (d : Nat) (l : List Owed) : State := s.modSeq d (fun q => { q with owed := q.owed ++ l })

/-- A record may be written by R84: it is a software-pushed task's, or no earlier instance of its node is incomplete. -/
def State.mayWrite (s : State) (d : Nat) (o : Owed) : Bool := o.sw || !s.earlierOpen d o.record.node o.record.frame

/-- Write an owed record into its completion queue: the record, then the producer index, then the slot's freeing, then the
task's flag (R79, R93, R103, R115, R581). -/
def State.writeOwed (s : State) (d : Nat) (o : Owed) : State :=
  let marked := !o.sw && ((s.inst d o.record.node o.record.frame).map (fun i => i.marked)).getD false
  let r : Rec := { o.record with skippedIn := o.record.skippedIn || marked }
  let s1 := s.modSeq d (fun q => { q with owed := q.owed.erase o })
  let s2 := if s1.queueKind d o.cq == .cq then s1.appendRing d o.cq r.bytes else s1
  let s3 := match o.slot with
    | some k => s2.freeTheSlot d k
    | none => s2
  let s4 := if o.sw then s3 else s3.modInst d r.node r.frame (fun i =>
    { i with left := i.left - 1, poisoned := i.poisoned || r.status == .poisoned,
             cancelled := i.cancelled || r.status == .cancelled })
  match o.post with
  | some (pd, pf) => if r.status = .done ∨ r.status = .substituted then s4.flagPost (seqKey d) d pd pf 1 else s4
  | none => s4

/-- The record's completion queue is full (R116). -/
def State.cqFull (s : State) (d cq : Nat) : Bool :=
  s.queueKind d cq == .cq && (s.ringOf d cq).full (s.queue d cq)

/-- A refused record is counted once (R116). -/
def State.refuseOwed (s : State) (d : Nat) (o : Owed) : State :=
  if o.refused then s
  else (s.bumpF d .dspQRefused_count 0 o.cq).modSeq d
    (fun q => { q with owed := q.owed.map (fun x => if x = o then { x with refused := true } else x) })

/-! ### Release (R80, R85) -/

/-- The instance's trigger is met. -/
def Inst.triggered (i : Inst) (nd : NodeDesc) : Bool :=
  match nd.trigger with
  | .deps => i.count == 0
  | .frame => i.offsetMet
  | .both => i.count == 0 && i.offsetMet
  | .reserved => false

/-- A frame still has instances on a die, or some to be created. -/
def Sequencer.live (q : Sequencer) (f : Word) : Bool :=
  q.insts.any (fun i => i.frame == f && !i.complete) || q.toCreate.any (fun p => p.2.start.frame == f)

/-- The variant fence before a frame: an earlier frame that is not over runs under another variant (R97). -/
def Sequencer.fenced (q : Sequencer) (f : Word) (v : Nat) : Bool :=
  q.frames.any (fun g => precedes g.start.frame f && g.variant != v && q.live g.start.frame)

/-- The instance may be released: triggered, under the loaded variant and behind no fence (R97), and before its window's close (R90). -/
def State.releasable (s : State) (d : Nat) (i : Inst) : Bool :=
  let nd := s.node i.variant i.node
  let q := (s.die d).seq
  !i.released && !i.complete && !i.late && i.ended.isNone && i.triggered nd && q.loaded == some i.variant &&
    !q.fenced i.frame i.variant && decide (s.deviceTime < i.startDt + nd.winClose)

/-- The status a skipped input gives an instance by its policy, when none of its tasks runs (R85). -/
def State.policyStatus (s : State) (d : Nat) (i : Inst) (nd : NodeDesc) : Status :=
  match nd.skip with
  | .propagate => .skipped
  | .substitute => .substituted
  | .hold => if (s.lastGood d i.node).isSome then .held else .skipped
  | .run => .done
  | .reserved => .skipped

/-- The host ingress ring `q` holds a message stamped with frame f (Table GRF-2, R435). -/
def State.ringHasFrame (s : State) (d q : Nat) (f : Word) : Bool :=
  let e := s.queue d q
  let r := s.ringOf d q
  (List.range (r.depth e)).any (fun k => s.memLE (e.addr (r.cons + k)) 4 == f.toNat)

/-- The ring an INGRESS node names: the node's ingress ring index on its die. -/
def State.ingressRing (s : State) (d : Nat) (nd : NodeDesc) : Nat :=
  let p := s.plan d
  0x400 + p.dma + p.cq + p.relay + nd.stream

/-- Hand an instance's tasks to dispatch. -/
def State.releaseTasks (s : State) (d : Nat) (i : Inst) (nd : NodeDesc) (alt : Bool) : State :=
  let ts := (List.range nd.tasks).map (fun k =>
    HeldTask.mk (s.taskOf nd i.variant k i.frame alt (i.skipped || i.marked) i.held i.heldDelta) alt false false)
  ((s.modSeq d (fun q => { q with heldTasks := q.heldTasks ++ ts })).modInst d i.node i.frame
    (fun i => { i with substitute := alt })).dspStatus d

/-- One record per task, with a status. -/
def State.oweAll (s : State) (d : Nat) (i : Inst) (nd : NodeDesc) (st : Status) : State :=
  s.owe d ((List.range nd.tasks).map (fun k => s.unrunRecord d i nd k st))

/-- Release an instance: a TASKS instance hands over its tasks or acts by its skip policy, the other kinds act as Table
GRF-2 and R86 state. -/
def State.release (s : State) (d : Nat) (i : Inst) : State :=
  let nd := s.node i.variant i.node
  let s0 := s.modInst d i.node i.frame (fun i => { i with released := true })
  let finish (s : State) (st : Status) : State := s.modInst d i.node i.frame (fun i => { i with ended := some st })
  match nd.kind with
  | .tasks =>
    if i.cancelAtRelease then s0.oweAll d i nd .cancelled
    else if i.skipped then
      match nd.skip with
      | .propagate => (finish s0 .skipped).oweAll d i nd .skipped
      | .substitute => s0.releaseTasks d i nd true
      | .run => s0.releaseTasks d i nd false
      | .hold => (finish s0 (s.policyStatus d i nd)).modInst d i.node i.frame (fun i => { i with left := 0 })
      | .reserved => (finish s0 .skipped).modInst d i.node i.frame (fun i => { i with left := 0 })
    else s0.releaseTasks d i nd false
  | .ingress =>
    if i.skipped && nd.skip != .run then finish s0 (s.policyStatus d i nd)
    else if s.ringHasFrame d (s.ingressRing d nd) i.frame then finish s0 .done else s0
  | _ => s0

/-! ### Completion (R72, R84, R87) -/

/-- The instance can complete: its kind's condition holds and no earlier instance of the node is incomplete. -/
def State.completable (s : State) (d : Nat) (i : Inst) : Bool :=
  let nd := s.node i.variant i.node
  !i.complete && !s.earlierOpen d i.node i.frame &&
  match nd.kind with
  | .tasks => (i.released || i.late) && i.left == 0
  | .barrier => i.ended.isSome || (i.released && i.count == 0)
  | _ => i.ended.isSome

/-- An instance's status by the precedence of R87, with the marks of R75; an OUTPUT instance so marked is SKIPPED (R86). -/
def State.finalStatus (s : State) (d : Nat) (i : Inst) : Status :=
  let nd := s.node i.variant i.node
  if i.late then .timeout
  else if i.poisoned then .poisoned
  else if i.cancelled then .cancelled
  else if i.marked && nd.kind == .output then .skipped
  else if i.marked then
    match nd.skip with
    | .propagate | .substitute | .reserved => .skipped
    | .hold => if (s.lastGood d i.node).isSome then .held else .skipped
    | .run => .done
  else match i.ended with
    | some st => st
    | none =>
      if nd.kind == .barrier && i.skipped then s.policyStatus d i nd else if i.substitute then .substituted else .done

/-- A window trip: counted, and the first latched with its node and frame (R89, Table GRF-14). -/
def State.trip (s : State) (d node : Nat) (f : Word) (late : Bool) : State :=
  let s1 := s.bumpF d (if late then .seqWdCount_late else .seqWdCount_early)
  let s2 := if s1.getF d .seqWdFirst_valid = 1 then s1
    else ((((s1.setF d .seqWdFirst_node node).setF d .seqWdFirst_late (bit late)).setF d .seqWdFirst_early (bit (!late))).setF d
      .seqWdFrame_value f.toNat).setF d .seqWdFirst_valid 1
  s2.doubt (if late then dLATE else dEARLY) d f node

/-- What a completed instance of status st sends along an edge to a successor's instance for frame f. -/
def State.edgeEvent (s : State) (d node : Nat) (st : Status) (e : Edge) (f : Word) : EdgeEvent :=
  match st with
  | .held => match s.lastGood d node with
    | some g => ⟨e.node, f, false, true, heldDelta f g⟩
    | none => ⟨e.node, f, true, false, 0⟩
  | _ => ⟨e.node, f, st.skips, false, 0⟩

/-- Send an edge event: at once on the die itself, by a completion notice to another (R74).  A notice bound for a die in
restart is discarded (R485). -/
def State.sendEdge (s : State) (d dst : Nat) (e : EdgeEvent) : State :=
  if dst = d then s.deliverEdge d e
  else if (s.die dst).restart.isSome then s
  else { s with notices := s.notices ++ [⟨d, dst, e⟩] }

/-- The frame is the one on which a die rejoined after a restart: the other dies were told that its nodes completed SKIPPED (R485). -/
def State.rejoined (s : State) (d : Nat) (f : Word) : Bool :=
  (s.die d).seq.frames.any (fun (g : DieFrame) => g.rejoin && g.start.frame == f)

/-- The edges of a completed instance; those to other dies of the rejoining frame are discarded there (R485). -/
def State.sendEdges (s : State) (d : Nat) (i : Inst) (st : Status) : State :=
  let told := s.rejoined d i.frame
  (s.outEdges i.variant i.node).foldl (fun s e =>
    if told && e.die != d then s
    else match e.kind with
    | .same => s.sendEdge d e.die (s.edgeEvent d i.node st e i.frame)
    | .prev => s.sendEdge d e.die (s.edgeEvent d i.node st e (i.frame + 1))
    | _ => s) s

/-- A SOURCE instance that completes SKIPPED marks its STREAM successors of the same frame in the same cycle (R75); one that is yet to be
created finds the mark on the events that wait for it. -/
def State.markStream (s : State) (d : Nat) (i : Inst) : State :=
  (s.outEdges i.variant i.node).foldl (fun s e =>
    if e.kind == .stream && e.die == d then
      (s.modInst d e.node i.frame (fun x =>
        if x.complete then x else if x.released then { x with marked := true } else { x with skipped := true })).modSeq d (fun q =>
          { q with early := q.early.map (fun y => if y.node = e.node ∧ y.frame = i.frame then { y with skipped := true } else y) })
    else s) s

/-- Keep SEQ_STATUS, SEQ_FRAME_OLDEST and SEQ_FRAME_NEWEST.  DESIGN CHOICE (log entry 68): while no frame has instances on the die, the two
frame numbers stay as they were. -/
def State.seqRegs (s0 : State) (d : Nat) : State :=
  let s := s0.modSeq d (fun q => { q with
    fence := q.loaded.isSome && q.frames.any (fun g => some g.variant != q.loaded && q.live g.start.frame) })
  let q := (s.die d).seq
  let live := q.frames.filter (fun f => q.live f.start.frame)
  let s1 := (((s.setF d .seqStatus_in_flight live.length).setF d .seqStatus_fence (bit q.fence)).setF d .seqStatus_held_start
    (bit !q.heldStarts.isEmpty)).setF d .seqStatus_variant ((q.frames.getLast?.map (fun f => f.variant)).getD 0)
  match live.head?, live.getLast? with
  | some a, some b => (s1.setF d .seqFrameOldest_value a.start.frame.toNat).setF d .seqFrameNewest_value b.start.frame.toNat
  | _, _ => s1

/-- Complete an instance: status, counters, done_flag, edges, the early rule and the STREAM mark. -/
def State.complete (s : State) (d : Nat) (i : Inst) : State :=
  let nd := s.node i.variant i.node
  let st := s.finalStatus d i
  let good := st == .done || st == .substituted
  let s1 := s.modInst d i.node i.frame (fun i => { i with complete := true, status := st })
  let s2 := if good then s1.modSeq d (fun q => { q with lastGood := Map.set none q.lastGood i.node (some i.frame) }) else s1
  let s3 := if st == .skipped || st == .substituted then s2.bumpF d .seqSkipCount_skipped
    else if st == .held then s2.bumpF d .seqSkipCount_held else s2
  let s4 := if good && nd.doneEn then s3.flagPost (seqKey d) d nd.doneDie nd.doneFlag 1 else s3
  let s5 := if s.deviceTime < i.startDt + nd.winOpen then s4.trip d i.node i.frame false else s4
  let s6 := if nd.kind == .source && st == .skipped then s5.markStream d i else s5
  (s6.sendEdges d i st).seqRegs d

/-! ### Settling a die -/

/-- The next thing that a die sequencer can do by itself: create an instance whose depth allows it, release one, complete
one, or write a record from the withheld-record store. -/
def State.settleStep (s : State) (d : Nat) : Option State :=
  let q := (s.die d).seq
  match q.toCreate.find? (fun p => s.roomFor d p.1 p.2.variant) with
  | some p => some (s.createInst d p.1 p.2)
  | none =>
    match q.insts.find? (fun i => s.releasable d i) with
    | some i => some (s.release d i)
    | none =>
      match q.insts.find? (fun i => s.completable d i) with
      | some i => some (s.complete d i)
      | none =>
        match q.owed.find? (fun o => o.slot.isNone && s.mayWrite d o && !s.cqFull d o.cq) with
        | some o => some (s.writeOwed d o)
        | none =>
          match q.owed.find? (fun o => o.slot.isNone && s.mayWrite d o && !o.refused) with
          | some o => some (s.refuseOwed d o)
          | none => none

/-- Do those things while there are any. -/
def State.settleFuel : Nat → State → Nat → State
  | 0, s, _ => s
  | n + 1, s, d => match s.settleStep d with
    | some t => State.settleFuel n t d
    | none => s

/-- Settle a die; the bound is more than its instances and owed records can use. -/
def State.settle (s : State) (d : Nat) : State :=
  let q := (s.die d).seq
  (State.settleFuel (8 * (q.toCreate.length + q.insts.length + 1) * 8 + 4 * q.owed.length + 20000) s d).seqRegs d |>.dspStatus d

/-! ### SOURCE instances (R73, R75, R149) -/

/-- The SOURCE node of a context on a die, in the variant of a frame that has started there. -/
def State.sourceNode (s : State) (d ctx : Nat) (f : Word) : Option (Nat × Nat) :=
  let q := (s.die d).seq
  let df := (q.starts ++ q.heldStarts ++ q.frames).find? (fun (g : DieFrame) => g.start.frame == f)
  match df with
  | none => none
  | some g => ((List.range (s.variant g.variant).nodes).find? (fun n =>
      let nd := s.node g.variant n
      nd.kind == .source && nd.stream == ctx && nd.runsOn f)).map (fun n => (g.variant, n))

/-- The STREAM edge event of a context's frame on a die. -/
def State.streamEvent (s : State) (d ctx : Nat) (f : Word) (skipped : Bool) : State :=
  match s.sourceNode d ctx f with
  | none => s
  | some (v, n) =>
    ((s.outEdges v n).foldl (fun (s : State) e =>
      if e.kind == .stream && e.die == d then s.deliverEdge d ⟨e.node, f, skipped, false, 0⟩ else s) s).settle d

/-- A context's SOURCE instance for a frame completes on a die, as soon as R84 lets it. -/
def State.endSource (s : State) (d ctx : Nat) (f : Word) (st : Status) : State :=
  match s.sourceNode d ctx f with
  | none => s
  | some (_, n) =>
    match s.inst d n f with
    | some _ => (s.modInst d n f (fun i => if i.ended.isNone && !i.late then { i with ended := some st } else i)).settle d
    | none => s.modSeq d (fun q => { q with srcEnds := q.srcEnds ++ [(ctx, f, st)] })

/-! ### Cancellation (R122–R125) and the late rule (R89, R387) -/

/-- Cancel the tasks of an instance that have not been dispatched: held ones, and WAITING or READY ones; the count of them. -/
def State.cancelTasks (s : State) (d : Nat) (i : Inst) (nd : NodeDesc) : State × Nat :=
  let q := (s.die d).seq
  let mine (t : TaskDesc) : Bool := t.node == i.node && t.frame == i.frame
  let held := q.heldTasks.filter (fun h => mine h.desc)
  let slots := q.slots.filter (fun p => !p.2.sw && mine p.2.desc && (p.2.state == .waiting || p.2.state == .ready))
  let s1 := slots.foldl (fun s p => (s.leaveList d p.1).freeTheSlot d p.1) s
  let s2 := s1.modSeq d (fun q => { q with heldTasks := q.heldTasks.filter (fun h => !mine h.desc) })
  ((s2.owe d ((held.map (fun h => s.unrunRecord d i nd h.desc.index .cancelled)) ++
      (slots.map (fun p => s.unrunRecord d i nd p.2.desc.index .cancelled)))).dspStatus d,
   held.length + slots.length)

/-- Codeword 0 of a descriptor is rewritten with owner = 0 (R377). -/
def State.disown (s : State) (a : Nat) : State :=
  let f := (s.byteRead (a + 1)).toNat
  s.write a (s.read a 1 ++ [BitVec.ofNat 8 (f - f % 2)] ++ s.read (a + 2) 14)

/-- A descriptor in a ring is written STOPPED and given back to software (R387). -/
def State.stopDesc (s : State) (a : Nat) : State :=
  (s.write (a + 0x30) ([0x02, 0] ++ List.replicate 14 0)).disown a

/-- The channel of a SEQUENCER ring goes past the stopped descriptors at the ring's head, and the ring's consumer index with it (R114, R387). -/
def State.passStopped (s : State) (d q : Nat) : State :=
  let owners := Map.get [] (s.die d).seq.dmaOwners q
  let n := (owners.takeWhile (fun o => o.isNone)).length
  if n = 0 then s
  else
    let s1 := (List.range n).foldl (fun (s : State) _ => s.popRing d q) s
    (s1.modSeq d (fun r => { r with dmaOwners := Map.set [] r.dmaOwners q (owners.drop n) })).modChan d (ringChan q) (fun c =>
      { c with index := (c.index + n) % (s.queue d q).size, pending := true })

/-- A DMA task is stopped: its descriptors that have not completed are written STOPPED, the channel goes on behind them, and
the task records TIMEOUT (R387). -/
def State.stopDmaTask (s : State) (d k : Nat) (x : Slot) (i : Inst) (nd : NodeDesc) : State :=
  let q := x.dmaRing
  let owners := Map.get [] (s.die d).seq.dmaOwners q
  let e := s.queue d q
  let c := s.chan d (ringChan q)
  let idx := (List.range owners.length).filter (fun j => owners.getD j none == some k)
  let s1 := idx.foldl (fun s j => s.stopDesc (e.addr (c.index + j))) s
  let s2 := if owners.head? = some (some k) then
      s1.modChan d (ringChan q) (fun c => { c with
        state := .idle, pending := true, more := false, offset := 0, mask := 0, noresp := false, poison := false, hard := false,
        recordDue := none, held := none })
    else s1
  let s3 := (s2.modSeq d (fun r => { r with
    dmaOwners := Map.modify [] r.dmaOwners q (fun l => l.map (fun o => if o = some k then none else o)) })).passStopped d q
  let o := s.unrunRecord d i nd x.desc.index .timeout
  (s3.modSlot d k (fun y => { y with state := .withheld })).owe d
    [{ o with slot := some k, record := { o.record with group := 6, core := ringChan q / 64, oor := x.dmaOor } }]

/-- The late rule for one instance. -/
def State.lateRule (s : State) (d : Nat) (i : Inst) : State :=
  let nd := s.node i.variant i.node
  let s1 := s.modInst d i.node i.frame (fun i => { i with late := true })
  let s2 := match nd.kind with
    | .tasks =>
      let s2 := if i.released then s1 else s1.oweAll d i nd .cancelled
      let s3 : State := (s2.cancelTasks d i nd).1
      let mine := (s3.die d).seq.slots.filter (fun (p : Nat × Slot) =>
        !p.2.sw && p.2.desc.node == i.node && p.2.desc.frame == i.frame && p.2.state == SlotState.running)
      mine.foldl (fun (s : State) (p : Nat × Slot) =>
        if p.2.desc.kind = 6 then s.stopDmaTask d p.1 p.2 i nd
        else s.modSlot d p.1 (fun x => { x with stopped := true, stopDt := s.deviceTime })) s3
    | _ => s1.modInst d i.node i.frame (fun i => { i with ended := some .timeout })
  s2.trip d i.node i.frame true

/-! ### Frame starts on a C-die -/

/-- Publish a die's per-frame values (R126) and reset every arbiter (R121). -/
def State.frameEdge (s : State) (d : Nat) : State :=
  (s.publishFrame d).modSeq d (fun q => { q with arbiters := [] })

/-- A frame start message takes effect: the nodes that run on the frame get their instances as depth allows, and a change
of variant raises the fence (R80, R82, R97). -/
def State.startEffect (s : State) (d : Nat) (df : DieFrame) : State :=
  let f := df.start.frame
  let ns := (List.range (s.variant df.variant).nodes).filter (fun n => (s.node df.variant n).runsOn f)
  let s1 := (s.frameEdge d).modSeq d (fun q =>
    let old := q.frames.filter (fun g => q.live g.start.frame)
    { q with frames := old ++ [df]
             insts := q.insts.filter (fun i => !i.complete || decide ((f - i.frame).toNat < 4))
             early := q.early.filter (fun e => decide ((f - e.frame).toNat ≥ 2 ^ 31 ∨ (f - e.frame).toNat < 8))
             srcEnds := q.srcEnds.filter (fun e => decide ((f - e.2.1).toNat ≥ 2 ^ 31 ∨ (f - e.2.1).toNat < 8))
             toCreate := q.toCreate ++ ns.map (fun n => (n, df))
             loaded := if q.loaded.isNone then some df.variant else q.loaded
             firstFrame := if q.firstFrame.isNone then some f else q.firstFrame })
  (s1.seqRegs d).settle d

/-- Instances of the frame 4 earlier, or of four frames, still exist: the start must be held (R81). -/
def State.mustHold (s : State) (d : Nat) (f : Word) : Bool :=
  let q := (s.die d).seq
  q.insts.any (fun i => !i.complete && decide ((f - i.frame).toNat ≥ 4 ∧ (f - i.frame).toNat < 2 ^ 31)) ||
  q.toCreate.any (fun p => decide ((f - p.2.start.frame).toNat ≥ 4 ∧ (f - p.2.start.frame).toNat < 2 ^ 31))

/-- FRAME_START_EFFECT: 32 cycles after the start the message takes effect on the die, or is held (R69, R81). -/
def execFrameStartEffect (d : Nat) (s : State) : Result State :=
  match (s.die d).seq.starts with
  | [] => .next s
  | df :: rest =>
    if s.dieUp d && decide (df.start.dt + 32 ≤ s.deviceTime) then
      let s1 := s.modSeq d (fun q => { q with starts := rest })
      if s1.mustHold d df.start.frame || !(s.die d).seq.heldStarts.isEmpty then
        let s2 := (s1.modSeq d (fun q => { q with heldStarts := q.heldStarts ++ [df] })).bumpF d .seqHeldStarts_value
        .next ((s2.raise 0x0202 (s2.die d).seq.heldStarts.length d).seqRegs d)
      else .next (s1.startEffect d df)
    else .next s

/-- HELD_START_EFFECT: the oldest held start takes effect once no instance of the frame 4 earlier exists (R81). -/
def execHeldStartEffect (d : Nat) (s : State) : Result State :=
  match (s.die d).seq.heldStarts with
  | [] => .next s
  | df :: rest =>
    if s.dieUp d && !s.mustHold d df.start.frame then
      .next ((s.modSeq d (fun q => { q with heldStarts := rest })).startEffect d df)
    else .next s

/-- FRAME_TRIGGER_OFFSET: a node's trigger_offset has elapsed since its frame's start (R80). -/
def execFrameTriggerOffset (d node : Nat) (f : Word) (s : State) : Result State :=
  if s.frz.stopped then .next s else
  match s.inst d node f with
  | some i =>
    if i.startDt + (s.node i.variant node).offset ≤ s.deviceTime ∧ i.complete = false then
      .next ((s.modInst d node f (fun i => { i with offsetMet := true })).settle d)
    else .next s
  | none => .next s

/-- COMPLETION_NOTICE: the oldest notice from one C-die reaches another (R74). -/
def execCompletionNotice (src dst : Nat) (s : State) : Result State :=
  match s.notices.find? (fun n => n.src == src && n.dst == dst) with
  | none => .next s
  | some n =>
    let s1 := { s with notices := s.notices.erase n }
    if s.dieUp dst && s.reach src dst then .next ((s1.deliverEdge dst n.ev).settle dst) else .next s1

/-- INGRESS_WINDOW_OPEN: an INGRESS instance whose window opens with no message completes SKIPPED (R91). -/
def execIngressWindowOpen (d node : Nat) (f : Word) (s : State) : Result State :=
  if s.frz.stopped then .next s else
  match s.inst d node f with
  | some i =>
    let nd := s.node i.variant node
    if nd.kind = .ingress ∧ i.ended = none ∧ i.complete = false ∧ i.startDt + nd.winOpen ≤ s.deviceTime then
      .next ((s.modInst d node f (fun i => { i with
        ended := some (if s.ringHasFrame d (s.ingressRing d nd) f then .done else .skipped) })).settle d)
    else .next s
  | none => .next s

/-- WIN_CLOSE: at win_close an incomplete instance falls to the late rule (R89, R90). -/
def execWinClose (d node : Nat) (f : Word) (s : State) : Result State :=
  if s.frz.stopped then .next s else
  match s.inst d node f with
  | some i =>
    if i.complete = false ∧ i.late = false ∧ i.startDt + (s.node i.variant node).winClose ≤ s.deviceTime then
      .next ((s.lateRule d i).settle d)
    else .next s
  | none => .next s

/-- VARIANT_LOAD: the fence has cleared, every instance of earlier frames being complete, and the new node table is loaded; the
positions of the new variant are filled again (R97, R508). -/
def execVariantLoad (d : Nat) (s : State) : Result State :=
  if s.frz.stopped then .next s else
  let q := (s.die d).seq
  match q.frames.find? (fun g => some g.variant != q.loaded && q.live g.start.frame) with
  | none => .next s
  | some g =>
    if q.fence && !q.insts.any (fun i => !i.complete && precedes i.frame g.start.frame) &&
        !q.toCreate.any (fun p => precedes p.2.start.frame g.start.frame) then
      .next (((s.modSeq d (fun q =>
        { q with loaded := some g.variant })).refill d (s.variant g.variant).cores).settle d)
    else .next s

end Sys2Proof.Machine
end

