-- ==== Sys2Proof/Machine/Streams.lean ====
section
/-! DEFINITION. Output streams and doubts (chapter 17, R423–R429): the Strainer's decisions, the transmit queues, cover, the
diversity check, and the latching and clearing of doubts with the recovery that each calls for (R446–R457, R466–R468, R476). -/

namespace Sys2Proof.Machine

open Sys2Proof

/-! ### Configuration -/

/-- An output stream entry (Table TSN-4) with its stream entry of the SAFETY section (Table SAF-5). -/
structure OutCfg where
  enable : Bool
  pcp : Nat
  decimate : Bool
  acf : Nat
  streamId : Nat
  dest : Nat
  vlan : Nat
  maxPayload : Nat
  backlog : Nat
  cosy : Nat
  deadline : Nat
  returnFrames : Nat
  deriving DecidableEq, Repr

/-- Stream `k`'s entry. -/
def State.outCfg (s : State) (k : Nat) : OutCfg :=
  let o := 0x280 + 64 * k
  let a := 0x100 + 16 * k
  ⟨decide (k < 64) && s.tsn o 1 == 1, s.tsn (o + 1) 1 % 8, s.tsn (o + 2) 1 == 1, s.tsn (o + 3) 1, s.tsn (o + 4) 8, s.tsn (o + 0xC) 6,
   s.tsn (o + 0x12) 2, s.tsn (o + 0x14) 4, s.tsn (o + 0x18) 4, s.tsn (o + 0x1C) 1, s.cad secSAFETY a 4, s.cad secSAFETY (a + 4) 1⟩

/-- The stream is paired with a Cosy stream (R450). -/
def OutCfg.paired (g : OutCfg) : Bool := g.cosy != 0xFF

/-- The entry lies within the ranges of Table SAF-5 (R584). -/
def OutCfg.ranged (g : OutCfg) : Bool := decide (1 ≤ g.deadline ∧ g.deadline < 2 ^ 20 ∧ 1 ≤ g.returnFrames)

/-- The enabled output streams. -/
def State.streamsOn (s : State) : List Nat := (List.range 64).filter (fun k => (s.outCfg k).enable)

/-- A stream as a cold start leaves it: MAIN, its first message marked (R450, R62). -/
def Stream.fresh : Stream := ⟨.main, 0, none, [], [], [], none, true, 0, 0, 0, []⟩

/-- Stream `k`. -/
def State.stream (s : State) (k : Nat) : Stream := Map.get Stream.fresh s.streams k

/-- Change a stream. -/
def State.modStream (s : State) (k : Nat) (f : Stream → Stream) : State :=
  { s with streams := Map.modify Stream.fresh s.streams k f }

/-- A diversity pair's entry (Table SAF-9). -/
structure DivCfg where
  kind : Nat
  die : Nat
  classicalNode : Nat
  neuralNode : Nat
  samples : Nat
  classical : Nat
  neural : Nat
  stride : Nat
  buffers : Nat
  absTol : Nat
  relTol : Nat
  maxFrac : Nat
  minCompared : Nat
  agreeK : Nat
  streams : Nat
  deriving DecidableEq, Repr

/-- Pair `q`'s entry. -/
def State.divCfg (s : State) (q : Nat) : DivCfg :=
  let g (o n : Nat) : Nat := s.cad secSAFETY (0xF00 + 64 * q + o) n
  ⟨g 0 1, g 1 1, g 2 2 % 4096, g 4 2 % 4096, g 6 2, g 8 5, g 0x10 5, g 0x18 4, g 0x1C 1, g 0x1D 1, g 0x1E 1, g 0x1F 1, g 0x20 2,
   g 0x22 1, g 0x28 8⟩

/-- The pairs that cover a stream. -/
def State.pairsOf (s : State) (k : Nat) : List Nat :=
  (List.range 32).filter (fun q => (s.divCfg q).kind != 0 && testBit (s.divCfg q).streams k)

/-- A pair's running state, and a change of it. -/
def DivPair.fresh : DivPair := ⟨[], 0, false⟩
def State.pair (s : State) (q : Nat) : DivPair := Map.get DivPair.fresh s.pairs q
def State.modPair (s : State) (q : Nat) (f : DivPair → DivPair) : State :=
  { s with pairs := Map.modify DivPair.fresh s.pairs q f }

/-- The verdict of a pair for a frame. -/
def State.verdict (s : State) (q : Nat) (f : Word) : Option Verdict :=
  ((s.pair q).verdicts.find? (fun (v : Word × Verdict) => v.1 == f)).map (·.2)

/-! ### Doubts and their scopes (R447, R455) -/

/-- A doubt with the stream in its scope is latched. -/
def State.doubted (s : State) (k : Nat) : Bool := s.saf.doubts.any (fun d => testBit d.scope k)

/-- A doubt of a class is latched. -/
def State.classOn (s : State) (cls : Nat) : Bool := s.saf.doubts.any (fun d => d.cause.cls == cls)

/-- The classes latched, as SAF_ACTIVE shows them. -/
def State.safRegs (s : State) : State :=
  let w := (List.range 21).foldl (fun n c => n + bit (s.classOn c) * 2 ^ c) 0
  let cold := s.saf.doubts.any (fun d => d.recovery == .coldStart)
  (s.setF 6 .safActive_classes w).setF 6 .safCount_cold_req (bit cold)

/-- All 64 streams. -/
def allStreams : Nat := 2 ^ 64 - 1

/-- A map entry as a scope: zero stands for all (R447). -/
def mapScope (m : Nat) : Nat := if m = 0 then allStreams else m

/-- The scope of a cause (R447); COSY_LINK has none, and the SELFTEST doubt of R477 has every stream. -/
def State.scopeOf (s : State) (d : DoubtCause) : Nat :=
  if d.cls = dCOSY_LINK then 0
  else if d.why = .dead then allStreams
  else
    let base := mapScope (s.cad secSAFETY (0x500 + 64 * d.cls + 8 * d.die) 8)
    if d.cls = dCAMERA then base ||| mapScope (s.cad secSAFETY (0xD00 + 8 * d.sub) 8)
    else if d.cls = dDIVERSITY then base ||| (s.divCfg d.sub).streams
    else if d.cls = dPOISON_OUT then base ||| 2 ^ d.sub
    else base

/-- The C-die is in a restart; absorbed causes are cleared by it (R477). -/
def State.restarting (s : State) (d : Nat) : Option Restart := (s.die d).restart

/-- A die restart, or the warm restart that a second one within 1 s becomes (R477); a cause on a die in restart is absorbed by that
restart. -/
def State.dieRecovery (s : State) (d : Nat) : Recovery :=
  match s.restarting d with
  | some r => if r.warm then .warmRestart else .dieRestart d
  | none =>
    if (s.die d).failed then .untilColdStart
    else
      let t := Map.get 0 s.saf.dieRestartAt d
      if t ≠ 0 ∧ s.deviceTime < t - 1 + 900000000 then .warmRestart else .dieRestart d

/-- The recovery of Table REC-2. -/
def State.recoveryOf (s : State) (d : DoubtCause) : Recovery :=
  if d.cls = dUNRECOVERED ∨ d.cls = dFLAG then s.dieRecovery d.die
  else if d.cls = dDIE_LINK then (if d.why = .ringLink then .warmRestart else s.dieRecovery d.die)
  else if d.cls = dMONITOR then
    (match d.why with
    | .clockPart => .clockSpare
    | .clockLastPart => .coldStart
    | _ => .warmRestart)
  else if d.cls = dGOLDEN_FAIL then .handover d.sub
  else if d.cls = dSELFTEST then
    (match d.why with
    | .noSpare => .variantChange d.die
    | .checker => s.dieRecovery d.die
    | .hubChecker => .warmRestart
    | .coverage => .forcedSlice d.die d.sub
    | _ => .untilColdStart)
  else if d.cls = dRELAY then .ringForm
  else if d.cls = dLOCKED_MEM ∨ d.cls = dSPARES ∨ d.cls = dREHASH ∨ d.cls = dSECURITY ∨ d.cls = dCOSY_LINK then .coldStart
  else .none

/-! ### Cover (R455) -/

/-- The Cosy stamp m lies from n − limit to n. -/
def stampWithin (m n : Word) (limit : Nat) : Bool := decide ((n - m).toNat ≤ limit)

/-- A paired stream has cover for frame n. -/
def State.cover (s : State) (k : Nat) (n : Word) : Bool :=
  (s.outCfg k).paired && s.cosyView.linkUp && !s.classOn dCOSY_LINK && !s.cosyView.unavailable &&
    (s.stream k).stamps.any (fun m => stampWithin m n (s.cad secCOSYLINK 0x28 1))

/-! ### Messages and transmit queues (R424, R425, R429) -/

/-- The kind codes of Table TSN-5. -/
def MsgKind.code : MsgKind → Nat
  | .result => 1
  | .fallback => 2
  | .tombstone => 3
  | .provisional => 4

/-- A message's 48-byte header and its payload (Table TSN-5); multi-byte fields most significant byte first (log entry 23). -/
def messageBytes (k : Nat) (kind : MsgKind) (mark : Bool) (flags : Nat) (x : FrameStart) (seq : Word) (envelope : Nat)
    (payload : List Byte) : List Byte :=
  let a := toBE 4 0x494C4B32 ++ toBE 1 1 ++ toBE 1 k ++ toBE 1 (kind.code + 128 * bit mark) ++ toBE 1 flags ++ toBE 4 x.frame.toNat ++
    toBE 4 seq.toNat ++ toBE 8 x.dt ++ toBE 8 x.wall ++ toBE 2 x.epoch ++ toBE 2 envelope ++ toBE 4 payload.length
  let z := toBE 4 0
  a ++ toBE 4 (crc32c (a ++ z ++ z ++ payload)).toNat ++ z ++ payload

/-- A stream's backlog in bytes (R429). -/
def Stream.backlog (x : Stream) : Nat := x.queue.foldl (fun n m => n + m.bytes.length) 0

/-- Bytes of the 8 MiB of transmit queue space in use; tombstones lie outside it. -/
def State.queueSpace (s : State) : Nat :=
  s.streams.foldl (fun n p => n + p.2.queue.foldl (fun m q => if q.kind = .tombstone then m else m + q.bytes.length) 0) 0

/-- Keep the per-frame peak of a stream's backlog, in KiB. -/
def State.backlogReg (s : State) (k : Nat) : State :=
  let n := (s.stream k).backlog
  let a := s.frameAcc 6 .tsnStrDecim_backlog 1024 .level 0 k
  s.putAcc { a with val := max a.val n, cnt := n }

/-- A decided message goes to its stream's transmit queue with the stream's next seq, or is replaced by a tombstone by
R429; the mark that was due goes with it. -/
def State.enqueue (s : State) (k : Nat) (x : FrameStart) (kind : MsgKind) (flags envelope : Nat) (payload : List Byte) : State :=
  let g := s.outCfg k
  let y := s.stream k
  let full := decide (2 ^ 23 < s.queueSpace + 48 + payload.length)
  let repl := kind != .tombstone && ((g.decimate && decide (g.backlog < y.backlog)) || full)
  let kind' := if repl then .tombstone else kind
  let m : OutMsg := ⟨x.frame, y.seq, kind', x.wall,
    messageBytes k kind' y.mark (if repl then 2 else flags) x y.seq (if repl then 0 else envelope) (if repl then [] else payload), 0, [], []⟩
  let s1 := s.modStream k (fun y => { y with seq := y.seq + 1, mark := false, queue := y.queue ++ [m] })
  (if repl then s1.bumpF 6 .tsnStrDecim_decimated 0 k else s1).backlogReg k

/-! ### Verdicts of the diversity check (R467, R468) -/

/-- A pair has given a verdict for a frame: latched, counted, and its run kept. -/
def State.giveVerdict (s : State) (q : Nat) (f : Word) (v : Verdict) (compared disagreed : Nat) : State :=
  let s1 := s.modPair q (fun p =>
    { p with verdicts := (f, v) :: p.verdicts.filter (fun (e : Word × Verdict) =>
               e.1 != f && (decide ((f - e.1).toNat < 128) || decide ((e.1 - f).toNat < 128)))
             run := match v with
               | .agree => 0
               | .disagree => p.run + 1
               | .inconclusive => p.run
             agreed := match v with
               | .agree => true
               | .disagree => false
               | .inconclusive => p.agreed })
  let code := match v with
    | .agree => 1
    | .disagree => 2
    | .inconclusive => 3
  let s2 := ((s1.setF 6 .strDiv_compared compared 0 q).setF 6 .strDiv_disagreed disagreed 0 q).setF 6 .strDiv_verdict code 0 q
  match v with
  | .disagree => s2.bumpF 6 .strDivCount_disagree 0 q
  | .inconclusive => s2.bumpF 6 .strDivCount_inconclusive 0 q
  | .agree => s2

/-! ### The decision (R452, R456) -/

/-- The deadline of a stream for a frame that started so. -/
def State.deadlineOf (s : State) (k : Nat) (x : FrameStart) : Nat := x.dt + (s.outCfg k).deadline * 1024

/-- The first frame of a stream that is not decided. -/
def State.undecided (s : State) (k : Nat) : Option FrameStart :=
  s.root.starts.find? (fun (x : FrameStart) => match (s.stream k).decided with
    | none => true
    | some n => precedes n x.frame)

/-- The frame has been decided. -/
def State.isDecided (s : State) (k : Nat) (f : Word) : Bool :=
  match (s.stream k).decided with
  | none => false
  | some n => n == f || precedes f n

/-- Pairs of a stream that have no verdict for a frame at its deadline give INCONCLUSIVE (R468). -/
def State.expirePairs (s : State) (k : Nat) (f : Word) : State :=
  (s.pairsOf k).foldl (fun (s : State) q => if (s.verdict q f).isNone then s.giveVerdict q f .inconclusive 0 0 else s) s

/-- Record a decision: the frame is decided, its messages leave, and a RETURNING stream's clean frames are counted. -/
def State.closeFrame (s : State) (k : Nat) (x : FrameStart) (clean : Bool) : State :=
  let y := s.stream k
  let n := if clean then y.clean + 1 else 0
  let home := y.state == .returning && decide ((s.outCfg k).returnFrames ≤ n)
  let s1 := s.modStream k (fun y => { y with
    decided := some x.frame
    main := y.main.filter (fun m => precedes x.frame m.frame)
    cosy := y.cosy.filter (fun m => precedes x.frame m.frame)
    clean := if y.state = .returning then (if home then 0 else n) else 0
    state := if home then .main else y.state })
  let s2 := s1.setF 6 .strDecided_frame x.frame.toNat 0 k
  if home then s2.bumpF 6 .strSwitch_to_main 0 k else s2

/-- Decide the first undecided frame of a stream if R452 lets it be decided now. -/
def State.decideOne (s0 : State) (k : Nat) : Option State :=
  match s0.undecided k with
  | none => none
  | some x =>
    let late := decide (s0.deadlineOf k x ≤ s0.deviceTime)
    let s := if late then s0.expirePairs k x.frame else s0
    let y := s.stream k
    let g := s.outCfg k
    let vs := (s.pairsOf k).map (fun q => s.verdict q x.frame)
    let m := y.main.find? (fun (m : Msg) => m.frame == x.frame)
    let c := y.cosy.find? (fun (m : Msg) => m.frame == x.frame)
    let doubt := s.doubted k
    let agree := vs.all (fun v => v == some .agree)
    let passes := match m with
      | some m => !m.tombstone && !m.poisoned && agree
      | none => false
    if !((m.isSome && vs.all Option.isSome) || doubt || late) then none
    else if y.state = .main ∧ doubt = false ∧ passes = true then
      match m with
      | none => none
      | some m =>
        let kind := if g.paired && !s.cover k x.frame then .provisional else .result
        some ((s.enqueue k x kind (bit m.held + 4 * bit m.degraded + 8 * bit m.uncovered) 0 m.payload).closeFrame k x false)
    else
      let calm := match y.doubtUntil with
        | none => true
        | some t => decide (t ≤ x.dt)
      let inTime := match m with
        | some m => decide (m.dt < s.deadlineOf k x)
        | none => false
      let clean := y.state == .returning && passes && inTime && calm && !doubt
      match g.paired, c with
      | true, some c => some ((s.enqueue k x .fallback 0 c.envelope c.payload).closeFrame k x clean)
      | true, none =>
        if late then some (((s.enqueue k x .tombstone 0 0 []).bumpF 6 .strLate_cosy_absent 0 k).closeFrame k x clean) else none
      | false, _ => some ((s.enqueue k x .tombstone 0 0 []).closeFrame k x clean)

/-- Decide a stream's frames in ascending order while they can be decided. -/
def State.decideFuel : Nat → State → Nat → State
  | 0, s, _ => s
  | n + 1, s, k => match s.decideOne k with
    | some t => State.decideFuel n t k
    | none => s

/-- Decide what can be decided of a stream; nothing once output framing has stopped (R487). -/
def State.strain (s : State) (k : Nat) : State :=
  if s.saf.framingStopped || !(s.outCfg k).enable then s else State.decideFuel (s.root.starts.length + 1) s k

/-- The streams of a mask. -/
def State.strainMask (s : State) (mask : Nat) : State :=
  s.streamsOn.foldl (fun (s : State) k => if testBit mask k then s.strain k else s) s

/-! ### Latching and clearing (R446–R448, R451, R471) -/

/-- The streams of a latched doubt's scope go to COSY, and their undecided frames take the else branch at once (R451, R452). -/
def State.switchStreams (s : State) (scope : Nat) : State :=
  let s1 := s.streamsOn.foldl (fun (s : State) k =>
    if testBit scope k then
      let moved := (s.stream k).state != .cosy
      let s1 := s.modStream k (fun y => { y with state := .cosy, clean := 0, doubtUntil := some s.deviceTime })
      if moved then s1.bumpF 6 .strSwitch_to_cosy 0 k else s1
    else s) s
  s1.strainMask scope

/-- The lowest stream of a scope. -/
def lowestStream (scope : Nat) : Nat := ((List.range 64).find? (testBit scope)).getD 0

/-- Latch a doubt: registers, event, scope and recovery (R446, R447, R471, R476). -/
def State.latch (s : State) (d : DoubtCause) : State :=
  let old := s.getF d.die .safRaised_classes
  let s1 := if testBit old d.cls then s else s.setF d.die .safRaised_classes (old + 2 ^ d.cls)
  let s2 := if s1.getF d.die .safFirst_valid = 1 then s1
    else ((s1.setF d.die .safFirst_class d.cls).setF d.die .safFirst_valid 1).setF d.die .safFirstFrame_frame d.frame.toNat
  if s2.saf.doubts.any (fun x => x.cause.cls == d.cls && x.cause.die == d.die && x.cause.sub == d.sub && x.cause.why == d.why) then s2
  else
    let x : Doubt := ⟨d, s.scopeOf d, s.recoveryOf d⟩
    let s3 := { s2 with saf := { s2.saf with doubts := s2.saf.doubts ++ [x] } }
    let s4 := ((s3.bumpF 6 .safCount_doubts).raise (0x0C00 + d.cls) d.frame.toNat d.die (lowestStream x.scope)).safRegs
    s4.switchStreams x.scope

/-- Clear the latched doubts that a condition names; it returns no stream to the main path (R448). -/
def State.clearDoubts (s : State) (p : Doubt → Bool) : State :=
  let gone := s.saf.doubts.filter p
  if gone.isEmpty then s
  else
    let scope := gone.foldl (fun n d => n ||| d.scope) 0
    let s1 := { s with saf := { s.saf with doubts := s.saf.doubts.filter (fun d => !p d) } }
    (s1.streamsOn.foldl (fun (s : State) k =>
      if testBit scope k then s.modStream k (fun y => { y with doubtUntil := some s.deviceTime }) else s) s1).safRegs

/-- The recovery named has completed: the doubts it was chosen for clear (R448, R476). -/
def State.recovered (s : State) (r : Recovery) : State := s.clearDoubts (fun d => d.recovery == r)

/-- A class C doubt is latched while the module is out of service: a cold start is to be requested (R448). -/
def State.coldWanted (s : State) : Bool := s.saf.outOfService && s.saf.doubts.any (fun d => d.recovery == .coldStart)

/-- A restart mark is due on the first message decided by each stream of a scope (R489). -/
def State.markStreams (s : State) (scope : Nat) : State :=
  s.streamsOn.foldl (fun (s : State) k => if testBit scope k then s.modStream k (fun y => { y with mark := true }) else s) s

/-! ### The check itself (R467) -/

/-- The sampling hash. -/
def sampleHash (n q k : Nat) : Nat := (n * 2654435761 + q * 40503 + k * 2246822519) % 2 ^ 32

/-- A finite FP32 value in units of 2^−160; none for infinities and NaN. -/
def fixed160 (n : Nat) : Option Int :=
  match FFmt.fp32.decode n with
  | .fin neg m e => some (smant neg m * 2 ^ (e + 160).toNat)
  | _ => none

/-- One sample: none where it is not compared, else whether it disagrees. -/
def State.divSample (s : State) (g : DivCfg) (c n : TDesc) (q k : Nat) (frame : Word) : Option Bool :=
  let h := sampleHash frame.toNat q k
  let x := h % 65536 * c.ext 0 / 65536
  let y := h / 65536 * c.ext 1 / 65536
  let w := s.pixel c x y
  let abs (v : Int) : Int := v.natAbs
  let one : Int := 2 ^ 160
  if g.kind = 1 then
    if w / 8192 ≠ 0 then none
    else
      match fixed160 (s.pixel n x y) with
      | none => none
      | some v =>
        let cv : Int := (w % 8192 : Nat) * (one / 16)
        some (decide (abs (v - cv) * 256 > g.absTol * (one / 16) * 256 + g.relTol * cv))
  else
    let cx : Int := signed 15 (w % 2 ^ 15) * (one / 16)
    let cy : Int := signed 15 (w / 2 ^ 16 % 2 ^ 15) * (one / 16)
    if testBit w 15 || testBit w 31 then none
    else
      let a := (n.runBase n.base [x, y]).toNat
      match fixed160 (s.memLE a 4), fixed160 (s.memLE (a + 4) 4) with
      | some dx, some dy =>
        some (decide ((abs (dx - cx) + abs (dy - cy)) * 256 > g.absTol * (one / 16) * 256 + g.relTol * (abs cx + abs cy)))
      | _, _ => none

/-- The verdict that the samples of a frame give, with the numbers compared and disagreeing. -/
def State.divCheck (s : State) (q : Nat) (frame : Word) : Verdict × Nat × Nat :=
  let g := s.divCfg q
  let off := (if g.buffers = 0 then 0 else frame.toNat % g.buffers) * g.stride
  let c := s.tdesc g.classical
  let n := s.tdesc g.neural
  let rs := ((List.range g.samples).map (fun k =>
    s.divSample g { c with base := c.base + off } { n with base := n.base + off } q k frame)).filterMap id
  let bad := (rs.filter id).length
  if rs.length < g.minCompared then (.inconclusive, rs.length, bad)
  else if bad * 256 > g.maxFrac * rs.length then (.disagree, rs.length, bad)
  else (.agree, rs.length, bad)

/-- The status with which a node's instance for a frame has completed. -/
def State.endedStatus (s : State) (d node : Nat) (f : Word) : Option Status :=
  match s.inst d node f with
  | some i => if i.complete then some i.status else none
  | none => none

/-- A status that lets the check start (R468). -/
def Status.checkable : Status → Bool
  | .done | .substituted | .held => true
  | _ => false

/-! ### What the STR and COSY registers report -/

/-- A stream state's code. -/
def StreamState.code : StreamState → Nat
  | .main => 0
  | .cosy => 1
  | .returning => 2

/-- Write the STR registers that are computed, and the COSY status (Tables SAF-13, SAF-14). -/
def State.strRegs (s : State) : State :=
  let on := s.streamsOn
  let count (st : StreamState) : Nat := (on.filter (fun k => (s.stream k).state == st)).length
  let lost := on.any (fun k => (s.outCfg k).paired && !s.cover k s.frame)
  let s1 := (((s.setF 6 .strStatus_main (count .main)).setF 6 .strStatus_cosy (count .cosy)).setF 6 .strStatus_returning
    (count .returning)).setF 6 .strStatus_cover_lost (bit lost)
  let s2 := (List.range 64).foldl (fun (s : State) k =>
    let g := s.outCfg k
    let y := s.stream k
    (((s.setF 6 .strStream_state (if g.enable then y.state.code else 3) 0 k).setF 6 .strStream_paired (bit (g.enable && g.paired)) 0
      k).setF 6 .strStream_cover (bit (g.enable && s.cover k s.frame)) 0 k).setF 6 .strStream_clean (cap 255 y.clean) 0 k) s1
  let v := s2.cosyView
  let running := match v.lastMsgDt with
    | some t => decide (s.deviceTime ≤ t + 2 * s.slotNominal)
    | none => false
  let match_ := v.reported && v.ident == Hash.ofBytes (s.cadBytes secCOSYLINK 8 32)
  let s3 := (((s2.setF 6 .cosyStatus_link_up (bit v.linkUp)).setF 6 .cosyStatus_running (bit running)).setF 6 .cosyStatus_ident_match
    (bit match_)).setF 6 .cosyStatus_available (bit (v.linkUp && v.lastMsgDt.isSome && !v.unavailable))
  (List.range 8).foldl (fun (s : State) i => s.setF 6 .cosyIdent_ident (v.ident.toNat / 2 ^ (32 * i) % 2 ^ 32) i) s3

end Sys2Proof.Machine
end

