-- ==== Sys2Proof/Machine/NeuralCore.lean ====
section
/-! DEFINITION. The neural core: program dispatch, the bundle sequencer, address generators, scratchpad ports and the slot table,
and the matrix engine (chapters 09 and 11). -/

namespace Sys2Proof.Machine

open Sys2Proof

/-! ### Cores -/

/-- A core that has run nothing. -/
def Core.fresh : Core where
  issuing := false
  cycle := 0
  pc := 0
  rep := 0
  loops := []
  program := 0
  v := []
  vPoison := []
  vPend := []
  acc := []
  accPoison := []
  gens := []
  bufA := []
  bufB := []
  runs := []
  accBusy := []
  chans := []
  tagCodes := []
  endDt := 0
  began := false
  phase := 0
  ports := []
  portBusy := []
  locals := []
  chk := []
  noAck := false
  remote := []
  acceptDt := none
  remoteDt := none
  bankHold := []
  patrolDt := none
  patrolRow := 0
  patrolSeen := []
  patrolFix := []
  repairQueue := []
  spareRows := []

/-- Core c of die d. -/
def State.core (s : State) (d c : Nat) : Core := Map.get Core.fresh (s.die d).cores c

/-- Change a core. -/
def State.modCore (s : State) (d c : Nat) (f : Core → Core) : State :=
  s.modDie d (fun x => { x with cores := Map.modify Core.fresh x.cores c f })

/-! ### The SCHED section (R293–R295, Table NCO-1, Table NCO-2) -/

/-- A field of a die's entry. -/
def State.sched (s : State) (d off n : Nat) : Nat := s.dieCad d secSCHED (0x40 + 64 * d + off) n

/-- A program header. -/
structure Program where
  start : Nat
  bundles : Nat
  table : Nat
  pulls : List (Nat × Nat × Nat)
  channels : List (Nat × Nat × Nat)
  base : Nat
  bound : Nat
  deriving DecidableEq, Repr

/-- Program p of die d. -/
def State.prog (s : State) (d p : Nat) : Program :=
  let o := s.sched d 8 8 + 128 * p
  let n (k w : Nat) : Nat := s.dieCad d secSCHED (o + k) w
  ⟨n 0 2, n 2 2, n 4 1, (List.range (n 5 1)).map (fun i => (n (0x10 + 4 * i) 1, n (0x11 + 4 * i) 1, n (0x12 + 4 * i) 1)),
   (List.range (n 6 1)).map (fun i => (n (0x50 + 4 * i) 1, n (0x51 + 4 * i) 1, n (0x52 + 4 * i) 1)), n 8 2, n 0xA 2⟩

/-- Word w of bundle i of die d: 0 control, 1 matrix, 2 vector, 3 address (Table NCO-3). -/
def State.bundleWord (s : State) (d i w : Nat) : Nat := s.dieCad d secSCHED (s.sched d 16 8 + 32 * i + 8 * w) 8

/-- The port code that a die's slot table t gives bank b in hyperperiod entry e (R237). -/
def State.portCode (s : State) (d t e b : Nat) : Nat := bits (s.dieCad d secSCHED (s.sched d 24 8 + 2048 * t + 8 * e) 8) (4 * b) 4

/-! ### Dispatch of a tile program (R296, R248) -/

/-- The address in entry n of a task's argument block. -/
def State.argAt (s : State) (t : TaskDesc) (n : Nat) : Nat := leNat (s.read (t.args + 8 * n) 5)

/-- A tensor descriptor may stand at an address: a multiple of 128 in DRAM, the commons, hub SRAM or a scratchpad (R265). -/
def descPlace (a : Nat) : Bool := a % 128 == 0 && (memoryOf a).isSome

/-- A pull as its descriptors, read once at dispatch, give it: source, destination, and index tensor if it gathers (R265). -/
structure Pull where
  src : TDesc
  dst : TDesc
  ix : Option TDesc
  placed : Bool
  deriving DecidableEq, Repr

/-- A task's pulls. -/
def State.pullsOf (s : State) (d : Nat) (t : TaskDesc) : List Pull :=
  (s.prog d (t.program % 1024)).pulls.map (fun pl =>
    let a := s.argAt t pl.1
    let b := s.argAt t pl.2.1
    let i := s.argAt t pl.2.2
    ⟨s.tdesc a, s.tdesc b, if pl.2.2 = 0xFF then none else some (s.tdesc i),
     descPlace a && descPlace b && (pl.2.2 == 0xFF || descPlace i)⟩)

/-- A pull that the rules allow: from elsewhere into the scratchpad of core c of die d itself (R248, R287). -/
def Pull.ok (p : Pull) (d c : Nat) : Bool :=
  p.placed && p.dst.isLocal && !p.src.isLocal && memoryOf p.src.base != some (8 + d * 72 + c) &&
  match p.ix with
  | none => copyable p.src p.dst
  | some ix => gatherOk p.src p.dst ix

/-- The moves of a pull and its out-of-range count. -/
def State.pullMoves (s : State) (at_ : LocalAt) (p : Pull) : List Move × Nat :=
  match p.ix with
  | none => (copyMoves (Side.of p.src at_) (Side.of p.dst at_), 0)
  | some ix => s.gatherMoves (Side.of p.src at_) (Side.of p.dst at_) (s.indices ix at_)

/-- Everything that a task names is as the rules ask: a program that exists, pulls that have a meaning, and memory that exists (R265, R295). -/
def State.pullsOk (s : State) (d c : Nat) (t : TaskDesc) : Bool :=
  let g := s.prog d (t.program % 1024)
  decide (t.program < s.sched d 0 2) && (s.pullsOf d t).all (fun p =>
    p.ok d c && (s.pullMoves ⟨d, c, g.base⟩ p).1.all (fun m => s.moveOk m))

/-- Perform one pull: what it poisons through a restart tag alone is remembered by codeword, and poisoned indices end the task POISONED. -/
def State.pull (s : State) (d c base : Nat) (p : Pull) : State :=
  let at_ : LocalAt := ⟨d, c, base⟩
  let r := s.pullMoves at_ p
  if !p.ok d c then s
  else
    let s1 := (s.doMoves r.1).1
    let tagged := (r.1.filter (fun m => match m.src with | some a => s.tagged a | none => false)).map (fun m => m.dst / 16)
    let ixBad := match p.ix with
      | some ix => (s.indexTaint ix at_).poison
      | none => false
    (s1.modCore d c (fun x => { x with tagCodes := x.tagCodes ++ (tagged.map (fun k => [k, k + 1, k + 2, k + 3])).flatten })).modUnit
      d c (fun u => { u with oor := cap 0xFFFF (u.oor + r.2), poisoned := u.poisoned || ixBad })

/-- A core as a dispatch clears and loads it (R296): every register, accumulator, generator and counter is zero, and the first bundle is the
program's. -/
def Core.dispatched (x : Core) (prog first rep : Nat) (go : Bool) (chans : List Chan) (locals : List (List Byte)) : Core :=
  { x with issuing := go, cycle := 0, pc := first, rep := rep, loops := [], program := prog, v := [], vPoison := [], vPend := []
           acc := [], accPoison := [], gens := [], bufA := [], bufB := [], runs := [], accBusy := [], chans := chans
           tagCodes := [], endDt := 0, began := false, ports := [], portBusy := [], locals := locals, chk := [], noAck := false }

/-- Dispatch a task to core c: base, bound and the slot table are loaded, descriptors are read, the pulls are performed, and the first bundle
is next (R296).  A pull over a lost link gets no answer, and the first bundle never comes (R24). -/
def State.startCore (s : State) (d c : Nat) (t : TaskDesc) : State :=
  let n := t.program % 1024
  let g := s.prog d n
  let bytes (k : Nat) : List Byte := s.read (s.argAt t k) 128
  let chans := g.channels.map (fun ch => Chan.mk ch.2.2 (bytes ch.1) (if ch.2.1 = 0xFF then [] else bytes ch.2.1) 0)
  let pulls := s.pullsOf d t
  let go := pulls.all (fun p => (s.pullMoves ⟨d, c, g.base⟩ p).1.all (fun m => s.moveCarried d m))
  let s1 := s.modCore d c (fun x =>
    x.dispatched n g.start (bits (s.bundleWord d g.start 0) 32 8) go chans (g.pulls.map (fun pl => bytes pl.2.1)))
  let s2 := if go then pulls.foldl (fun (s : State) p => s.pull d c g.base p) s1 else s1
  (((((((((s2.setF d .spdReloc_base g.base c).setF d .spdReloc_bound g.bound c).setF d .tagStatus_program n
    c).setF d .tagTask_node t.node c).setF d .tagTask_task_index t.index c).setF d .tagFrame_frame t.frame.toNat c).setF d
    .mxStatus_chk_fail 0 c).setF d .vuStatus_chk_fail 0 c).setF d .tagStatus_running 0 c).setF d .tagStatus_pulling 1 c

/-! ### The bundle sequencer (R297–R300) -/

/-- After the last issue of bundle `pc`, close the loops that end with it, innermost first: the loops left and the next
bundle (R299). -/
def closeLoops (pc : Nat) : List LoopState → List LoopState × Nat
  | [] => ([], pc + 1)
  | l :: ls =>
    if l.last = pc then
      if 0 < l.left then ({ l with left := l.left - 1 } :: ls, l.first) else closeLoops pc ls
    else (l :: ls, pc + 1)

/-- The loops once the LOOP bundle at `pc` with control word `w` has issued: its own loop is the innermost, entered once; none for
a counter in use or a loop that does not nest (R299). -/
def startLoop (pc w : Nat) (loops : List LoopState) : Option (List LoopState) :=
  let l : LoopState := ⟨bits w 2 2, pc + 1, pc + 1 + bits w 4 12, bits w 16 16⟩
  match loops with
  | m :: _ =>
    if m.counter = l.counter ∧ m.first = l.first then some loops
    else if loops.any (fun q => q.counter == l.counter || decide (q.last < l.last)) then none
    else some (l :: loops)
  | [] => some [l]

/-- The core one cycle later: the same bundle again, or the next one in the order its control words give; none where the
order breaks R299. -/
def State.issueNext (s : State) (d : Nat) (x : Core) : Option Core :=
  let w := s.bundleWord d x.pc 0
  let g := s.prog d x.program
  let go (loops : List LoopState) (pc : Nat) : Option Core :=
    if g.start + g.bundles ≤ pc then none
    else some { x with cycle := x.cycle + 1, pc := pc, rep := bits (s.bundleWord d pc 0) 32 8, loops := loops }
  match bits w 0 2 with
  | 0 =>
    if 0 < x.rep then some { x with cycle := x.cycle + 1, rep := x.rep - 1 }
    else let r := closeLoops x.pc x.loops
         go r.1 r.2
  | 1 => match startLoop x.pc w x.loops with
    | some ls => go ls (x.pc + 1)
    | none => none
  | 2 => some { x with issuing := false }
  | _ => none

/-- Issue bundles until cycle n, or until an END stops the issue; none where the order breaks R299. -/
def State.issueUntil (s : State) (d n : Nat) : Nat → Core → Option Core
  | 0, x => some x
  | k + 1, x => if n ≤ x.cycle ∨ x.issuing = false then some x
    else match s.issueNext d x with
      | some y => State.issueUntil s d n k y
      | none => none

/-- Vector results whose cycle has come are written to their registers (R315). -/
def Core.land (x : Core) (n : Nat) : Core :=
  let due := x.vPend.filter (fun w => decide (w.due ≤ n))
  due.foldl (fun (x : Core) w =>
    let m := w.lanes.length
    { x with
      v := (List.range m).foldl (fun (r : Map Word) l => Map.set 0 r (w.reg * 64 + l) (w.lanes.getD l 0)) x.v
      vPoison := w.poison.foldl (fun p l => setInsert (w.reg * 64 + l) p)
        (x.vPoison.filter (fun k => decide (k < w.reg * 64 ∨ w.reg * 64 + m ≤ k))) })
    { x with vPend := x.vPend.filter (fun w => decide (n < w.due)) }

/-- Where a core stands in the cycle of a command. -/
inductive Standing where
  | here (s : State)
  | elsewhere
  | broken
  deriving DecidableEq, Repr

/-- A word of the bundle that issues now. -/
def State.slotWord (s : State) (c : CoreRef) (w : Nat) : Nat := s.bundleWord c.die (s.core c.die c.core).pc w

/-- A check failure of a core: it issues no further bundle, and its task is to be reported as failed (R313). -/
def State.checkFail (s : State) (d c : Nat) : State :=
  (((s.modCore d c (fun x => { x with issuing := false })).modUnit d c (fun u => { u with failed := true, done := true })).setF d
    .tagStatus_running 0 c).setF d .tagStatus_draining 1 c

/-! ### Address generators (R302, R303, R284) -/

/-- A generator that has been set to nothing. -/
def Gen.fresh : Gen := ⟨0, 0, false, false, 0, 1, 0, 1, 0⟩

/-- The generator that an address word sets (Table NCO-5). -/
def Gen.ofWord (w : Nat) : Gen :=
  ⟨bits w 5 13, bits w 18 4, testBit w 22, testBit w 23, signed 12 (bits w 24 12), bits w 36 8 + 1, signed 12 (bits w 44 12),
   bits w 56 8 + 1, 0⟩

/-- The granule that access m of a generator starts at, in row mode. -/
def Gen.first (g : Gen) : Nat :=
  let i1 : Nat := g.m % g.count1
  let i2 : Nat := g.m / g.count1 % g.count2
  (((g.a0 : Int) + i1 * g.step1 + i2 * g.step2) % 6144).toNat

/-- Line offset and bank of each lane of a generator's access. -/
def Gen.lanes (g : Gen) : List (Nat × Nat) :=
  let i1 : Nat := g.m % g.count1
  let i2 : Nat := g.m / g.count1 % g.count2
  if g.col then
    let σ := g.step1 / 16
    let pos := (g.a0 + i1) % 16
    (List.range 16).map (fun k =>
      let r := 16 * i2 + k
      ((((g.a0 / 16 : Nat) : Int) + r * σ).toNat, (pos + r) % 16))
  else
    let q := g.first
    (List.range (g.width + 1)).map (fun l =>
      let x := (q + l) % 6144
      (x / 16, if g.skew then (x % 16 + i1) % 16 else x % 16))

/-- A generator's fields agree with R302 and R303. -/
def Gen.ok (g : Gen) : Bool :=
  (if g.col then g.skew && g.width == 15 && decide (g.count1 ≤ 16) && g.step1 % 16 == 0 && g.step1 != 0
   else !g.skew || decide (g.first % 16 + g.width ≤ 15)) && decide (g.a0 < 6144)

/-- The next n accesses of a generator in row mode stay each within one line if they are skewed (R302). -/
def Gen.inLine (g : Gen) (n : Nat) : Bool :=
  g.col || !g.skew || (List.range n).all (fun k => decide (({ g with m := g.m + k } : Gen).first % 16 + g.width ≤ 15))

/-- Generator i of a core. -/
def State.gen (s : State) (d c i : Nat) : Gen := Map.get Gen.fresh (s.core d c).gens i

/-- A generator has made an access. -/
def State.stepGen (s : State) (d c i : Nat) : State :=
  s.modCore d c (fun x => { x with gens := Map.modify Gen.fresh x.gens i (fun g => { g with m := g.m + 1 }) })

/-! ### Scratchpad ports (R236–R243, R247) -/

/-- A granule with the poison marks of its codewords. -/
abbrev Granule := List Byte × List Bool

/-- The physical address of a line offset and bank of a core that runs program p. -/
def State.lineAddr (s : State) (d c p : Nat) (at_ : Nat × Nat) : Nat :=
  spdBase d c + (((s.prog d p).base + at_.1) % 384) * 1024 + at_.2 * 64

/-- The slot table gives a bank to a port in a cycle. -/
def State.given (s : State) (d c n bank port : Nat) : Bool :=
  s.portCode d (s.prog d (s.core d c).program).table (n % 256) bank == port

/-- Poison that a core reads from codewords `ks` of a granule makes its task end POISONED: through a restart tag, or as such (R243, R475). -/
def State.notePoison (s : State) (d c a : Nat) (ks : List Nat) : State :=
  let cs := ks.filter (fun k => s.poisonAt (a + 16 * k))
  if cs.isEmpty then s
  else if cs.all (fun k => (s.core d c).tagCodes.contains (a / 16 + k)) then s.modUnit d c (fun u => { u with tagged := true })
  else s.modUnit d c (fun u => { u with poisoned := true })

/-- Read a granule through a port in cycle n: zeros without a mark where the bank is not given (R239); errors that the check bits show are
counted (R243). -/
def State.portRead (s : State) (d c n port : Nat) (at_ : Nat × Nat) : Granule × State :=
  if s.given d c n at_.2 port then
    let a := s.lineAddr d c (s.core d c).program at_
    ((s.bytesAt a 64, (List.range 4).map (fun k => s.poisonAt (a + 16 * k))), (s.notePoison d c a (List.range 4)).countUpsets a 64)
  else ((List.replicate 64 0, [false, false, false, false]), s)

/-- Write a granule through a port in cycle n: discarded where the bank is not given (R239). -/
def State.portWrite (s : State) (d c n port : Nat) (at_ : Nat × Nat) (g : Granule) : State :=
  if s.given d c n at_.2 port then
    let a := s.lineAddr d c (s.core d c).program at_
    (List.range 4).foldl (fun (x : State) k =>
      x.writeCode (a + 16 * k) ((g.1.drop (16 * k)).take 16) (g.2.getD k false)) s
  else s

/-! ### Lanes outside a tensor (R277, R284, R330; log entry 77) -/

/-- The lanes of the group that starts at a byte offset of the scratchpad: the lane extent of the OPERAND tensor pulled there, else all 64. -/
def Core.laneExtent (x : Core) (fmt off : Nat) : Nat :=
  match (x.locals.map TDesc.ofBytes).find? (fun t =>
      t.layout == 2 && t.format == fmt && t.forms (opGroup fmt) (t.ext 0 / opE fmt) off) with
  | some t => t.ext 1
  | none => 64

/-- The pad value that lane k of a column access reads, and does not write, where its row lies outside the skewed tensor pulled there. -/
def Core.outside (x : Core) (g : Gen) (k : Nat) : Option (List Byte) :=
  let off := g.a0 / 16 * 1024 + (g.a0 + g.m % g.count1) % 16 * 64
  if !g.col then none
  else match (x.locals.map TDesc.ofBytes).find? (fun t => t.skew == 1 && t.str 1 == g.step1 && t.forms 64 t.runGranules off) with
    | some t =>
      if t.ext 1 ≤ 16 * (g.m / g.count1 % g.count2) + k then some (t.padBytes (off + 2 ^ 19 * 192 - t.base % 2 ^ 19) 64) else none
    | none => none

/-- The granules of one access of a generator through a port in cycle n. -/
def State.genRead (s : State) (d c n port : Nat) (g : Gen) : List Granule × State :=
  let l := g.lanes
  (List.range l.length).foldl (fun (x : List Granule × State) k =>
    match (s.core d c).outside g k with
    | some pad => (x.1 ++ [(pad, [false, false, false, false])], x.2)
    | none =>
      let r := x.2.portRead d c n port (l.getD k (0, 0))
      (x.1 ++ [r.1], r.2)) ([], s)

/-! ### Operations of several cycles (R240, R242, R301) -/

/-- A port is free in a cycle. -/
def Core.portFree (x : Core) (port n : Nat) : Bool := decide (Map.get 0 x.portBusy port ≤ n)

/-- A port is occupied up to a cycle. -/
def State.occupy (s : State) (d c port until_ : Nat) : State :=
  s.modCore d c (fun x => { x with portBusy := Map.set 0 x.portBusy port until_ })

/-- Put a port operation among those to come, in the order of their cycles. -/
def insertOp (o : PortOp) : List PortOp → List PortOp
  | [] => [o]
  | p :: l => if o.cycle < p.cycle then o :: p :: l else p :: insertOp o l

/-- A granule of a group arrives: lanes at or above the extent are zero elements with scale 0x7F, and unmarked (R314, R330). -/
def Group.fill (q : Group) (pos : Nat) (g : Granule) : Group :=
  if pos < 64 then
    { q with granules := q.granules.set pos g.1, lanes := if g.2.any id then setInsert pos q.lanes else q.lanes }
  else
    { q with
      granules := q.granules.set pos (g.1.mapIdx (fun j b => if j < q.extent then b else 0x7F))
      lanes := ((List.range 64).filter (fun j => decide (j < q.extent) && g.2.getD (j / 16) false)).foldl (fun l j => setInsert j l) q.lanes }

/-- A granule of an accumulator arrives: sixteen of its values, and the mark of their row (R308, R314). -/
def Core.accGranule (x : Core) (a pos : Nat) (g : Granule) : Core :=
  { x with
    acc := (List.range 16).foldl (fun (m : Map Word) j =>
      Map.set 0 m (a * 4096 + pos * 16 + j) (Word.ofNat (leNat ((g.1.drop (4 * j)).take 4)))) x.acc
    accPoison := if g.2.any id then setInsert (a * 128 + pos / 4) x.accPoison else x.accPoison }

/-- A granule that a port operation has read goes where it belongs. -/
def Core.takeGranule (x : Core) (o : PortOp) (g : Granule) : Core :=
  let put (m : Map Group) (i : Nat) : Map Group := m.map (fun p => if p.1 = i then (i, p.2.fill o.pos g) else p)
  match o.dst with
  | .bufA i => { x with bufA := put x.bufA i }
  | .bufB i => { x with bufB := put x.bufB i }
  | .acc a => x.accGranule a o.pos g

/-- Perform a port operation. -/
def State.portDo (s : State) (d c : Nat) (o : PortOp) : State :=
  match o.write with
  | some g => s.portWrite d c o.cycle o.port (o.line, o.bank) g
  | none =>
    let r := s.portRead d c o.cycle o.port (o.line, o.bank)
    r.2.modCore d c (fun x => x.takeGranule o r.1)

/-- The port operations of the cycles up to n are performed, in the order of their cycles. -/
def State.portsTo (s : State) (d c n : Nat) : State :=
  let l := (s.core d c).ports
  (l.filter (fun o => decide (o.cycle ≤ n))).foldl (fun (t : State) o => t.portDo d c o)
    (s.modCore d c (fun x => { x with ports := l.filter (fun o => decide (n < o.cycle)) }))

/-- Every port operation already issued is performed (R300, R313). -/
def State.portsAll (s : State) (d c : Nat) : State :=
  (s.core d c).ports.foldl (fun (t : State) o => t.portDo d c o) (s.modCore d c (fun x => { x with ports := [] }))

/-- Port operations are issued; those of this cycle act at once. -/
def State.issuePorts (s : State) (c : CoreRef) (ops : List PortOp) : State :=
  (s.modCore c.die c.core (fun x => { x with ports := ops.foldl (fun l o => insertOp o l) x.ports })).portsTo c.die c.core c.cyc

/-! ### Where a core stands (R296, R297, R299) -/

/-- The first bundle issues: the hyperperiod count begins (R238, R296). -/
def State.firstBundle (s : State) (c : CoreRef) : State :=
  let u := s.unit c.die c.core
  (((s.modCore c.die c.core (fun x => { x with began := true, phase := (s.deviceTime + 255 * c.cyc) % 256 })).setF c.die .tagStatus_running 1
    c.core).setF c.die .tagStatus_pulling 0 c.core).setF c.die .tagStart_start (cap 0xFFFF (s.deviceTime - c.cyc - u.startDt)) c.core

/-- Bring a core to the cycle of a command: it issues bundle after bundle until that cycle, and its ports do what falls due.  `elsewhere` when
the cycle has passed, the core runs nothing, its scratchpad is still being copied, or the program has ended before; `broken` when the order
breaks R299. -/
def State.atCycle (s : State) (c : CoreRef) : Standing :=
  let x := s.core c.die c.core
  let u := s.unit c.die c.core
  if !s.dieUp c.die || decide (72 ≤ c.core) || u.running.isNone || u.failed || (!x.began && decide (s.deviceTime < u.copyEnd)) then .elsewhere
  else match s.issueUntil c.die c.cyc (c.cyc - x.cycle + 1) x with
    | none => .broken
    | some y =>
      if y.cycle ≠ c.cyc then .elsewhere
      else
        let t := (s.modCore c.die c.core (fun _ => y.land c.cyc)).portsTo c.die c.core c.cyc
        .here (if x.began then t else t.firstBundle c)

/-- An error of the host's own making in a tile program leaves registers and accumulators of its core at any values, beside what R8 allows. -/
def State.coreErr (s : State) (c : CoreRef) (rule : Nat) : Result State :=
  let v (i : Nat) : Nat := Config.unpredictable s.freeCtr i
  let spoil (n k : Nat) (m : Map Word) : Map Word :=
    (List.range (v k)).foldl (fun m i => Map.set 0 m (v (4 * i + k + 2) % n) (Word.ofNat (v (4 * i + k + 4)))) m
  hostErr ({ s with freeCtr := s.freeCtr + 1 }.modCore c.die c.core (fun x =>
    { x with v := spoil 1024 0 x.v, acc := spoil 8192 1 x.acc })) rule

/-- Run a slot of the bundle that the core issues in a command's cycle.  An order that breaks R299 ends the issue. -/
def State.inBundle (s : State) (c : CoreRef) (f : State → Result State) : Result State :=
  match s.atCycle c with
  | .here t => f t
  | .elsewhere => .next s
  | .broken =>
    ((s.modCore c.die c.core (fun x => { x with issuing := false })).modUnit c.die c.core (fun u => { u with done := true })).coreErr c 299

/-- GSET: a generator is set from the address word and its access count starts at 0 (R302). -/
def execGset (c : CoreRef) (s : State) : Result State :=
  s.inBundle c (fun t =>
    let w := t.slotWord c 3
    let t1 := t.modCore c.die c.core (fun x => { x with gens := Map.set Gen.fresh x.gens (bits w 2 3) (Gen.ofWord w) })
    if bits w 0 2 ≠ 1 then .next s
    else if (Gen.ofWord w).ok then .next t1 else t1.coreErr c 302)

/-! ### Outbound stores (R304) -/

/-- Granules of one index of a tensor's outer dimensions in the order in which it is stored, and those outer dimensions' extents (R277,
R304; log entry 78). -/
def TDesc.storeRun (d : TDesc) : Nat := if d.layout = 2 then d.ext 0 / opE d.format * (64 + opScales d.format) else d.runGranules
def TDesc.storeOuter (d : TDesc) : List Nat := if d.layout = 2 then d.outer.drop 1 else d.outer

/-- A store channel's tensor sent granule g of an outer index: its address, how many bytes of the granule are taken, and what is written
behind them; none for a lane at or above the extent. -/
def chanGranule (d : TDesc) (idx : List Nat) (g : Nat) : Option (Nat × Nat × List Byte) :=
  if d.layout = 2 then
    let per := 64 + opScales d.format
    let l := g % per
    let a := d.place ⟨0, 0, 0⟩ d.base (d.runBase d.base (0 :: idx) + g / per * opGroup d.format + 64 * l)
    if 64 ≤ l then some (a, d.ext 1, [])
    else if l < d.ext 1 then some (a, opBytes d.format, List.replicate (64 - opBytes d.format) 0)
    else none
  else
    let len := min 64 (d.ext 0 * elemBits d.format / 8 - 64 * g)
    some (d.granuleAddr ⟨0, 0, 0⟩ d.base idx g, len, d.padBytes (64 * g + len) (64 - len))

/-- Where the next granule of a channel goes: none for a slice whose index is out of range, with true where that index is to
be counted. -/
def State.chanTarget (s : State) (p : LocalAt) (ch : Chan) : Option (Nat × Nat × List Byte) × Bool :=
  let d := TDesc.ofBytes ch.desc
  let r := d.storeRun
  if ch.kind = 0 then (chanGranule d (unrank d.storeOuter (ch.sent / r)) (ch.sent % r), false)
  else
    let k := d.indexDim
    let oth := d.others k
    let per := r * prodOf oth
    let i := (s.indices (TDesc.ofBytes ch.idx) p).getD (ch.sent / per) (-1)
    let n := ch.sent % per
    if i < 0 ∨ i.toNat ≥ d.ext k then (none, n == 0)
    else (chanGranule d (insertIdx k i.toNat (unrank oth (n / r))) (n % r), false)

/-- The granules of a channel's tensor (for a scatter, of all its slices). -/
def Chan.size (ch : Chan) : Nat :=
  let d := TDesc.ofBytes ch.desc
  if ch.kind = 0 then d.storeRun * prodOf d.storeOuter
  else (TDesc.ofBytes ch.idx).ext 0 * (d.runGranules * prodOf (d.others d.indexDim))

/-- A granule's codewords are written, or added by a scatter-add, at an address outside the core. -/
def State.landGranule (s : State) (d c a : Nat) (add : Option Nat) (bytes : List Byte) (marks : List Bool) : State :=
  let part (k : Nat) : List Byte := (bytes.drop (16 * k)).take 16
  let n := (bytes.length + 15) / 16
  if !s.carried d (s.homeDie a) a then s.modCore d c (fun x => { x with noAck := true })
  else
    ((match add with
      | some f => (List.range n).foldl (fun (x : State) k => x.addCode f (a + 16 * k) (part k) (marks.getD k false)) s
      | none => (List.range n).foldl (fun (x : State) k => x.writeCode (a + 16 * k) (part k) (marks.getD k false)) s).countRemote a
        bytes.length)

/-- Send one granule as the next of channel i.  One that a lost link would carry gets no response (R24, R248). -/
def State.sendGranule (s : State) (d c i : Nat) (g : Granule) : State :=
  let x := s.core d c
  let ch := x.chans.getD i ⟨0, [], [], 0⟩
  let r := s.chanTarget ⟨d, c, (s.prog d x.program).base⟩ ch
  let s1 := s.modCore d c (fun x => { x with chans := x.chans.modify i (fun y => { y with sent := y.sent + 1 }) })
  match r.1 with
  | none => if r.2 then s1.modUnit d c (fun u => { u with oor := cap 0xFFFF (u.oor + 1) }) else s1
  | some (a, len, fill) =>
    if ch.kind = 2 then
      (s1.landGranule d c a (some (TDesc.ofBytes ch.desc).format) (g.1.take len) g.2).modUnit d c (fun u => { u with scattered := true })
    else s1.landGranule d c a none (g.1.take len ++ fill) g.2

/-- A channel's tensor is one that stores may go to (R248, R286, R287, R290, R304). -/
def Chan.ok (ch : Chan) (d c : Nat) : Bool :=
  let t := TDesc.ofBytes ch.desc
  let ix := TDesc.ofBytes ch.idx
  t.allowed && !t.isLocal && (memoryOf t.base).isSome && memoryOf t.base != some (8 + d * 72 + c) &&
    (ch.kind == 0 || (t.layout != 2 && decide (1 ≤ t.indexDim ∧ t.indexDim < t.rank) && !t.moduleSplit t.indexDim &&
      ix.allowed && ix.format == 0xC && ix.layout == 0 && ix.rank == 1)) &&
    decide (ch.kind ≤ 2) && (ch.kind != 2 || t.format == 0xB || t.format == 0xC)

/-- ST: granules read through TAGR go out as the next granules of a channel's tensor (R304). -/
def execSt (c : CoreRef) (s : State) : Result State :=
  s.inBundle c (fun t =>
    let w := t.slotWord c 3
    if bits w 0 2 ≠ 2 then .next s
    else
      let gi := bits w 2 3
      let i := bits w 5 3
      let x := t.core c.die c.core
      let n := bits w 18 4 + 1
      let ch := x.chans.getD i ⟨0, [], [], 0⟩
      let g := { t.gen c.die c.core gi with width := n - 1 }
      if x.chans.length ≤ i ∨ ch.size < ch.sent + n ∨ ch.ok c.die c.core = false then t.coreErr c 304
      else if !g.inLine 1 then t.coreErr c 302
      else if !x.portFree 0x8 c.cyc then t.coreErr c 301
      else
        let r := t.genRead c.die c.core c.cyc 0x8 g
        let t1 := (r.1.take n).foldl (fun (y : State) gr => y.sendGranule c.die c.core i gr) r.2
        .next (((t1.stepGen c.die c.core gi).addFrame c.die .tagStored_granules 1024 n c.core).occupy c.die c.core 0x8 (c.cyc + 1)))

/-! ### The matrix engine (R305–R314) -/

/-- Granules of a group, its blocks, the cycles of a RUN and of a block, by format (Table NCO-6, R306). -/
def groupGranules : Nat → Nat
  | 0x8 => 68
  | 0x2 => 64
  | _ => 66
def runBlocks : Nat → Nat
  | 0x8 => 4
  | 0x2 => 1
  | _ => 2
def runCycles (f : Nat) : Nat := if f = 0x2 then 128 else 64

/-- A pair of operand formats that Table NCO-6 has. -/
def pairOk (a b : Nat) : Bool :=
  let eight (f : Nat) : Bool := f == 4 || f == 5 || f == 6 || f == 7 || f == 9
  (eight a && eight b) || (a == 8 && b == 8) || (a == 2 && b == 2)

/-- Load a group from a generator's address: 16 granules a cycle through the port from this cycle on (R306).  The lanes at or above the tensor's
extent are not read (R330). -/
def State.loadGroup (s : State) (c : CoreRef) (port gen fmt : Nat) (dst : PortDst) : State :=
  let x := s.core c.die c.core
  let g := s.gen c.die c.core gen
  let n := groupGranules fmt
  let ext := x.laneExtent fmt (64 * g.first)
  let q : Group := ⟨List.replicate n (List.replicate 64 0), [], c.cyc + (if fmt = 2 then 9 else 10), ext⟩
  let ops := ((List.range n).filter (fun l => decide (l < ext ∨ 64 ≤ l))).map (fun l =>
    let k := (g.first + l) % 6144
    PortOp.mk (c.cyc + l / 16) port (k / 16) (k % 16) none dst l)
  let s1 := s.modCore c.die c.core (fun y => match dst with
    | .bufA i => { y with bufA := Map.put y.bufA i q }
    | .bufB i => { y with bufB := Map.put y.bufB i q }
    | .acc _ => y)
  ((s1.issuePorts c ops).occupy c.die c.core port (c.cyc + (n + 15) / 16)).stepGen c.die c.core gen

/-- A buffer may be loaded: the latest RUN that consumes it has run its c cycles (R306). -/
def Core.bufferFree (x : Core) (n : Nat) (inA : Bool) (i : Nat) : Bool :=
  x.runs.all (fun r => (if inA then r.aBuf else r.bBuf) != i || decide (r.start + r.cycles ≤ n))

/-- LDA: one A group is loaded into an A buffer through MXA. -/
def execLda (c : CoreRef) (s : State) : Result State :=
  s.inBundle c (fun t =>
    let w := t.slotWord c 1
    let x := t.core c.die c.core
    if !testBit w 0 then .next s
    else if (t.gen c.die c.core (bits w 2 3)).skew || !x.bufferFree c.cyc true (bits w 1 1) then t.coreErr c 306
    else if !x.portFree 0x1 c.cyc then t.coreErr c 301
    else .next (t.loadGroup c 0x1 (bits w 2 3) (bits w 15 4) (.bufA (bits w 1 1))))

/-- LDB: one B group is loaded into a B buffer through MXB. -/
def execLdb (c : CoreRef) (s : State) : Result State :=
  s.inBundle c (fun t =>
    let w := t.slotWord c 1
    let x := t.core c.die c.core
    if !testBit w 5 then .next s
    else if (t.gen c.die c.core (bits w 7 3)).skew || !x.bufferFree c.cyc false (bits w 6 1) then t.coreErr c 306
    else if !x.portFree 0x2 c.cyc then t.coreErr c 301
    else .next (t.loadGroup c 0x2 (bits w 7 3) (bits w 19 4) (.bufB (bits w 6 1))))

/-- The cycle from which an accumulator is at rest: the last RUN into it has committed, and the last STORE has read it. -/
def Core.accRest (x : Core) (a extra : Nat) : Nat :=
  x.runs.foldl (fun n r => if r.acc = a then max n (r.start + r.cycles + extra) else n) 0

/-- RUN: the product of an A and a B group begins to accumulate (R307). -/
def execRun (c : CoreRef) (s : State) : Result State :=
  s.inBundle c (fun t =>
    let w := t.slotWord c 1
    if !testBit w 10 then .next s
    else
      let x := t.core c.die c.core
      let acc := bits w 13 1
      let fa := bits w 15 4
      let fb := bits w 19 4
      match x.bufA.find? (fun p => p.1 == bits w 11 1), x.bufB.find? (fun p => p.1 == bits w 12 1) with
      | some (_, a), some (_, b) =>
        if !pairOk fa fb then t.coreErr c 305
        else if c.cyc < a.ready ∨ c.cyc < b.ready ∨ a.granules.length ≠ groupGranules fa ∨ b.granules.length ≠ groupGranules fb then
          t.coreErr c 306
        else if x.runs.any (fun r => decide (c.cyc < r.start + r.cycles)) || decide (c.cyc < Map.get 0 x.accBusy acc) then
          t.coreErr c 307
        else
          let r : RunState := ⟨c.cyc, runCycles fa, acc, testBit w 14, fa, fb, bits w 11 1, bits w 12 1, a, b, 0⟩
          .next (((t.modCore c.die c.core (fun y => { y with runs := y.runs ++ [r] })).setF c.die .mxStatus_array_busy 1
            c.core).addFrame c.die .mxBusy_busy 1024 (runCycles fa) c.core)
      | _, _ => t.coreErr c 306)

/-- The elements of lane i of a group, as encodings. -/
def laneCodes (f : Nat) (g : List Byte) : List Nat :=
  match f with
  | 0x2 => (List.range 32).map (fun k => leNat ((g.drop (2 * k)).take 2))
  | 0x8 => (g.map (fun b => [b.toNat % 16, b.toNat / 16])).flatten
  | 0x6 | 0x7 => ((List.range 16).map (fun m =>
      let v := leNat ((g.drop (3 * m)).take 3)
      [bits v 0 6, bits v 6 6, bits v 12 6, bits v 18 6])).flatten
  | _ => g.map (fun b => b.toNat)

/-- floor(log₂) of m × 2^e. -/
def flog2 (m : Nat) (e : Int) : Int := (Nat.log2 m : Int) + e

/-- The element integers of one block of one lane, the exponent of their unit with the block's scale in it, and whether the
block is special (R326, R327, R329). -/
def blockInts (f : Nat) (codes : List Nat) (scale : Nat) : List Int × Int × Bool :=
  if f = 0x2 then
    let vals := codes.map FFmt.bf16.decode
    let special := vals.any (fun v => match v with | .fin _ _ _ => false | _ => true)
    let X := vals.foldl (fun (x : Int) v => match v with
      | .fin _ m e => if m = 0 then x else max x (flog2 m e)
      | _ => x) (-133)
    (vals.map (fun v => match v with
      | .fin neg m e => smant neg (rneAt m (e + 14 - X) 0)
      | _ => 0), X - 14, special)
  else (codes.map (mxInt f), mxK f + scale - 127, scale == 0xFF || codes.any (mxSpecial f))

/-- The integers of lane i in block q of a group. -/
def Group.block (g : Group) (f i q : Nat) : List Int × Int × Bool :=
  blockInts f ((laneCodes f (g.granules.getD i [])).drop (32 * q) |>.take 32)
    (((g.granules.getD (64 + q) []).getD i 0x7F#8).toNat)

/-- A block integer (R328). -/
def dotInt (a b : List Int) : Int := (List.zipWith (· * ·) a b).foldl (· + ·) 0

/-- The scale stage: c ← round(c + I × 2^E); the canonical NaN for a special block (R329). -/
def scaleStage (c : Nat) (i e : Int) (special : Bool) : Nat :=
  if special then FFmt.fp32.nan
  else FFmt.fp32.encode ((FFmt.fp32.decode c).add (.fin (decide (i < 0)) i.natAbs e))

/-- What a fault adds to the block integer of a cell: row and column below 64 are the array's; column 64 is the checksum column, row 64 the
checksum row, and both together the corner cell (R311). -/
def devAt (dev : List (Nat × Nat × Int)) (i j : Nat) : Int :=
  (dev.filter (fun x => x.1 == i && x.2.1 == j)).foldl (fun n x => n + x.2.2) 0

/-- A block as the array has formed it: the integers of its cells, row by row, with the unit's exponent and the special mark of each lane. -/
structure Block where
  cells : List Int
  rows : List (Int × Bool)
  cols : List (Int × Bool)
  col : List Int
  row : List Int
  corner : Int
  deriving DecidableEq, Repr

/-- The sums of the lanes' integers, element by element. -/
def sumLanes (l : List (List Int)) : List Int :=
  match l with
  | [] => []
  | x :: l => l.foldl (fun s y => List.zipWith (· + ·) s y) x

/-- The block of a RUN that closes next: every cell's block integer, the checksum column, the checksum row and the corner (R311, R328), with
what faults add. -/
def RunState.close (r : RunState) (dev : List (Nat × Nat × Int)) : Block :=
  let as := (List.range 64).map (fun i => r.a.block r.aFmt i r.block)
  let bs := (List.range 64).map (fun j => r.b.block r.bFmt j r.block)
  let sa := sumLanes (as.map (fun a => a.1))
  let sb := sumLanes (bs.map (fun b => b.1))
  { cells := (as.mapIdx (fun i a => bs.mapIdx (fun j b => dotInt a.1 b.1 + devAt dev i j))).flatten
    rows := as.map (fun a => (a.2.1, a.2.2))
    cols := bs.map (fun b => (b.2.1, b.2.2))
    col := as.mapIdx (fun i a => dotInt a.1 sb + devAt dev i 64)
    row := bs.mapIdx (fun j b => dotInt sa b.1 + devAt dev 64 j)
    corner := dotInt sa sb + devAt dev 64 64 }

/-- Bits of the checksum accumulators of a pairing: 16 more than its block accumulator (R312, Table NCO-6). -/
def checkBits (fa fb : Nat) : Nat := 16 + (if fa = 5 ∨ fb = 5 then 96 else 48)

/-- Two sums agree in accumulators of w bits. -/
def agree (w : Nat) (a b : Int) : Bool := (a - b) % (2 ^ w : Int) == 0

/-- The rows and the columns whose comparison disagrees, and whether the corner's does (R311, R312). -/
def Block.disagree (b : Block) (w : Nat) : List Nat × List Nat × Bool :=
  let cell (i j : Nat) : Int := b.cells.getD (i * 64 + j) 0
  let sum (l : List Int) : Int := l.foldl (· + ·) 0
  ((List.range 64).filter (fun i => !agree w (b.col.getD i 0) (sum ((List.range 64).map (fun j => cell i j)))),
   (List.range 64).filter (fun j => !agree w (b.row.getD j 0) (sum ((List.range 64).map (fun i => cell i j)))),
   !agree w b.corner (sum b.cells))

/-- Commit a block into its accumulator, with the marks of its lanes. -/
def Core.commit (x : Core) (r : RunState) (b : Block) : Core :=
  let start := r.init && r.block == 0
  let acc := (List.range 4096).foldl (fun (m : Map Word) n =>
    let i := b.rows.getD (n / 64) (0, false)
    let j := b.cols.getD (n % 64) (0, false)
    let c := if start then 0 else (Map.get 0 x.acc (r.acc * 4096 + n)).toNat
    Map.set 0 m (r.acc * 4096 + n) (Word.ofNat (scaleStage c (b.cells.getD n 0) (i.1 + j.1) (i.2 || j.2)))) x.acc
  let p0 := if start then x.accPoison.filter (fun k => decide (k / 128 ≠ r.acc)) else x.accPoison
  let p1 := r.a.lanes.foldl (fun p i => setInsert (r.acc * 128 + i) p) p0
  let p2 := r.b.lanes.foldl (fun p j => setInsert (r.acc * 128 + 64 + j) p) p1
  { x with acc := acc, accPoison := p2, chk := b.col ++ b.row ++ [b.corner] }

/-- Latch a failure of the matrix engine and fail the check (R313, MX_FAIL_LAST); one of the bundle or slot-table store is counted, and
the store is reinstalled before the next task (R319). -/
def State.matrixFail (s : State) (c : CoreRef) (f : MxFault) (block : Nat) : State :=
  let d := c.die
  let i := c.core
  if f.kind = 0 then (s.bumpF d .tagStoreErr_uncorrectable i).checkFail d i
  else
  let s1 := if f.kind = 1 then s.bumpF d .mxFail_checksum i else s.bumpF d .mxFail_duplicate i
  let s2 := if s1.getF d .mxFailLast_valid i = 1 then s1
    else
      let fr := ((s.slot d ((s.unit d i).running.getD 0)).map (fun x => x.desc.frame)).getD 0
      ((((((s1.setF d .mxFailLast_row f.row i).setF d .mxFailLast_col f.col i).setF d .mxFailLast_located (bit f.located) i).setF d
        .mxFailLast_kind f.kind i).setF d .mxFailLast_block block i).setF d .mxFailFrame_frame fr.toNat i).setF d .mxFailLast_valid 1 i
  (s2.setF d .mxStatus_chk_fail 1 i).checkFail d i

/-- The fault that the comparisons of a block find, none where all agree: the lowest row and column that disagree, 64 where none does (R312,
R313; log entry 79). -/
def Block.fault (b : Block) (w : Nat) : Option MxFault :=
  let f := b.disagree w
  if f.1.isEmpty && f.2.1.isEmpty && !f.2.2 then none
  else some ⟨f.1.headD 64, f.2.1.headD 64, f.1.length == 1 && f.2.1.length == 1, 1⟩

/-- BLOCK_CLOSE: the oldest RUN's next block closes: its comparisons run, and it is committed to the accumulator; a disagreement, or one that a
duplicate stage or a store shows, is a check failure (R311–R313).  `dev` is what faults have added to its cells. -/
def execBlockClose (c : CoreRef) (dev : List (Nat × Nat × Int)) (fault : Option MxFault) (s : State) : Result State :=
  let x := s.core c.die c.core
  match x.runs.find? (fun r => decide (r.block < runBlocks r.aFmt)) with
  | none => .next s
  | some r =>
    if !s.dieUp c.die || (s.unit c.die c.core).failed || (s.unit c.die c.core).running.isNone ||
        decide (c.cyc < r.start + (r.block + 1) * (r.cycles / runBlocks r.aFmt)) then .next s
    else
      let s1 := s.bumpUnits c.die .mxChecks_checks 1024 1 c.core
      let b := r.close dev
      match b.fault (checkBits r.aFmt r.bFmt), fault with
      | some f, _ => .next (s1.matrixFail c f r.block)
      | none, some f => .next (s1.matrixFail c f r.block)
      | none, none =>
        let last := r.block + 1 == runBlocks r.aFmt
        let s2 := s1.modCore c.die c.core (fun y =>
          { y.commit r b with runs := y.runs.map (fun q => if q = r then { r with block := r.block + 1 } else q) })
        let s3 := s2.setF c.die .mxStatus_poison (bit !(s2.core c.die c.core).accPoison.isEmpty) c.core
        .next (if last then (s3.bumpF c.die .mxRuns_runs c.core).setF c.die .mxStatus_array_busy
            (bit ((s3.core c.die c.core).runs.any (fun q => decide (q.block < runBlocks q.aFmt)))) c.core else s3)

/-- An accumulator's value and whether its row or column is marked. -/
def Core.cell (x : Core) (a i j : Nat) : Nat × Bool :=
  ((Map.get 0 x.acc (a * 4096 + i * 64 + j)).toNat, x.accPoison.contains (a * 128 + i) || x.accPoison.contains (a * 128 + 64 + j))

/-- A granule of values of `w` bytes each with the marks of its codewords. -/
def packGranule (w : Nat) (l : List (Nat × Bool)) : Granule :=
  ((l.map (fun v => toLE w v.1)).flatten, (List.range 4).map (fun k => ((l.drop (16 / w * k)).take (16 / w)).any (fun v => v.2)))

/-- The data granules of a STORE in row order, and for an MX format the two scale granules (R308). -/
def Core.storeGranules (x : Core) (a fmt : Nat) : List Granule × List Granule :=
  let row (i : Nat) : List (Nat × Bool) := (List.range 64).map (fun j => x.cell a i j)
  match fmt with
  | 0xB => ((((List.range 64).map (fun i => (List.range 4).map (fun k => packGranule 4 ((row i).drop (16 * k) |>.take 16)))).flatten), [])
  | 0x2 | 0xA =>
    let f := if fmt = 2 then FFmt.bf16 else FFmt.fp16
    let nar (i : Nat) := (row i).map (fun v => (FFmt.fp32.convert f v.1, v.2))
    ((((List.range 64).map (fun i => (List.range 2).map (fun k => packGranule 2 ((nar i).drop (32 * k) |>.take 32)))).flatten), [])
  | _ =>
    let blk (i q : Nat) : Nat × List Nat × Bool :=
      let vs := (row i).drop (32 * q) |>.take 32
      let r := mxQuantise fmt (vs.map (fun v => v.1))
      (r.1, r.2, vs.any (fun v => v.2))
    let rows := (List.range 64).map (fun i => ((blk i 0), (blk i 1)))
    (rows.map (fun b => packGranule 1 (b.1.2.1.map (fun v => (v, b.1.2.2)) ++ b.2.2.1.map (fun v => (v, b.2.2.2)))),
     (List.range 2).map (fun h => packGranule 1 (((rows.drop (32 * h)).take 32).map (fun b =>
       [(b.1.1, b.1.2.2), (b.2.1, b.2.2.2)])).flatten))

/-- The port operations of successive accesses of a generator, one access a cycle from cycle n on, for `left` granules: those written, or
none for granules that are read into an accumulator (R308).  A lane outside its tensor is not written (R284). -/
def Core.genOps (x : Core) (port : Nat) (w : Option (List Granule)) (dst : PortDst) : Nat → Nat → Gen → Nat → Nat → List PortOp
  | 0, _, _, _, _ => []
  | k + 1, n, g, pos, left =>
    if left = 0 then []
    else
      let lanes := g.lanes.take left
      let used := (List.range lanes.length).filter (fun i => w.isNone || (x.outside g i).isNone)
      used.map (fun i =>
        let at_ := lanes.getD i (0, 0)
        PortOp.mk n port at_.1 at_.2 (w.map (fun l => l.getD (pos + i) ([], []))) dst (pos + i)) ++
      Core.genOps x port w dst k (n + 1) { g with m := g.m + 1 } (pos + lanes.length) (left - lanes.length)

/-- Issue them through a port, which they occupy; the generator has made its accesses. -/
def State.issueGen (s : State) (c : CoreRef) (port gen n count : Nat) (w : Option (List Granule)) (dst : PortDst) : State :=
  let g := s.gen c.die c.core gen
  let k := (count + g.lanes.length - 1) / g.lanes.length
  let ops := (s.core c.die c.core).genOps port w dst (k + 1) n g 0 count
  ((s.issuePorts c ops).occupy c.die c.core port (n + k)).modCore c.die c.core (fun x =>
    { x with gens := Map.modify Gen.fresh x.gens gen (fun g => { g with m := g.m + k }) })

/-- Granules in a row of a stored accumulator: 4 in FP32, 1 in an MX format, else 2 (R308). -/
def storePer (fmt : Nat) : Nat := if fmt = 0xB then 4 else if fmt = 4 ∨ fmt = 5 ∨ fmt = 9 then 1 else 2

/-- STORE: an accumulator is converted and written through MXD (R308). -/
def execStore (c : CoreRef) (fault : Option MxFault) (s : State) : Result State :=
  s.inBundle c (fun t =>
    let w := t.slotWord c 1
    if !testBit w 23 then .next s
    else
      let x := t.core c.die c.core
      let a := bits w 24 1
      let fmt := bits w 25 4
      let mx := fmt == 4 || fmt == 5 || fmt == 9
      let gi := bits w 29 3
      let wd := (t.gen c.die c.core gi).lanes.length
      if !(mx || fmt == 2 || fmt == 0xA || fmt == 0xB) || wd % storePer fmt ≠ 0 then t.coreErr c 308
      else if c.cyc < x.accRest a (if mx then 12 else 8) then t.coreErr c 307
      else if !x.portFree 0x4 c.cyc then t.coreErr c 301
      else if !(t.gen c.die c.core gi).inLine ((64 * storePer fmt + wd - 1) / wd) then t.coreErr c 302
      else match fault with
        | some f => .next (t.matrixFail c f 0)
        | none =>
          let g := x.storeGranules a fmt
          let n := (g.1.length + wd - 1) / wd
          let t1 := t.issueGen c 0x4 gi c.cyc g.1.length (some g.1) (.acc a)
          let t2 := if mx then t1.issueGen c 0x4 (bits w 32 3) (c.cyc + n) g.2.length (some g.2) (.acc a) else t1
          .next (t2.modCore c.die c.core (fun y => { y with accBusy := Map.set 0 y.accBusy a (c.cyc + n) })))

/-- ACCIN: an accumulator is loaded from 256 FP32 granules through MXC, its marks are cleared until poisoned granules come, and the checksum
accumulators are reset (R308, R314). -/
def execAccin (c : CoreRef) (s : State) : Result State :=
  s.inBundle c (fun t =>
    let w := t.slotWord c 1
    if !testBit w 35 then .next s
    else
      let x := t.core c.die c.core
      let a := bits w 36 1
      let gi := t.gen c.die c.core (bits w 37 3)
      if gi.lanes.length % 4 ≠ 0 then t.coreErr c 308
      else if c.cyc < x.accRest a 8 ∨ c.cyc < Map.get 0 x.accBusy a then t.coreErr c 307
      else if !x.portFree 0x3 c.cyc then t.coreErr c 301
      else if !gi.inLine ((256 + gi.lanes.length - 1) / gi.lanes.length) then t.coreErr c 302
      else
        let t1 := t.modCore c.die c.core (fun y =>
          { y with accPoison := y.accPoison.filter (fun k => decide (k / 128 ≠ a)), chk := []
                   runs := y.runs.filter (fun q => decide (q.acc ≠ a)) })
        .next (t1.issueGen c 0x3 (bits w 37 3) c.cyc 256 none (.acc a)))

/-! ### Loops and the end (R299, R300) -/

/-- LOOP: a LOOP bundle issues once and starts its counted loop over the body that follows. -/
def execLoop (c : CoreRef) (s : State) : Result State :=
  s.inBundle c (fun t =>
    let x := t.core c.die c.core
    if bits (t.slotWord c 0) 0 2 ≠ 1 then .next s
    else match startLoop x.pc (t.slotWord c 0) x.loops with
      | some ls => .next (t.modCore c.die c.core (fun y => { y with loops := ls }))
      | none => t.coreErr c 299)

/-- END: no bundle follows; the end may be reported once results are written and stores are answered (R300). -/
def execEndBundle (c : CoreRef) (s : State) : Result State :=
  s.inBundle c (fun t =>
    if bits (t.slotWord c 0) 0 2 ≠ 2 then .next s
    else
      .next ((((((t.modCore c.die c.core (fun y => { y with issuing := false, endDt := t.deviceTime })).modUnit c.die c.core
        (fun u => { u with done := true })).setF c.die .tagCycles_cycles c.cyc c.core).setF c.die .tagStatus_running 0 c.core).setF
        c.die .tagStatus_draining 1 c.core).setF c.die .tagBundle_bundle (t.core c.die c.core).pc c.core))

end Sys2Proof.Machine
end

