-- ==== Sys2Proof/Machine/Recorder.lean ====
section
/-! DEFINITION. The event recorder (chapter 21): accumulators, closure, the kept and circulating areas, the hold of
EVR_FREEZE, raising events by register, and the log partition. -/

namespace Sys2Proof.Machine

open Sys2Proof

/-! ### The recorder table (R521, Table EVR-2) -/

/-- A recorder table entry. -/
structure RecEntry where
  interval : Nat
  severity : Nat
  log : Bool
  shift : Nat
  base : Int
  deriving DecidableEq, Repr

/-- ILK1 mode (R521, R527). -/
def State.ilk1 (s : State) : Bool := s.cad secPOWER 0x400 1 == 1

/-- Entry `n` of the recorder table: 0 is the default entry. -/
def State.recEntryAt (s : State) (n : Nat) : RecEntry :=
  let o := 0x410 + 16 * n
  ⟨s.cad secPOWER (o + 2) 2, s.cad secPOWER (o + 4) 1, s.cad secPOWER (o + 5) 1 == 1, s.cad secPOWER (o + 6) 1,
   signed 32 (s.cad secPOWER (o + 8) 4)⟩

/-- The entry of a code; the default entry where the table has none. -/
def State.recEntry (s : State) (code : Nat) : RecEntry :=
  match (List.range (s.cad secPOWER 0x402 2)).find? (fun i => s.cad secPOWER (0x420 + 16 * i) 2 == code) with
  | some i => s.recEntryAt (i + 1)
  | none => s.recEntryAt 0

/-- The bin of a value (R522). -/
def RecEntry.bin (e : RecEntry) (v : Int) : Nat :=
  let d := v - e.base
  if e.log then
    if d < 2 ^ e.shift then 0 else cap 31 (Nat.log2 d.toNat - e.shift + 1)
  else if d < 0 then 0 else cap 31 (d.toNat / 2 ^ e.shift)

/-! ### Accumulators (R517–R520) -/

/-- The detail word of an event (R516). -/
def Event.detail (e : Event) : Nat := e.die % 8 + e.field % 2 ^ 24 * 256

/-- An event's signed value. -/
def Event.val (e : Event) : Int := signed 32 e.value.toNat

/-- A count saturating at 32 bits. -/
def cnt32 (n : Nat) : Nat := cap (2 ^ 32 - 1) n

/-- A sum saturating at 64 signed bits. -/
def sum64 (v : Int) : Int := if v < -(2 ^ 63) then -(2 ^ 63) else if v ≥ 2 ^ 63 then 2 ^ 63 - 1 else v

/-- An event added to its accumulator (R519). -/
def Accum.add (a : Accum) (r : RecEntry) (e : Event) : Accum :=
  let v := e.val
  let b := r.bin v
  let n := nth 0 a.bins b
  let sat := a.count ≥ 2 ^ 32 - 1 || sum64 (a.sum + v) != a.sum + v || n ≥ 2 ^ 32 - 1
  let tie (dt detail : Nat) : Bool := decide (e.dt < dt) || (decide (e.dt = dt) && decide (e.die % 8 < detail % 8))
  let isMin := decide (v < a.min) || (decide (v = a.min) && tie a.minDt a.minDetail)
  let isMax := decide (v > a.max) || (decide (v = a.max) && tie a.maxDt a.maxDetail)
  { a with
    count := cnt32 (a.count + 1)
    sum := sum64 (a.sum + v)
    bins := setNth a.bins b (cnt32 (n + 1))
    saturated := a.saturated || sat
    min := if isMin then v else a.min
    minDt := if isMin then e.dt else a.minDt
    minDetail := if isMin then e.detail else a.minDetail
    max := if isMax then v else a.max
    maxDt := if isMax then e.dt else a.maxDt
    maxDetail := if isMax then e.detail else a.maxDetail
    lastFrame := e.frame }

/-- The accumulator that an event opens (R517). -/
def State.openAccum (s : State) (e : Event) : Accum :=
  let g := s.segAt e.dt
  let a : Accum :=
    ⟨e.code, e.dt, e.dt + (s.recEntry e.code).interval * 900000, 0, 0, e.val, e.val, e.dt, e.dt, e.detail, e.detail,
     e.frame, e.frame, List.replicate 32 0, false, g.at e.dt, g.epoch, g.synced⟩
  a.add (s.recEntry e.code) e

/-- The open accumulator of a code. -/
def Recorder.accum (r : Recorder) (code : Nat) : Option Accum := r.accums.find? (fun a => a.code == code)

/-- The device time at which an accumulator closes (R518). -/
def Accum.due (a : Accum) : Nat := a.closeDt + 25000

/-- Change the recorder. -/
def State.modRec (s : State) (f : Recorder → Recorder) : State := { s with recorder := f s.recorder }

/-- Keep EVR_STATUS.open. -/
def State.evrCount (s : State) : State := s.setF 6 .evrStatus_open s.recorder.accums.length

/-- An event goes into its accumulator, opens one, waits for its code's next interval, or is lost for want of a free
accumulator or under a hold (R517, R520, R529).  1,023 accumulators serve every code but 0x1100. -/
def State.intoAccum (s : State) (e : Event) : State :=
  match s.recorder.accum e.code with
  | some a =>
    if e.dt < a.closeDt then
      s.modRec (fun r => { r with accums := r.accums.map (fun x => if x.code = e.code then x.add (s.recEntry e.code) e else x) })
    else if s.recorder.freezeFrom.isSome && decide (a.due ≤ s.deviceTime) then s.bumpF 6 .evrLost_events
    else s.modRec (fun r => { r with later := r.later ++ [e] })
  | none =>
    if e.code ≠ 0x1100 ∧ (s.recorder.accums.filter (fun a => a.code != 0x1100)).length ≥ 1023 then
      (s.bumpF 6 .evrLost_events).raise 0x1100 e.code
    else (s.modRec (fun r => { r with accums := r.accums ++ [s.openAccum e] })).evrCount

/-! ### Records (R523–R527) -/

/-- The bytes of a record with sequence number `seq`, closing now (Table EVR-1). -/
def State.recordBytes (s : State) (a : Accum) (seq closeDt : Nat) (truncated deferred : Bool) : List Byte :=
  let epochChanged := a.openEpoch != s.epoch
  let flags := bit epochChanged + 2 * bit truncated + 4 * bit a.saturated + 8 * bit (!a.openSynced || !s.synced) +
    16 * bit deferred
  let body := toLE 2 a.code ++ toLE 1 (s.recEntry a.code).severity ++ toLE 1 flags ++ toLE 4 s.recorder.boot ++
    toLE 8 a.openDt ++ toLE 8 closeDt ++ toLE 8 a.openWall ++ toLE 8 s.wall ++ toLE 2 a.openEpoch ++ toLE 2 s.epoch ++
    toLE 4 a.count ++ toLE 8 (satSigned 64 a.sum) ++ toLE 4 (satSigned 32 a.min) ++ toLE 4 (satSigned 32 a.max) ++
    toLE 8 a.minDt ++ toLE 8 a.maxDt ++ toLE 4 a.minDetail ++ toLE 4 a.maxDetail ++ toLE 4 a.firstFrame.toNat ++
    toLE 4 a.lastFrame.toNat ++ List.replicate 8 0 ++ (a.bins.map (toLE 4)).flatten ++ List.replicate 12 0
  let head := toLE 4 seq
  head ++ toLE 4 1 ++ body ++ toLE 4 (crc32c (head ++ List.replicate 4 0 ++ body)).toNat

/-- The severity byte and sequence number of a written record. -/
def recSeverity (b : List Byte) : Nat := (nth 0 b 0x0A).toNat
def recSeq (b : List Byte) : Nat := leNat (b.take 4)

/-- The slot a new record takes: by R526 in native mode, by R527 in ILK1 mode; none where it is discarded. -/
def State.recordSlot (s : State) (seq severity : Nat) : Option Nat :=
  if !s.ilk1 then some (if seq < 512 then seq else 512 + (seq - 512) % 4096)
  else match (List.range 4608).find? (fun i => (Map.get [] s.recorder.slots i).isEmpty) with
    | some i => some i
    | none =>
      let full := s.recorder.slots.filter (fun p => decide (recSeverity p.2 ≤ severity))
      let low := full.foldl (fun m p => min m (recSeverity p.2)) 8
      ((full.filter (fun p => recSeverity p.2 == low)).foldl
        (fun (o : Option (Nat × List Byte)) p => match o with
          | none => some p
          | some q => if recSeq p.2 < recSeq q.2 then some p else some q) none).map (·.1)

/-- Keep EVR_PERSIST.pending, and EVR_STATUS.persist_busy, set while a record awaits its log write (R531; log entry 100). -/
def State.persistRegs (s : State) : State :=
  (s.setF 6 .evrPersist_pending (cap 65535 s.recorder.unwritten.length)).setF 6 .evrStatus_persist_busy
    (bit (!s.recorder.unwritten.isEmpty))

/-- A closed accumulator becomes one record with the next sequence number (R518, R525–R527).  A record of the kept area
waits for its log write (R531). -/
def State.writeRecord (s : State) (a : Accum) (closeDt : Nat) (truncated deferred : Bool) : State :=
  let seq := s.recorder.nextSeq
  let s1 := s.modRec (fun r => { r with nextSeq := seq + 1, accums := r.accums.filter (fun x => x.code != a.code) })
  match s.recordSlot seq (s.recEntry a.code).severity with
  | none => (s1.bumpF 6 .evrLost_discarded).evrCount
  | some slot =>
    let kept := !s.ilk1 && decide (seq < 512)
    let s2 := s1.modRec (fun r =>
      { r with slots := Map.put r.slots slot (s.recordBytes a seq closeDt truncated deferred)
               unwritten := if kept then r.unwritten ++ [slot] else r.unwritten })
    let s3 := (s2.setF 6 .evrSeq_seq seq).setF 6 .evrStatus_kept_full (bit (!s.ilk1 && decide (seq ≥ 511)))
    s3.persistRegs.evrCount

/-- The events that waited for the next interval of a code arrive in it (R517). -/
def State.replay (s : State) (code : Nat) : State :=
  let mine := s.recorder.later.filter (fun e => e.code == code)
  mine.foldl State.intoAccum (s.modRec (fun r => { r with later := r.later.filter (fun e => e.code != code) }))

/-- One accumulator closes. -/
def State.closeAccum (s : State) (a : Accum) (deferred : Bool) : State :=
  (s.writeRecord a a.closeDt false deferred).replay a.code

/-- Insert an accumulator by its due time, ties by code (R518, R529). -/
def insertDue (a : Accum) : List Accum → List Accum
  | [] => [a]
  | b :: l => if a.due < b.due ∨ (a.due = b.due ∧ a.code < b.code) then a :: b :: l else b :: insertDue a l

/-- The end of a hold: the records that fell due under it are written in order of due time, each deferred (R529). -/
def State.endHold (s : State) (expired : Bool) : State :=
  let held := (s.recorder.accums.filter (fun a => decide (a.due ≤ s.deviceTime))).foldl (fun l a => insertDue a l) []
  let s1 := held.foldl (fun s a => s.closeAccum a true) (s.modRec (fun r => { r with freezeFrom := none }))
  let s2 := s1.setF 6 .evrFreeze_freeze 0
  if expired then s2.setF 6 .evrFreeze_expired 1 else s2

/-- Every open accumulator closes truncated, lower codes first. -/
def State.closeAll (s : State) : State :=
  let all := s.recorder.accums.foldl (fun l a => insertDue { a with closeDt := 0 } l) []
  all.foldl (fun s a =>
    match s.recorder.accum a.code with
    | some x => s.writeRecord x s.deviceTime true false
    | none => s) s

/-- The request of a removal ends a hold and closes every accumulator; then the events that waited for the next interval open theirs, which
close too (R531). -/
def State.flushRecorder (s : State) : State :=
  let s1 := (if s.recorder.freezeFrom.isSome then s.endHold false else s).closeAll
  (s1.recorder.later.foldl State.intoAccum (s1.modRec (fun r => { r with later := [] }))).closeAll

/-- Codes that an event may bear (Tables EVR-4, SEC-6 and the codes of the power and freeze chapters; R532). -/
def codeDefined (c : Nat) : Bool :=
  (0x8000 ≤ c && c ≤ 0xFFFF) ||
  [0x0100, 0x0101, 0x0102, 0x0103, 0x0180, 0x0181, 0x0182, 0x0183, 0x0184, 0x0185, 0x0200, 0x0201, 0x0202, 0x0400, 0x0600,
   0x0800, 0x0900, 0x0901, 0x0A00, 0x0B00, 0x0F00, 0x0F01, 0x0F02, 0x0F03, 0x0F04, 0x0F06, 0x0F07, 0x0F10, 0x0F11,
   0x1100].contains c || (0x0C00 ≤ c && c ≤ 0x0C14)

/-! ### The commands -/

/-- EVENT_ARRIVE: an event reaches the recorder, a C-die's over its hub link, whose loss takes it (R24, R515, R517, R519, R520). -/
def execEventArrive (e : Event) (s : State) : Result State :=
  if s.frz.stopped then .next s
  else if codeDefined e.code then
    let s1 := { s with evDue := s.evDue.erase e }
    .next (if s.reach e.die 6 then s1.intoAccum e else s1)
  else hostErr s 532

/-- ACCUMULATOR_CLOSE: device time has reached close_dt + 25,000 (R518); nothing closes under a hold (R529). -/
def execAccumulatorClose (code : BitVec 16) (s : State) : Result State :=
  if s.frz.stopped then .next s else
  match s.recorder.accum code.toNat with
  | some a =>
    if a.due ≤ s.deviceTime ∧ s.recorder.freezeFrom = none then .next (s.closeAccum a false) else .next s
  | none => .next s

/-- EVR_RAISE_CODE: the write raises an event with the writer's latched value (R515, R532). -/
def execEvrRaiseCode (who : Init) (priv : Bool) (code : BitVec 16) (s : State) : Result State :=
  if s.frz.stopped then .next s
  else if !who.canAccess then hostErr s 27
  else if priv && !s.privileged who then
    .next (if code.toNat < 0x8000 then s.viewMiss.bumpF 6 .evrLost_events
      else s.viewMiss.raise code.toNat (Map.get 0 s.recorder.latches who.key).toNat who.die)
  else if !priv && code.toNat < 0x8000 then .next (s.bumpF 6 .evrLost_events)
  else if codeDefined code.toNat then
    .next (s.raise code.toNat (Map.get 0 s.recorder.latches who.key).toNat who.die)
  else hostErr s 532

/-- A write of freeze = 1 (R529); on the ILK2-M2, and while a hold is in force, it changes nothing. -/
def execEvrFreezeSet (who : Init) (s : State) : Result State :=
  if s.frz.stopped then .next s
  else if !who.canAccess then hostErr s 27
  else if !s.privileged who then .next s.viewMiss
  else if s.m2 || s.recorder.freezeFrom.isSome then .next s
  else .next (((s.modRec (fun r => { r with freezeFrom := some s.deviceTime })).setF 6 .evrFreeze_freeze 1).setF 6
    .evrFreeze_expired 0)

/-- A write of freeze = 0 ends the hold (R529). -/
def execEvrFreezeClear (who : Init) (s : State) : Result State :=
  if s.frz.stopped then .next s
  else if !who.canAccess then hostErr s 27
  else if !s.privileged who then .next s.viewMiss
  else if s.recorder.freezeFrom.isSome then .next (s.endHold false) else .next s

/-- EVR_FREEZE_EXPIRE: 1 s after it began a hold ends by itself and expired is set (R529). -/
def execEvrFreezeExpire (s : State) : Result State :=
  if s.frz.stopped then .next s else
  match s.recorder.freezeFrom with
  | some t => if t + 900000000 ≤ s.deviceTime then .next (s.endHold true) else .next s
  | none => .next s

/-- Where in the log partition the region of the current start begins, in 256-byte records (R530); the number of regions is
65,536, the partition being larger than 128 GiB (log entry 10). -/
def State.logRegionBase (s : State) : Nat := (0x100000 + s.recorder.boot % 65536 * 0x200000) / 256

/-- LOG_PERSIST: the oldest record that waits for its log write is written, or its write fails (R531). -/
def execLogPersist (ok : Bool) (s : State) : Result State :=
  if s.frz.stopped then .next s else
  match s.recorder.unwritten with
  | [] => .next s
  | slot :: rest =>
    let s1 := s.modRec (fun r =>
      { r with unwritten := rest
               logRegion := if ok then Map.put r.logRegion (s.logRegionBase + slot) (Map.get [] r.slots slot) else r.logRegion })
    let s2 := s1.persistRegs
    .next (if ok then s2 else s2.bumpF 6 .evrPersist_failed)

end Sys2Proof.Machine
end

