-- ==== Sys2Proof/Machine/Tasks.lean ====
section
/-! DEFINITION. Task dispatch (chapter 04): slots, pushes, dispatch to units with its arbiters, the end of a task with
re-execution and substitution (R478–R482, R580, R582), completion records, and cancellation by software. -/

namespace Sys2Proof.Machine

open Sys2Proof

/-! ### Arbiters (R121, Table DSP-8) -/

/-- The contender that an arbiter's pointer picks: the lowest rank at first, then the first at or after the pointer. -/
def arbPick (ptr : Option Nat) (ranks : List Nat) : Option Nat :=
  let low (l : List Nat) : Option Nat := l.foldl (fun (m : Option Nat) r => match m with
    | none => some r
    | some n => some (min n r)) none
  match ptr with
  | none => low ranks
  | some p => match low (ranks.filter (fun r => decide (p ≤ r))) with
    | some r => some r
    | none => low ranks

/-- The arbiter of a key on a die. -/
def State.arbiter (s : State) (d key : Nat) : Arbiter := Map.get none (s.die d).seq.arbiters key

/-- After a tie of two or more the pointer moves past the winner. -/
def State.arbMove (s : State) (d key : Nat) (ranks : List Nat) (winner : Nat) : State :=
  if ranks.length < 2 then s
  else s.modSeq d (fun q => { q with arbiters := Map.set none q.arbiters key (some (winner + 1)) })

/-- Arbiter keys: the list choice of a unit, the contest for a list's head, slot allocation, and a completion queue. -/
def listChoiceKey (u : Nat) : Nat := u
def listHeadKey (q : Nat) : Nat := 4096 + q
def slotKey : Nat := 0xF000
def cqKey (q : Nat) : Nat := 0x10000 + q

/-! ### Taking a slot (R105, R109, R117) -/

/-- A slot just taken. -/
def Slot.of (t : TaskDesc) (sw : Bool) (list : Nat) (alt : Bool) : Slot :=
  ⟨t, .waiting, sw, list, 0, 0, 0, false, 0, false, alt, 0, 0, 0, false, false, false, false, 0, 0⟩

/-- A placement that names a unit, position or list that exists (R109). -/
def TaskDesc.placed (t : TaskDesc) : Bool := t.kind == 6 || t.list.isSome

/-- A wait that names a die of the fitted part. -/
def State.waitFits (s : State) (t : TaskDesc) : Bool := !t.waitEn || decide (t.waitDie < s.nDies)

/-- A task takes slot k; without a wait, or with its wait met, it becomes READY; a wait on another die sends a watch (R258, R260). -/
def State.takeSlot (s : State) (d k : Nat) (x : Slot) : State :=
  let s1 := (s.modSeq d (fun q => { q with slots := Map.put q.slots k x, grantDt := some s.deviceTime })).dspStatus d
  let t := x.desc
  if !t.waitEn then s1.makeReady d k
  else if t.waitDie = d then
    let s2 := s1.flagCheck d t.waitFlag
    if s2.flagMeets d t.waitFlag t.waitValue then s2.makeReady d k else s2.flagRegs d t.waitFlag
  else if s.waitFits t then { s1 with travel := s1.travel ++ [⟨.watch, d, t.waitDie, k, t.waitFlag, t.waitValue, false⟩] }
  else s1

/-- The order of R105: earlier frame, lower node, lower index. -/
def grantBefore (a b : TaskDesc) : Bool :=
  if a.frame ≠ b.frame then precedes a.frame b.frame
  else if a.node ≠ b.node then decide (a.node < b.node)
  else decide (a.index ≤ b.index)

/-- The held task that R105 grants first. -/
def firstHeld : List HeldTask → Option HeldTask
  | [] => none
  | h :: l => match firstHeld l with
    | none => some h
    | some g => if grantBefore h.desc g.desc then some h else some g

/-- The held task that the next grant takes: one that this cycle does not cancel (R105, R123). -/
def State.nextHeld (s : State) (d : Nat) : Option HeldTask :=
  firstHeld ((s.die d).seq.heldTasks.filter (fun h => !s.closing d h.desc))

/-- Held releases that the cycle's grant leaves out are counted once in DSP_SLOT_HELD. -/
def State.countHeld (s : State) (d : Nat) (out : HeldTask → Bool) : State :=
  let n := ((s.die d).seq.heldTasks.filter (fun h => !h.counted && out h)).length
  (s.modSeq d (fun q => { q with heldTasks := q.heldTasks.map (fun h => if out h then { h with counted := true } else h) })).bumpF
    d .dspSlotHeld_count 0 0 n

/-- Held releases that find no free slot are refused: each is counted once, also in DSP_Q_REFUSED of the ready list that it is bound for
(R105, R116; log entry 74). -/
def State.refuseHeld (s : State) (d : Nat) : State :=
  let l := (s.die d).seq.heldTasks.filter (fun h => !h.refused)
  let s1 := l.foldl (fun (s : State) h => match h.desc.list with
    | some q => if h.desc.kind = 6 then s else s.bumpF d .dspQRefused_count 0 q
    | none => s) (s.countHeld d (fun _ => true))
  s1.modSeq d (fun q => { q with heldTasks := q.heldTasks.map (fun h => { h with refused := true }) })

/-- A held task takes slot k; the other instances' held tasks that it leaves out are counted (R105).  A placement or a wait that names what
does not exist is the host's error: the task takes its slot and gets no further (R109). -/
def State.grant (s : State) (d k : Nat) (h : HeldTask) : State :=
  let s1 := s.modSeq d (fun q => { q with heldTasks := q.heldTasks.erase h })
  let s2 := s1.countHeld d (fun g => g.desc.node != h.desc.node || g.desc.frame != h.desc.frame)
  let s3 := (s2.takeSlot d k (Slot.of h.desc false 0 h.substitute)).dspStatus d
  if h.desc.placed && s.waitFits h.desc then s3 else s3.unpredictable

/-- SLOT_GRANT: one held task takes the lowest-numbered free slot; a die grants one slot in a cycle (R105). -/
def execSlotGrant (d : Nat) (s : State) : Result State :=
  if !s.dieUp d || (s.die d).seq.grantDt == some s.deviceTime then .next s
  else match s.nextHeld d, s.freeSlot d with
  | none, _ => .next s
  | some _, none => .next ((s.refuseHeld d).dspStatus d)
  | some h, some k => .next (s.grant d k h)

/-- The held releases that the slot allocation arbiter lets go before a push: safety class first; among equals a release the first time, then
the pointer's choice (R105, R121; log entry 74).  The first argument bounds their number. -/
def State.grantsBefore : Nat → State → Nat → Bool → State
  | 0, s, _, _ => s
  | n + 1, s, d, safety =>
    match s.nextHeld d, s.freeSlot d with
    | some h, some k =>
      if safety && !h.desc.safety then s.countHeld d (fun _ => true)
      else if h.desc.safety && !safety then State.grantsBefore n (s.grant d k h) d safety
      else if arbPick (s.arbiter d slotKey) [0, 1] = some 0 then
        State.grantsBefore n ((s.arbMove d slotKey [0, 1] 0).grant d k h) d safety
      else (s.arbMove d slotKey [0, 1] 1).countHeld d (fun _ => true)
    | _, _ => s

/-- A push is refused (Table DSP-6). -/
def State.pushRefused (s : State) (d list cause : Nat) : State :=
  (((s.bumpF d .dspQRefused_count 0 list).setF d .dspPushResult_result 2).setF d .dspPushResult_cause cause).setF d .dspPushResult_slot 0

/-- DSP_PUSH: firmware pushes the task in DSP_PUSH_DATA to a ready list (R117, Table DSP-6). -/
def execDspPush (who : Init) (d list : Nat) (s : State) : Result State :=
  if who.canAccess = false ∨ s.nDies ≤ d then hostErr s 27
  else if !s.privileged who then .next s.viewMiss
  else if readyListDefined list = false then hostErr s 117
  else if !s.dieUp d then .next s
  else
    let t := TaskDesc.ofBytes (((List.range 8).map (fun i => toLE 4 (s.getF d .dspPushData_word i))).flatten)
    let used := ((s.die d).seq.slots.filter (fun p => p.2.sw)).length
    if (s.freeSlot d).isNone then .next (s.pushRefused d list 0)
    else if (s.plan d).swLimit ≤ used then .next (s.pushRefused d list 1)
    else
      let s1 := State.grantsBefore ((s.die d).seq.heldTasks.length + 1) s d t.safety
      match s1.freeSlot d with
      | none => .next (s1.pushRefused d list 0)
      | some k =>
        let s2 := (((s1.takeSlot d k (Slot.of t true list false)).setF d .dspPushResult_result 1).setF d .dspPushResult_cause 0).setF d
          .dspPushResult_slot k
        .next (if s.waitFits t then s2 else s2.unpredictable)

/-! ### Dispatch (R119, R120) -/

/-- The heads of a position's candidate lists: list, rank, and whether the head is of safety class. -/
def State.heads (s : State) (d p : Nat) : List (Nat × Nat × Bool) :=
  ((candidateLists p).map (fun c => match s.readyList d c.1 with
    | [] => []
    | k :: _ => [(c.1, c.2, s.slotSafety d k)])).flatten

/-- The heads that tie for first by class and priority. -/
def State.bestHeads (s : State) (d p : Nat) : List (Nat × Nat × Bool) :=
  let hs := s.heads d p
  let safe := hs.filter (fun h => h.2.2)
  let cls := if safe.isEmpty then hs else safe
  let top := cls.foldl (fun n h => max n (h.1 % 8)) 0
  cls.filter (fun h => h.1 % 8 == top)

/-- The list that unit u takes its next task from, with its rank and the ranks that tied. -/
def State.choose (s : State) (d u : Nat) : Option (Nat × Nat × List Nat) :=
  match (s.unit d u).position with
  | none => none
  | some p =>
    let b := s.bestHeads d p
    match arbPick (s.arbiter d (listChoiceKey u)) (b.map (fun h => h.2.1)) with
    | none => none
    | some r => (b.find? (fun h => h.2.1 == r)).map (fun h => (h.1, r, b.map (fun h => h.2.1)))

/-- The rank of a unit in the contest for a list head: the scheduled position in its cluster, cluster × 8 + position among all
cores, the instance for others. -/
def State.headRank (s : State) (d u rank : Nat) : Nat :=
  match (s.unit d u).position with
  | some p => if u < 72 then (if rank = 1 then p % 8 else p) else unitInstance u
  | none => 0

/-- The units that contend for the head of a list now. -/
def State.contenders (s : State) (d q : Nat) : List Nat :=
  (List.range 90).filter (fun u => s.unitFree d u && (s.choose d u).map (fun c => c.1) == some q)

/-- A unit's work on a task begins: nothing of it is done. -/
def UnitState.takes (x : UnitState) (k dt : Nat) : UnitState :=
  { x with running := some k, done := false, poisoned := false, tagged := false, scattered := false, failed := false, oor := 0,
           startDt := dt, latch := none, writes := [], cycles := 0 }

/-- Unit u begins a task: a neural core its program, a vision engine by reading its blocks, the relay engine its list (R159, R296, R351). -/
def State.begin (s : State) (d u : Nat) (t : TaskDesc) : State :=
  if u < 72 then s.startCore d u t
  else if isEngine u then s.startEngine d u t
  else if u = 85 then s.modDie d (fun x => { x with relay := { x.relay with appended := 0, refused := false } })
  else s

/-- What a unit reads at the dispatch of a task lies in memory (R27, R28). -/
def State.beginOk (s : State) (d u : Nat) (t : TaskDesc) : Bool :=
  if u < 72 then s.pullsOk d u t
  else if isEngine u then s.spansOk ((s.engineTask t).spans t)
  else if u = 85 then
    (match s.region t.program with
    | .dram e _ => e == d
    | .commons e _ => e == d
    | _ => false)
  else true

/-- Unit u takes the task in slot k from list q: RUNNING, its waiting time is noted, and its work begins (R126, R159, R296). -/
def State.startUnit (s : State) (d u q k : Nat) : State :=
  match s.slot d k with
  | none => s
  | some x =>
    let p := (s.unit d u).position.getD 0
    let wait := s.deviceTime - x.since
    let s1 := s.setReadyList d q ((s.readyList d q).erase k)
    let s2 := (s1.modSlot d k (fun y => { y with state := .running, unit := u })).modUnit d u (fun y => y.takes k s.deviceTime)
    let s3 := ((((s2.maxFrame d .dspQWait_max 64 wait 0 q).meanFrame d .dspQWait_mean 64 wait 0 q).addFrame d
      .dspUnitLoad_tasks 1 1 0 p).maxFrame d .dspUnitWait_max 64 wait 0 p)
    s3.begin d u x.desc

/-- DISPATCH: a free unit takes the head that comes first by R119; where several free units contend for one head, the unit that the
head's arbiter picks takes it, and the others take nothing in that cycle; a list gives one task in a cycle (R119, R121).  A task that is
cancelled in this cycle is not dispatched (R123).  A pull that the rules forbid is the host's error. -/
def execDispatch (d u : Nat) (s : State) : Result State :=
  if !s.dieUp d || !s.unitFree d u then .next s
  else match s.choose d u with
  | none => .next s
  | some (q, r, tied) =>
    let us := s.contenders d q
    let ranks := us.map (fun v => s.headRank d v r)
    if arbPick (s.arbiter d (listHeadKey q)) ranks ≠ some (s.headRank d u r) ∨ Map.get 0 (s.die d).seq.gave q = s.deviceTime + 1 then .next s
    else match s.readyList d q with
      | [] => .next s
      | k :: _ =>
        if ((s.slot d k).map (fun x => s.slotClosing d k x)) = some true then .next s
        else
          let s1 := (s.arbMove d (listChoiceKey u) tied r).arbMove d (listHeadKey q) ranks (s.headRank d u r)
          let s2 := ((s1.modSeq d (fun x => { x with gave := Map.put x.gave q (s.deviceTime + 1) })).startUnit d u q k).dspStatus d
          .next (if ((s.slot d k).map (fun x => s.beginOk d u x.desc)) = some false then s2.unpredictable else s2)

/-! ### The end of a task (R88, R103, R474–R482, R580, R582) -/

/-- The record of a task that ends now; a DMA task (unit 200) names its kind and the engine of its ring (R79; log entry 67). -/
def State.endRecord (s : State) (d k u : Nat) (x : Slot) (st : Status) (oor : Nat) : Owed :=
  let t := x.desc
  let i := s.inst d t.node t.frame
  let early := !x.sw && (match i with
    | some i => decide (s.deviceTime < i.startDt + (s.node i.variant i.node).winOpen)
    | none => false)
  ⟨⟨t.node, t.index, st, decide (0 < x.reexec) && (st == .done || st == .substituted), t.skippedIn, t.heldIn, early, t.frame,
    s.deviceTime, d, if u < 72 then u / 9 else if u = 200 then 6 else unitKind u,
    if u < 72 then u % 9 else if u = 200 then ringChan x.dmaRing / 64 else unitInstance u, oor⟩, t.cq, some k, x.sw,
   if t.postEn then some (t.postDie, t.postFlag) else none, false⟩

/-- A unit has no task any more. -/
def State.freeUnit (s : State) (d u : Nat) : State :=
  let s1 := s.modUnit d u (fun y =>
    { y with running := none, testDt := if y.forced then s.deviceTime else y.testDt })
  if u < 72 then
      (s1.setF d .tagStatus_draining 0 u).setF d .tagStart_drain
        (cap 0xFFFF (s.deviceTime - (s.core d u).endDt)) u
    else s1

/-- One arithmetic cycle of a unit, counted for the position it fills: RUNNING, or free with all its candidate lists empty (R126, R127). -/
def State.unitCycle (s : State) (d u : Nat) (x : UnitState) : State :=
  match x.position with
  | none => s
  | some p =>
    if x.running.isSome then
      let s1 := s.addFrame d .dspUnitLoad_busy 1024 1 0 p
      if isEngine u then s1.engineCycle d u else s1
    else if s.unitFree d u && (s.heads d p).isEmpty then s.addFrame d .dspUnitWait_idle 1024 1 0 p
    else s

/-- One arithmetic cycle of a relay engine's paths: those that carry an entry stream (R368). -/
def State.relayCycle (s : State) (d : Nat) : State :=
  let r := (s.die d).relay
  let s1 := if r.next.busy.isSome then s.addFrame d .rlyLoad_next 1024 1 else s
  if r.prev.busy.isSome then s1.addFrame d .rlyLoad_prev 1024 1 else s1

/-- An arithmetic cycle of a die ends: its units' time is counted, and the waits on the flags that it has updated are evaluated. -/
def State.cycleEnd (s : State) (d : Nat) : State :=
  if s.dieUp d then (((s.die d).units.foldl (fun (s : State) p => s.unitCycle d p.1 p.2) s).relayCycle d).flagsEnd d else s

/-- The task in slot k ends with a status: the writes that it held become visible, its record is owed, its slot holds it until the record is
written (R103, R160). -/
def State.endTask (s : State) (d k u : Nat) (x : Slot) (st : Status) (oor : Nat) : State :=
  (((s.showWrites d u).modSlot d k (fun y => { y with state := .withheld })).owe d [s.endRecord d k u x st oor]).dspStatus d

/-- How a unit's task ended, taking together what the unit's own work showed and what its checkers reported. -/
def endKind (x : UnitState) (e : TaskEnd) : EndKind :=
  if x.failed || e.kind == .checkFail then .checkFail
  else if x.poisoned || e.kind == .poisoned then .poisoned
  else if x.tagged || e.kind == .poisonedTagged then .poisonedTagged
  else .clean

/-- Dispatch the task in slot k again, on unit v, from its original descriptor and ahead of every other task (R478). -/
def State.reexecute (s : State) (d v k : Nat) : State :=
  match s.slot d k with
  | none => s
  | some x =>
    let s1 := (s.modSlot d k (fun y => { y with reexec := y.reexec + 1, unit := v, state := .running })).modUnit d v (fun y =>
      y.takes k s.deviceTime)
    s1.begin d v x.desc

/-- A task records POISONED and UNRECOVERED is raised. -/
def State.unrecovered (s : State) (d k u : Nat) (x : Slot) (oor : Nat) : State :=
  (s.endTask d k u x .poisoned oor).doubt dUNRECOVERED d x.desc.frame

/-- The end of a task by a check failure or by poison (R478, R479, R481, R482, R582). -/
def State.failedEnd (s : State) (d k u : Nat) (x : Slot) (oor : Nat) (scattered : Bool) : State :=
  if 0 < x.reexec then (s.freeUnit d u).unrecovered d k u x oor
  else if 86 ≤ u then (s.freeUnit d u).reexecute d u k
  else if scattered then ((s.freeUnit d u).unrecovered d k u x oor).substitute d u true |>.1
  else
    match unitGroup u with
    | none => (s.freeUnit d u).unrecovered d k u x oor
    | some g =>
      match s.spare d g with
      | none => ((s.freeUnit d u).unrecovered d k u x oor).retire d u
      | some _ =>
        let r := (s.freeUnit d u).substitute d u true
        match r.2 with
        | some v => r.1.reexecute d v k
        | none => r.1.unrecovered d k u x oor

/-- A feature task's journal is committed to the track table with a clean end, and dropped with any other (R196). -/
def State.closeTracks (s : State) (d u : Nat) (keep : Bool) : State :=
  if u = 78 ∨ u = 79 then
    s.modDie d (fun x => if keep ∧ (x.journal ≠ [] ∨ x.journalOf ≠ []) then
        { x with tracks := x.journal.foldl (fun m e => mapPut m (e.1 * 64) e.2) x.tracks
                 trackCtr := x.journalCtr, journal := [], journalCtr := 0, journalOf := []
                 trackTasks := x.journalOf ++ x.trackTasks.filter (fun e => !x.journalOf.any (fun p => p.1 == e.1 && p.2.1 == e.2.1)) }
      else { x with journal := [], journalCtr := 0, journalOf := [] })
  else s

/-- A task whose end is reported now records TIMEOUT: the late rule has stopped it, or its instance's win_close has passed (R89). -/
def State.tooLate (s : State) (d : Nat) (y : Slot) : Bool :=
  y.stopped || (!y.sw && match s.inst d y.desc.node y.desc.frame with
  | some i => !i.complete && decide (i.startDt + (s.node i.variant i.node).winClose < s.deviceTime)
  | none => false)

/-- A unit's work is at its end: done, with every store answered (R248, R300). -/
def State.unitDone (s : State) (d u : Nat) : Bool := (s.unit d u).done && !(decide (u < 72) && (s.core d u).noAck)

/-- The unit's report ends its task: what its ports have still to do is done, then the kind of the end decides. -/
def State.unitEnd (s0 : State) (d u k : Nat) (y : Slot) (e : TaskEnd) : State :=
  let s := if u < 72 then s0.portsAll d u else s0
  let x := s.unit d u
  let oor := if 86 ≤ u then cap 0xFFFF e.oor else x.oor
  let kind := endKind x e
  if s.tooLate d y then
    let s1 := ((s.closeTracks d u false).freeUnit d u).endTask d k u y .timeout oor
    (if kind == .checkFail then (s1.substitute d u true).1 else s1).settle d
  else match kind with
    | .clean =>
      ((((s.closeTracks d u true).engineDone d u).freeUnit d u).endTask d k u y (if y.substitute then .substituted else .done) oor).settle d
    | .poisonedTagged => ((((s.closeTracks d u false).engineDone d u).freeUnit d u).endTask d k u y .poisoned oor).settle d
    | _ => ((s.closeTracks d u false).failedEnd d k u y oor (x.scattered || e.scattered)).settle d

/-- UNIT_END_REPORT: a unit reports the end of its task.  A unit that still works, or that the late rule has not stopped, has
nothing to report. -/
def execUnitEndReport (d u : Nat) (e : TaskEnd) (s : State) : Result State :=
  match (s.unit d u).running with
  | none => .next s
  | some k =>
    match s.slot d k with
    | none => .next s
    | some y =>
      if !s.dieUp d || !(s.unitDone d u || y.stopped || decide (86 ≤ u) || e.kind == .checkFail) then .next s
      else .next (s.unitEnd d u k y e)

/-- HUNG_UNIT: a unit has not reported within 2,048 cycles of being stopped: its task records TIMEOUT and the unit is treated as
failing, without the targeted test; where it has no spare, UNRECOVERED is raised (R480). -/
def execHungUnit (d u : Nat) (s : State) : Result State :=
  let x := s.unit d u
  match x.running with
  | none => .next s
  | some k =>
    match s.slot d k with
    | none => .next s
    | some y =>
      if !s.dieUp d || !y.stopped || decide (s.deviceTime < y.stopDt + 2048) then .next s
      else
        let s1 := ((s.closeTracks d u false).freeUnit d u).endTask d k u y .timeout x.oor
        let r := s1.substitute d u false
        .next ((match r.2 with
          | some _ => r.1
          | none => r.1.doubt dUNRECOVERED d y.desc.frame).settle d)

/-! ### Completion records (R79, R84, R104, R116) -/

/-- The record owed in slot k. -/
def State.owedIn (s : State) (d k : Nat) : Option Owed := (s.die d).seq.owed.find? (fun o => o.slot == some k)

/-- The rank of a unit in the contest for a completion queue: its position, neural cores first, then other kinds (Table DSP-8). -/
def State.endRank (s : State) (d u : Nat) : Nat := ((s.unit d u).position).getD (1024 + u)

/-- Write the record of slot k, or move it to the withheld-record store, or leave it where it is. -/
def State.recordOut (s : State) (d k : Nat) (o : Owed) : State :=
  if s.mayWrite d o then
    if s.cqFull d o.cq then s.refuseOwed d o else s.writeOwed d o
  else if ((s.die d).seq.owed.filter (fun o => o.slot.isNone)).length < 4096 then
    (s.modSeq d (fun q => { q with owed := q.owed.map (fun p => if p = o then { p with slot := none } else p) })).freeTheSlot d k
  else s

/-- COMPLETION_RECORD_WRITE: the record of the task in a slot is written to its completion queue and the slot is freed, or the record
moves to the withheld-record store (R103, R104).  Of several units that end in one cycle for one queue, the arbiter's choice
writes first, safety class before the others (R121). -/
def execCompletionRecordWrite (d k : Nat) (s : State) : Result State :=
  match s.owedIn d k with
  | none => .next s
  | some o =>
    if !s.dieUp d then .next s
    else if !s.mayWrite d o then .next ((s.recordOut d k o).settle d)
    else
      let slotOf (p : Owed) : Option Slot := p.slot.bind (s.slot d)
      let rank (p : Owed) : Nat := s.endRank d (((slotOf p).map (fun x => x.unit)).getD 0)
      let safe (p : Owed) : Bool := ((slotOf p).map (fun x => x.desc.safety)).getD false
      let all := (s.die d).seq.owed.filter (fun p => p.slot.isSome && p.cq == o.cq && p.record.dt == o.record.dt && s.mayWrite d p)
      let ranks := (all.filter (fun p => safe p == all.any safe)).map rank
      if safe o != all.any safe || arbPick (s.arbiter d (cqKey o.cq)) ranks != some (rank o) then .next s
      else .next (((s.arbMove d (cqKey o.cq) ranks (rank o)).recordOut d k o).settle d)

/-! ### Cancellation by software (R122–R125) -/

/-- DSP_CANCEL_NODE: the instance of a node for the frame in DSP_CANCEL_FRAME: its held, WAITING and READY tasks are cancelled, and
tasks not yet released will record CANCELLED.  A count of at least 1 is a doubt while the module is in service. -/
def execDspCancelNode (who : Init) (d node : Nat) (s : State) : Result State :=
  if who.canAccess = false ∨ s.nDies ≤ d then hostErr s 27
  else if !s.privileged who then .next s.viewMiss
  else if !s.dieUp d then .next s
  else
    let f := Word.ofNat (s.getF d .dspCancelFrame_frame)
    match (s.die d).seq.insts.find? (fun i => i.node == node && i.frame == f && !i.complete) with
    | none => .next (s.setF d .dspCancelResult_count 0)
    | some i =>
      let nd := s.node i.variant i.node
      let r : State × Nat :=
        if nd.kind ≠ .tasks then (s, 0)
        else if i.released then s.cancelTasks d i nd
        else if i.late || i.cancelAtRelease then (s, 0)
        else (s.modInst d node f (fun j => { j with cancelAtRelease := true }), nd.tasks)
      let s1 := r.1.setF d .dspCancelResult_count r.2
      .next ((if 0 < r.2 ∧ s.saf.outOfService = false then s1.doubt dCANCEL d f node else s1).settle d)

/-- DSP_CANCEL_SLOT: one software-pushed task that waits or is READY is cancelled (R125). -/
def execDspCancelSlot (who : Init) (d slot : Nat) (s : State) : Result State :=
  if who.canAccess = false ∨ s.nDies ≤ d then hostErr s 27
  else if !s.privileged who then .next s.viewMiss
  else if !s.dieUp d then .next s
  else match s.slot d slot with
    | some x =>
      if x.sw && (x.state == .waiting || x.state == .ready) then
        let o : Owed := { s.endRecord d slot 0 x .cancelled 0 with slot := none, post := none }
        let s1 := ((s.leaveList d slot).freeTheSlot d slot).owe d [{ o with record := { o.record with group := 0, core := 0 } }]
        .next ((s1.setF d .dspCancelResult_count 1).settle d)
      else .next (s.setF d .dspCancelResult_count 0)
    | none => .next (s.setF d .dspCancelResult_count 0)

end Sys2Proof.Machine
end

