-- ==== Sys2Proof/Machine/Ingress.lean ====
section
/-! DEFINITION. Camera ingress (chapter 05): links, acceptance windows and frame outcomes, line buffers and pipe positions, strips
with their flags and records, golden runs, the spare pipe, and sensor transactions. -/

namespace Sys2Proof.Machine

open Sys2Proof

/-! ### State of contexts and positions -/

/-- A context of which nothing is known yet. -/
def Ctx.fresh : Ctx := ⟨none, none, none, [], [], false, 0, 0, false, 0, false, false, 0, 0⟩

/-- Context `c`. -/
def State.ctx (s : State) (c : Nat) : Ctx := Map.get Ctx.fresh s.ingress.ctxs c

/-- Change ingress. -/
def State.modIng (s : State) (f : Ingress → Ingress) : State := { s with ingress := f s.ingress }

/-- Change a context. -/
def State.modCtx (s : State) (c : Nat) (f : Ctx → Ctx) : State :=
  s.modIng (fun i => { i with ctxs := Map.modify Ctx.fresh i.ctxs c f })

/-- Pipe position `p`. -/
def State.pos (s : State) (p : Nat) : PipePos := s.ingress.positions.getD p (PipePos.fresh p)

/-- Change a position. -/
def State.modPos (s : State) (p : Nat) (f : PipePos → PipePos) : State :=
  s.modIng (fun i => { i with positions := i.positions.modify p f })

/-- A context's frame in progress. -/
def State.sframe (s : State) (c : Nat) (f : Word) : Option SFrame := (s.ctx c).frames.find? (fun x => x.frame == f)

/-- Change a frame in progress. -/
def State.modFrame (s : State) (c : Nat) (f : Word) (g : SFrame → SFrame) : State :=
  s.modCtx c (fun x => { x with frames := x.frames.map (fun y => if y.frame = f then g y else y) })

/-- Lines that a context holds in its buffer: waiting ones and the one in the pipe (R142). -/
def State.held (s : State) (c : Nat) : Nat :=
  let p := s.pos (s.ctxCfg c).position
  (p.ready.filter (fun l => l.ctx == c)).length + bit (p.line.any (fun l => l.ctx == c))

/-- A context is triggered (R133). -/
def State.triggered (s : State) (c : Nat) : Bool := decide ((s.ctxCfg c).gpio < 0x80) && (s.triggerOffset c).isSome

/-- The pixel cycle (600 MHz) of a device time. -/
def pixelCycle (dt : Nat) : Nat := dt * 2 / 3

/-- The device time at which the next pixel cycle begins. -/
def nextPixel (dt : Nat) : Nat := ((pixelCycle dt + 1) * 3 + 1) / 2

/-- The frame restarts or is not yet on die d: a die that rejoins on it takes no lines of it (R485). -/
def State.rejoins (s : State) (d : Nat) (f : Word) : Bool :=
  let q := (s.die d).seq
  (q.starts ++ q.heldStarts ++ q.frames).any (fun (g : DieFrame) => g.start.frame == f && g.rejoin)

/-- The dies that a context's frame is delivered to. -/
def State.ctxDies (s : State) (c : Nat) : List Nat :=
  (List.range s.nDies).filter (fun d => testBit (s.ctxCfg c).mask d)

/-- Die d takes the frame's writes and posts. -/
def State.takesFrame (s : State) (d : Nat) (f : Word) : Bool := s.dieUp d && s.reach 6 d && !s.rejoins d f

/-- Where the buffer of a frame starts on die d (R147). -/
def State.bufferAt (s : State) (c d : Nat) (f : Word) : Nat :=
  let g := s.ctxCfg c
  s.ctxDest c d + (if g.buffers = 0 then 0 else f.toNat % g.buffers) * g.stride

/-- The strip flag of a frame (R148). -/
def State.stripFlag (s : State) (c : Nat) (f : Word) : Nat :=
  let g := s.ctxCfg c
  (g.flag + (if g.buffers = 0 then 0 else f.toNat % g.buffers)) % 4096

/-- The frame record (Table ING-10). -/
def frameRecord (f : Word) (c : Nat) (long dropped emb flicker untrig : Bool) (lines fsDt endDt wall epoch : Nat) : List Byte :=
  toLE 4 f.toNat ++ toLE 1 c ++ toLE 1 (bit long + 2 * bit dropped + 4 * bit emb + 8 * bit flicker + 16 * bit untrig) ++
    toLE 2 (cap 65535 lines) ++ toLE 8 fsDt ++ toLE 8 endDt ++ toLE 8 wall ++ toLE 2 epoch ++ List.replicate 30 0

/-! ### Drops (R138, R139) -/

/-- The causes of a drop and their counters (Table ING-5, Table ING-13). -/
inductive DropCause where
  | missing | short | overflow | error
  deriving DecidableEq, Repr

/-- Count a drop. -/
def State.countDrop (s : State) (c : Nat) : DropCause → State
  | .missing => s.bumpF 6 .ingCtxDrops_missing 0 c
  | .short => s.bumpF 6 .ingCtxDrops_short 0 c
  | .overflow => s.bumpF 6 .ingCtxDrops_overflow 0 c
  | .error => s.bumpF 6 .ingCtxDrops_error 0 c

/-- The value of event 0x0400. -/
def DropCause.code : DropCause → Nat
  | .missing => 0
  | .short => 1
  | .overflow => 2
  | .error => 3

/-- The run of drops grows: lost at loss_limit, a doubt at doubt_limit once per run (R139). -/
def State.dropRun (s : State) (c : Nat) (f : Word) : State :=
  let g := s.ctxCfg c
  let n := (s.ctx c).dropRun + 1
  let due := g.doubtLimit != 0 && n == g.doubtLimit && !(s.ctx c).doubted
  let s1 := s.modCtx c (fun x =>
    { x with dropRun := n, goodRun := 0, lost := x.lost || decide (g.lossLimit ≤ n), doubted := x.doubted || due })
  if due then s1.doubt dCAMERA 6 f c else s1

/-- Drop a frame of a context on one die: the STREAM event if none was posted, the record, the SOURCE instance, and the flag
that a later cycle raises (R138). -/
def State.dropOn (s : State) (c : Nat) (f : Word) (posted : Nat) (record : List Byte) (d : Nat) : State :=
  if !s.takesFrame d f then s
  else
    let s1 := if posted = 0 then s.streamEvent d c f true else s
    let s2 := (s1.write (s1.bufferAt c d f) record).endSource d c f .skipped
    s2.modCtx c (fun x => { x with raise := x.raise ++ [(d, f)] })

/-- Lines in the buffers of a position are discarded, the one in the pipe among them, which is free at once (R143). -/
def State.discardLines (s : State) (p : Nat) (sel : Line → Bool) : State :=
  s.modPos p (fun q => { q with
    ready := q.ready.filter (fun l => !sel l)
    line := if q.line.any sel then none else q.line
    startDt := if q.line.any sel then s.deviceTime else q.startDt })

/-- The flag of frame f of a context is written to zero on a die, before the frame's first write there (R148). -/
def State.zeroFlag (s : State) (c : Nat) (f : Word) (d : Nat) : State :=
  if s.takesFrame d f then s.flagUpdate ingressKey d (s.stripFlag c f) true 0 else s

/-- Drop frame f of a context (R138).  Of a frame without an FS, the record's times of it are open, and its record is its first write (R148).
Its lines that still wait or are in the pipe are discarded (log entry 88), and a golden run that it had scheduled is withdrawn (R154). -/
def State.dropFrame (s : State) (c : Nat) (f : Word) (why : DropCause) : State :=
  let g := s.ctxCfg c
  let untrig := !s.triggered c
  let (record, posted, s0) : List Byte × Map Nat × State :=
    match s.sframe c f with
    | some x =>
      (frameRecord f c x.long true (decide (0 < x.embedded)) false untrig x.received x.fsDt s.deviceTime x.fsWall x.fsEpoch, x.posted, s)
    | none =>
      let (a, s1) := s.free
      let (b, s2) := s1.free
      let (e, s3) := s2.free
      (frameRecord f c false true false false untrig 0 (a % 2 ^ 64) s.deviceTime (b % 2 ^ 64) (e % 2 ^ 16), [],
        (s3.ctxDies c).foldl (fun (s : State) d => s.zeroFlag c f d) s3)
  let s1 := ((s0.modCtx c (fun x =>
      { x with frames := x.frames.filter (fun y => y.frame != f), cur := if x.cur = some f then none else x.cur })).discardLines g.position
    (fun l => l.ctx == c && l.frame == f)).modPos g.position (fun p => { p with
      gold := p.gold && !p.golds.head?.any (fun r => r.ctx == c && r.frame == f)
      golds := p.golds.filter (fun r => !(r.ctx == c && r.frame == f)) })
  let s2 := (s1.ctxDies c).foldl (fun (s : State) d => s.dropOn c f (Map.get 0 posted d) record d) s1
  ((s2.countDrop c why).raise 0x0400 why.code 6 c).dropRun c f

/-! ### Delivery (R139, R583) -/

/-- Where a context's line buffer holds its line k mod 16, and where the copy of its flicker record stands, in its ingress window.  DESIGN
CHOICE (log entry 87): the manual gives the window no layout. -/
def bufferLine (c k : Nat) : Nat := ingressBase c + k % 16 * 12288
def bandCopy (c : Nat) : Nat := ingressBase c + 0x30000

/-- Frames that are delivered everywhere and whose lines have ended leave the context. -/
def State.tidy (s : State) (c : Nat) : State :=
  let g := s.ctxCfg c
  s.modCtx c (fun y => { y with frames := y.frames.filter (fun z =>
    !(z.delivered && y.cur != some z.frame && (s.ctxDies c).all (fun e => Map.get 0 z.posted e == g.strips))) })

/-- The flicker record of a frame whose lines have all come. -/
def State.frameBands (s : State) (c : Nat) (x : SFrame) : List Byte :=
  let g := s.ctxCfg c
  s.flickerRecord g x.frame (g.allCodes g.width g.height x.rows)

/-- A frame is delivered: counted, its run begun or continued, the state of the pipe carried on, and the copy of its flicker record kept
(R139, R150). -/
def State.deliverFrame (s : State) (c : Nat) (f : Word) : State :=
  let g := s.ctxCfg c
  let (t, s0) := s.free
  let s1 := s0.modCtx c (fun x =>
    { x with dropRun := 0, goodRun := x.goodRun + 1, doubted := false,
             lost := x.lost && decide (x.goodRun + 1 < g.returnCount), tone := t })
  let s2 := (s1.modFrame c f (fun y => { y with delivered := true })).bumpF 6 .ingCtxFrames_delivered 0 c
  match s.sframe c f with
  | some x => if g.band = 0 then s2 else s2.putBytes (bandCopy c) (s.frameBands c x)
  | none => s2

/-- A complete frame whose wait has ended, or that waits for nothing, is delivered (R583). -/
def State.tryDeliver (s : State) (c : Nat) (f : Word) : State :=
  match s.sframe c f with
  | none => s
  | some x =>
    let g := s.ctxCfg c
    if !x.delivered && decide (g.height ≤ x.done) && (g.long == 1 || x.ended) then s.deliverFrame c f else s

/-- The end of the wait of R583 for every frame of a context. -/
def State.endWait (s : State) (c : Nat) : State :=
  let fs := (s.ctx c).frames.map (fun x => x.frame)
  (fs.foldl (fun (s : State) f => (s.modFrame c f (fun y => { y with ended := true })).tryDeliver c f) s).tidy c

/-! ### Acceptance windows (R136, R137) -/

/-- At a context's trigger (untriggered: at the frame start): frames that are not complete are short, the wait of a complete one
ends, and the window for frame f opens at device time t. -/
def State.openWindow (s : State) (c : Nat) (f : Word) (t : Nat) : State :=
  let g := s.ctxCfg c
  let late := (s.ctx c).frames.filter (fun x => decide (x.done < g.height))
  let s1 := late.foldl (fun (s : State) x => s.dropFrame c x.frame .short) s
  let s2 := s1.endWait c
  let s3 := match (s2.ctx c).window with
    | some (n, _, false) => s2.dropFrame c n .missing
    | _ => s2
  s3.modCtx c (fun x => { x with window := some (f, t, false), trig := some f })

/-- CAMERA_TRIGGER: at frame start + trigger_offset the hub sends a tunnelled edge on the context's link and pin (R133, R71);
the window opens.  Two triggered contexts that share a pin with different offsets are the host's error. -/
def execCameraTrigger (c : Nat) (s : State) : Result State :=
  if s.frz.stopped then .next s else
  let g := s.ctxCfg c
  match s.triggerOffset c with
  | none => .next s
  | some off =>
    if !g.enable || !s.triggered c then .next s
    else if (List.range 64).any (fun k =>
        let h := s.ctxCfg k
        h.enable && s.triggered k && h.link == g.link && h.gpio % 4 == g.gpio % 4 && s.triggerOffset k != some off) then hostErr s 133
    else
      match s.root.starts.find? (fun (x : FrameStart) =>
          (match (s.ctx c).trig with | none => true | some n => precedes n x.frame) &&
          decide (triggerDt x.dt off ≤ s.deviceTime)) with
      | none => .next s
      | some x =>
        let pin := g.link * 4 + g.gpio % 4
        let s1 :=
          if s.ingress.edges.contains (pin, x.frame) || decide (Map.get 0 s.ingress.gear g.link = 0) ||
              s.ingress.backDown.contains g.link then s
          else
            { (s.modIng (fun i => { i with edges := (i.edges.filter (fun (e : Nat × Word) => e.1 != pin)) ++ [(pin, x.frame)] })) with
              out := { s.out with triggers := s.out.triggers ++ [(pin, (s.linkCfg g.link).trigWidth)] } }
        .next (s1.openWindow c x.frame (triggerDt x.dt off))

/-- ACCEPT_WINDOW_CLOSE: the window has run out; without an FS the frame is missing (R137). -/
def execAcceptWindowClose (c : Nat) (s : State) : Result State :=
  if s.frz.stopped then .next s else
  match (s.ctx c).window with
  | some (f, t, got) =>
    if t + (s.ctxCfg c).firstLine * 900 < s.deviceTime then
      let s1 := s.modCtx c (fun x => { x with window := none })
      .next (if got then s1 else s1.dropFrame c f .missing)
    else .next s
  | none => .next s

/-- The contexts of a link and virtual channel: those that its short packets and its embedded data concern; none where the link's script
failed (R131, R135; log entry 85). -/
def State.channelCtxs (s : State) (link vc : Nat) : List Nat :=
  if s.ingress.scriptFailed.contains link then []
  else (List.range 64).filter (fun c => let g := s.ctxCfg c; g.enable && g.link == link && g.vc == vc)

/-- A packet is discarded and counted (R129, R130, R135). -/
def State.discardPacket (s : State) (link : Nat) : State := s.bumpF 6 .ingLinkErr_discarded 0 link

/-- A header with one corrected bit is counted (R130). -/
def State.countHeader (s : State) (link : Nat) (st : PktState) : State :=
  if st = .headerCorrected then s.bumpF 6 .ingLinkErr_corrected 0 link else s

/-- A packet that cannot be used. -/
def PktState.bad (st : PktState) : Bool := st == .headerBad || st == .crcBad

/-- A packet of the frame whose lines arrive is discarded: the frame is dropped whole (R130). -/
def State.spoilFrame (s : State) (c : Nat) : State :=
  match (s.ctx c).cur.bind (s.sframe c) with
  | some x => if x.delivered then s else s.dropFrame c x.frame .error
  | none => s

/-- An FS that is discarded inside an open window spoils the window's frame (R130; log entry 85). -/
def State.spoilStart (s : State) (c : Nat) : State :=
  match (s.ctx c).window with
  | some (f, t, false) =>
    if t ≤ s.deviceTime ∧ s.deviceTime ≤ t + (s.ctxCfg c).firstLine * 900 then
      (s.modCtx c (fun x => { x with window := some (f, t, true) })).dropFrame c f .error
    else s
  | _ => s

/-- The codes of a context's entry that the tables reserve are not used, and YUV is put out as Y8 or NV12 (R15, R129, R134). -/
def CtxCfg.ok (g : CtxCfg) : Bool :=
  imageType g.dt && decide (g.cfa ≤ 3 ∧ g.compand ≤ 15 ∧ g.params ≤ 31 ∧ g.format ≤ 3 ∧ g.long ≤ 2 ∧ g.tap0 ≤ 4 ∧ g.tap1 ≤ 4 ∧ g.golden ≤ 64 ∧
    (g.gpio ≤ 3 ∨ g.gpio = 0x80)) && (g.dt != 0x18 || g.format == 0 || g.format == 2)

/-- An FS ends a context's sensor frame before it, and is accepted for the window's frame or is unassigned (R136, R137, R148); a position
without a pipe accepts none (R156). -/
def State.frameStart (s : State) (c : Nat) : State :=
  let g := s.ctxCfg c
  if (s.pos g.position).pipe.isNone then s
  else
    let s1 := match (s.ctx c).cur with
      | some f => match s.sframe c f with
        | some x => if x.received < g.height then s.dropFrame c f .short else s
        | none => s
      | none => s
    let s2 := ((s1.endWait c).modCtx c (fun x => { x with cur := none })).tidy c
    match (s2.ctx c).window with
    | some (f, t, false) =>
      if t ≤ s.deviceTime ∧ s.deviceTime ≤ t + g.firstLine * 900 then
        let x : SFrame := ⟨f, s.deviceTime, s.wall, s.epoch, 0, [], 0, 0, 0, false, false, false, []⟩
        let s3 := s2.modCtx c (fun y => { y with window := some (f, t, true), cur := some f, frames := y.frames ++ [x] })
        (s3.ctxDies c).foldl (fun (s : State) d => s.zeroFlag c f d) s3
      else s2.bumpF 6 .ingCtxLong_unassigned 0 c
    | _ => s2.bumpF 6 .ingCtxLong_unassigned 0 c

/-- CSI2_FS: a frame start packet comes for the contexts of its link and channel, or is discarded (R129, R130, R135–R137, R148). -/
def execCsi2Fs (link vc : Nat) (st : PktState) (s : State) : Result State :=
  if s.frz.stopped then .next s
  else if 16 ≤ link ∨ 4 ≤ vc then hostErr s 128
  else if Map.get 0 s.ingress.gear link = 0 then .next s
  else
    let s1 := s.countHeader link st
    let cs := s1.channelCtxs link vc
    if st.bad then .next (cs.foldl (fun (s : State) c => s.spoilStart c) (s1.discardPacket link))
    else if cs.isEmpty then .next (s1.discardPacket link)
    else if cs.any (fun c => !(s1.ctxCfg c).ok) then hostErr s1 134
    else .next (cs.foldl (fun (s : State) c => s.frameStart c) s1)

/-- An FE before height lines makes a context's frame short; else it ends the wait of R583 (R137). -/
def State.frameEnd (s : State) (c : Nat) : State :=
  match (s.ctx c).cur with
  | none => s
  | some f =>
    let s1 := match s.sframe c f with
      | some x =>
        if x.received < (s.ctxCfg c).height then s.dropFrame c f .short
        else (s.modFrame c f (fun y => { y with ended := true })).tryDeliver c f
      | none => s
    (s1.modCtx c (fun x => { x with cur := none })).tidy c

/-- CSI2_FE: a frame end packet comes for the contexts of its link and channel, or is discarded (R129, R130, R135, R137, R583). -/
def execCsi2Fe (link vc : Nat) (st : PktState) (s : State) : Result State :=
  if s.frz.stopped then .next s
  else if 16 ≤ link ∨ 4 ≤ vc then hostErr s 128
  else if Map.get 0 s.ingress.gear link = 0 then .next s
  else
    let s1 := s.countHeader link st
    let cs := s1.channelCtxs link vc
    if st.bad then .next (cs.foldl (fun (s : State) c => s.spoilFrame c) (s1.discardPacket link))
    else if cs.isEmpty then .next (s1.discardPacket link)
    else .next (cs.foldl (fun (s : State) c => s.frameEnd c) s1)

/-! ### Pipe positions (R140–R143) -/

/-- A pipe under no test. -/
def PipeTest.fresh : PipeTest := ⟨false, 0, false, 0, 0⟩

/-- The pipe of a position is under test in its place: a forced slice (R502). -/
def State.pipeInTest (s : State) (p : Nat) : Bool :=
  match (s.pos p).pipe with
  | some k => (Map.get PipeTest.fresh s.ingress.tests k).underTest
  | none => false

/-- A position's handover has found no handover point within one frame slot: it is due at the next line boundary (R155). -/
def State.handoverDue (s : State) (p : Nat) : Bool := (s.pos p).handover.any (fun t => decide (t + s.slotNominal ≤ s.deviceTime))

/-- An idle pipe takes the line that became ready first; lines of one pixel cycle are arbitrated by R141.  The line starts when
it became ready, or when the pipe became free, whichever is later.  A handover that is due goes first (R155). -/
def State.pipeTake (s : State) (p : Nat) : State :=
  let x := s.pos p
  if x.line.isSome || x.gold || x.pipe.isNone || s.pipeInTest p || s.handoverDue p then s
  else
    match x.ready with
    | [] => s
    | l :: rest =>
      let t := rest.foldl (fun m y => min m (pixelCycle y.ready)) (pixelCycle l.ready)
      if pixelCycle s.deviceTime ≤ t then s
      else
        let tied := x.ready.filter (fun y => pixelCycle y.ready == t)
        let ranks := tied.foldl (fun (r : List Nat) y => setInsert y.ctx r) []
        match arbPick x.arb ranks with
        | none => s
        | some w =>
          match tied.find? (fun y => y.ctx == w) with
          | none => s
          | some y =>
            s.modPos p (fun q =>
              { q with line := some y, ready := q.ready.erase y, startDt := max (max y.ready q.startDt) q.copyEnd,
                       arb := if ranks.length < 2 then q.arb else some (w + 1) })

/-- A context's current frame: the one accepted last that is not delivered. -/
def State.currentFrame (s : State) (c : Nat) : Option SFrame := ((s.ctx c).frames.filter (fun x => !x.delivered)).getLast?

/-- The later stream at an overloaded position loses its current frame and its buffered lines: of the contexts that hold lines, the one whose
current frame's FS came last, ties to the higher number (R143). -/
def State.overload (s : State) (p : Nat) : State :=
  let x := s.pos p
  let cands := (x.ready ++ x.line.toList).filterMap (fun l => (s.currentFrame l.ctx).map (fun f => (f.fsDt, l.ctx, f.frame)))
  match cands.foldl (fun (m : Option (Nat × Nat × Word)) q => match m with
      | none => some q
      | some b => if b.1 < q.1 ∨ (b.1 = q.1 ∧ b.2.1 < q.2.1) then some q else some b) none with
  | none => s
  | some (_, c, f) => (s.dropFrame c f .overflow).discardLines p (fun l => l.ctx == c)

/-- A missed golden run: counted by golden_k, a doubt once per run (R154). -/
def State.goldMissed (s : State) (c : Nat) : State :=
  let n := (s.ctx c).goldRun + 1
  let due := decide ((s.ctxCfg c).goldenK ≤ n) && !(s.ctx c).goldDoubted
  let s1 := s.modCtx c (fun x => { x with goldRun := n, goldDoubted := x.goldDoubted || due })
  if due then s1.doubt dGOLDEN_MISS 6 s.frame c else s1

/-- The first line of a context's next frame abandons its golden run (R154). -/
def State.abandonGold (s : State) (p c : Nat) : State :=
  let x := s.pos p
  if x.golds.any (fun r => r.ctx == c) then
    let first := x.golds.head?.any (fun r => r.ctx == c)
    let s1 := s.modPos p (fun q => { q with golds := q.golds.filter (fun r => r.ctx != c), gold := q.gold && !first })
    (s1.bumpF 6 .ingCtxGolden_abandoned 0 c).goldMissed c
  else s

/-- A line of an accepted frame becomes ready (R140, R142, R143); a golden line in the pipe is discarded (R153). -/
def State.lineReady (s : State) (c : Nat) (f : Word) (payload : List Byte) (x : SFrame) : State :=
  let g := s.ctxCfg c
  let p := g.position
  let s0 := if x.received = 0 then s.abandonGold p c else s
  let s1 := s0.modFrame c f (fun y => { y with received := y.received + 1 })
  if 16 ≤ s.held c then s1.dropFrame c f .overflow
  else
    let k := (s1.ctx c).slot
    let s2 := (((s1.modFrame c f (fun y => { y with rows := Map.put y.rows x.received payload })).putBytes (bufferLine c k)
      (payload.take 12288)).modCtx c (fun y => { y with slot := (k + 1) % 16 })).modPos p
      (fun q => { q with ready := q.ready ++ [⟨s.deviceTime, c, f, x.received⟩]
                         startDt := if q.gold then nextPixel s.deviceTime else q.startDt
                         gold := false })
    let s3 := match (s2.pos p).pipe with
      | some k => s2.maxFrame 6 .ispLines_peak 1 (s2.held c) k
      | none => s2
    if s3.held c = 16 then s3.overload p else s3

/-- Extra lines make the frame long, counted once; under long_policy 2 a frame not yet delivered is dropped (R137, R583). -/
def State.extraLine (s : State) (c : Nat) (f : Word) : State :=
  match s.sframe c f with
  | none => s
  | some x =>
    let s1 := s.modFrame c f (fun y => { y with received := y.received + 1, long := true })
    let s2 := if x.long then s1 else s1.bumpF 6 .ingCtxLong_long 0 c
    if (s.ctxCfg c).long = 2 ∧ x.delivered = false then s2.dropFrame c f .error else s2

/-- The context of a long packet (R135): of an image, the enabled one with its link, channel and type; of embedded data, with
its link and channel. -/
def State.matchCtx (s : State) (link vc dt : Nat) : List Nat :=
  (s.channelCtxs link vc).filter (fun c => dt == 0x12 || (s.ctxCfg c).dt == dt)

/-- An embedded line goes unprocessed to the buffer's embedded area (Table ING-1, R147). -/
def State.embedded (s : State) (c : Nat) (f : Word) (x : SFrame) (payload : List Byte) : State :=
  if (s.ctxCfg c).embedded ≤ x.embedded then s
  else
    let s1 := (s.ctxDies c).foldl (fun (s : State) d =>
      if s.takesFrame d f then s.write (s.bufferAt c d f + 0x40 + x.embedded * 12288) (payload.take 12288) else s) s
    s1.modFrame c f (fun y => { y with embedded := y.embedded + 1 })

/-- CSI2_LONG_PACKET: a packet is discarded and counted, or is an embedded line, a line or an extra line of its context's frame,
or drops that frame (R129, R130, R135, R140–R143, R153, R154, R583). -/
def execCsi2LongPacket (link vc dt : Nat) (payload : List Byte) (st : PktState) (s0 : State) : Result State :=
  if s0.frz.stopped then .next s0
  else if 16 ≤ link ∨ 4 ≤ vc then hostErr s0 128
  else if Map.get 0 s0.ingress.gear link = 0 then .next s0
  else
    let s1 := s0.countHeader link st
    let ctxs := s1.matchCtx link vc dt
    if dt ≠ 0x12 ∧ 1 < ctxs.length then hostErr s1 135
    else if !(imageType dt || dt == 0x12) then .next (s1.discardPacket link)
    else match ctxs with
    | [] => .next (s1.discardPacket link)
    | c :: _ =>
      let p := (s1.ctxCfg c).position
      let s := s1.pipeTake p
      let cur : Option SFrame := match (s.ctx c).cur with
        | some f => s.sframe c f
        | none => none
      if st.bad then .next ((s.discardPacket link).spoilFrame c)
      else match cur with
      | none => .next s
      | some x =>
        if dt = 0x12 then .next (s.embedded c x.frame x payload)
        else if x.received < (s.ctxCfg c).height then .next (s.lineReady c x.frame payload x)
        else .next (s.extraLine c x.frame)

/-! ### The spare pipe (R155, R156, R499, R507) -/

/-- The pipe that fills no position and is not retired. -/
def State.sparePipe (s : State) : Option Nat :=
  (List.range 5).find? (fun k => !s.ingress.retired.contains k && !(s.ingress.positions.any (fun p => p.pipe == some k)))

/-- Change a pipe's test state. -/
def State.modTest (s : State) (k : Nat) (f : PipeTest → PipeTest) : State :=
  s.modIng (fun i => { i with tests := Map.modify PipeTest.fresh i.tests k f })

/-- A pipe is retired: never used again, and recorded (R156, R504, R507). -/
def State.retirePipe (s : State) (k : Nat) : State :=
  if s.ingress.retired.contains k then s
  else
    let s1 := s.modIng (fun i => { i with
      retired := setInsert k i.retired
      positions := i.positions.map (fun p => if p.pipe = some k then { p with pipe := none, handover := none, retire := false } else p)
      repairDue := i.repairDue ++ [repairRecord 6 6 k 0 0] })
    (s1.modTest k (fun t => { t with underTest := false })).setF 6 .bistRetired0_units (s1.getF 6 .bistRetired0_units ||| 2 ^ k)

/-- No spare is left for a handover: a pipe marked for retirement is retired and the position has none (R155, R156), which raises SELFTEST
(R507); any other handover is not made. -/
def State.noHandover (s : State) (p k : Nat) (retire : Bool) : State :=
  if retire then ((s.modPos p (fun q => { q with ready := [], line := none, gold := false, golds := [] })).retirePipe k).doubt
    dSELFTEST 6 s.frame k .noSpare
  else s.modPos p (fun q => { q with handover := none })

/-- A handover of a position's pipe is asked for (R155, R156). -/
def State.askHandover (s : State) (p : Nat) (retire : Bool) : State :=
  match (s.pos p).pipe with
  | none => s
  | some k =>
    if s.sparePipe.isNone then s.noHandover p k (retire || (s.pos p).retire)
    else s.modPos p (fun q =>
      { q with handover := some (q.handover.getD s.deviceTime), retire := q.retire || retire })

/-- The exchange itself: the spare takes the position, the state copy begins, the old pipe becomes the spare under test, or is
retired.  A spare that another position has taken meanwhile is none. -/
def State.exchange (s : State) (p : Nat) : State :=
  match (s.pos p).pipe, s.sparePipe with
  | some old, some new =>
    let retire := (s.pos p).retire
    let s1 := (s.modPos p (fun q =>
      { q with pipe := some new, handover := none, retire := false, gold := false, copyEnd := s.deviceTime + 3072 })).modTest new
        (fun t => { t with underTest := false })
    let s2 := if retire then s1.retirePipe old
      else s1.modTest old (fun t => { t with underTest := true, since := s.deviceTime })
    s2.recovered (.handover old)
  | some old, none => s.noHandover p old (s.pos p).retire
  | none, _ => s

/-- PIPE_HANDOVER: at a handover point the spare pipe and a position's pipe are exchanged (R155). -/
def execPipeHandover (p : Nat) (s : State) : Result State :=
  if s.frz.stopped then .next s
  else if 4 ≤ p then hostErr s 155
  else
    let s1 := s.pipeTake p
    let x := s1.pos p
    if x.handover.isSome && x.ready.isEmpty && x.line.isNone && !x.gold then .next (s1.exchange p) else .next s1

/-- HANDOVER_FORCED: without a handover point within one frame slot the exchange comes at the next line boundary (R155). -/
def execHandoverForced (p : Nat) (s : State) : Result State :=
  if s.frz.stopped then .next s
  else if 4 ≤ p then hostErr s 155
  else
    let x := s.pos p
    if s.handoverDue p ∧ x.line = none then .next (s.exchange p) else .next s

/-! ### Lines done, golden runs (R142, R151–R154) -/

/-- A golden run has fed its last line: it passes or fails (R154). -/
def State.judgeGold (s : State) (p c : Nat) (errs : List (Nat × Nat)) : State :=
  let g := s.ctxCfg c
  let e := s.goldCfg (g.golden - 1)
  if s.goldBeyond g e errs ≤ e.countLimit then
    (s.modCtx c (fun x => { x with goldRun := 0, goldDoubted := false, goldClear := true })).bumpF 6 .ingCtxGolden_passed 0 c
  else
    let k := ((s.pos p).pipe).getD 7
    ((s.bumpF 6 .ingCtxGolden_failed 0 c).doubt dGOLDEN_FAIL 6 s.frame k).askHandover p true

/-- Arithmetic cycles of the line or golden line in a position's pipe. -/
def State.inPipeCycles (s : State) (p : Nat) : Nat :=
  let x := s.pos p
  match x.line, x.golds with
  | some l, _ => lineCycles (s.ctxCfg l.ctx).width
  | none, r :: _ => lineCycles (s.goldCfg ((s.ctxCfg r.ctx).golden - 1)).width
  | none, [] => 0

/-- The last line of a frame has left the pipe: a golden run of its context is to follow (R152). -/
def State.askGold (s : State) (p c : Nat) (f : Word) : State :=
  let g := s.ctxCfg c
  if g.golden ≠ 0 ∧ g.goldenDiv ≠ 0 ∧ f.toNat % g.goldenDiv = 0 then s.modPos p (fun q => { q with golds := q.golds ++ [⟨c, 0, f⟩] }) else s

/-- The line in the pipe has left it (R142). -/
def State.finishLine (s : State) (p : Nat) (l : Line) : State :=
  let g := s.ctxCfg l.ctx
  let fin := (s.pos p).startDt + lineCycles g.width
  let s1 := s.modPos p (fun q => { q with line := none, startDt := fin })
  let s2 := match (s.pos p).pipe with
    | some k => (s1.addFrame 6 .ispLoad_busy 1024 (linePixelCycles g.width) k).addFrame 6 .ispLines_lines 1 1 k
    | none => s1
  let s3 := s2.modFrame l.ctx l.frame (fun y =>
    { y with done := y.done + 1, doneDt := if y.done + 1 = g.height then fin else y.doneDt })
  let whole := ((s3.sframe l.ctx l.frame).map (fun y => decide (y.done = g.height))).getD false
  let s4 := if whole then s3.askGold p l.ctx l.frame else s3
  (s4.tryDeliver l.ctx l.frame).pipeTake p

/-- The golden line in the pipe has left it. -/
def State.finishGold (s : State) (p : Nat) (r : GoldRun) (errs : List (Nat × Nat)) : State :=
  let e := s.goldCfg ((s.ctxCfg r.ctx).golden - 1)
  let s1 := match (s.pos p).pipe with
    | some k => s.addFrame 6 .ispLoad_golden 64 (linePixelCycles e.width) k
    | none => s
  if r.line + 1 < e.lines then
    s1.modPos p (fun q => { q with gold := false, golds := match q.golds with
      | [] => []
      | a :: rest => { a with line := a.line + 1 } :: rest })
  else (s1.modPos p (fun q => { q with gold := false, golds := q.golds.drop 1 })).judgeGold p r.ctx errs

/-- PIPE_LINE_DONE: the line or golden line in a position's pipe is finished (R140, R142, R152–R154).  `errs` are output samples of
a golden run that the pipe got wrong. -/
def execPipeLineDone (p : Nat) (errs : List (Nat × Nat)) (s : State) : Result State :=
  if s.frz.stopped then .next s
  else if 4 ≤ p then hostErr s 140
  else
    let s1 := s.pipeTake p
    let x := s1.pos p
    if x.startDt + s1.inPipeCycles p ≤ s.deviceTime then
      match x.line, x.gold, x.golds with
      | some l, _, _ => .next (s1.finishLine p l)
      | none, true, r :: _ => .next (s1.finishGold p r errs)
      | _, _, _ => .next s1
    else .next s1

/-- GOLDEN_LINE_START: a golden line starts in a pixel cycle in which no real line is ready at the position (R153). -/
def execGoldenLineStart (p : Nat) (s : State) : Result State :=
  if s.frz.stopped then .next s
  else if 4 ≤ p then hostErr s 153
  else
    let s1 := s.pipeTake p
    let x := s1.pos p
    if x.line.isNone && x.ready.isEmpty && !x.gold && !x.golds.isEmpty && x.pipe.isSome && decide (x.copyEnd ≤ s.deviceTime) &&
        decide (x.startDt ≤ s.deviceTime) then
      .next (s1.modPos p (fun q => { q with gold := true, startDt := s.deviceTime }))
    else .next s1

/-! ### Strips (R144, R147–R149) -/

/-- Output rows that have left the pipe: each is 3 input rows behind, and all are out at the bottom edge (R144). -/
def CtxCfg.rowsOut (g : CtxCfg) (done : Nat) : Nat := if g.height ≤ done then g.height else done - 3

/-- The rows of a strip, and where the main planes start in the buffer. -/
def CtxCfg.stripRows (g : CtxCfg) (k : Nat) : List Nat :=
  (List.range (min ((k + 1) * g.strip) g.height - k * g.strip)).map (fun i => k * g.strip + i)
def CtxCfg.mainOff (g : CtxCfg) : Nat := 0x40 + g.embedded * 12288

/-- The lines of a strip, planes and taps: where each goes in the buffer, and its bytes (R145–R147). -/
def State.stripLines (s : State) (c : Nat) (x : SFrame) (k : Nat) : List (Nat × List Byte) :=
  let g := s.ctxCfg c
  let codes := g.allCodes g.width (min x.received g.height) x.rows
  let lin := s.allLinear g codes
  let st := (s.ctx c).tone
  ((g.stripRows k).map (fun r =>
    (s.mainRow g g.width g.height st x.rows codes lin r).map (fun q => (g.mainOff + q.off, q.bytes)) ++
      (s.tapRow g g.width g.height st g.tap0 codes lin r).map (fun q => (g.tap0Off + q.off, q.bytes)) ++
      (s.tapRow g g.width g.height st g.tap1 codes lin r).map (fun q => (g.tap1Off + q.off, q.bytes)))).flatten

/-- The bytes that a strip of every plane may take in the staging area. -/
def CtxCfg.stageHalf (g : CtxCfg) : Nat :=
  let tap (t : Nat) : Nat := match t with
    | 1 => pitch64 (rawBytes g.dt * g.width)
    | 2 => pitch64 (4 * g.width)
    | 3 => 3 * pitch64 (4 * g.width)
    | 4 => 3 * pitch64 (2 * g.width)
    | _ => 0
  g.strip * ((match g.format with
    | 1 => pitch64 (2 * g.width)
    | 2 => 2 * pitch64 g.width
    | 3 => 3 * pitch64 g.width
    | _ => pitch64 g.width) + tap g.tap0 + tap g.tap1)

/-- The lines of strip k stand in the context's staging area in hub SRAM, one behind the other by their pitch, strips in its two halves in turn
(R148; log entry 89). -/
def State.stageLines (s : State) (c k : Nat) (l : List (Nat × List Byte)) : State :=
  let g := s.ctxCfg c
  (l.foldl (fun (x : State × Nat) q => (x.1.putBytes x.2 q.2, x.2 + pitch64 q.2.length))
    (s, hubSramBase + g.stage + k % 2 * g.stageHalf)).1

/-- A strip is staged and its planes and taps are written to one die (R146–R148). -/
def State.writeStrip (s : State) (c d : Nat) (x : SFrame) (k : Nat) : State :=
  let b := s.bufferAt c d x.frame
  let l := s.stripLines c x k
  l.foldl (fun (s : State) q => s.writeFrom 6 (b + q.1) q.2) (s.stageLines c k l)

/-- What precedes a frame's last post: the flicker record and the frame record (R147, R150). -/
def State.writeRecords (s : State) (c d : Nat) (x : SFrame) : State :=
  let g := s.ctxCfg c
  let b := s.bufferAt c d x.frame
  let s1 := if g.band = 0 then s else s.write (b + g.bandOff) (s.frameBands c x)
  s1.write b (frameRecord x.frame c (x.long && g.long == 0) false (decide (0 < x.embedded)) (g.band != 0) (!s.triggered c) x.received
    x.fsDt x.doneDt x.fsWall x.fsEpoch)

/-- One strip of a frame is forwarded to one die and its flag posted: the first post is the STREAM edge event, the last
completes the SOURCE instance (R148, R149). -/
def State.postStrip (s : State) (c d : Nat) (x : SFrame) (k : Nat) : State :=
  let g := s.ctxCfg c
  let last := k + 1 == g.strips
  let s1 := if !s.takesFrame d x.frame then s
    else
      let s1 := s.writeStrip c d x k
      let s2 := if last then s1.writeRecords c d x else s1
      let s3 := s2.flagUpdate ingressKey d (s.stripFlag c x.frame) false 1
      let s4 := if k = 0 then s3.streamEvent d c x.frame false else s3
      if last then s4.endSource d c x.frame .done else s4
  let s2 := s1.modFrame c x.frame (fun y => { y with posted := Map.put y.posted d (k + 1) })
  let all := match s2.sframe c x.frame with
    | some y => (s2.ctxDies c).all (fun e => Map.get 0 y.posted e == g.strips) && y.delivered
    | none => false
  if all && (s2.ctx c).cur != some x.frame then
    s2.modCtx c (fun y => { y with frames := y.frames.filter (fun z => z.frame != x.frame) })
  else s2

/-- STRIP_POST: the next strip of a context that has left the pipe goes to a die (R144, R148, R149, R583). -/
def execStripPost (c d : Nat) (s : State) : Result State :=
  if s.frz.stopped then .next s else
  let g := s.ctxCfg c
  if !(s.ctxDies c).contains d then .next s
  else
    match (s.ctx c).frames.find? (fun x =>
        let k := Map.get 0 x.posted d
        decide (k < g.strips) && decide (min ((k + 1) * g.strip) g.height ≤ g.rowsOut x.done) && (k + 1 != g.strips || x.delivered)) with
    | some x => .next ((s.postStrip c d x (Map.get 0 x.posted d)).tidy c)
    | none => .next (s.tidy c)

/-- DROP_FLAG_RAISE: in a later cycle the strip flag of a dropped frame is raised to the frame's full strip count (R138). -/
def execDropFlagRaise (c d : Nat) (s : State) : Result State :=
  match (s.ctx c).raise.find? (fun (r : Nat × Word) => r.1 == d) with
  | none => .next s
  | some (_, f) =>
    let s1 := s.modCtx c (fun x => { x with raise := x.raise.erase (d, f) })
    .next (if s.dieUp d && s.reach 6 d then s1.flagUpdate ingressKey d (s.stripFlag c f) true (Word.ofNat (s.ctxCfg c).strips) else s1)

/-! ### Links and sensor transactions (R128, R132) -/

/-- Keep ING_STATUS.link_up and the link's own status. -/
def State.linkRegs (s : State) (l : Nat) : State :=
  let g := Map.get 0 s.ingress.gear l
  let back (k : Nat) : Bool := decide (Map.get 0 s.ingress.gear k ≠ 0) && !s.ingress.backDown.contains k
  let w := (List.range 16).foldl (fun n k => n + bit (back k) * 2 ^ k) 0
  (((s.setF 6 .ingStatus_link_up w).setF 6 .ingLinkStatus_locked (bit (decide (g ≠ 0))) 0 l).setF 6 .ingLinkStatus_bc_up (bit (back l)) 0 l).setF 6
    .ingLinkStatus_gear g 0 l

/-- APHY_LINK_TRAIN: a used link trains at its highest gear or a lower one, its trigger latency is measured, and a training after
the first since the start is a retraining (R128, R133). -/
def execAphyLinkTrain (link gear latency : Nat) (s : State) : Result State :=
  if s.frz.stopped then .next s else
  let g := s.linkCfg link
  if 16 ≤ link ∨ 5 < gear ∨ g.gear < gear then hostErr s 128
  else if !g.used || s.pwr.hubOff.contains (5 + link / 4) then .next s
  else
    let s1 := s.modIng (fun i => { i with
      gear := Map.set 0 i.gear link gear, backDown := setErase link i.backDown, trained := setInsert link i.trained })
    let s2 := if s.ingress.trained.contains link then s1.bumpF 6 .ingLinkStatus_retrains 0 link else s1
    .next ((if gear = 0 then s2 else s2.setF 6 .ingLinkLat_latency (cap 65535 latency) 0 link).linkRegs link)

/-- APHY_LINK_LOST: a link loses lock, and its contexts receive nothing until it retrains; or its back-channel alone, and no trigger edge goes
out on it (R128). -/
def execAphyLinkLost (link : Nat) (backOnly : Bool) (s : State) : Result State :=
  if s.frz.stopped then .next s
  else if 16 ≤ link then hostErr s 128
  else if Map.get 0 s.ingress.gear link = 0 then .next s
  else .next ((s.modIng (fun i => if backOnly then { i with backDown := setInsert link i.backDown }
    else { i with gear := Map.set 0 i.gear link 0, backDown := setErase link i.backDown })).linkRegs link)

/-- ING_I2C_CMD: a write to the register in the privileged view starts a tunnelled transaction (R132, Table ING-14). -/
def execIngI2cCmd (who : Init) (v : Word) (s : State) : Result State :=
  if s.frz.stopped then .next s
  else if !who.canAccess then hostErr s 27
  else if !s.privileged who then .next s.viewMiss
  else if s.getF 6 .ingI2cResult_result = 1 then hostErr s 157
  else if bits v.toNat 12 2 = 3 then hostErr s 157
  else
    let link := bits v.toNat 8 4
    let n := bits v.toNat 12 2 + 1
    let m := i2cBytes v.toNat (bits v.toNat 16 16) n (testBit v.toNat 7) (s.getF 6 .ingI2cData_data)
    .next { (s.modIng (fun i => { i with i2c := some v })).setF 6 .ingI2cResult_result 1 with
            out := { s.out with i2c := s.out.i2c ++ [(link, (s.linkCfg link).rate, m)] } }

/-- I2C_COMPLETE: the transaction is done, or ends by NACK or timeout; a read gives its data (R132). -/
def execI2cComplete (ok : Bool) (data : BitVec 24) (s : State) : Result State :=
  if s.frz.stopped then .next s else
  match s.ingress.i2c with
  | none => .next s
  | some v =>
    let s1 := s.modIng (fun i => { i with i2c := none })
    if !ok then .next (s1.setF 6 .ingI2cResult_result 3)
    else
      let s2 := s1.setF 6 .ingI2cResult_result 2
      .next (if testBit v.toNat 7 then s2.setF 6 .ingI2cData_data (data.toNat % 256 ^ (bits v.toNat 12 2 + 1)) else s2)

/-! ### What the ING and ISP registers report -/

/-- Write the ING registers of the selected context, the lost set, and the ISP registers, as they are now. -/
def State.ingRegs (s : State) (c : Nat) : State :=
  let g := s.ctxCfg c
  let x := s.ctx c
  let lost := (List.range 64).foldl (fun n k => n + bit (s.ctx k).lost * 2 ^ k) 0
  ((((((((s.setF 6 .ingCtxStatus_enabled (bit g.enable) 0 c).setF 6 .ingCtxStatus_lost (bit x.lost) 0 c).setF 6
    .ingCtxStatus_receiving (bit (x.frames.any (fun f => decide (f.done < g.height)))) 0 c).setF 6 .ingCtxStatus_position g.position 0
    c).setF 6 .ingCtxStatus_buffered (s.held c) 0 c).setF 6 .ingCtxStatus_missed (cap 255 x.dropRun) 0 c).setF 6
    .ingCtxStatus_golden_missed (cap 255 x.goldRun) 0 c).setF 6 .ingLostLo_lost (lost % 2 ^ 32)).setF 6 .ingLostHi_lost (lost / 2 ^ 32)

/-- The position a pipe fills. -/
def State.pipePos (s : State) (k : Nat) : Option Nat := s.ingress.positions.findIdx? (fun p => p.pipe == some k)

/-- The ISP registers of every pipe (Table ISP block, R158). -/
def State.ispRegs (s : State) : State :=
  (List.range 5).foldl (fun (s : State) k =>
    let p := s.pipePos k
    let served := (List.range 64).filter (fun c => (s.ctxCfg c).enable && p == some (s.ctxCfg c).position)
    let mask := served.foldl (fun n c => n + 2 ^ c) 0
    let ask := match p with
      | some q => (s.pos q).handover.isSome
      | none => false
    (((((((s.setF 6 .ispStatus_position (p.getD 7) k).setF 6 .ispStatus_in_service (bit p.isSome) k).setF 6 .ispStatus_under_test
      (bit (Map.get PipeTest.fresh s.ingress.tests k).underTest) k).setF 6 .ispStatus_retired (bit (s.ingress.retired.contains k))
      k).setF 6 .ispStatus_handover (bit ask) k).setF 6 .ispStatus_contexts served.length k).setF 6 .ispCtxLo_ctx (mask % 2 ^ 32)
      k).setF 6 .ispCtxHi_ctx (mask / 2 ^ 32) k) s

end Sys2Proof.Machine
end

