-- ==== Sys2Proof/Machine/Relay.lean ====
section
/-! DEFINITION. The relay engines, the ring of parts, stretch descriptors, and what the Lysvia link's flits do (chapter 13). -/

namespace Sys2Proof.Machine

open Sys2Proof

/-! ### Entries and the relay plan (R352, R353) -/

/-- A relay entry (Table SHD-2). -/
structure RelayEntry where
  kind : Nat
  dir : Nat
  hops : Nat
  more : Bool
  queue : Nat
  fwdQueue : Nat
  src : Nat
  dst : Nat
  length : Nat
  arrive : Nat
  done : Nat
  credit : Nat
  modules : Nat
  context : Nat
  creditValue : Word
  tokens : Nat
  seq : Word
  frame : Word
  epoch : Word
  deriving DecidableEq, Repr

/-- An entry from its 64 bytes. -/
def RelayEntry.ofBytes (l : List Byte) : RelayEntry :=
  let n (o k : Nat) : Nat := leNat ((l.drop o).take k)
  ⟨n 0 1, n 1 1, n 2 1, n 3 1 == 1, n 4 2 % 2 ^ 14, n 6 2 % 2 ^ 14, n 8 8 % 2 ^ 40, n 0x10 8 % 2 ^ 40, n 0x18 4, n 0x1C 2, n 0x1E 2,
    n 0x20 2, n 0x22 1, n 0x23 1, Word.ofNat (n 0x24 4), n 0x28 4, Word.ofNat (n 0x2C 4), Word.ofNat (n 0x30 4),
    Word.ofNat (n 0x34 4)⟩

/-- A flag field is enabled, and the flag it names. -/
def relayFlag (f : Nat) : Option Nat := if testBit f 15 then some (f % 4096) else none

/-- An entry's bytes with some of them replaced. -/
def putEntry (l : List Byte) (o : Nat) (b : List Byte) : List Byte := l.take o ++ b ++ l.drop (o + b.length)

/-- The module's relay params: those of its first die that has any. -/
def State.ringParams (s : State) : Option Nat := (List.range s.nDies).findSome? (fun d => s.relayParams d)

/-- Modules in the ring, and this module's position. -/
def State.ringModules (s : State) : Nat := match s.ringParams with
  | some p => bits p 32 2 + 1
  | none => 1
def State.ringPos (s : State) : Nat := match s.ringParams with
  | some p => bits p (2 * s.getF 6 .idModule_slot_id) 2
  | none => 0

/-- Parts of the ring, and the part of a die (R342). -/
def State.ringParts (s : State) : Nat := s.nDies * s.ringModules
def State.partOfDie (s : State) (d : Nat) : Nat := d + s.nDies * s.ringPos

/-- A relay engine's ring epoch. -/
def State.ringEpoch (s : State) (d : Nat) : Nat := s.getF d .rlyEpoch_epoch

/-- Change a die's relay engine. -/
def State.modRelay (s : State) (d : Nat) (f : Relay → Relay) : State := s.modDie d (fun x => { x with relay := f x.relay })

/-- A relay engine's path in a direction: false is NEXT. -/
def Relay.path (r : Relay) (dir : Bool) : RelayPath := if dir then r.prev else r.next
def Relay.setPath (r : Relay) (dir : Bool) (p : RelayPath) : Relay := if dir then { r with prev := p } else { r with next := p }

/-! ### Flits on their way out (R359–R361) -/

/-- A port that has done nothing: its peer's buffer holds 2,048 flits. -/
def RelayPort.fresh : RelayPort := ⟨false, false, false, false, [], 0, 0, [], 0, none, false, 0, 2048, []⟩

/-- A port. -/
def State.port (s : State) (p : Nat) : RelayPort := Map.get RelayPort.fresh s.ports p

/-- Change a port. -/
def State.modPort (s : State) (p : Nat) (f : RelayPort → RelayPort) : State :=
  { s with ports := Map.modify RelayPort.fresh s.ports p f }

/-- A port may be used: not held off by the POWER section, not lost, and the module has relay queues (R353, Table PWR-6). -/
def State.portAllowed (s : State) (p : Nat) : Bool :=
  decide (p < 4) && !testBit (s.cad secPOWER 0x200 1) p && !s.pwr.hubOff.contains (9 + p) && !(s.port p).lost && s.ringParams.isSome

/-- A port carries flits for its pair. -/
def State.portUp (s : State) (p : Nat) : Bool := s.portAllowed p && (s.port p).trained

/-- Send one flit on a port: header and payload, kept for a replay (log entry 20 on the layout of info). -/
def State.sendOn (s : State) (p : Nat) (f : TxFlit) : State :=
  let x := s.port p
  let l := toLE 1 f.type ++ toLE 1 (bit f.last) ++ toLE 2 x.txSeq ++ toLE 2 (x.rxSeq + 65535) ++ toLE 2 x.freed ++ toLE 2 f.tag ++
    toLE 4 f.off ++ toLE 2 f.marks ++ f.payload
  let s1 := s.modPort p (fun x => { x with
    txSeq := (x.txSeq + 1) % 65536, replay := x.replay ++ [(x.txSeq, f, l)], freed := 0, credits := x.credits - 1 })
  { s1.bumpUnits 6 .rlyPortFlits_flits 1024 1 p with out := { s1.out with flits := s1.out.flits ++ [(p, l)] } }

/-- A port can take a flit: it runs, its peer's buffer has room, and so has its replay buffer of 1,024 flits (R361). -/
def State.portRoom (s : State) (p : Nat) : Bool :=
  s.portUp p && decide (0 < (s.port p).credits ∧ (s.port p).replay.length < 1024)

/-- The port of a pair whose turn it is, true for the second: its ports in turn while both run, else the one that runs (R360, R362). -/
def State.turnOf (s : State) (pair : Nat) (turns : Map Nat) : Nat :=
  let a := 2 * pair
  if s.portUp a && s.portUp (a + 1) then a + Map.get 0 turns pair % 2 else if s.portUp (a + 1) then a + 1 else a

/-- The flits that wait for a pair leave in order while the port whose turn it is takes them; the first argument bounds their number. -/
def State.pump : Nat → State → Nat → State
  | 0, s, _ => s
  | k + 1, s, pair =>
    match Map.get [] s.ring.txq pair with
    | [] => s
    | f :: rest =>
      let p := s.turnOf pair s.ring.turn
      if s.portRoom p then
        State.pump k ({ s with ring := { s.ring with
          txq := Map.set [] s.ring.txq pair rest, turn := Map.set 0 s.ring.turn pair ((p + 1) % 2) } }.sendOn p f) pair
      else s

/-- The flits that wait for a pair leave while there is room. -/
def State.pumpPair (s : State) (pair : Nat) : State := State.pump (Map.get [] s.ring.txq pair).length s pair

/-- Put flits on a pair (0 forward, 1 backward); a pair whose ports are both lost or off carries none. -/
def State.sendFlits (s : State) (pair : Nat) (l : List TxFlit) : State :=
  if s.portAllowed (2 * pair) || s.portAllowed (2 * pair + 1) then
    { s with ring := { s.ring with txq := Map.modify [] s.ring.txq pair (· ++ l) } }.pumpPair pair
  else s

/-- Send a flit of one piece on a pair. -/
def State.sendFlit (s : State) (pair ty tag off : Nat) (payload : List Byte) (last : Bool := true) : State :=
  s.sendFlits pair [⟨ty, tag, off, 0, last, payload⟩]

/-- The DATA flits of a block with the marks of its codewords, 256 bytes each, the last one marked. -/
def blockFlits (tag : Nat) (l : List (List Byte × Bool)) : List TxFlit :=
  let n := (l.length + 15) / 16
  (List.range n).map (fun k =>
    let c := (l.drop (16 * k)).take 16
    ⟨2, tag, 256 * k, (List.range c.length).foldl (fun n i => n + bit (c.getD i ([], false)).2 * 2 ^ i) 0, k + 1 == n,
      (c.map (·.1)).flatten⟩)

/-! ### The ring's order (R358) -/

/-- Where a path leads. -/
inductive Hop where
  | die (d : Nat)
  | pair (k : Nat)
  deriving DecidableEq, Repr

/-- The next stop from a die. -/
def State.hop (s : State) (d : Nat) (dir : Bool) : Hop :=
  if dir then
    if 0 < d then .die (d - 1) else if s.ringModules = 1 then .die (s.nDies - 1) else .pair 1
  else
    if d + 1 < s.nDies then .die (d + 1) else if s.ringModules = 1 then .die 0 else .pair 0

/-! ### Queues and credits (R354) -/

/-- The head entry of a relay queue, with whether it was forwarded. -/
def State.relayHead (s : State) (d q : Nat) : Option (List Byte × Bool) :=
  let e := s.queue d q
  let r := s.ringOf d q
  if r.depth e = 0 then none
  else some (s.bytesAt (e.addr r.cons) 64, (Map.get [] (s.die d).relay.marks q).headD false)

/-- Ask for the credit of a queue's head if it needs one and has not asked. -/
def State.askCredit (s : State) (d q : Nat) : State :=
  match s.relayHead d q with
  | none => s
  | some (l, _) =>
    let e := RelayEntry.ofBytes l
    match relayFlag e.credit with
    | none => s
    | some f =>
      if (s.die d).relay.asked.any (fun (p : Nat × Nat) => p.1 == q) then s
      else
        let s1 := (s.modRelay d (fun r => { r with asked := Map.put r.asked q s.deviceTime })).addFrame d .rlyCredit_waited 1 1
        match s.hop d (e.dir == 1) with
        | .die r => { s1 with travel := s1.travel ++ [⟨.watch, d, r, 4096 + q, f, e.creditValue, false⟩] }
        | .pair k =>
          let tag := s1.ring.nextTag
          let s2 := { s1 with ring := { s1.ring with nextTag := (tag + 1) % 65536, watches := s1.ring.watches ++ [(tag, d, q)] } }
          s2.sendFlit k 4 tag 0 (toLE 1 (if e.dir = 1 then s.nDies - 1 else 0) ++ toLE 2 f ++ toLE 4 e.creditValue.toNat)

/-- Append an entry to a relay queue. -/
def State.relayAppend (s : State) (d q : Nat) (l : List Byte) (fwd : Bool) : State :=
  ((s.appendRing d q l).modRelay d (fun r => { r with marks := Map.modify [] r.marks q (· ++ [fwd]) })).askCredit d q

/-- Take the head entry off a relay queue. -/
def State.relayPop (s : State) (d q : Nat) : State :=
  ((s.popRing d q).modRelay d (fun r => { r with
    marks := Map.modify [] r.marks q (fun l => l.drop 1), asked := Map.erase r.asked q, met := setErase q r.met })).askCredit d q

/-- The queue's head has what it waits for. -/
def State.creditMet (s : State) (d q : Nat) (e : RelayEntry) : Bool :=
  (relayFlag e.credit).isNone || (s.die d).relay.met.contains q

/-- The credit of a queue's head is met. -/
def State.creditCame (s : State) (d q : Nat) : State :=
  match (s.die d).relay.asked.find? (fun (p : Nat × Nat) => p.1 == q) with
  | none => s
  | some p => (s.modRelay d (fun r => { r with met := setInsert q r.met })).maxFrame d .rlyCredit_max 64 (s.deviceTime - p.2)

/-- WATCH_MET_NOTICE: a met notice from die `src` reaches a waiting task of die `dst` (R260), the relay queue of die `dst` whose head waits
for its credit (R354), or goes on over the Lysvia link to the module that watches; a lost link loses it (R24). -/
def execWatchMetNotice (src dst : Nat) (s : State) : Result State :=
  if s.frz.stopped then .next s else
  match s.takeTravel .met src dst with
  | none => .next s
  | some (t, s1) =>
    if !s1.reach src (if 8 ≤ dst then 6 else dst) then .next s1
    else if 8 ≤ dst then .next (s1.sendFlit (dst - 8) 5 t.slot 0 [])
    else if 4096 ≤ t.slot then .next (s1.creditCame dst (t.slot - 4096))
    else match s1.slot dst t.slot with
      | some x =>
        if x.state = .waiting ∧ x.desc.waitDie = src ∧ x.desc.waitFlag = t.flag ∧ x.desc.waitValue = t.value then
          .next (s1.makeReady dst t.slot)
        else .next s1
      | none => .next s1

/-! ### Relay tasks (R351) -/

/-- Append the entries of a list from the n-th on while their queues have room; none where the list is wrong.  A poisoned entry ends the
task's work poisoned (log entry 94). -/
def State.relayList (d base : Nat) : Nat → State → Option State
  | 0, _ => none
  | k + 1, s0 =>
    let n := (s0.die d).relay.appended
    let a := base + 64 * n
    let l := s0.read a 64
    let e := RelayEntry.ofBytes l
    let s := s0.countReads a 64
    if (s0.taintOf a 64).poison then
      some ((s.modRelay d (fun r => { r with appended := 0 })).modUnit d 85 (fun x => { x with done := true, poisoned := true }))
    else if s.queueKind d e.queue ≠ .relay ∨ 3 < e.kind ∨ 1 < e.dir then none
    else if (s.ringOf d e.queue).full (s.queue d e.queue) then
      some (if (s.die d).relay.refused then s
        else (s.bumpF d .dspQRefused_count 0 e.queue).modRelay d (fun r => { r with refused := true }))
    else
      let s1 := (s.relayAppend d e.queue l false).modRelay d (fun r => { r with appended := n + 1, refused := false })
      if e.more then State.relayList d base k s1
      else some ((s1.modRelay d (fun r => { r with appended := 0 })).modUnit d 85 (fun x => { x with done := true }))

/-- RELAY_TASK: the relay task appends its entries, in order, to the queues they name; a full queue holds it (R351, R357).  A list of no
entry or of more than 64, or one that names no relay queue, is the host's error. -/
def execRelayTask (d : Nat) (s : State) : Result State :=
  let x := s.unit d 85
  match x.running with
  | none => .next s
  | some k =>
    match s.slot d k with
    | none => .next s
    | some y =>
      if !s.dieUp d || x.done || y.stopped || y.desc.kind != 7 then .next s
      else match State.relayList d y.desc.program (64 - (s.die d).relay.appended) s with
        | some t => .next t
        | none => hostErr s 351

/-! ### Stretch descriptors (R345–R348) -/

/-- Apply a COMMIT to a die's copy, by the steps of R347. -/
def State.applyCommit (s : State) (d : Nat) (e : RelayEntry) : State :=
  let a := s.stretchAddr d e.context
  let n := s.memLE (a + 1) 1
  let b := s.memLE (a + 4) 4
  if s.memLE a 1 ≠ 1 ∨ e.seq ≠ Word.ofNat (s.memLE (a + 0x18) 4) + 1 ∨ e.epoch ≠ Word.ofNat (s.ringEpoch d) then
    ((s.write a [2]).bumpF d .rlyCommit_refused).doubt dRELAY d s.frame
  else
    let first := s.memLE (a + 8) 8
    let next := first + e.tokens
    let st := (next - 1) / b
    let base := s.memLE (a + 0x10) 8
    let base' := if n ≤ st then max base ((st - n + 1) * b) else base
    let valid := (List.range (st + 1 - first / b)).foldl (fun v k => v ||| 2 ^ ((first / b + k) % n)) (s.memLE (a + 2) 2)
    (s.write a ([1] ++ toLE 1 n ++ toLE 2 valid ++ toLE 4 b ++ toLE 8 next ++ toLE 8 base' ++ toLE 4 e.seq.toNat ++
      toLE 4 e.frame.toNat ++ toLE 4 (s.ringEpoch d))).bumpF d .rlyCommit_applied

/-- A COMMIT that its own die's copy would take: 1 ≤ t ≤ B, and it goes round the whole ring (R347). -/
def State.commitOk (s : State) (d : Nat) (e : RelayEntry) : Bool :=
  let a := s.stretchAddr d e.context
  s.memLE a 1 != 1 || (decide (1 ≤ e.tokens ∧ e.tokens ≤ s.memLE (a + 4) 4) && e.hops + 1 == s.memLE (a + 1) 1)

/-- A block lies in the memory of one die. -/
def State.homeSpan (s : State) (d a n : Nat) : Bool :=
  s.dataAddr a && s.dataAddr (a + n - 1) && s.homeDie a == d && s.homeDie (a + n - 1) == d

/-- What Table SHD-2 asks of an entry of die d, and of one that the die issues itself: lengths, hops, context, a block on the sending die;
a COMMIT goes once round, a RESYNC twice, and names the context's descriptor (R347, R352, R365). -/
def State.entryOk (s : State) (d : Nat) (fwd : Bool) (e : RelayEntry) : Bool :=
  let at' := s.stretchAddr d e.context
  decide (1 ≤ e.hops ∧ e.hops < 2 * s.ringParts) &&
  (match e.kind with
  | 0 => decide (64 ≤ e.length ∧ e.length ≤ 2 ^ 28 ∧ e.length % 64 = 0) && s.homeSpan d e.src e.length
  | 2 => decide (e.length = 0 ∧ e.context < 16) && (fwd || s.commitOk d e)
  | 3 => decide (e.length = 64 ∧ e.context < 16) && e.src == at' && e.dst == at' && (fwd || e.hops + 1 == 2 * s.ringParts)
  | _ => e.length == 0)

/-! ### Taking an entry (R354) -/

/-- The queues of a die whose head goes in a direction. -/
def State.relayHeads (s : State) (d : Nat) (dir : Bool) : List (Nat × List Byte × Bool) :=
  (s.relayQueues d).filterMap (fun q => match s.relayHead d q with
    | some (l, fwd) => if ((RelayEntry.ofBytes l).dir == 1) = dir then some (q, l, fwd) else none
    | none => none)

/-- The arbiter of a path. -/
def relayArb (dir : Bool) : Nat := 0x20000 + bit dir

/-- The first of the ranks at or after a pointer, else the lowest. -/
def rotateFrom (ptr : Option Nat) (l : List Nat) : Option Nat :=
  match ptr with
  | none => l.head?
  | some p => match l.find? (fun r => decide (p ≤ r)) with
    | some r => some r
    | none => l.head?

/-- RELAY_PATH_TAKE: an idle path discards a head whose ring_modules is not the ring's, or takes the head of an eligible queue. -/
def execRelayPathTake (d : Nat) (dir : Bool) (s : State) : Result State :=
  if !s.dieUp d || !s.ring.up || ((s.die d).relay.path dir).busy.isSome then .next s
  else
    let heads := s.relayHeads d dir
    match heads.find? (fun h => (RelayEntry.ofBytes h.2.1).modules != s.ringModules) with
    | some h => .next (((s.relayPop d h.1).bumpF d .rlyDiscard_ring).doubt dRELAY d s.frame)
    | none =>
      let ready := heads.filter (fun h => s.creditMet d h.1 (RelayEntry.ofBytes h.2.1))
      let key := relayArb dir
      let ptr := Map.get none (s.die d).seq.arbiters key
      match (rotateFrom ptr (ready.map (·.1))).bind (fun q => ready.find? (fun h => h.1 == q)) with
      | none => .next s
      | some (q, l, fwd) =>
        let l' := if fwd then l else putEntry l 0x34 (toLE 4 (s.ringEpoch d))
        let e := RelayEntry.ofBytes l'
        if !s.entryOk d fwd e then hostErr s 352
        else
          let s1 := if 1 < ready.length then s.modSeq d (fun x => { x with arbiters := Map.set none x.arbiters key (some (q + 1)) })
            else s
          let s2 := (s1.relayPop d q).modRelay d (fun r => r.setPath dir ⟨some l', s.deviceTime⟩)
          let s3 := s2.setF d (if dir then .rlyStatus_prev_busy else .rlyStatus_next_busy) 1
          .next (if e.kind = 2 ∧ fwd = false then s3.applyCommit d e else s3)

/-! ### Arrivals (R355–R357, R365) -/

/-- Every byte of a block may be written by a relay engine: DRAM and commons of C-dies, not write-locked (R355). -/
def State.relayDest (s : State) (a n : Nat) : Bool :=
  let ok (x : Nat) : Bool := match s.region x with
    | .dram _ _ => !s.lockedAt x
    | .commons _ _ => true
    | _ => false
  ok a && ok (a + n - 1) && !(s.locked.any (fun r => decide (a < r.2 ∧ r.1 < a + n)))

/-- The entry that goes on from die r, its addresses at where it landed. -/
def forwardEntry (l : List Byte) (landed : Nat) : List Byte :=
  putEntry (putEntry l 2 (toLE 1 ((nth 0 l 2).toNat - 1))) 8 (toLE 8 landed ++ toLE 8 landed)

/-- Append the forward of an arrival, or hold it at a full queue; a number that is no relay queue is the host's error (R352). -/
def State.forward (s : State) (r : Nat) (dir : Bool) (l : List Byte) : State :=
  let q := (RelayEntry.ofBytes l).fwdQueue
  if s.queueKind r q ≠ .relay then s.unpredictable
  else if (s.ringOf r q).full (s.queue r q) then
    (s.bumpF r .dspQRefused_count 0 q).modRelay r (fun x => { x with held := Map.put x.held (bit dir) l })
  else s.relayAppend r q l true

/-- The receiving engine holds an arrival of a direction. -/
def State.arrivalHeld (s : State) (r : Nat) (dir : Bool) : Bool :=
  (s.die r).relay.held.any (fun (p : Nat × List Byte) => p.1 == bit dir)

/-- The relay engine of a die as a flag unit's initiator. -/
def relayKey (d : Nat) : Nat := 400000 + d

/-- The module has cold-started since a ring epoch: it lies before the one that the module took when it first formed the ring since that
start (R365; log entry 95). -/
def State.coldSince (s : State) (epoch : Nat) : Bool := match s.ring.joined with
  | some e => decide (epoch < e)
  | none => true

/-- An entry arrives at die r with its block: it is discarded under a different epoch, else its block is written, its COMMIT or
RESYNC applied, its flag posted, and it goes on if it has further to go (R355, R357, R365; log entry 94). -/
def State.arrive (s : State) (r : Nat) (dir : Bool) (l : List Byte) (block : List (List Byte × Bool)) : State :=
  let e := RelayEntry.ofBytes l
  if e.epoch ≠ Word.ofNat (s.ringEpoch r) then
    (if e.kind = 2 then s.applyCommit r e else s).bumpF r .rlyDiscard_ring
  else
    let landed := s.onDie e.dst r
    let s1 := match e.kind with
      | 0 => if s.relayDest landed e.length then s.writeMarked landed block else s.bumpF r .rlyDiscard_dest
      | 2 => s.applyCommit r e
      | 3 =>
        let d := (block.map (fun (c : List Byte × Bool) => c.1)).flatten
        let valid := leNat ((d.drop 2).take 2)
        let mine := testBit valid (s.partOfDie r)
        let valid' := if mine && s.coldSince (leNat ((d.drop 0x20).take 4)) then valid - 2 ^ s.partOfDie r else valid
        let d' := putEntry (putEntry (putEntry d 0 [1]) 2 (toLE 2 valid')) 0x20 (toLE 4 (s.ringEpoch r))
        if s.relayDest landed 64 then s.write landed d' else s.bumpF r .rlyDiscard_dest
      | _ => s
    let s2 := (match relayFlag e.arrive with
      | some f => s1.flagUpdate (relayKey r) r f false 1
      | none => s1).bumpF r .rlyEntries_arrived
    if 1 < e.hops then s2.forward r dir (forwardEntry l landed) else s2

/-- A path's entry has gone: its bytes are counted and the path is idle. -/
def State.pathDone (s : State) (d : Nat) (dir : Bool) (e : RelayEntry) : State :=
  let s1 := (s.modRelay d (fun r => r.setPath dir ⟨none, 0⟩)).setF d
    (if dir then .rlyStatus_prev_busy else .rlyStatus_next_busy) 0
  s1.bumpUnits d .rlyBytes_bytes 65536 (if e.kind = 0 ∨ e.kind = 3 then e.length else 0)

/-- The entry of a kind that a path carries is delivered at the next die, or sent off to the next module; over a lost link it is lost
(R24). -/
def State.deliver (s : State) (d : Nat) (dir : Bool) (kind : Nat) : Result State :=
  match ((s.die d).relay.path dir).busy with
  | none => .next s
  | some l =>
    let e := RelayEntry.ofBytes l
    if e.kind ≠ kind ∨ s.dieUp d = false then .next s
    else
      let n := if kind = 0 ∨ kind = 3 then e.length else 0
      let block := s.readMarked e.src n
      let s0 := if n = 0 then s.pathDone d dir e else (s.pathDone d dir e).countReads e.src n
      match s.hop d dir with
      | .die r =>
        if s.arrivalHeld r dir then .next s
        else if !s.dieUp r || !s.reach d r then .next s0
        else
          let s1 := (s0.arrive r dir l block).bumpF d .rlyEntries_sent
          .next (s1.modRelay d (fun x => { x with acks := x.acks ++ [relayFlag e.done] }))
      | .pair k =>
        if !s.reach d 6 then .next s0
        else
          let tag := s.ring.nextTag
          let s1 := { s0 with
            ring := { s0.ring with nextTag := (tag + 1) % 65536, sent := s0.ring.sent ++ [(tag, d, relayFlag e.done)] } }
          .next (s1.sendFlits k (⟨1, tag, 0, 0, n == 0, l ++ toLE 1 s.ringPos ++ toLE 1 d ++ toLE 2 e.queue⟩ :: blockFlits tag block))

/-- RELAY_DATA: a DATA entry's block is written and visible at the receiving die (R355). -/
def execRelayData (d : Nat) (dir : Bool) (s : State) : Result State :=
  if s.frz.stopped then .next s else
  s.deliver d dir 0

/-- RELAY_FLAG_ENTRY: a FLAG entry moves no data and adds to arrive_flag (R352). -/
def execRelayFlagEntry (d : Nat) (dir : Bool) (s : State) : Result State :=
  if s.frz.stopped then .next s else
  s.deliver d dir 1

/-- RELAY_COMMIT: a COMMIT is applied to the receiving die's copy (R347). -/
def execRelayCommit (d : Nat) (dir : Bool) (s : State) : Result State :=
  if s.frz.stopped then .next s else
  s.deliver d dir 2

/-- RELAY_RESYNC: the carried descriptor replaces the receiving die's copy (R365). -/
def execRelayResync (d : Nat) (dir : Bool) (s : State) : Result State :=
  if s.frz.stopped then .next s else
  s.deliver d dir 3

/-- RELAY_ACK: an acknowledgement returns and the sender's done_flag is posted (R355). -/
def execRelayAck (d : Nat) (s : State) : Result State :=
  if s.frz.stopped then .next s else
  match (s.die d).relay.acks with
  | [] => .next s
  | a :: rest =>
    let s1 := s.modRelay d (fun r => { r with acks := rest })
    .next (match a with
      | some f => s1.flagUpdate (relayKey d) d f false 1
      | none => s1)

/-! ### The ring's formation and breaks (R363–R365) -/

/-- The registers of the ring. -/
def State.ringRegs (s : State) : State :=
  let nm := s.ringModules
  let up := bit s.ring.up
  let s1 := (List.range s.nDies).foldl (fun (s : State) d => ((s.setF d .rlyStatus_ring_up up).setF d .rlyStatus_modules
    (nm - 1)).setF d .rlyStatus_part (s.partOfDie d)) s
  (List.range 4).foldl (fun (s : State) p => ((s.setF 6 .rlyRing_modules (nm - 1) p).setF 6 .rlyRing_position s.ringPos
    p).setF 6 .rlyRing_ring_up up p) s1

/-- The epoch that this module's dies will take when the ring forms: after a break one more (R365). -/
def State.nextEpoch (s : State) : Nat :=
  (List.range s.nDies).foldl (fun n d => max n (s.ringEpoch d)) 0 + bit s.ring.broken

/-- The ring is formed with an epoch, and the RELAY doubts clear (R365, R476). -/
def State.ringForm (s : State) (epoch : Nat) : State :=
  let s1 := (List.range s.nDies).foldl (fun (s : State) d => s.setF d .rlyEpoch_epoch epoch) s
  let joined := match s.ring.joined with
    | some e => e
    | none => epoch
  (({ s1 with ring := { s1.ring with up := true, broken := false, censusDt := none, joined := some joined } }).ringRegs).recovered .ringForm

/-- The first four bytes of the SHA-256 of the relay params. -/
def State.paramsId (s : State) : Nat := leNat ((sha256Bytes (toLE 8 (s.ringParams.getD 0))).take 4)

/-- This hub's census entry. -/
def State.censusEntry (s : State) : CensusEntry :=
  ⟨s.ringPos, BitVec.ofNat 64 s.sec.serial.toNat, s.getF 6 .idModule_part, s.paramsId⟩

/-- A census as a flit's payload. -/
def censusBytes (l : List CensusEntry) : List Byte :=
  (l.map (fun e => toLE 1 e.pos ++ toLE 8 e.serial.toNat ++ toLE 1 e.part ++ toLE 4 e.params)).flatten

/-- Every C-die that has not failed runs. -/
def State.membersUp (s : State) : Bool := (List.range s.nDies).all (fun d => s.dieUp d || (s.die d).failed)

/-- The ring forms where it can: a ring of one module when every C-die has started; else a census that waited here for the module's dies goes
on, and the hub at position 0 that knows both neighbours sends one (R363, R365; log entry 95). -/
def State.ringTry (s : State) : State :=
  if s.ringParams.isNone || s.ring.up || !s.membersUp then s
  else if s.ringModules = 1 then s.ringForm s.nextEpoch
  else match s.ring.census with
    | some (l, e) =>
      ({ s with ring := { s.ring with census := none } }).sendFlit 0 8 0 (max e s.nextEpoch) (censusBytes (l ++ [s.censusEntry]))
    | none =>
      let known (k : Nat) : Bool := (s.port (2 * k)).ident || (s.port (2 * k + 1)).ident
      if s.ringPos = 0 ∧ known 0 = true ∧ known 1 = true ∧ s.ring.censusDt = none then
        ({ s with ring := { s.ring with censusDt := some s.deviceTime } }).sendFlit 0 8 0 s.nextEpoch (censusBytes [s.censusEntry])
      else s

/-- What a break does at one die: queues and arrivals are discarded, the epoch moves on, ACTIVE descriptors become BROKEN, in a die that
restarts too; a descriptor in a write-locked range stays (R364, R403). -/
def State.breakDie (s : State) (d : Nat) (epoch : Nat) : State :=
  let r := (s.die d).relay
  let inPath := bit r.next.busy.isSome + bit r.prev.busy.isSome + r.held.length
  let s1 := (s.relayQueues d).foldl (fun (s : State) q =>
    let x := s.ringOf d q
    (s.setRing d q { x with cons := x.prod }).bumpF d .rlyDiscard_ring 0 0 (x.depth (s.queue d q))) s
  let s2 := (s1.bumpF d .rlyDiscard_ring 0 0 inPath).modRelay d (fun r => { r with
    next := ⟨none, 0⟩, prev := ⟨none, 0⟩, marks := [], asked := [], met := [], acks := [], held := [] })
  let s3 := { s2 with travel := s2.travel.filter (fun (t : Travel) =>
    !((t.src == d && decide (4096 ≤ t.slot)) || decide (8 ≤ t.src) || decide (8 ≤ t.dst))) }
  let s4 := if (s.relayParams d).isNone then s3
    else (List.range 16).foldl (fun (s : State) c =>
      let a := s.stretchAddr d c
      if s.memLE a 1 ≠ 1 then s
      else if s.lockedAt a then s.countLocked d (dramCtl (a - dramBase d)) a
      else s.putBytes a [2]) s3
  (((s4.setF d .rlyEpoch_epoch epoch).setF d .rlyStatus_broken 1).setF d .rlyStatus_next_busy 0).setF d .rlyStatus_prev_busy 0

/-- The ring breaks for this module: every relay engine of it does R364. -/
def State.breakRing (s : State) (epoch : Nat) : State :=
  let s1 := (List.range s.nDies).foldl (fun (s : State) d => s.breakDie d epoch) s
  let kept (l : List TxFlit) : List TxFlit := l.filter (fun f => decide (6 ≤ f.type))
  ({ s1 with ring := { s1.ring with
      up := false, broken := true, breakDue := false, rx := [], sent := [], watches := [], census := none, censusDt := none
      txq := Map.mapAll [] s1.ring.txq kept } }).ringRegs

/-- RING_BREAK: a break seen by this hub: BREAK goes out both ways, and every relay engine of the module is told; a lone module's
ring is formed again as soon as its dies run. -/
def execRingBreak (s : State) : Result State :=
  if s.frz.stopped then .next s
  else if !s.ring.breakDue then .next s
  else if !s.ring.up then .next { s with ring := { s.ring with breakDue := false } }
  else
    let e := s.ringEpoch 0 + 1
    .next (((s.sendFlit 0 9 0 e []).sendFlit 1 9 0 e []).breakRing e).ringTry

/-! ### Flits received (R360–R365) -/

/-- The pair of a port. -/
def pairOf (p : Nat) : Nat := p / 2

/-- Status of a port in its register. -/
def State.portRegs (s : State) (p : Nat) : State :=
  let x := s.port p
  let w (s : State) (f : Fld) (v : Nat) : State := s.setF 6 f v p
  w (w (w (w (w (w s .rlyPortStatus_trained (bit x.trained)) .rlyPortStatus_in_service (bit (s.portUp p)))
    .rlyPortStatus_spare_used (bit x.spare)) .rlyPortStatus_half (bit x.half)) .rlyPortStatus_lost (bit x.lost))
    .rlyPortStatus_lanes (511 - sumNat (x.lanesFailed.map (fun k => 2 ^ k)))

/-- The die an arriving entry reaches, and its direction, by the pair it comes in on: PREV traffic of the next module ends at the last
die, NEXT traffic of the previous one at die 0. -/
def State.rxEnd (s : State) (pair : Nat) : Nat × Bool := if pair = 0 then (s.nDies - 1, true) else (0, false)

/-- The codewords of a block that came in flits, each with its mark. -/
def RxEntry.block (x : RxEntry) (n : Nat) : List (List Byte × Bool) :=
  let parts := sortBy (fun (a b : Nat × List Byte × BitVec 16) => decide (a.1 < b.1)) x.parts
  let codes := (parts.map (fun p => (List.range 16).map (fun k => ((p.2.1.drop (16 * k)).take 16, p.2.2.getLsbD k)))).flatten
  codes.take (n / 16)

/-- An entry has come in whole: it goes over the hub link to its die, is delivered there, and a DELIVERED flit goes back. -/
def State.rxDone (s : State) (pair : Nat) (x : RxEntry) : State :=
  let r := s.rxEnd pair
  let s1 := { s with ring := { s.ring with rx := Map.erase s.ring.rx pair } }
  if s.dieUp r.1 && s.reach 6 r.1 then
    (s1.arrive r.1 r.2 x.entry (x.block (RelayEntry.ofBytes x.entry).length)).sendFlit pair 3 x.tag 0 []
  else s1

/-- An entry begins to arrive on a pair; one with no block is whole. -/
def State.rxHead (s : State) (pair : Nat) (h : FlitHdr) (entry : List Byte) : State :=
  let x : RxEntry := ⟨h.tag, entry.take 64, []⟩
  if h.last then s.rxDone pair x else { s with ring := { s.ring with rx := Map.put s.ring.rx pair x } }

/-- 256 bytes of a block come in; the last flit delivers it. -/
def State.rxData (s : State) (pair : Nat) (h : FlitHdr) (data : List Byte) (marks : BitVec 16) : State :=
  match s.ring.rx.find? (fun (e : Nat × RxEntry) => e.1 == pair) with
  | none => s
  | some (_, x) =>
    if x.tag ≠ h.tag then s
    else
      let x' := { x with parts := x.parts ++ [(h.off, data, marks)] }
      if h.last then s.rxDone pair x' else { s with ring := { s.ring with rx := Map.put s.ring.rx pair x' } }

/-- The other module has delivered an entry: its acknowledgement goes to the sending die. -/
def State.rxDelivered (s : State) (tag : Nat) : State :=
  match s.ring.sent.find? (fun (e : Nat × Nat × Option Nat) => e.1 == tag) with
  | none => s
  | some (_, d, f) =>
    (({ s with ring := { s.ring with sent := s.ring.sent.filter (fun (e : Nat × Nat × Option Nat) => e.1 != tag) } }).bumpF d
      .rlyEntries_sent).modRelay d (fun r => { r with acks := r.acks ++ [f] })

/-- A neighbour module's credit watch goes on to the flag unit it names (R354). -/
def State.rxWatch (s : State) (pair tag die flag : Nat) (value : Word) : State :=
  if s.nDies ≤ die ∨ 4096 ≤ flag then s
  else { s with travel := s.travel ++ [⟨.watch, 8 + pair, die, tag, flag, value, false⟩] }

/-- The credit of a queue's head is met in the neighbour module. -/
def State.rxMet (s : State) (tag : Nat) : State :=
  match s.ring.watches.find? (fun (e : Nat × Nat × Nat) => e.1 == tag) with
  | none => s
  | some (_, d, q) =>
    ({ s with ring := { s.ring with watches := s.ring.watches.filter (fun (e : Nat × Nat × Nat) => e.1 != tag) } }).creditCame d q

/-- The peer of a port is known, and the ring may form (R363). -/
def State.rxIdent (s : State) (p : Nat) (id : IdentInfo) : State :=
  (((((s.setF 6 .rlyPortPeerLo_serial (id.serial.toNat % 2 ^ 32) p).setF 6 .rlyPortPeerHi_serial
    (id.serial.toNat / 2 ^ 32) p).setF 6 .rlyPortStatus_peer_pos id.pos p).setF 6 .rlyPortStatus_peer_slot id.slot
    p).modPort p (fun x => { x with ident := true })).ringTry

/-- A census that has come round is complete and agrees (R363). -/
def State.censusOk (s : State) (l : List CensusEntry) : Bool :=
  l.length == s.ringModules && (l.map (·.pos)) == List.range s.ringModules &&
    l.all (fun e => e.part == s.getF 6 .idModule_part && e.params == s.paramsId)

/-- Set a bit of RLY_RING in every instance. -/
def State.ringBit (s : State) (f : Fld) (v : Nat) : State := (List.range 4).foldl (fun (s : State) p => s.setF 6 f v p) s

/-- A hub appends its entry and sends the census on, once its dies run; back at position 0 it forms the ring, or finds a mismatch; its second
pass tells every member.  `epoch` is the highest one of the hubs it has passed, at the second pass the ring's (R363; log entry 95). -/
def State.rxCensus (s : State) (list : List CensusEntry) (second : Bool) (epoch : Nat) : State :=
  if s.ringPos = 0 then
    if second then s
    else
      let s1 := ({ s with ring := { s.ring with censusDt := none } }).ringBit .rlyRing_census_fail 0
      if s1.censusOk list then ((s1.ringBit .rlyRing_mismatch 0).ringForm epoch).sendFlit 0 8 1 epoch (censusBytes list)
      else (s1.ringBit .rlyRing_mismatch 1).doubt dRELAY 6 s.frame
  else if second then (s.ringForm epoch).sendFlit 0 8 1 epoch (censusBytes list)
  else ({ s with ring := { s.ring with census := some (list, epoch) } }).ringTry

/-- A break somewhere else in the ring, with the new epoch; it goes on round (R364). -/
def State.rxBreak (s : State) (pair : Nat) (epoch : Word) : State :=
  if !s.ring.up then s else ((s.sendFlit (1 - pair) 9 0 epoch.toNat []).breakRing epoch.toNat).ringTry

/-- What a flit does when the hub takes it from its receive buffer (Table SHD-6). -/
def State.rxTake (s : State) (c : Instr) : State :=
  match c with
  | .flitHead p h entry => s.rxHead (pairOf p) h entry
  | .flitData p h data marks => s.rxData (pairOf p) h data marks
  | .flitDelivered _ h => s.rxDelivered h.tag
  | .flitWatch p h die flag value => s.rxWatch (pairOf p) h.tag die flag value
  | .flitMet _ h => s.rxMet h.tag
  | .flitCensus _ h list second => s.rxCensus list second h.off
  | .flitBreak p _ epoch => s.rxBreak (pairOf p) epoch
  | _ => s

/-- The receiving engine of a pair holds an arrival, so no further entry is taken in on it (R357). -/
def State.rxHeld (s : State) (pair : Nat) : Bool := s.arrivalHeld (s.rxEnd pair).1 (s.rxEnd pair).2

/-- A flit of an entry. -/
def isEntry : Instr → Bool
  | .flitHead _ _ _ => true
  | .flitData _ _ _ _ => true
  | _ => false

/-- The hub takes flits out of a pair's receive buffers, its ports in the turn in which they were dealt; the first argument bounds their
number (R360). -/
def State.drain : Nat → State → Nat → State
  | 0, s, _ => s
  | k + 1, s, pair =>
    let p := s.turnOf pair s.ring.rxTurn
    match (s.port p).rxq with
    | [] => s
    | c :: rest =>
      if isEntry c && s.rxHeld pair then s
      else
        let s1 := (s.modPort p (fun x => { x with rxq := rest, freed := x.freed + 1 }))
        State.drain k ({ s1 with ring := { s1.ring with rxTurn := Map.set 0 s1.ring.rxTurn pair ((p + 1) % 2) } }.rxTake c) pair

/-- What has come in on a pair is taken while it can be, and what waits to leave leaves. -/
def State.serve (s : State) (pair : Nat) : State :=
  ((State.drain ((s.port (2 * pair)).rxq.length + (s.port (2 * pair + 1)).rxq.length) s pair).pumpPair 0).pumpPair 1

/-- The IDENT of this hub on a port that has trained (R363). -/
def State.sendIdent (s : State) (p : Nat) : State :=
  s.sendOn p ⟨7, 0, 0, 0, true, toLE 8 (s.sec.serial.toNat % 2 ^ 64) ++ toLE 1 (s.getF 6 .idModule_part) ++ toLE 1 (s.getF 6 .idModule_slot_id) ++
    toLE 1 s.ringPos ++ toLE 1 s.ringModules ++ toLE 4 s.paramsId⟩

/-- A flit comes in on a port.  One that cannot be corrected is discarded with a NAK, one out of sequence is discarded; a good one acknowledges
what it acknowledges and returns its credits, and on a port that was not trained it shows that the port is now, which IDENT follows; one that is
not IDLE takes its sequence number.  `f` is what it does (R361, R362; log entry 96). -/
def State.rxFlit (s : State) (p : Nat) (h : FlitHdr) (idle : Bool) (f : State → State) : Result State :=
  if !s.portAllowed p then .next s
  else if !h.ok then
    .next ((s.bumpF 6 .rlyPortFec_uncorrectable p).sendOn p ⟨6, (s.port p).rxSeq, 0, 0, true, []⟩)
  else
    let old := (s.port p).trained
    let s1 := (s.bumpUnits 6 .rlyPortFec_corrected 1024 h.corrected p).modPort p (fun x => { x with
      trained := true, lastDt := s.deviceTime, silentFrom := none, credits := x.credits + h.credit
      replay := x.replay.filter (fun r => decide ((r.1 + 65536 - h.ack) % 65536 ≠ 0 ∧ (r.1 + 65536 - h.ack) % 65536 < 32768)) })
    let s2 := if old then s1 else (s1.portRegs p).sendIdent p
    if idle || h.seq != (s2.port p).rxSeq then .next (s2.serve (pairOf p))
    else .next ((f (s2.modPort p (fun x => { x with rxSeq := (x.rxSeq + 1) % 65536 }))).serve (pairOf p))

/-- A flit of a pair's traffic goes to its port's receive buffer. -/
def State.rxStore (s : State) (p : Nat) (h : FlitHdr) (c : Instr) : Result State :=
  s.rxFlit p h false (fun s => s.modPort p (fun x => { x with rxq := x.rxq ++ [c] }))

/-- A flit of the port itself is used at once, and its place in the buffer is free again. -/
def State.rxOwn (s : State) (p : Nat) (h : FlitHdr) (f : State → State) : Result State :=
  s.rxFlit p h false (fun s => f (s.modPort p (fun x => { x with freed := x.freed + 1 })))

/-- FLIT_IDLE (R360). -/
def execFlitIdle (p : Nat) (h : FlitHdr) (s : State) : Result State :=
  if s.frz.stopped then .next s else
  s.rxFlit p h true (fun s => s)

/-- FLIT_HEAD: an entry begins to arrive; one with no block is whole. -/
def execFlitHead (p : Nat) (h : FlitHdr) (entry : List Byte) (s : State) : Result State :=
  if s.frz.stopped then .next s else
  s.rxStore p h (.flitHead p h entry)

/-- FLIT_DATA: 256 bytes of a block; the last flit delivers it. -/
def execFlitData (p : Nat) (h : FlitHdr) (data : List Byte) (marks : BitVec 16) (s : State) : Result State :=
  if s.frz.stopped then .next s else
  s.rxStore p h (.flitData p h data marks)

/-- FLIT_DELIVERED: the other module has delivered an entry. -/
def execFlitDelivered (p : Nat) (h : FlitHdr) (s : State) : Result State :=
  if s.frz.stopped then .next s else
  s.rxStore p h (.flitDelivered p h)

/-- FLIT_WATCH: a neighbour module's credit watch goes on to the flag unit it names (R354). -/
def execFlitWatch (p : Nat) (h : FlitHdr) (die flag : Nat) (value : Word) (s : State) : Result State :=
  if s.frz.stopped then .next s else
  s.rxStore p h (.flitWatch p h die flag value)

/-- FLIT_MET: the credit of a queue's head is met in the neighbour module. -/
def execFlitMet (p : Nat) (h : FlitHdr) (s : State) : Result State :=
  if s.frz.stopped then .next s else
  s.rxStore p h (.flitMet p h)

/-- FLIT_NAK: the flits from a sequence number on are sent again, in order (R361). -/
def execFlitNak (p : Nat) (h : FlitHdr) (s : State) : Result State :=
  if s.frz.stopped then .next s else
  s.rxOwn p h (fun s =>
    let again := (s.port p).replay.filter (fun r => decide ((r.1 + 65536 - h.tag) % 65536 < 32768))
    let s1 := (s.bumpF 6 .rlyPortRetry_replays p).bumpUnits 6 .rlyPortFlits_flits 1024 again.length p
    { s1 with out := { s1.out with flits := s1.out.flits ++ again.map (fun r => (p, r.2.2)) } })

/-- FLIT_IDENT: the peer of a port is known; when both pairs are, the hub at position 0 sends a CENSUS forward (R363). -/
def execFlitIdent (p : Nat) (h : FlitHdr) (id : IdentInfo) (s : State) : Result State :=
  if s.frz.stopped then .next s else
  s.rxOwn p h (fun s => s.rxIdent p id)

/-- FLIT_CENSUS: a hub appends its entry and sends the census on; back at position 0 it forms the ring (R363). -/
def execFlitCensus (p : Nat) (h : FlitHdr) (list : List CensusEntry) (second : Bool) (s : State) : Result State :=
  if s.frz.stopped then .next s else
  s.rxStore p h (.flitCensus p h list second)

/-- FLIT_BREAK: a break somewhere else in the ring (R364). -/
def execFlitBreak (p : Nat) (h : FlitHdr) (epoch : Word) (s : State) : Result State :=
  if s.frz.stopped then .next s else
  s.rxStore p h (.flitBreak p h epoch)

/-- FORWARD_RETRY: a held forward tries its queue again; then what waited behind it is taken in (R357). -/
def execForwardRetry (d : Nat) (dir : Bool) (s : State) : Result State :=
  match (s.die d).relay.held.find? (fun (p : Nat × List Byte) => p.1 == bit dir) with
  | none => .next s
  | some p =>
    let q := (RelayEntry.ofBytes p.2).fwdQueue
    if !s.dieUp d || (s.ringOf d q).full (s.queue d q) then .next s
    else .next ((s.modRelay d (fun r => { r with held := Map.erase r.held (bit dir) })).relayAppend d q p.2 true |>.serve 0 |>.serve 1)

/-- CENSUS_TIMEOUT: a census has not come back within 10 ms: the ring stays unformed, which is recorded and a doubt (R363). -/
def execCensusTimeout (s : State) : Result State :=
  if s.frz.stopped then .next s else
  match s.ring.censusDt with
  | none => .next s
  | some t =>
    if s.deviceTime < t + 9000000 then .next s
    else .next ((({ s with ring := { s.ring with censusDt := none } }).ringBit .rlyRing_census_fail 1).doubt dRELAY 6 s.frame)

/-! ### Lanes and ports (R362) -/

/-- A port is lost: recorded; what it has sent without acknowledgement leaves on its partner (log entry 96); with its partner lost too, the link to that neighbour is lost, which is a doubt and breaks the ring. -/
def State.portLost (s : State) (p : Nat) : State :=
  let mine := (s.port p).replay.map (fun r => r.2.1) |>.filter (fun f => f.type != 6 && f.type != 7)
  let s0 := { s with ring := { s.ring with txq := Map.modify [] s.ring.txq (pairOf p) (mine ++ ·) } }
  let s1 := (((s0.modPort p (fun x => { x with lost := true, trained := false, replay := [] })).portRegs p).raise 0x0A00 2 6 p).pumpPair (pairOf p)
  if (s1.port (p + 1 - 2 * (p % 2))).lost then
    ({ s1 with ring := { s1.ring with breakDue := true } }).doubt dRELAY 6 s.frame p
  else s1

/-- RELAY_LANE_FAIL: a first lane is replaced by the spare, a second halves the port, and with fewer than 4 left it is lost. -/
def execRelayLaneFail (p lane : Nat) (s : State) : Result State :=
  if s.frz.stopped then .next s
  else if !s.portAllowed p || decide (9 ≤ lane) || (s.port p).lanesFailed.contains lane then .next s
  else
    let s1 := (s.modPort p (fun x => { x with lanesFailed := setInsert lane x.lanesFailed })).bumpF 6 .rlyPortRetry_retrains p
    let n := (s1.port p).lanesFailed.length
    if 5 < n then .next (s1.portLost p)
    else if n = 1 then .next (((s1.modPort p (fun x => { x with spare := true })).portRegs p).raise 0x0A00 0 6 p)
    else if n = 2 then .next (((s1.modPort p (fun x => { x with half := true })).portRegs p).raise 0x0A00 1 6 p)
    else .next (s1.portRegs p)

/-- RELAY_PORT_SILENT: a port that has carried no valid flit for 10 µs retrains. -/
def execRelayPortSilent (p : Nat) (s : State) : Result State :=
  if s.frz.stopped then .next s
  else if !s.portUp p || decide (s.deviceTime < (s.port p).lastDt + 9000) then .next s
  else .next (((s.modPort p (fun x => { x with trained := false, silentFrom := some s.deviceTime, ident := false })).bumpF 6
    .rlyPortRetry_retrains p).portRegs p)

/-- RELAY_PORT_TRAIN_TIMEOUT: a port that has not trained within 1 ms is lost. -/
def execRelayPortTrainTimeout (p : Nat) (s : State) : Result State :=
  if s.frz.stopped then .next s else
  match (s.port p).silentFrom with
  | none => .next s
  | some t => if !s.portAllowed p || decide (s.deviceTime < t + 900000) then .next s else .next (s.portLost p)

end Sys2Proof.Machine
end

