-- ==== Sys2Proof/Machine/Scratchpad.lean ====
section
/-! DEFINITION. The scratchpads' remote ports and patrols, the patrol of the commons, and accesses to a die in restart
(R244–R246, R252, R475). -/

namespace Sys2Proof.Machine

open Sys2Proof

/-! ### The remote port (R245, R246) -/

/-- REMOTE_REQUEST: a request reaches the remote port of a scratchpad, which accepts one in a cycle and queues 32; a port under test refuses it
(R494), and a full queue leaves it with the mesh.  `addr` is the byte offset in the core's window (R234). -/
def execRemoteRequest (d c : Nat) (req : RemoteReq) (s : State) : Result State :=
  let n := match req.write with
    | some l => l.length
    | none => 64
  if s.nDies ≤ d ∨ 72 ≤ c ∨ 0x60000 ≤ req.addr then hostErr s 28
  else if 64 < req.addr % 64 + n then hostErr s 245
  else if !s.dieUp d || (s.unit d c).underTest || decide (32 ≤ (s.core d c).remote.length) || (s.core d c).acceptDt == some s.deviceTime then
    .next s
  else
    .next (s.modCore d c (fun x =>
      { x with remote := x.remote ++ [⟨req.addr, req.write, req.poison, s.deviceTime⟩], acceptDt := some s.deviceTime }))

/-- The hyperperiod entry of a core now: the count of arithmetic cycles since its task's first bundle, which runs on between tasks (R237,
R238). -/
def State.hyperEntry (s : State) (d c : Nat) : Nat := (s.deviceTime + 255 * (s.core d c).phase) % 256

/-- A task of the core has issued its first bundle and has not ended: its slot table governs the banks. -/
def State.tableRules (s : State) (d c : Nat) : Bool := (s.unit d c).running.isSome && (s.core d c).began

/-- Bank b of a core is IDLE in hyperperiod entry e. -/
def State.bankIdle (s : State) (d c e b : Nat) : Bool :=
  if s.tableRules d c then s.portCode d (s.prog d (s.core d c).program).table (e % 256) b == 0 else e % 256 != 255

/-- A write that is not whole codewords, aligned, takes two IDLE cycles (R246). -/
def RemoteItem.partWrite (r : RemoteItem) : Bool :=
  match r.write with
  | some l => r.addr % 16 != 0 || l.length % 16 != 0
  | none => false

/-- The bank of a request. -/
def RemoteItem.bank (r : RemoteItem) : Nat := bits r.addr 6 4

/-- A request is eligible: its bank is IDLE in this cycle, and in the next too where it takes two, and no part write still holds it. -/
def State.remoteReady (s : State) (d c : Nat) (r : RemoteItem) : Bool :=
  let e := s.hyperEntry d c
  s.bankIdle d c e r.bank && (!r.partWrite || s.bankIdle d c (e + 1) r.bank) &&
    decide (Map.get 0 (s.core d c).bankHold r.bank ≤ s.deviceTime)

/-- The request that is performed: the oldest eligible one of those with no older request to their bank (R245). -/
def State.nextRemote (s : State) (d c : Nat) : Option RemoteItem :=
  let q := (s.core d c).remote
  ((List.range q.length).map (fun i => (q.getD i ⟨0, none, 0, 0⟩, q.take i))).findSome? (fun p =>
    if p.2.all (fun r => r.bank != p.1.bank) && s.remoteReady d c p.1 then some p.1 else none)

/-- Perform a remote request: a write lands codeword by codeword with its marks and is answered after its array write, a read's answer carries
the marks of its codewords. -/
def State.remoteDo (s : State) (d c : Nat) (r : RemoteItem) : State :=
  let a := spdBase d c + r.addr
  let reply (t : State) (x : List Byte × BitVec 4) : State := { t with out := { t.out with remote := t.out.remote ++ [x] } }
  match r.write with
  | some l =>
    reply ((List.range 4).foldl (fun (t : State) k =>
      let lo := 16 * k - r.addr % 64
      let hi := 16 * (k + 1) - r.addr % 64
      t.write (a + lo) ((l.take hi).drop lo) (r.poison.getLsbD k)) s) ([], 0)
  | none =>
    let g := a - a % 64
    reply (s.countUpsets g 64) (s.bytesAt g 64, BitVec.ofNat 4 ((List.range 4).foldl (fun n k => n + bit (s.poisonAt (g + 16 * k)) * 2 ^ k) 0))

/-- REMOTE_ACCESS: the oldest eligible request is performed, one in a cycle; requests to one bank keep their order (R245). -/
def execRemoteAccess (d c : Nat) (s : State) : Result State :=
  if !s.dieUp d || (s.core d c).remoteDt == some s.deviceTime then .next s
  else match s.nextRemote d c with
  | none => .next s
  | some r =>
    let s1 := (s.remoteDo d c r).modCore d c (fun x =>
      { x with remote := x.remote.erase r, remoteDt := some s.deviceTime
               bankHold := Map.set 0 x.bankHold r.bank (s.deviceTime + 1 + bit r.partWrite) })
    .next ((s1.addFrame d .spdRemote_served 1024 1 c).maxFrame d .spdRemote_wait 1 (s.deviceTime - r.since) c)

/-! ### Patrols (R244, R252) -/

/-- The outcome that a codeword's check bits give a patrol: what they show wrong already, else what is found now. -/
def State.patrolSees (s : State) (a : Option Nat) (obs : Ecc) : Ecc :=
  match a with
  | none => obs
  | some a =>
    let m := Map.get 0 s.upsets (a / 16)
    if m = 0 then obs else if manyWrong m then .uncorrectable else .corrected (firstWrong m) false

/-- The patrol reads one codeword of a physical scratchpad row: a corrected row is to be written back, one corrected in the same symbol on two
passes running is queued for repair, and an uncorrectable codeword is rewritten with the poison pattern and its row queued.  A row that no
address reaches and no spare row replaces any more is not queued again. -/
def State.spdPatrolWord (s : State) (d c bank row cw : Nat) (obs : Ecc) : State :=
  let x := s.core d c
  let key := (row * 16 + bank) * 4 + cw
  let rows := Map.get [] x.spareRows bank
  let at_ := (servedRow rows 384 row).map (fun r => spdBase d c + r * 1024 + bank * 64 + cw * 16)
  let live := at_.isSome || (decide (384 ≤ row) && rows.getD (row - 384) spareFree == spareFree)
  let queue (y : Core) : List Nat := if live then setInsert (row * 16 + bank) y.repairQueue else y.repairQueue
  match s.patrolSees at_ obs with
  | .clean => s.modCore d c (fun y => { y with patrolSeen := Map.erase y.patrolSeen key })
  | .corrected sym _ =>
    let again := Map.get 0 x.patrolSeen key == sym + 1
    ((s.bumpF d .spdEcc_corrected c).latchSpd d c bank row cw sym 1).modCore d c (fun y =>
      { y with patrolFix := Map.put y.patrolFix bank row, patrolSeen := Map.set 0 y.patrolSeen key (sym + 1)
               repairQueue := if again then queue y else y.repairQueue })
  | .uncorrectable =>
    if at_.any (fun a => s.poison.contains (a / 16)) then s
    else
      let s1 := ((s.bumpF d .spdEcc_uncorrectable c).latchSpd d c bank row cw 0 3).modCore d c (fun y =>
        { y with repairQueue := queue y, patrolSeen := Map.erase y.patrolSeen key })
      match at_ with
      | some a => s1.setPoison a true
      | none => s1

/-- A row that the patrol has corrected is written back: its codewords with one symbol wrong are right again. -/
def State.scrubRow (s : State) (first : Nat) : State :=
  (List.range 4).foldl (fun (t : State) k =>
    if manyWrong (Map.get 0 t.upsets (first / 16 + k)) then t else { t with upsets := Map.set 0 t.upsets (first / 16 + k) 0 }) s

/-- The patrol skips the reading of a row: what it remembers of the row's corrections is not of the pass before any more. -/
def Core.unseen (x : Core) (bank row : Nat) : Core :=
  { x with patrolSeen := (List.range 4).foldl (fun m k => Map.erase m ((row * 16 + bank) * 4 + k)) x.patrolSeen }

/-- What the patrol's entry does in one bank: the write-back of the row it corrected there last, in place of the read, or the read. -/
def State.spdPatrolBank (s : State) (d c bank row : Nat) (fix : Option Nat) (obs : List Ecc) : State :=
  match fix with
  | some r =>
    let t := s.modCore d c (fun x => x.unseen bank row)
    match servedRow (Map.get [] (s.core d c).spareRows bank) 384 r with
    | some l => t.scrubRow (spdBase d c + l * 1024 + bank * 64)
    | none => t
  | none => (List.range 4).foldl (fun (t : State) k => t.spdPatrolWord d c bank row k (obs.getD (4 * bank + k) .clean)) s

/-- The patrol of the bundle and slot-table stores, which shares the entry (R294): codewords corrected are counted, uncorrectable ones too, and
their store is installed again (R319). -/
def State.storePatrol (s : State) (c : Nat) (d : Nat) (obs : List Ecc) : State :=
  obs.foldl (fun (t : State) e => match e with
    | .clean => t
    | .corrected _ _ => t.bumpF d .tagStoreErr_corrected c
    | .uncorrectable => t.bumpF d .tagStoreErr_uncorrectable c) s

/-- SPD_PATROL: in entry 255 of the hyperperiod one row of every bank is read, but for the banks that write back the row they corrected last, and
for those that a running task's slot table does not give to the patrol, as it must (R238, R244).  `obs` is what the decoders find: four
codewords a bank, then codewords of the stores. -/
def execSpdPatrol (d c : Nat) (obs : List Ecc) (s : State) : Result State :=
  let x := s.core d c
  if !s.dieUp d || (s.unit d c).retired || decide (72 ≤ c) || s.hyperEntry d c != 255 || x.patrolDt == some s.deviceTime then .next s
  else
    let given (b : Nat) : Bool := !s.tableRules d c || s.portCode d (s.prog d x.program).table 255 b == 0xA
    let s0 := s.modCore d c (fun y => { y with patrolFix := [], patrolRow := (x.patrolRow + 1) % 392, patrolDt := some s.deviceTime })
    let s1 := (List.range 16).foldl (fun (t : State) b =>
      if given b then t.spdPatrolBank d c b x.patrolRow ((x.patrolFix.find? (fun p => p.1 == b)).map (fun p => p.2)) obs else t) s0
    let s2 := (s1.storePatrol c d (obs.drop 64)).setF d .spdPatrol_next ((x.patrolRow + 1) % 392) c
    .next (if x.patrolRow = 391 then s2.bumpF d .spdPatrol_passes c else s2)

/-- The patrol reads one codeword of a physical commons row, as a scratchpad's patrol does. -/
def State.cmnPatrolWord (s : State) (d bank row cw : Nat) (obs : Ecc) : State :=
  let x := s.die d
  let key := (row * 64 + bank) * 4 + cw
  let rows := Map.get [] x.cmnRows bank
  let served := servedRow rows 8192 row
  let at_ := (served.filter (fun r => decide (r < 8188))).map (fun r => chipBase d + r * 4096 + bank * 64 + cw * 16)
  let live := served.isSome || (decide (8192 ≤ row) && rows.getD (row - 8192) spareFree == spareFree)
  let queue (y : Die) : List Nat := if live then setInsert (row * 64 + bank) y.cmnQueue else y.cmnQueue
  match s.patrolSees at_ obs with
  | .clean => s.modDie d (fun y => { y with cmnSeen := Map.erase y.cmnSeen key })
  | .corrected sym _ =>
    let again := Map.get 0 x.cmnSeen key == sym + 1
    ((s.bumpF d .cmnEcc_corrected).latchCmn d bank row cw sym 1).modDie d (fun y =>
      { y with cmnFix := Map.put y.cmnFix bank row, cmnSeen := Map.set 0 y.cmnSeen key (sym + 1)
               cmnQueue := if again then queue y else y.cmnQueue })
  | .uncorrectable =>
    if at_.any (fun a => s.poison.contains (a / 16)) then s
    else
      let s1 := ((s.bumpF d .cmnEcc_uncorrectable).latchCmn d bank row cw 0 3).modDie d (fun y =>
        { y with cmnQueue := queue y, cmnSeen := Map.erase y.cmnSeen key })
      match at_ with
      | some a => s1.setPoison a true
      | none => s1

/-- What a bank's reserved cycle does: the write-back of the row it corrected last, in place of the read, or the read. -/
def State.cmnPatrolBank (s : State) (d bank row : Nat) (obs : List Ecc) : State :=
  match (s.die d).cmnFix.find? (fun p => p.1 == bank) with
  | some (_, r) =>
    let t := s.modDie d (fun y => { y with
      cmnFix := Map.erase y.cmnFix bank
      cmnSeen := (List.range 4).foldl (fun m k => Map.erase m ((row * 64 + bank) * 4 + k)) y.cmnSeen })
    match servedRow (Map.get [] (s.die d).cmnRows bank) 8192 r with
    | some l => if l < 8188 then t.scrubRow (chipBase d + l * 4096 + bank * 64) else t
    | none => t
  | none => (List.range 4).foldl (fun (t : State) i => t.cmnPatrolWord d bank row i (obs.getD i .clean)) s

/-- CMN_PATROL: the cycle that a bank reserves in every 256 for its patrol, which reads its next row, or writes back the row it corrected last
(R252).  The rows behind the flag range are the flag unit's. -/
def execCmnPatrol (d bank : Nat) (obs : List Ecc) (s : State) : Result State :=
  let x := s.die d
  if !s.dieUp d || decide (64 ≤ bank) || decide (s.deviceTime < Map.get 0 x.cmnDt bank) then .next s
  else
    let row := Map.get 0 x.cmnRow bank
    let s1 := ((s.cmnPatrolBank d bank row obs).addFrame d .cmnLoad_busy 65536 1).modDie d (fun y =>
      { y with cmnRow := Map.set 0 y.cmnRow bank ((row + 1) % 8208)
               cmnDt := Map.set 0 y.cmnDt bank (s.deviceTime - s.deviceTime % 256 + 256) })
    let s2 := if bank = 63 then s1.setF d .cmnPatrol_next ((row + 1) % 8208) else s1
    .next (if bank = 63 ∧ row = 8207 then s2.bumpF d .cmnPatrol_passes else s2)

/-! ### Row repair (R252, R493, R503) -/

/-- What the repair of a physical row makes of a bank's `n` spare rows, which begin at row `base`: the row served and the spare row that now
serves it, if any, and the spare rows; none with no spare row left.  A spare row that is itself to be repaired is unusable. -/
def repairRows (rows : List Nat) (n base p : Nat) : Option (Option (Nat × Nat) × List Nat) :=
  match servedRow rows base p with
  | some r => (freeSpare rows n).map (fun j => (some (r, j), mapSpare rows r j))
  | none => some (none, if base ≤ p then setSpare rows (p - base) spareBad else rows)

/-- A row is copied to its spare row: symbols in error are corrected, and what cannot be corrected carries the poison pattern. -/
def State.copyRow (s : State) (first : Nat) : State :=
  (List.range 4).foldl (fun (t : State) k =>
    if manyWrong (Map.get 0 t.upsets (first / 16 + k)) then t.setPoison (first + 16 * k) true else t) (s.scrubRow first)

/-- Repair a physical row of a core: of its scratchpad in banks 0–15, which have 8 spare rows each, of its stores in banks from 64 on, which
have 2 (Table BST-5; log entry 80).  False with no spare row left. -/
def State.repairCoreRow (s : State) (d c bank p : Nat) : State × Bool :=
  let store := decide (64 ≤ bank)
  let rows := Map.get [] (s.core d c).spareRows bank
  match repairRows rows (if store then 2 else 8) (if store then 2 ^ 14 else 384) p with
  | none => (s, false)
  | some (done, rows') =>
    let s1 := s.modCore d c (fun x => { x with spareRows := Map.set [] x.spareRows bank rows' })
    match done with
    | none => (s1, true)
    | some (r, j) =>
      let s2 := s1.owesRecord d (repairRecord (if store then 4 else 1) d c (bank % 64 + r * 64) j)
      (if store then s2 else s2.copyRow (spdBase d c + r * 1024 + bank * 64), true)

/-- Repair a physical row of the commons, of whose banks each has 16 spare rows; the patrol copies it.  False with no spare row left. -/
def State.repairCmnRow (s : State) (d bank p : Nat) : State × Bool :=
  match repairRows (Map.get [] (s.die d).cmnRows bank) 16 8192 p with
  | none => (s, false)
  | some (done, rows') =>
    let s1 := (s.modDie d (fun x => { x with cmnRows := Map.set [] x.cmnRows bank rows' })).setF d .cmnSpare_used (spareUsed rows') 0 bank
    match done with
    | none => (s1, true)
    | some (r, j) =>
      let s2 := s1.owesRecord d (repairRecord 2 d 0 (bank + r * 64) j)
      (if r < 8188 then s2.copyRow (chipBase d + r * 4096 + bank * 64) else s2, true)

/-- A commons row that needs repair with no spare row left stays in use, which is a doubt (R252). -/
def State.cmnExhausted (s : State) (d bank : Nat) : State :=
  if s.getF d .cmnSpare_exhausted 0 bank = 1 then s else (s.setF d .cmnSpare_exhausted 1 0 bank).doubt dSPARES d s.frame

/-- Repair a row of the track table, which has 16 spare rows; a row holds one entry (log entry 80).  With none left its entry is free until the
next cold start (R493). -/
def State.repairTrackRow (s : State) (d e : Nat) : State :=
  let rows := Map.get [] (s.die d).cmnRows 64
  match repairRows rows 16 32768 e with
  | some (some (r, j), rows') =>
    (s.modDie d (fun x => { x with cmnRows := Map.set [] x.cmnRows 64 rows' })).owesRecord d (repairRecord 5 d 0 r j)
  | some (none, rows') => s.modDie d (fun x => { x with cmnRows := Map.set [] x.cmnRows 64 rows' })
  | none => s.modDie d (fun x => { x with trackBad := setInsert e x.trackBad })

/-! ### A die in restart (R475) -/

/-- The die that a module address lies on. -/
def State.addrDie (s : State) (a : Nat) : Option Nat :=
  match s.region a with
  | .dram d _ | .commons d _ | .flag d _ | .spd d _ _ => some d
  | _ => none

/-- RESTART_TAGGED_ACCESS: a die in restart discards a write and answers a read with poison and a restart tag.  An access elsewhere does not
come to this die, and a reserved address is the host's error (R28). -/
def execRestartTaggedAccess (d addr : Nat) (wr : Option (List Byte)) (s : State) : Result State :=
  if s.addrDie addr ≠ some d then
    match s.region addr with
    | .reserved => s.noPlace addr hostErr
    | _ => .next s
  else if (s.die d).restart.isNone then .next s
  else match wr with
    | some _ => .next s
    | none => .next { s with out := { s.out with remote := s.out.remote ++ [(s.read addr 64, 0xF)] } }

end Sys2Proof.Machine
end

