-- ==== Sys2Proof/Machine/Signature.lean ====
section
/-! DEFINITION. The signature schemes of the manifest and of sessions (R38, R538), SLH-DSA-SHA2-128s, and of attestation (R536, R540),
SLH-DSA-SHA2-128f: key derivation, signing and verification, pure, with an empty context string, as FIPS 205 defines them (PRESUMED: the
manual names the standard and gives no algorithm; log entry 28). -/

namespace Sys2Proof.Machine

open Sys2Proof

/-- What the two sets differ in: layers of trees and a tree's height; few-time trees, their height; the bytes of the digest that the
few-time trees, the tree's number and the leaf's number take. -/
structure SlhSet where
  layers : Nat
  height : Nat
  trees : Nat
  depth : Nat
  digestBytes : Nat
  treeBytes : Nat
  leafBytes : Nat
  deriving DecidableEq, Repr

/-- SLH-DSA-SHA2-128s: signatures of 7,856 bytes. -/
def SlhSet.small : SlhSet := ⟨7, 9, 14, 12, 21, 7, 2⟩

/-- SLH-DSA-SHA2-128f: signatures of 17,088 bytes. -/
def SlhSet.fast : SlhSet := ⟨22, 3, 33, 6, 25, 8, 1⟩

/-- The bytes of a signature's few-time part, of one layer's part, and of the whole. -/
def SlhSet.forestBytes (q : SlhSet) : Nat := 16 * q.trees * (q.depth + 1)
def SlhSet.layerBytes (q : SlhSet) : Nat := 16 * (35 + q.height)
def SlhSet.sigBytes (q : SlhSet) : Nat := 16 + q.forestBytes + q.layers * q.layerBytes

/-- Where a hash stands in the trees: layer, tree, use of the address, and its three last words. -/
structure SlhPlace where
  layer : Nat
  tree : Nat
  use : Nat
  pair : Nat
  level : Nat
  index : Nat
  deriving DecidableEq, Repr

/-- An address in its compressed form of 22 bytes. -/
def SlhPlace.bytes (x : SlhPlace) : List Byte :=
  toBE 1 x.layer ++ toBE 8 x.tree ++ toBE 1 x.use ++ toBE 4 x.pair ++ toBE 4 x.level ++ toBE 4 x.index

/-- The hash of bytes at a place under a public seed: the seed fills a block with zeros, and 16 bytes of the digest are kept. -/
def slhHash (seed : List Byte) (x : SlhPlace) (m : List Byte) : List Byte :=
  (sha256Bytes (seed ++ List.replicate 48 0 ++ x.bytes ++ m)).take 16

/-- Digit `i` of `b` bits of a byte string, from its most significant bit on. -/
def slhDigit (l : List Byte) (b i : Nat) : Nat := beNat l / 2 ^ (8 * l.length - b * (i + 1)) % 2 ^ b

/-- The 16-byte value number `i` of a signature's part. -/
def slhPart (sig : List Byte) (i : Nat) : List Byte := (sig.drop (16 * i)).take 16

/-! ### From a leaf to a root -/

/-- From a leaf to the root of its tree along the siblings of a path: a node's parity says on which side its sibling stands. -/
def slhClimb (seed : List Byte) (x : SlhPlace) (leaf : List Byte) (index : Nat) (path : List (List Byte)) : List Byte :=
  (path.zipIdx.foldl (fun (n : List Byte × Nat) p =>
    (slhHash seed { x with level := p.2 + 1, index := n.2 / 2 } (if n.2 % 2 = 0 then n.1 ++ p.1 else p.1 ++ n.1), n.2 / 2))
    (leaf, index)).1

/-- The nodes of a tree of `h` levels over its leaves, row by row from the leaves to the root; `base` is the first leaf's index. -/
def slhRows (seed : List Byte) (x : SlhPlace) (base h : Nat) (leaves : List (List Byte)) : List (List (List Byte)) :=
  (List.range h).foldl (fun (l : List (List (List Byte))) j =>
    let row := l.getLastD []
    l ++ [(List.range (row.length / 2)).map (fun i =>
      slhHash seed { x with level := j + 1, index := base / 2 ^ (j + 1) + i } (nth [] row (2 * i) ++ nth [] row (2 * i + 1)))]) [leaves]

/-- The siblings on the way from leaf `i` to the root. -/
def slhPath (rows : List (List (List Byte))) (i : Nat) : List (List Byte) :=
  rows.dropLast.zipIdx.map (fun p => nth [] p.1 (if i / 2 ^ p.2 % 2 = 0 then i / 2 ^ p.2 + 1 else i / 2 ^ p.2 - 1))

/-- The root of a tree from its rows. -/
def slhRoot (rows : List (List (List Byte))) : List Byte := (rows.getLastD []).flatten

/-! ### One-time keys -/

/-- The hash chain of one digit, from position `i` for `n` steps. -/
def slhChain (seed : List Byte) (x : SlhPlace) (v : List Byte) (i n : Nat) : List Byte :=
  (List.range n).foldl (fun v k => slhHash seed { x with index := i + k } v) v

/-- The 35 digits that a one-time key signs of a 16-byte value: 32 of 4 bits, and 3 of their checksum. -/
def slhDigits (m : List Byte) : List Nat :=
  let d := (List.range 32).map (slhDigit m 4)
  let sum := d.foldl (fun n v => n + (15 - v)) 0
  d ++ [sum / 256, sum / 16 % 16, sum % 16]

/-- The one-time key of a leaf from the ends of its 35 chains. -/
def slhKey (seed : List Byte) (x : SlhPlace) (leaf : Nat) (ends : List (List Byte)) : List Byte :=
  slhHash seed { x with use := 1, pair := leaf, level := 0, index := 0 } ends.flatten

/-- The start of chain `i` of a leaf: a secret value. -/
def slhStart (seed secret : List Byte) (x : SlhPlace) (leaf i : Nat) : List Byte :=
  slhHash seed { x with use := 5, pair := leaf, level := i, index := 0 } secret

/-- The one-time signature of a value by a leaf. -/
def slhOnce (seed secret : List Byte) (x : SlhPlace) (leaf : Nat) (m : List Byte) : List Byte :=
  ((slhDigits m).zipIdx.map (fun p =>
    slhChain seed { x with use := 0, pair := leaf, level := p.2 } (slhStart seed secret x leaf p.2) 0 p.1)).flatten

/-- The rows of a layer's tree. -/
def slhLayerRows (q : SlhSet) (seed secret : List Byte) (x : SlhPlace) : List (List (List Byte)) :=
  slhRows seed { x with use := 2, pair := 0 } 0 q.height ((List.range (2 ^ q.height)).map (fun leaf =>
    slhKey seed x leaf ((List.range 35).map (fun i =>
      slhChain seed { x with use := 0, pair := leaf, level := i } (slhStart seed secret x leaf i) 0 15))))

/-- The root of a tree of a layer, from a one-time signature of a value and the path of its leaf. -/
def slhLayer (q : SlhSet) (seed : List Byte) (x : SlhPlace) (leaf : Nat) (m sig : List Byte) : List Byte :=
  let ends := (slhDigits m).zipIdx.map (fun p =>
    slhChain seed { x with use := 0, pair := leaf, level := p.2 } (slhPart sig p.2) p.1 (15 - p.1))
  slhClimb seed { x with use := 2, pair := 0 } (slhKey seed x leaf ends) leaf ((List.range q.height).map (fun j => slhPart sig (35 + j)))

/-! ### Few-time trees -/

/-- The leaf that a secret value of the few-time trees makes. -/
def slhSeal (seed : List Byte) (x : SlhPlace) (index : Nat) (v : List Byte) : List Byte :=
  slhHash seed { x with use := 3, level := 0, index := index } v

/-- The few-time key from the roots of its trees. -/
def slhForestKey (seed : List Byte) (x : SlhPlace) (roots : List (List Byte)) : List Byte :=
  slhHash seed { x with use := 4, level := 0, index := 0 } roots.flatten

/-- The few-time key that a signature of a digest shows: of each tree a secret value and its path. -/
def slhForest (q : SlhSet) (seed : List Byte) (x : SlhPlace) (digest sig : List Byte) : List Byte :=
  slhForestKey seed x ((List.range q.trees).map (fun i =>
    let index := 2 ^ q.depth * i + slhDigit digest q.depth i
    slhClimb seed { x with use := 3 } (slhSeal seed x index (slhPart sig ((q.depth + 1) * i))) index
      ((List.range q.depth).map (fun j => slhPart sig ((q.depth + 1) * i + 1 + j)))))

/-- The few-time signature of a digest. -/
def slhForestSign (q : SlhSet) (seed secret : List Byte) (x : SlhPlace) (digest : List Byte) : List Byte :=
  ((List.range q.trees).map (fun i =>
    let value (k : Nat) : List Byte := slhHash seed { x with use := 6, level := 0, index := k } secret
    let base := 2 ^ q.depth * i
    let d := slhDigit digest q.depth i
    let rows := slhRows seed { x with use := 3 } base q.depth
      ((List.range (2 ^ q.depth)).map (fun k => slhSeal seed x (base + k) (value (base + k))))
    value (base + d) ++ (slhPath rows d).flatten)).flatten

/-! ### Digest, verification, signing -/

/-- The bytes of a message that has an empty context string. -/
def slhMessage (msg : List Byte) : List Byte := [0, 0] ++ msg

/-- The digest of a message: hashes of its inner hash, numbered. -/
def slhDigest (q : SlhSet) (r key m : List Byte) : List Byte :=
  let inner := r ++ key.take 16 ++ sha256Bytes (r ++ key ++ m)
  (sha256Bytes (inner ++ toBE 4 0) ++ sha256Bytes (inner ++ toBE 4 1)).take (q.digestBytes + q.treeBytes + q.leafBytes)

/-- The tree and the leaf that a digest names. -/
def slhNames (q : SlhSet) (d : List Byte) : Nat × Nat :=
  (beNat ((d.drop q.digestBytes).take q.treeBytes) % 2 ^ ((q.layers - 1) * q.height),
   beNat ((d.drop (q.digestBytes + q.treeBytes)).take q.leafBytes) % 2 ^ q.height)

/-- The leaf and the tree of layer `j`. -/
def slhUp (q : SlhSet) (tree leaf j : Nat) : Nat × SlhPlace :=
  (if j = 0 then leaf else tree / 2 ^ (q.height * (j - 1)) % 2 ^ q.height, ⟨j, tree / 2 ^ (q.height * j), 0, 0, 0, 0⟩)

/-- A signature verifies: public key of 32 bytes (seed and root), message, signature. -/
def SlhSet.verify (q : SlhSet) (key msg sig : List Byte) : Bool :=
  let seed := key.take 16
  let d := slhDigest q (slhPart sig 0) key (slhMessage msg)
  let (tree, leaf) := slhNames q d
  let node := slhForest q seed ⟨0, tree, 3, leaf, 0, 0⟩ (d.take q.digestBytes) ((sig.drop 16).take q.forestBytes)
  let top := (List.range q.layers).foldl (fun n j =>
    let (l, x) := slhUp q tree leaf j
    slhLayer q seed x l n ((sig.drop (16 + q.forestBytes + q.layerBytes * j)).take q.layerBytes)) node
  decide (key.length = 32 ∧ sig.length = q.sigBytes) && top == key.drop 16

/-- A signature of the manifest, of a session or of the loader verifies (R38, R538). -/
def slhVerify (key msg sig : List Byte) : Bool := SlhSet.small.verify key msg sig

/-- The public key that seeds derive. -/
def SlhSet.publicKey (q : SlhSet) (secret seed : List Byte) : List Byte :=
  seed ++ slhRoot (slhLayerRows q seed secret ⟨q.layers - 1, 0, 0, 0, 0, 0⟩)

/-- A keyed digest (HMAC-SHA-256) under a key of at most 64 bytes. -/
def hmac (key m : List Byte) : List Byte :=
  let pad (v : Byte) : List Byte := (key ++ List.replicate (64 - key.length) 0).map (fun b => b ^^^ v)
  sha256Bytes (pad 0x5C ++ sha256Bytes (pad 0x36 ++ m))

/-- The signature of a message under the key of three seeds, with the 16 random bytes that the standard lets the signer take. -/
def SlhSet.sign (q : SlhSet) (secret prf seed random msg : List Byte) : List Byte :=
  let m := slhMessage msg
  let r := (hmac prf (random ++ m)).take 16
  let d := slhDigest q r (q.publicKey secret seed) m
  let (tree, leaf) := slhNames q d
  let place : SlhPlace := ⟨0, tree, 3, leaf, 0, 0⟩
  let forest := slhForestSign q seed secret place (d.take q.digestBytes)
  let node := slhForest q seed place (d.take q.digestBytes) forest
  (((List.range q.layers).foldl (fun (n : List Byte × List Byte) j =>
    let (l, x) := slhUp q tree leaf j
    let rows := slhLayerRows q seed secret x
    (n.1 ++ slhOnce seed secret x l n.2 ++ (slhPath rows l).flatten, slhRoot rows)) (r ++ forest, node))).1

end Sys2Proof.Machine
end

