-- ==== Sys2Proof/Machine/Seal.lean ====
section
/-! DEFINITION. AES-256-GCM, under which the security block seals the MACsec key record (R542; FIPS 197, NIST SP 800-38D). -/

namespace Sys2Proof.Machine

open Sys2Proof

/-! ### The block cipher, on sixteen bytes as numbers, column after column -/

/-- The cipher's substitution, 64 bytes to a number. -/
def sealBox : List Nat :=
  [0x75B227EBE28012079A059618C323C7041531D871F1E5A534CCF73F362693FDB7C072A49CAFA2D4ADF04759FA7DC982CA76ABD7FE2B670130C56F6BF27B777C63,
   0xD2F3FF1021DAB6BCF5389D928F40A351A89F3C507F02F94585334D43FBAAEFD0CF584C4A39BECB6A5BB1FC20ED00D153842FE329B3D63B52A05A6E1B1A2C8309,
   0x08AE7A65EAF4566CA94ED58D6D37C8E779E4959162ACD3C25C2406490A3A32E0DB0B5EDE14B8EE4688902A22DC4F816073195D643D7EA7C41744975FEC130CCD,
   0x16BB54B00F2D99416842E6BF0D89A18CDF2855CEE9871E9B948ED9691198F8E19E1DC186B95735610EF6034866B53E708A8BBD4B1F74DDE8C6B4A61C2E2578BA]

/-- A byte substituted. -/
def sealSub (a : Nat) : Nat := nth 0 sealBox (a / 64) >>> (8 * (a % 64)) % 256

/-- Twice a byte in the cipher's field. -/
def sealTwice (a : Nat) : Nat := if a < 128 then 2 * a else (2 * a) ^^^ 0x11B

/-- Two lists of bytes added. -/
def sealAdd (a b : List Nat) : List Nat := List.zipWith (fun x y => x ^^^ y) a b

/-- The key's words, newest first, with `n` more of them: word `k` is word `k - 8` plus the word before it, which every eighth time is rotated,
substituted and marked with a power of two, and half-way between substituted. -/
def sealWords : Nat → List (List Nat) → Nat → List (List Nat)
  | 0, l, _ => l
  | n + 1, l, mark =>
    let last := nth [] l 0
    let k := l.length
    let w := if k % 8 = 0 then sealAdd ((last.drop 1 ++ last.take 1).map sealSub) [mark, 0, 0, 0]
      else if k % 8 = 4 then last.map sealSub else last
    sealWords n (sealAdd (nth [] l 7) w :: l) (if k % 8 = 0 then sealTwice mark else mark)

/-- The fifteen round keys of a 32-byte key. -/
def sealKeys (key : List Nat) : List (List Nat) :=
  let first := (List.range 8).map (fun i => (key.drop (4 * i)).take 4)
  let all := (sealWords 52 first.reverse 1).reverse
  (List.range 15).map (fun r => ((all.drop (4 * r)).take 4).flatten)

/-- The bytes substituted and row `r` turned by `r` columns. -/
def sealShift (b : List Nat) : List Nat :=
  (List.range 16).map (fun i => sealSub (nth 0 b ((i + 4 * (i % 4)) % 16)))

/-- Each column mixed. -/
def sealMix (b : List Nat) : List Nat :=
  (List.range 16).map (fun i =>
    let x (k : Nat) : Nat := nth 0 b (i / 4 * 4 + (i + k) % 4)
    sealTwice (x 0 ^^^ x 1) ^^^ x 1 ^^^ x 2 ^^^ x 3)

/-- One block under the round keys. -/
def sealBlock (keys : List (List Nat)) (b : List Nat) : List Nat :=
  let mid := ((keys.drop 1).take 13).foldl (fun x k => sealAdd (sealMix (sealShift x)) k) (sealAdd b (nth [] keys 0))
  sealAdd (sealShift mid) (nth [] keys 14)

/-! ### Counter mode and the tag -/

/-- Bytes as one number, the first highest. -/
def highFirst (l : List Nat) : Nat := l.foldl (fun n x => n * 256 + x) 0

/-- A number as `n` bytes, the highest first. -/
def lowLast (n v : Nat) : List Nat := (List.range n).map (fun i => v / 256 ^ (n - 1 - i) % 256)

/-- A product in the tag's field, whose numbers count their bits from the highest. -/
def tagTimes (x y : Nat) : Nat :=
  ((List.range 128).foldl (fun (p : Nat × Nat) i =>
    (if testBit x (127 - i) then p.1 ^^^ p.2 else p.1, if p.2 % 2 = 1 then p.2 / 2 ^^^ (0xE1 * 2 ^ 120) else p.2 / 2)) (0, y)).1

/-- The 16-byte blocks of a text, the last filled with zeros. -/
def tagBlocks (l : List Nat) : List Nat :=
  (List.range ((l.length + 15) / 16)).map (fun i =>
    let b := (l.drop (16 * i)).take 16
    highFirst (b ++ List.replicate (16 - b.length) 0))

/-- The block of a counter under a 12-byte nonce. -/
def counterBlock (keys : List (List Nat)) (nonce : List Nat) (c : Nat) : List Nat := sealBlock keys (nonce ++ lowLast 4 c)

/-- The tag of a cipher text with no further data. -/
def sealTag (keys : List (List Nat)) (nonce text : List Nat) : List Nat :=
  let h := highFirst (sealBlock keys (List.replicate 16 0))
  let sum := (tagBlocks text ++ [8 * text.length]).foldl (fun a b => tagTimes (a ^^^ b) h) 0
  sealAdd (lowLast 16 sum) (counterBlock keys nonce 1)

/-- A text run through the counter's key stream. -/
def sealStream (keys : List (List Nat)) (nonce text : List Nat) : List Nat :=
  ((List.range ((text.length + 15) / 16)).map (fun i =>
    sealAdd ((text.drop (16 * i)).take 16) (counterBlock keys nonce (i + 2)))).flatten

/-- A text sealed: the cipher text and its 16-byte tag. -/
def sealed (key nonce text : List Byte) : List Byte :=
  let n (l : List Byte) : List Nat := l.map (fun b => b.toNat)
  let keys := sealKeys (n key)
  let c := sealStream keys (n nonce) (n text)
  (c ++ sealTag keys (n nonce) c).map (fun x => BitVec.ofNat 8 x)

/-- What a sealed text says, where its tag authenticates it. -/
def unsealed (key nonce text : List Byte) : Option (List Byte) :=
  let n (l : List Byte) : List Nat := l.map (fun b => b.toNat)
  let keys := sealKeys (n key)
  let c := (n text).take (text.length - 16)
  if 16 ≤ text.length ∧ sealTag keys (n nonce) c = (n text).drop (text.length - 16) then
    some ((sealStream keys (n nonce) c).map (fun x => BitVec.ofNat 8 x))
  else none

end Sys2Proof.Machine
end

