-- ==== Sys2Proof/Machine/Boot.lean ====
section
/-! DEFINITION. A cold start from power-good to running firmware (chapter 02): the reset of dies 0–6, the Caddy's checks, slots and
sections, repair records, the numbering and epoch records, the Cosy's part, and the links. -/

namespace Sys2Proof.Machine

open Sys2Proof

/-! ### The reset of dies 0–6 (R44, R61, R562) -/

/-- Word `i` of a 256-bit value. -/
def hashWord (h : Hash) (i : Nat) : Nat := h.toNat / 2 ^ (32 * i) % 2 ^ 32

/-- A hash as its 32 bytes. -/
def Hash.bytes (h : Hash) : List Byte := toLE 32 h.toNat

/-- What SEC_STATUS and SEC_AUTH show (R546). -/
def State.secRegs (s : State) : State :=
  let x := s.sec
  let b (s : State) (f : Fld) (v : Nat) : State := s.setF 6 f v
  let role := match x.session with
    | some y => y.role
    | none => 0
  let s1 := b (b (b (b (b s .secStatus_lifecycle x.lifecycle) .secStatus_unlocked (bit x.unlocked)) .secStatus_scope x.scope)
    .secStatus_session (bit x.session.isSome)) .secStatus_role role
  let s2 := b (b (b (b (b s1 .secStatus_otp_ok (bit x.otpOk)) .secStatus_kat_ok (bit x.katOk)) .secStatus_trng_ok (bit x.trngOk))
    .secStatus_sealed_ok (bit x.sealedOk)) .secStatus_attest_busy (bit x.attest.isSome)
  b s2 .secAuth_lockout (match x.lockout with
    | some t => cap 65535 ((t - s.deviceTime + 899999999) / 900000000)
    | none => 0)

/-- The ID registers, and those read from OTP, as every start finds them (R34, R536, R546). -/
def State.idAndOtp (s : State) : State :=
  let s0 := { s with regs := ((List.range s.nDies).map idRegs).flatten ++ idRegs 6 }
  let n := s.nDies
  let s1 := ((List.range n) ++ [6]).foldl (fun (s : State) d =>
    let s1 := (s.setF d .idModule_part n).setF d .idModule_cdies n
    (List.range 4).foldl (fun (s : State) i => s.setF d .idSerial_serial (s.sec.serial.toNat / 2 ^ (32 * i) % 2 ^ 32) i) s1) s0
  let s2 := (List.range 8).foldl (fun (s : State) i =>
    (s.setF 6 .secVkey_hash (hashWord s.sec.vkey i) i).setF 6 .secIkey_hash (hashWord s.sec.ikey i) i) s1
  (s2.setF 6 .bootImage_otp_counter s.sec.counter).secRegs

/-- Dies 0–6 in reset: everything they hold is lost but OTP and flash; the Cosy, its mailbox, the outside world's record and the
queue stay (R61, Table CDY-8a).  The epoch and the numbers are restored from flash at step 5. -/
def State.mainReset (s : State) (requested : Bool) : State :=
  let r := State.reset
  let s1 : State := { r with
    pending := s.pending
    m2 := s.m2
    mem := s.mem.filter (fun (p : Nat × Byte) => match s.region p.1 with
      | .mailbox _ => true
      | _ => false)
    flash := { s.flash with writing := none }
    boot := Boot.fresh requested
    cosy := s.cosy
    recorder := { r.recorder with boot := s.bootCount, logRegion := s.recorder.logRegion }
    sec := { s.sec with session := none, failed := 0, lockout := none, attest := none, unlocked := false, scope := 0
                        otpOk := true, katOk := true, trngOk := true, sealedOk := false, keys := none
                        loaderHash := 0 }
    pwr := { r.pwr with contact := s.pwr.contact, inrush := s.pwr.inrush, good := s.pwr.good, resetN := s.pwr.resetN
                        present := s.pwr.present, cut := s.pwr.cut, hot := s.pwr.hot, safeToRemove := s.pwr.safeToRemove }
    out := s.out
    freeCtr := s.freeCtr }
  (s1.idAndOtp.setF 6 .hswStatus_slot_id (s.getF 6 .hswStatus_slot_id)).setF 6 .hswStatus_inrush_ms (s.getF 6 .hswStatus_inrush_ms)

/-- The cold-start count goes up (R530). -/
def Flash.counted (f : Flash) : Flash := { f with boot := f.boot.write (f.boot.now.getD 0 + 1) }

/-- Step 1 of Table CDY-7: a cold start begins; the cold-start count goes up (R44, R530), and SLOT_ID is as sampled (R564). -/
def State.coldBegin (s : State) (requested : Bool) : State :=
  let slot := s.getF 6 .hswStatus_slot_id
  let s0 := (s.mainReset requested).flashWrite 4 Flash.counted
  let s1 := { s0 with recorder := { s0.recorder with boot := s0.bootCount } }
  let s2 := { s1 with boot := { s1.boot with step := 1 } }
  let s3 := ((List.range s2.nDies) ++ [6]).foldl (fun (s : State) d => s.setF d .idModule_slot_id slot) s2
  ((s3.setF 6 .hswStatus_slot_id slot).setF 6 .evrBoot_boot s3.bootCount).setF 6 .bootRestart_requested (bit requested)

/-- POWER_GOOD: the hub's rails are in regulation and its reference runs: a cold start begins (R44, R559, R564).  The time from blade
contact is not kept (log entry 29): the register takes a free value. -/
def execPowerGood (slotId : BitVec 4) (s : State) : Result State :=
  if !s.pwr.inrush || s.pwr.good || s.pwr.cut || !s.pwr.resetN then .next s
  else
    let (ms, s1) := s.free
    let s2 := { s1 with pwr := { s1.pwr with good := true, safeToRemove := false } }.setF 6 .hswStatus_slot_id slotId.toNat
    .next ((s2.coldBegin false).setF 6 .hswStatus_inrush_ms ms)

/-- What the security block derives from the device secret under a label (R536): a SCRAPPED module's block refuses every use (R535). -/
def State.derived (s : State) (label : List Byte) : Option (List Byte) :=
  if s.sec.lifecycle = 2 then none else some (sha256Bytes (toLE 32 s.sec.secret.toNat ++ label))

/-- ASCII text as bytes. -/
def ascii (t : String) : List Byte := t.toList.map (fun c => BitVec.ofNat 8 c.toNat)

/-- The attestation key's three seeds, SK.seed, SK.prf and PK.seed, one behind the other (R536). -/
def State.attestSeeds (s : State) : Option (List Byte) := do
  let a ← s.derived (ascii "ILK2-ATT" ++ [1])
  let b ← s.derived (ascii "ILK2-ATT" ++ [2])
  pure ((a ++ b).take 48)

/-- The attestation public key, 32 bytes; zero where the device secret may not be used (R535, R536; log entry 28). -/
def State.attestKey (s : State) : List Byte :=
  match s.attestSeeds with
  | some k => SlhSet.fast.publicKey (k.take 16) (k.drop 32)
  | none => List.replicate 32 0

/-- The attestation signature of a report's body, with the signer's random bytes; zero of a SCRAPPED module (R535, R540). -/
def State.attestSign (s : State) (random body : List Byte) : List Byte :=
  match s.attestSeeds with
  | some k => SlhSet.fast.sign (k.take 16) ((k.drop 16).take 16) (k.drop 32) random body
  | none => List.replicate 17088 0

/-- ROOT_PLL_LOCK: both root PLLs are locked, the boot ROM starts, and the attestation key is derived (R44, R536, R554). -/
def execRootPllLock (s : State) : Result State :=
  if s.boot.step ≠ 1 then .next s
  else
    let key := s.attestKey
    let s1 := ((s.setF 6 .clkStatus_main_lock 1).setF 6 .clkStatus_spare_lock 1)
    let s2 := (List.range 8).foldl (fun (s : State) i => s.setF 6 .secAttPub_key (leNat ((key.drop (4 * i)).take 4)) i) s1
    .next { s2 with boot := { s2.boot with step := 2 } }

/-! ### Step 3: the hub's self-test and the Cosy's result (R46, R47, R493) -/

/-- A self-test of step 3 has failed: the module stays in reset with FAULT_N asserted, and no slot is tried, until the next cold start
(R46). -/
def State.startHeld (s : State) : State := ({ s with boot := { s.boot with failed := true } }).fault true

/-- Step 3 is done once the hub has passed and the Cosy's result is in or no longer waited for (R46, R47). -/
def State.step3 (s : State) : State :=
  if s.boot.step = 2 ∧ s.boot.failed = false ∧ s.boot.hubPass = true ∧
      ((s.cosyView.reported = true ∧ s.cosyView.selfTestPass = true) ∨ s.boot.waited = true) then
    { s with boot := { s.boot with
        step := 3, check9 := !s.boot.waited, cosyLost := s.boot.cosyLost || s.boot.waited || !s.cosyView.linkUp } }
  else s

/-- A hub record waits to be written (R504). -/
def State.hubOwes (s : State) (kind unit : Nat) : State :=
  { s with ingress := { s.ingress with repairDue := s.ingress.repairDue ++ [repairRecord kind 6 unit 0 0] } }

/-- An ISP pipe is retired (R507): BIST_RETIRED_0 of die 6. -/
def State.pipeOff (s : State) (k : Nat) : State :=
  if s.ingress.retired.contains k then s
  else
    let s1 := { s with ingress := { s.ingress with retired := setInsert k s.ingress.retired } }
    s1.setF 6 .bistRetired0_units (s1.ingress.retired.foldl (fun n p => n + 2 ^ p) 0)

/-- HUB_SELFTEST_DONE: the hub's self-test ends with the hub domains of Table PWR-5 that it found bad.  A bad always-on core, TSN
switch or flash host, or both host ports, hold the module in reset; any other domain is off and recorded (R46, R493). -/
def execHubSelftestDone (bad : List Nat) (s : State) : Result State :=
  if s.boot.step ≠ 2 ∨ s.boot.failed = true ∨ s.boot.hubPass = true then .next s
  else if bad.contains 16 || bad.contains 17 || bad.contains 19 || (bad.contains 13 && bad.contains 14) then .next s.startHeld
  else
    let s1 := bad.foldl (fun (s : State) n =>
      if n < 5 then (s.pipeOff n).hubOwes 6 n
      else if n < 20 then { s with pwr := { s.pwr with hubOff := setInsert n s.pwr.hubOff } }.hubOwes 7 n
      else s) s
    .next ({ s1 with boot := { s1.boot with hubPass := true } }).step3

/-- A report of the Cosy: by step 3 it counts for the start, and a failed self-test holds the module in reset; later it is recorded,
and an identity other than COSYLINK's raises SECURITY once that section is in use (R46, R47, R56). -/
def State.cosyReport (s : State) : State :=
  let v := s.cosyView
  let inTime := decide (s.boot.step ≤ 2) && !s.boot.waited
  let s1 := { s with cosyView := { v with
    reported := true, selfTestPass := s.cosy.selfTest, ident := s.cosy.ident, late := !inTime && (v.late || !v.reported) } }
  if inTime then (if s.cosy.selfTest then s1.step3 else s1.startHeld)
  else if s1.cosyView.late && decide (8 ≤ s.boot.step) && s.cosy.ident != Hash.ofBytes (s.cadBytes secCOSYLINK 8 32) then
    s1.doubt dSECURITY 6 s1.frame
  else s1

/-- COSY_LINK_TRAIN: the Cosy link trains, and the Cosy reports its result and identity over it again (R56). -/
def execCosyLinkTrain (s : State) : Result State :=
  if s.frz.stopped then .next s
  else if !s.cosy.powered || s.boot.step = 0 || s.cosyView.linkUp then .next s
  else .next ({ s.setLink .cosy .full with cosyView := { s.cosyView with linkUp := true } }).cosyReport

/-- COSY_SELFTEST_REPORT: the Cosy's result and identity reach the hub over the Cosy link (R47). -/
def execCosySelftestReport (s : State) : Result State :=
  if s.frz.stopped then .next s
  else if !s.cosy.powered || !s.cosyView.linkUp || s.boot.step = 0 then .next s else .next s.cosyReport

/-- COSY_RESULT_TIMEOUT: 150 ms have passed without the Cosy's result, and the hub goes on without it (R47). -/
def execCosyResultTimeout (s : State) : Result State :=
  if 1 ≤ s.boot.step ∧ s.boot.step ≤ 2 ∧ s.cosyView.reported = false ∧ s.boot.waited = false ∧ 135000000 ≤ s.deviceTime then
    .next ({ s with boot := { s.boot with waited := true } }).step3
  else .next s

/-- The first-stage loader's vendor signature verifies under a key whose hash is the vendor's in OTP (R44, Table SEC-1).  Where key and
signature stand in the xSPI NOR is not given (log entry 38). -/
def State.loaderGood (s : State) : Bool :=
  let key := mapBytes s.flash.loader Config.loaderKeyAt 32
  sha256 key == s.sec.vkey &&
    slhVerify key (mapBytes s.flash.loader 0 Config.loaderSize) (mapBytes s.flash.loader Config.loaderSignatureAt 7856)

/-- LOADER_RUNNING: the first-stage loader is read and, its vendor signature verified, runs (R44).  A loader that does not verify never runs,
and the start goes no further (log entry 38). -/
def execLoaderRunning (s : State) : Result State :=
  if s.boot.step ≠ 3 ∨ s.loaderGood = false then .next s
  else .next ({ s with
    boot := { s.boot with step := 4 }
    sec := { s.sec with loaderHash := sha256 (mapBytes s.flash.loader 0 Config.loaderSize) } }.setF 6 .bootStatus_phase 1)

/-! ### The manifest (R36–R41) -/

/-- A slot's bytes in flash: A or B. -/
def State.slotBytes (s : State) (b : Bool) : Map Byte := if b then s.flash.slotB else s.flash.slotA

/-- A little-endian field of an image. -/
def imgN (m : Map Byte) (off n : Nat) : Nat := leNat (mapBytes m off n)

/-- A section table entry (Table CDY-4). -/
structure SecEntry where
  kind : Nat
  flags : Nat
  offset : Nat
  length : Nat
  load : Nat
  hash : Hash
  deriving DecidableEq, Repr

/-- Entry `i` of a section table that stands at `base` in a byte map. -/
def secEntry (m : Map Byte) (base i : Nat) : SecEntry :=
  let o := base + 0x100 + 64 * i
  ⟨imgN m o 1, imgN m (o + 1) 1, imgN m (o + 8) 8, imgN m (o + 16) 8, imgN m (o + 24) 8, Hash.ofBytes (mapBytes m (o + 32) 32)⟩

/-- The kinds in the table's order (Table CDY-5). -/
def secOrder : List Nat := [1, 8, 10, 9, 11, 5, 7, 6, 2, 3, 4]

/-- The reload region's size: the ten sections other than WEIGHTS, rounded up to 2 MiB (R48). -/
def reloadSize (l : List SecEntry) : Nat :=
  ((l.filter (fun e => e.kind != secWEIGHTS)).foldl (fun (n : Nat) (e : SecEntry) => n + e.length) 0 + (2 ^ 21 - 1)) / 2 ^ 21 * 2 ^ 21

/-- Check 7 of R41: R39, R40 and image_length.  That gaps between sections are zero is not a matter of the table (log entry 30). -/
def tableOk (m : Map Byte) : Bool :=
  let l := (List.range 11).map (secEntry m 0)
  let small := (l.filter (fun e => e.kind != secWEIGHTS)).foldl (fun (n : Nat) (e : SecEntry) => n + e.length) 0
  let ends := l.map (fun e => e.offset + e.length)
  let imageLength := imgN m 0x10 8
  l.map (fun e => e.kind) == secOrder &&
  l.all (fun e => e.flags == bit (e.kind == secFW) && decide (e.offset % 4096 = 0 ∧ 0x8000 ≤ e.offset ∧ 1 ≤ e.length) &&
    (if e.kind = secWEIGHTS then decide (e.load % 2 ^ 21 = 0) else e.load == 0)) &&
  (List.zip ends (l.drop 1)).all (fun p => decide (p.1 ≤ p.2.offset)) &&
  (mapBytes m (0x100 + 64 * 11) (64 * 5)).all (fun b => b == 0) &&
  decide (small ≤ 160 * 2 ^ 20) &&
  l.all (fun e => e.kind != secWEIGHTS || decide (e.load + e.length + reloadSize l ≤ 0x1C00000000)) &&
  decide (imageLength ≤ 2 ^ 37) && ends.all (fun n => decide (n ≤ imageLength))

/-- Checks 3–6 of R41 in order on a manifest, against key hashes and a rollback counter of OTP: the failure cause, 0 if all pass. -/
def signedCause (ikey vkey : Hash) (counter : Nat) (m : Map Byte) : Nat :=
  if sha256 (mapBytes m 0x20 32) ≠ ikey then 4
  else if sha256 (mapBytes m 0x40 32) ≠ vkey then 5
  else if slhVerify (mapBytes m 0x20 32) (mapBytes m 0 0x2400) (mapBytes m 0x2400 7856) = false then 6
  else if slhVerify (mapBytes m 0x40 32) (mapBytes m 0x100 64) (mapBytes m 0x500 7856) = false then 7
  else if imgN m 9 1 < counter ∨ 64 < imgN m 9 1 then 8
  else 0

/-- Checks 1–7 of R41 in order: the failure cause of Table CDY-6, 0 if all pass.  A MANUFACTURED module has no integrator key (R535). -/
def State.manifestCause (s : State) (m : Map Byte) : Nat :=
  let part := imgN m 8 1
  let signed := signedCause s.sec.ikey s.sec.vkey s.sec.counter m
  if imgN m 0 4 ≠ 0x43445932 ∨ imgN m 4 2 ≠ 1 ∨ imgN m 6 2 ≠ 0x100 ∨ imgN m 0xA 1 ≠ 11 then 2
  else if testBit part (bit s.m2) = false then 3
  else if s.sec.lifecycle = 0 then 4
  else if signed ≠ 0 then signed
  else if tableOk m = false then 9
  else 0

/-- A section's hash matches its entry (check 8 of R41). -/
def sectionMatches (m : Map Byte) (e : SecEntry) : Bool := sha256 (mapBytes m e.offset e.length) == e.hash

/-! ### Slots (R51, R52) -/

/-- What BOOT_SLOT shows of the slot record. -/
def State.slotRegs (s : State) : State :=
  let r := s.slotRecord
  (((s.setF 6 .bootSlot_active (bit r.active)).setF 6 .bootSlot_pending (bit r.pending.isSome)).setF 6 .bootSlot_pending_slot
    (bit (r.pending == some true))).setF 6 .bootSlot_record_seq (s.flash.record.seqNo.toNat % 65536)

/-- Write a new slot record over the copy that does not govern (R51). -/
def State.setRecord (s : State) (active : Bool) (pending : Option Bool) : State :=
  (s.flashWrite 0 (fun f => { f with record := f.record.write ⟨active, pending⟩ })).slotRegs

/-- A slot fails: its cause, the event, and a pending mark of it cleared (R41, R52). -/
def State.slotFails (s : State) (b : Bool) (cause : Nat) : State :=
  let s1 := ((s.setF 6 (if b then .bootStatus_fail_b else .bootStatus_fail_a) cause).setF 6 .bootStatus_sections 0).raise 0x0102
    cause 6 (bit b)
  let s2 := { s1 with caddy := [], boot := { s1.boot with hashed := 0, trial := false, step := 5 } }.setF 6 .bootStatus_trial 0
  if s.slotRecord.pending = some b then s2.setRecord s2.slotRecord.active none else s2

/-- The holding state: the C-dies in reset, FAULT_N, the loader serving the maintenance port (R46). -/
def State.hold (s : State) : State :=
  ({ s with boot := { s.boot with holding := true }
            dies := s.dies.map (fun (x : Die) => { x with inReset := true }) }.setF 6 .bootStatus_phase 6).fault true

/-- Copy `n` bytes from one sparse map into another. -/
def mapCopy (src : Map Byte) (off n : Nat) (dst : Map Byte) (pos : Nat) : Map Byte :=
  let moved := (src.filter (fun (p : Nat × Byte) => decide (off ≤ p.1 ∧ p.1 < off + n))).map (fun p => (p.1 - off + pos, p.2))
  let rest := Map.clearRange pos (pos + n) dst
  rest.takeWhile (fun p => decide (p.1 < pos)) ++ moved ++ rest.dropWhile (fun p => decide (p.1 < pos))

/-- Try the slots of a list in turn: the first whose manifest passes goes on to streaming; with none, the holding state (R41, R46,
R52). -/
def State.trySlots : List Bool → State → State
  | [], s => s.hold
  | b :: l, s =>
    let m := s.slotBytes b
    let s1 := ({ s with boot := { s.boot with slot := b, trial := decide (s.slotRecord.pending = some b)
                                              tried := s.boot.tried ++ [b] } }.setF 6 .bootStatus_phase 2).setF 6 .bootStatus_slot (bit b)
    let s2 := s1.setF 6 .bootStatus_trial (bit s1.boot.trial)
    let cause := if s.boot.unreadable.contains b then 1 else s.manifestCause m
    if cause = 0 then
      { s2 with caddy := mapCopy m 0 0x8000 [] (cadKey 0 0), boot := { s2.boot with step := 6, hashed := 0 } }.setF 6
        .bootStatus_phase 3
    else State.trySlots l (s2.slotFails b cause)

/-- What is left to try after the slots tried so far. -/
def State.slotsLeft (s : State) : List Bool :=
  let first := s.slotRecord.pending.getD s.slotRecord.active
  [first, !first].filter (fun b => !s.boot.tried.contains b)

/-! ### Records read at step 5 (R62, R504, R542) -/

/-- Apply one repair record; false for one whose CRC fails or that is for a die not fitted (R504, Table BST-4). -/
def State.applyRepair (s : State) (r : List Byte) : State × Bool :=
  let f (o n : Nat) : Nat := leNat ((r.drop o).take n)
  let kind := f 0 1
  let die := f 1 1
  let unit := f 2 2
  let target := f 4 4
  let repl := f 8 4
  let bank := target % 64
  let spare (m : Map (List Nat)) (b : Nat) : Map (List Nat) := Map.set [] m b (mapSpare (Map.get [] m b) (target / 64 % 2 ^ 14) repl)
  if f 12 4 ≠ (crc32c (r.take 12)).toNat ∨ (s.nDies ≤ die ∧ die ≠ 6) then (s, false)
  else
    match kind with
    | 1 => (s.modCore die unit (fun c => { c with spareRows := spare c.spareRows bank }), true)
    | 2 => (s.modDie die (fun x => { x with cmnRows := spare x.cmnRows bank }), true)
    | 3 =>
      let old := (s.ctl die unit).slice target
      (s.modCtl die unit (fun c => { c with
        remap := Map.put c.remap target repl, unusable := if slicesMain ≤ old then setInsert old c.unusable else c.unusable }), true)
    | 4 => (s.modCore die unit (fun c => { c with spareRows := spare c.spareRows (64 + bank) }), true)
    | 5 => (s.modDie die (fun x => { x with cmnRows := Map.set [] x.cmnRows 64 (mapSpare (Map.get [] x.cmnRows 64) (target % 2 ^ 20) repl) }), true)
    | 6 =>
      if die = 6 then (s.pipeOff unit, true)
      else ((s.modUnit die unit (fun x => { x with retired := true })).retiredBit die unit, true)
    | 7 => ({ s with pwr := { s.pwr with hubOff := setInsert unit s.pwr.hubOff } }, true)
    | _ => (s, false)

/-- Apply the repair log in order; BIST_REPAIRS counts the records applied on each die. -/
def State.applyRepairs (s : State) : State :=
  s.flash.repairs.foldl (fun (s : State) r =>
    let (s1, ok) := s.applyRepair r
    if ok then s1.bumpF (leNat ((r.drop 1).take 1)) .bistRepairs_applied else s1) s

/-- The later of two epochs, in serial order. -/
def laterEpoch (a b : BitVec 16) : BitVec 16 := if (b - a).toNat < 32768 then b else a

/-- Frame and sequence numbers resume above the mark, and the epoch at the stored value + 1, which is written back; that there was no
valid mark is recorded in the state of the start, since Table EVR-4 has no code for it (R62, R431; log entry 56). -/
def State.resumeNumbers (s : State) : State :=
  let mark := s.flash.mark.now
  let kept := s.flash.epoch.now.getD 0
  let stored : BitVec 16 := match mark with
    | some m => laterEpoch kept m.epoch
    | none => kept
  let e := stored + 1
  let frame : Word := match mark with
    | some m => m.frame + 65536
    | none => 0
  let s1 := (List.range 64).foldl (fun (s : State) k =>
    s.modStream k (fun y => { y with seq := match mark with
      | some m => nth 0 m.seqs k + 65536
      | none => 0 })) (s.flashWrite 2 (fun f => { f with epoch := f.epoch.write e }))
  { s1 with
    boot := { s1.boot with noMark := mark.isNone }
    time := { s1.time with seg := { s1.time.seg with epoch := e.toNat }, prevSeg := { s1.time.prevSeg with epoch := e.toNat } }
    root := { s1.root with next := frame } }.setF 6 .tsnTime_epoch e.toNat

/-- Each used link's sensor script runs once: the links whose script stopped, and what went out (R131, R132).  DEDUCED (log entry 86): the
scripts of step 5 are those of the slot that is then tried, as flash holds it. -/
def State.runScripts (s : State) (answers : List (List (Option (BitVec 24)))) : State :=
  let m := s.slotBytes s.boot.slot
  let base := (secEntry m 0 5).offset
  (List.range 16).foldl (fun (s : State) l =>
    let g := LinkCfg.of (fun o n => imgN m (base + 0x100 + 32 * l + o) n)
    if g.used then
      let r := runScript (entries8 (mapBytes m (base + g.scriptOff) g.scriptLen)) (nth [] answers l)
      { s with
        ingress := if r.2 then s.ingress else { s.ingress with scriptFailed := setInsert l s.ingress.scriptFailed }
        out := { s.out with i2c := s.out.i2c ++ r.1.map (fun x => (l, g.rate, x)) } }
    else s) { s with ingress := { s.ingress with scriptsDone := true, scriptFailed := [] } }

/-- The keys of the sealed key record, if its governing copy authenticates under the key and the nonce of R542 (log entry 28). -/
def State.openKeys (s : State) : Option (List Byte) :=
  match s.flash.sealedKeys.governs, s.derived (ascii "ILK2-SEAL") with
  | some (_, c), some k => unsealed k (toLE 12 c.seq.toNat) c.val
  | _, _ => none

/-- UFS_LINK_UP: step 5: the records are read and applied, the C-dies leave reset, the slots are tried, and the sensor scripts run (R44, R52,
R62, R132, R504, R535, R542).  The operands are what flash and the sensors show: slots that cannot be read, the sensors' answers link by
link, and whether the sealed key record stands in flash as it was written. -/
def execUfsLinkUp (readErrA readErrB : Bool) (answers : List (List (Option (BitVec 24)))) (sealedOk : Bool) (s : State) : Result State :=
  if s.boot.step ≠ 4 then .next s
  else
    let s1 := s.resumeNumbers.applyRepairs.slotRegs
    let keys := s.flash.sealedKeys.now.isSome
    let opened := if sealedOk then s1.openKeys else none
    let bad := keys && opened.isNone && s.sec.lifecycle != 2
    let s2 := ({ s1 with
      boot := { s1.boot with step := 5, sealedBad := bad, tried := []
                             unreadable := (if readErrA then [false] else []) ++ (if readErrB then [true] else []) }
      sec := { s1.sec with sealedOk := opened.isSome, keys := opened } }).secRegs
    let s3 := if bad then s2.raise 0x0185 0 else s2
    if s.sec.lifecycle = 2 then .next (s3.fault true)
    else
      let s4 := { s3 with dies := s3.dies.mapIdx (fun d (x : Die) => { x with inReset := decide (s.nDies ≤ d) }) }
      .next ((State.trySlots s4.slotsLeft s4).runScripts answers)

/-! ### C-die self-test (R484, R492, R493, R508) -/

/-- A C-die fails its self-test: held in reset for the rest of the cold start, with SELFTEST (R484). -/
def State.dieFails (s : State) (d : Nat) : State :=
  (s.modDie d (fun x => { x with failed := true, inReset := true, restart := none })).doubt dSELFTEST d s.frame 0 .failedDie

/-- What a start-up fault does (Table BST-1a): the units to retire, and whether the die fails; rows are repaired while spares last. -/
def State.startFault (s : State) (d : Nat) (f : StartFault) : State × List Nat × Bool :=
  match f with
  | .core c => (s, [c], false)
  | .engine u => (s, [u], false)
  | .memCtl _ => (s, [], true)
  | .part => (s, [], true)
  | .spdRow c bank row =>
    let r := s.repairCoreRow d c (bank % 16) row
    (r.1, if r.2 then [] else [c], false)
  | .storeRow c bank row =>
    let r := s.repairCoreRow d c (64 + bank % 64) row
    (r.1, if r.2 then [] else [c], false)
  | .cmnRow bank row =>
    let r := s.repairCmnRow d bank row
    (if r.2 then r.1 else s.cmnExhausted d bank, [], false)
  | .trackRow row => (s.repairTrackRow d row, [], false)

/-- A die's self-test has ended: units retired before and now are out, the rest take their positions; a die without its parts or with
fewer than 56 schedulable cores fails. -/
def State.selftested (s : State) (d : Nat) (faults : List StartFault) : State :=
  let (s1, new, fails) := faults.foldl (fun (x : State × List Nat × Bool) f =>
    let (t, l, b) := x.1.startFault d f
    (t, x.2.1 ++ l, x.2.2 || b)) (s, [], false)
  let old := (List.range 85).filter (fun u => (s.unit d u).retired)
  let fresh := (new.filter (fun u => !old.contains u)).foldl (fun l u => setInsert u l) []
  let s2 := fresh.foldl (fun (s : State) u => (s.retiredBit d u).owesRecord d (repairRecord 6 d u 0 0)) s1
  let s3 := (s2.startUnits d (old ++ fresh)).unitRegs d
  if fails || s3.coreCount d = 0 then s3.dieFails d else s3

/-- CDIE_SELFTEST_DONE: a C-die's self-test and training are complete, at a cold start or in a restart (R44, R484, R492, R493). -/
def execCdieSelftestDone (d : Nat) (faults : List StartFault) (s : State) : Result State :=
  if s.nDies ≤ d ∨ (s.die d).failed = true then .next s
  else if (s.die d).restart.isSome then
    if (s.boot.tested).contains d then .next s
    else .next (({ s with boot := { s.boot with tested := setInsert d s.boot.tested } }).selftested d faults)
  else if s.boot.step < 5 ∨ 8 < s.boot.step ∨ s.boot.tested.contains d = true ∨ (s.die d).inReset = true then .next s
  else
    let s1 := ({ s with boot := { s.boot with tested := setInsert d s.boot.tested } }).selftested d faults
    .next ((List.range 8).foldl (fun (s : State) k => (s.modCtl d k (fun c => { c with lastCalDt := s.deviceTime })).ctlRegs d k) s1)

/-! ### Sections (R42, R48, R49) -/

/-- The section table of the image in use. -/
def State.sections (s : State) : List SecEntry := (List.range 11).map (secEntry s.caddy (cadKey 0 0))

/-- Where a die's reload region starts and how long it is (R48). -/
def State.reloadAt (s : State) (d : Nat) : Nat × Nat :=
  let n := reloadSize s.sections
  (dramBase d + 0x1C00000000 - n, n)

/-- A section's place in the reload region: the ten sections stand one behind the other in the table's order (log entry 31). -/
def State.reloadOff (s : State) (k : Nat) : Nat := (s.sections.take k).foldl (fun (n : Nat) (e : SecEntry) => n + e.length) 0

/-- Bytes of a map written to memory, their poison cleared. -/
def State.loadBytes (s : State) (m : Map Byte) (off n pos : Nat) : State :=
  { s with mem := mapCopy m off n s.mem pos
           poison := s.poison.filter (fun c => decide (c * 16 + 16 ≤ pos) || decide (pos + n ≤ c * 16)) }

/-- The GOLDEN section is loaded into hub SRAM (R151, Table CDY-5). -/
def State.loadGolden (s : State) : State :=
  { s with mem := mapCopy s.caddy (cadKey secGOLDEN 0) s.goldLength s.mem s.goldBase }

/-- The controllers lock each die's reload region and its WEIGHTS range (R49). -/
def State.lockRanges (s : State) : State :=
  let w := nth ⟨0, 0, 0, 0, 0, 0⟩ s.sections 10
  { s with locked := ((List.range s.nDies).map (fun d =>
      let (a, n) := s.reloadAt d
      [(dramBase d + w.load, dramBase d + w.load + w.length), (a, a + n)])).flatten }

/-- SECTION_HASHED: section `k` has streamed and its hash is compared: on a match it is released and copied to the reload regions;
WEIGHTS bytes reach every die's DRAM as they stream.  After the last, check 9 is made and the ranges are locked (R41, R42, R47–R49). -/
def execSectionHashed (k : Nat) (s : State) : Result State :=
  if s.boot.step ≠ 6 ∨ k ≠ s.boot.hashed ∨ 11 ≤ k then .next s
  else
    let b := s.boot.slot
    let m := s.slotBytes b
    let e := nth ⟨0, 0, 0, 0, 0, 0⟩ s.sections k
    let dies := (List.range s.nDies).filter (fun d => !(s.die d).failed)
    let fail (s : State) (cause : Nat) : Result State :=
      let t := s.slotFails b cause
      .next (State.trySlots t.slotsLeft t)
    if e.kind = secWEIGHTS ∧ ((List.range s.nDies).all (fun d => s.boot.tested.contains d)) = false then .next s
    else
      let s0 := if e.kind = secWEIGHTS then dies.foldl (fun (s : State) d => s.loadBytes m e.offset e.length (dramBase d + e.load)) s
        else s
      if sectionMatches m e = false then fail s0 10
      else
        let s1 := { s0 with boot := { s0.boot with hashed := k + 1 } }.setF 6 .bootStatus_sections (k + 1)
        if k < 10 then
          let s2 : State := { s1 with caddy := mapCopy m e.offset e.length s1.caddy (cadKey e.kind 0) }
          let s2 := if e.kind = secGOLDEN then s2.loadGolden else s2
          .next (dies.foldl (fun (s : State) d => s.loadBytes m e.offset e.length ((s.reloadAt d).1 + s.reloadOff k)) s2)
        else
          let same := s.cosyView.ident == Hash.ofBytes (s.cadBytes secCOSYLINK 8 32)
          if s.boot.check9 && !same then fail s1 11
          else
            let s2 := ((((({ s1 with boot := { s1.boot with step := 8 } }).lockRanges.setF 6 .bootStatus_phase 4).setF 6
              .bootImage_rollback_index (imgN m 9 1)).setF 6 .bootImage_reload_size (reloadSize s.sections / 2 ^ 21)).setF 6
              .bootVersion_image_version (imgN m 0xC 4)).setF 6 .evrStatus_mode (bit s1.ilk1)
            .next (if s.cosyView.late && !same then s2.doubt dSECURITY 6 s2.frame else s2)

/-! ### Firmware (R44) -/

/-- The ten sections as die d's reload region holds them, over what a map held. -/
def State.reloaded (s : State) (d : Nat) (m : Map Byte) : Map Byte :=
  (List.range 10).foldl (fun (m : Map Byte) k =>
    let e : SecEntry := nth ⟨0, 0, 0, 0, 0, 0⟩ s.sections k
    mapCopy s.mem ((s.reloadAt d).1 + s.reloadOff k) e.length m (cadKey e.kind 0)) m

/-- A C-die loads the sections of its reload region (R44, R59). -/
def State.loadDie (s : State) (d : Nat) : State := s.modDie d (fun x => { x with loaded := s.reloaded d [] })

/-- The hub reloads its sections from the reload region of the lowest-numbered C-die that works (R50). -/
def State.loadHub (s : State) : State :=
  match (List.range s.nDies).find? (fun d => !(s.die d).failed) with
  | none => s
  | some d => ({ s with caddy := s.reloaded d s.caddy }).loadGolden

/-- The sections that carry a magic number carry it (R95, R131, R171, R293, R422, R449, R461, R553). -/
def State.magicsOk (s : State) : Bool :=
  s.cad secGRAPH 0 4 == 0x47524146 && s.cad secISP 0 4 == 0x49535030 && s.cad secMESH 0 4 == 0x4D455348 &&
    s.cad secSCHED 0 4 == 0x53434844 && s.tsn 0 4 == 0x54534E30 && s.cad secSAFETY 0 4 == 0x53414654 &&
    s.cad secCOSYLINK 0 4 == 0x4353594C && s.cad secPOWER 0 4 == 0x50575230

/-- The die sequencer writes every descriptor of every SEQUENCER ring of a die to zero (R372). -/
def State.zeroRings (s : State) (d : Nat) : State :=
  (List.range (s.plan d).dma).foldl (fun (s : State) k =>
    let e := s.queue d (0x400 + k)
    if testBit e.params 0 then s.clearMem e.base (e.base + 64 * e.size) else s) s

/-- What a C-die is given with its firmware: the mesh copy's address, the quiet windows and its rings, at a start and at a restart. -/
def State.configureDie (s : State) (d : Nat) : State :=
  let a := (s.reloadAt d).1 + s.reloadOff 7
  let s1 := (List.range 3).foldl (fun (s : State) i =>
    (s.setF d .wrpMeshBaseLo_base (a % 2 ^ 32) i).setF d .wrpMeshBaseHi_base (a / 2 ^ 32) i) s
  let s2 := (List.range 8).foldl (fun (s : State) k => (List.range 4).foldl (fun (s : State) w =>
    s.setReg d (0x100028 + k * 0x10000 + 4 * w) 0 0 (Word.ofNat (s.cad secPOWER (0x100 + 64 * d + 4 * w) 4))) s) s1
  (s2.unitRegs d).zeroRings d

/-- The pipes take their positions: pipe p holds position p, the spare the first one left open (R140, R493). -/
def State.configurePipes (s : State) : State :=
  let gone := s.ingress.retired
  let gap := (List.range 4).find? (fun p => gone.contains p)
  s.modIng (fun i => { i with
    positions := (List.range 4).map (fun p =>
      { PipePos.fresh p with pipe := if !gone.contains p then some p
                                     else if gap == some p && !gone.contains 4 then some 4 else none })
    tests := (List.range 5).foldl (fun (m : Map PipeTest) k =>
      Map.set PipeTest.fresh m k ⟨k == 4 && gap.isNone && !gone.contains 4, s.deviceTime, false, 0, s.deviceTime⟩) []
    rotQ := 0
    rotGrid := s.deviceTime / 4500000 + 1 })

/-- FIRMWARE_RUNNING: step 9: firmware runs on every core, graphs and schedules are loaded, the ports may come up, and the ring of a lone
module is formed (R44, R363).  DEDUCED (log entry 69): a section without its magic number is an error of the host's own making. -/
def execFirmwareRunning (s : State) : Result State :=
  if s.boot.step ≠ 8 then .next s
  else
    let s0 := if s.magicsOk then s else s.unpredictable
    let s1 := ({ s0 with boot := { s0.boot with step := 9 } }.setF 6 .bootStatus_phase 5).configurePipes
    let s2 := (List.range s.nDies).foldl (fun (s : State) d => if (s.die d).failed then s else (s.loadDie d).configureDie d) s1
    .next s2.ringTry

/-! ### Anti-rollback (R43) -/

/-- BOOT_IMAGE's counter and whether steps are still to be burned. -/
def State.burnRegs (s : State) : State :=
  (s.setF 6 .bootImage_otp_counter s.sec.counter).setF 6 .bootImage_burn_pending
    (bit (s.boot.framed && decide (s.sec.counter < s.getF 6 .bootImage_rollback_index)))

/-- ROLLBACK_BURN_STEP: after the first frame start one step of the counter is burned, while it is below rollback_index (R43). -/
def execRollbackBurnStep (s : State) : Result State :=
  if s.frz.stopped then .next s
  else if s.boot.framed && decide (s.sec.counter < s.getF 6 .bootImage_rollback_index) then
    .next ({ s with sec := { s.sec with counter := s.sec.counter + 1 } }).burnRegs
  else .next s

/-! ### The numbering mark (R62) -/

/-- Write the numbering mark: the latest frame's number, the epoch, and every stream's sequence number. -/
def State.writeMark (s : State) : State :=
  s.flashWrite 1 (fun f => { f with mark := f.mark.write ⟨s.frame, BitVec.ofNat 16 s.epoch,
    (List.range 64).map (fun k => (s.stream k).seq)⟩ })

/-- NUMBERING_MARK: every 65,536 frames (R62). -/
def execNumberingMark (s : State) : Result State :=
  if s.frz.stopped then .next s
  else if s.root.running && s.frame.toNat % 65536 = 0 then .next s.writeMark else .next s

/-! ### The Cosy (R56, R458–R460) -/

/-- The Cosy can verify an image: its manifest by the same signature scheme against the Cosy's own OTP, and the hash of each section
(R56).  PRESUMED: the manual does not give the Cosy image's layout; it is taken to be that of Tables CDY-2 to CDY-4 (log entry 63). -/
def CosyDie.verifies (c : CosyDie) (m : Map Byte) : Bool :=
  signedCause c.ikey c.vkey c.counter m == 0 && decide (1 ≤ imgN m 0xA 1 ∧ imgN m 0xA 1 ≤ 16) &&
    (List.range (imgN m 0xA 1)).all (fun i => sectionMatches m (secEntry m 0 i))

/-- One of the two 128 MiB halves of the Cosy's NOR. -/
def CosyDie.bank (c : CosyDie) (b : Bool) : Map Byte := if b then c.halfB else c.halfA

/-- The half that a start of the Cosy takes its image from: the newest that it can verify, if any. -/
def CosyDie.pick (c : CosyDie) : Option Bool := [c.next, !c.next].find? (fun b => c.verifies (c.bank b))

/-- The Cosy starts: it boots only from its own NOR (R20), and its image's identity is the SHA-256 of the image manifest (R56). -/
def CosyDie.start (c : CosyDie) (selfTest : Bool) : CosyDie :=
  let b := c.pick
  let m := (b.map c.bank).getD []
  { c with
    powered := true, selfTest := selfTest, running := b.isSome, half := b.getD c.half, next := b.getD c.next
    ident := if b.isSome then sha256 (mapBytes m 0 0x8000) else 0
    image := [], sram := m, cores := [], domains := List.range 8, seqs := [] }

/-- COSY_POWER_GOOD: the Cosy starts from its own power-good, with its self-test's result (R56).  Without an image that it can verify it
sends nothing. -/
def execCosyPowerGood (selfTest : Bool) (s : State) : Result State := .next { s with cosy := s.cosy.start selfTest }

/-- Part of a new image reaches the Cosy: once it can verify the image as delivered it writes it to its inactive half, for its next start
(R57). -/
def CosyDie.deliver (c : CosyDie) (off : Nat) (data : List Byte) : CosyDie :=
  let m := mapPut c.image off data
  if c.verifies m then
    if c.half then { c with halfA := m, next := false, image := [] } else { c with halfB := m, next := true, image := [] }
  else { c with image := m }

/-- The notice of the mailbox whose wall time lies within a quarter period of `wall`, with its CRC right (R459, R460). -/
def State.noticeAt (s : State) (wall : Nat) : Option Nat :=
  (List.range 64).find? (fun i =>
    let a := mailboxBase + 64 * i
    let w := s.memLE (a + 0x10) 8
    let q := s.memLE (a + 0x1C) 4 / 4
    decide (s.memLE (a + 0x3C) 4 = (crc32c (s.bytesAt a 0x3C)).toNat) && decide (w ≤ wall + q ∧ wall ≤ w + q))

/-- COSY_FRAME: at a frame start of its own the Cosy sends the messages it computed, stamped from the mailbox, on the Cosy port (R56,
R439, R458, R460); they reach the Strainer by COSY_MESSAGE.  Without a notice the stamp is 0xFFFF_FFFF, and the device time and epoch,
which nothing gives, are free values. -/
def execCosyFrame (outs : List CosyOut) (wall : Nat) (s : State) : Result State :=
  if !s.cosy.running then .next s
  else
    let (v, s0) := s.free
    let x : FrameStart := match s.noticeAt wall with
      | some i =>
        let a := mailboxBase + 64 * i
        ⟨Word.ofNat (s.memLE a 4), s.memLE (a + 8) 8, s.memLE (a + 0x10) 8, s.memLE (a + 0x18) 2, true, 0, [], []⟩
      | none => ⟨0xFFFFFFFF, v % 2 ^ 64, wall, v / 2 ^ 64 % 65536, false, 0, [], []⟩
    .next (outs.foldl (fun (s : State) o =>
      let n := Map.get 0 s.cosy.seqs o.stream
      let env := if s.cosy.selfTest || testBit o.envelope.toNat 15 then o.envelope.toNat else o.envelope.toNat + 32768
      let m := messageBytes o.stream .fallback (decide (n = 0)) 0 x n env o.payload
      { s with cosy := { s.cosy with seqs := Map.set 0 s.cosy.seqs o.stream (n + 1) }
               out := { s.out with cosyMsgs := s.out.cosyMsgs ++ [m] } }) s0)

/-! ### Links between dies (R24) -/

/-- A die-to-die link is lost: DIE_LINK for the die, or COSY_LINK at the first frame start or at once (R24, R47). -/
def State.linkLost (s : State) (l : DieLink) : State :=
  let s1 := s.setLink l .lost
  match l with
  | .hub d => s1.doubt dDIE_LINK d s1.frame 0 .hubLink
  | .ring d => s1.doubt dDIE_LINK d s1.frame 0 .ringLink
  | .cosy =>
    let s2 := { s1 with cosyView := { s1.cosyView with linkUp := false } }
    if s.boot.framed then s2.doubt dCOSY_LINK 6 s2.frame else { s2 with boot := { s2.boot with cosyLost := true } }

/-- LINK_RETRAIN: a lane of a link fails and it retrains at half width, which is recorded; a link that cannot is lost (R24). -/
def execLinkRetrain (l : DieLink) (halfTrains : Bool) (s : State) : Result State :=
  if s.frz.stopped then .next s else
  let trained : Bool := match l with
    | .cosy => s.cosyView.linkUp
    | _ => s.hasLink l
  if !trained || s.link l = .lost || s.boot.step = 0 then .next s
  else if halfTrains then .next ((s.setLink l .half).raise 0x0600 (linkKey l)) else .next (s.linkLost l)

end Sys2Proof.Machine
end

