-- ==== Sys2Proof/Machine/Strainer.lean ====
section
/-! DEFINITION. What reaches the Strainer and the safety manager (chapter 17): main and Cosy messages, verdicts, deadlines, mode
requests, and the failure of the hub's lockstep. -/

namespace Sys2Proof.Machine

open Sys2Proof

/-- The variant of a die is a degraded one: fewer than 64 cores, or made for absent cameras (log entry 24). -/
def Variant.degraded (v : Variant) : Bool := v.cores != 64 || v.absent != 0

/-- A poisoned main message: counted, and POISON_OUT latched ahead of any decision (R447, R453). -/
def State.refuseMessage (s : State) (k : Nat) (f : Word) : State :=
  (s.bumpF 6 .strPoison_refused 0 k).latch ⟨dPOISON_OUT, 6, k, .plain, f⟩

/-- M(n) is accepted for stream k: held for the decision, or discarded and counted after it; poison is judged either way (R452,
R453). -/
def State.acceptMain (s : State) (k : Nat) (m : Msg) : State :=
  let s0 := s.strain k
  if s0.isDecided k m.frame then
    let s1 := s0.bumpF 6 .strLate_main_late 0 k
    if m.poisoned then s1.refuseMessage k m.frame else s1
  else
    let s1 := s0.modStream k (fun y => { y with main := y.main ++ [m] })
    (if m.poisoned then s1.refuseMessage k m.frame else s1).strain k

/-- OUTPUT_ACCEPT: the hub accepts an OUTPUT instance's message, or its request for a tombstone, and the instance completes (R72,
R86, R429, R452, R453).  A stream entry outside its ranges leaves the content and timing of messages open (R584). -/
def execOutputAccept (d node : Nat) (f : Word) (payload : List Byte) (poisoned : Bool) (s : State) : Result State :=
  match s.inst d node f with
  | none => .next s
  | some i =>
    let nd := s.node i.variant node
    if nd.kind ≠ .output ∨ i.released = false ∨ i.ended ≠ none ∨ i.complete = true then .next s
    else if !s.dieUp d || !s.reach 6 d then .next s
    else if !(s.outCfg nd.stream).enable then hostErr s 423
    else if (s.outCfg nd.stream).maxPayload < payload.length then hostErr s 423
    else
      let skip := i.skipped || i.marked
      let unc := match s.root.starts.find? (fun (x : FrameStart) => x.frame == f) with
        | some x => nth false x.uncovered d
        | none => false
      let m : Msg := ⟨f, skip, if skip then [] else payload, !skip && poisoned, i.held, (s.variant i.variant).degraded, unc, 0,
        s.deviceTime⟩
      let t := s.acceptMain nd.stream m
      .next (((if (s.outCfg nd.stream).ranged then t else t.spoilMessages).modInst d node f (fun i =>
        { i with ended := some (if skip then .skipped else .done) })).settle d)

/-- STREAM_DEADLINE: the deadline of a stream for a frame is reached: pairs without a verdict give INCONCLUSIVE, and what waited is
decided (R452, R468). -/
def execStreamDeadline (k : Nat) (s : State) : Result State :=
  if s.frz.stopped then .next s else
  let g := s.outCfg k
  if !g.enable then .next s
  else if !g.ranged then .next s.spoilMessages
  else
    let past := s.root.starts.filter (fun (x : FrameStart) => decide (s.deadlineOf k x ≤ s.deviceTime))
    let s1 := past.foldl (fun (s : State) x => s.expirePairs k x.frame) s
    let mask := (s.pairsOf k).foldl (fun n q => n ||| (s.divCfg q).streams) (2 ^ (k % 64))
    .next (s1.strainMask mask)

/-- A Cosy message is treated as absent: its CRC fails, it is unavailable, or it bears no frame (R454, R460, R463). -/
def CosyMsg.absent (m : CosyMsg) : Bool := !m.crcOk || testBit m.envelope.toNat 15 || m.frame == 0xFFFFFFFF

/-- COSY_MESSAGE: a Cosy message arrives over the Cosy link: counted, mirrored in the COSY registers, and held as C(n) for every
stream paired with its Cosy stream (R439, R452, R454, R455, R463, R473). -/
def execCosyMessage (m : CosyMsg) (s : State) : Result State :=
  if s.frz.stopped then .next s
  else if !s.cosyView.linkUp || !s.cosy.running then .next s
  else
    let mine := s.streamsOn.filter (fun k => (s.outCfg k).cosy == m.stream)
    let s0 := mine.foldl (fun (s : State) k => s.strain k) s
    let s1 := ((s0.bumpF 6 .cosyMsgs_received).bumpF 6 .cosyFaults_checks 0 0 m.checks)
    let s2 := if m.crcOk then
        { (((s1.setF 6 .cosyStatus_unstamped (bit (m.frame == 0xFFFFFFFF))).setF 6 .cosyStatus_envelope m.envelope.toNat).setF 6
          .cosyFrame_frame m.frame.toNat) with
          cosyView := { s1.cosyView with lastMsgDt := some s1.deviceTime, unavailable := testBit m.envelope.toNat 15 } }
      else s1.bumpF 6 .cosyMsgs_crc_fail
    if m.absent then .next s2
    else
      let c : Msg := ⟨m.frame, false, m.payload, false, false, false, false, m.envelope.toNat, s.deviceTime⟩
      .next (mine.foldl (fun (s : State) k =>
        (s.modStream k (fun y => { y with
          stamps := m.frame :: y.stamps.filter (fun t => stampWithin t m.frame 512)
          cosy := if s.isDecided k m.frame || y.cosy.any (fun x => x.frame == m.frame) then y.cosy else y.cosy ++ [c] })).strain k) s2)

/-- DIVERSITY_VERDICT: both nodes' instances have completed, the samples are compared over the die's hub link and the verdict given; agree_k DISAGREEs in a
row latch DIVERSITY before the frame is decided (R447, R467, R468). -/
def execDiversityVerdict (q : Nat) (f : Word) (s : State) : Result State :=
  if s.frz.stopped then .next s else
  let g := s.divCfg q
  if g.kind = 0 ∨ 32 ≤ q ∨ (g.die < s.nDies ∧ s.reach g.die 6 = false) then .next s
  else if 2 < g.kind ∨ s.nDies ≤ g.die then hostErr s 466
  else if (s.verdict q f).isSome then .next s
  else
    match s.endedStatus g.die g.classicalNode f, s.endedStatus g.die g.neuralNode f with
    | some a, some b =>
      let (v, n, bad) : Verdict × Nat × Nat :=
        if a.checkable && b.checkable then s.divCheck q f else (.inconclusive, 0, 0)
      let s1 := s.giveVerdict q f v n bad
      let s2 := if v = .disagree ∧ g.agreeK ≤ (s1.pair q).run then s1.latch ⟨dDIVERSITY, g.die, q, .plain, f⟩ else s1
      .next (s2.strainMask g.streams)
    | _, _ => .next s

/-! ### Service mode (R469) -/

/-- A mode request's payload is judged: accepted for the next frame start, or discarded and counted; while debug is unlocked a
request for IN_SERVICE is discarded too (R469, R543). -/
def State.modeRequest (s : State) (stream : Nat) (p : List Byte) : State :=
  let mode := (nth 0 p 1).toNat
  let ok := p.length == 16 && p.take 1 == [1] && (mode == 1 || mode == 2) && (p.drop 2).take 2 == [0, 0] &&
    (p.drop 8).all (fun b => b == 0) && !(s.sec.unlocked && mode == 1)
  if ok then
    ({ s with saf := { s.saf with nextMode := some (mode == 2) } }.setF 6 .safMode_request (beNat ((p.drop 4).take 4) % 65536)).bumpF 6
      .tsnIngCount_accepted 0 stream
  else s.bumpF 6 .tsnIngCount_dropped 0 stream

/-- MODE_REQUEST: a complete message of an ingress stream with use = 1 goes to the safety manager (R437, R469). -/
def execModeRequest (stream : Nat) (p : List Byte) (s : State) : Result State :=
  if s.frz.stopped then .next s else
  let o := 0x1280 + 32 * stream
  if 32 ≤ stream ∨ s.tsn o 1 ≠ 1 ∨ s.tsn (o + 1) 1 ≠ 1 then .next s
  else .next (s.modeRequest stream p)

end Sys2Proof.Machine
end

