-- ==== Sys2Proof/Machine/Tsn.lean ====
section
/-! DEFINITION. The host ports (chapter 16): links, gates, fragments and transmission, 802.1AS time, ingress from MACsec to the host
ingress rings, and the two live time registers. -/

namespace Sys2Proof.Machine

open Sys2Proof

/-! ### Ports (R419, R422) -/

/-- A port entry of the TSN section. -/
structure PortCfg where
  enable : Bool
  speed : Nat
  macsec : Nat
  replay : Nat
  mac : Nat
  gcl : Nat
  cycle : Nat
  gclOff : Nat
  deriving DecidableEq, Repr

/-- Port `p`'s entry: host 0, host 1, maintenance. -/
def State.portCfg (s : State) (p : Nat) : PortCfg :=
  let o := 0x100 + 128 * p
  ⟨s.tsn o 1 == 1, s.tsn (o + 1) 1, s.tsn (o + 2) 1, s.tsn (o + 3) 1, s.tsn (o + 4) 6, s.tsn (o + 0xA) 2, s.tsn (o + 0xC) 4,
   s.tsn (o + 0x10) 4⟩

/-- The hub has passed step 9 of Table CDY-7, where the host ports start (R430). -/
def State.portsReady (s : State) : Bool := decide (9 ≤ s.boot.step)

/-- A port's link is up. -/
def State.ethUp (s : State) (p : Nat) : Bool := s.getF 6 .ethStatus_link_up p == 1

/-- The code of ETH_STATUS.speed: 1G on the maintenance port, else as set in the entry. -/
def speedCode (p speed : Nat) : Nat := if p = 2 then 1 else speed

/-- HOST_PORT_LINK: a port's link comes up at the entry's speed, or goes down (R428, R430, Table TSN-7).  A port that comes back
joins at the next fragment frame; a link that drops retrains and is counted (log entry 25); a host port that asks for MACsec stays down while
no sealed key record is valid (R542). -/
def execHostPortLink (p : Nat) (up : Bool) (s : State) : Result State :=
  if s.frz.stopped then .next s else
  let g := s.portCfg p
  let noKey := decide (p < 2) && g.macsec != 0 && !s.sec.sealedOk
  if 3 ≤ p ∨ s.ethUp p = up ∨ s.portsReady = false then .next s
  else if up && (!g.enable || s.pwr.hubOff.contains (13 + p) || noKey) then .next s
  else if up then
    let s1 := ((s.setF 6 .ethStatus_link_up 1 p).setF 6 .ethStatus_speed (speedCode p g.speed) p).setF 6 .ethStatus_macsec_up
      (bit (g.macsec != 0)) p
    .next { s1 with streams := Map.mapAll Stream.fresh s1.streams (fun e => { e with
      queue := e.queue.modifyHead (fun m => if m.given.isEmpty then m else { m with given := m.given ++ [p] }) }) }
  else
    let s1 := (((((s.setF 6 .ethStatus_link_up 0 p).setF 6 .ethStatus_speed 0 p).setF 6 .ethStatus_macsec_up 0 p).setF 6
      .ethStatus_ptp_slave 0 p).setF 6 .ethStatus_gate_on 0 p).bumpF 6 .ethOverrun_retrains p
    .next { s1 with time := { s1.time with gateStart := Map.set 0 s1.time.gateStart p 0 } }

/-! ### Gates (R421) -/

/-- The latest point of the frame grid at or before a wall time (R65); none where the graph gives no period. -/
def State.gridPoint (s : State) (w : Nat) : Option Nat :=
  if s.periodNs = 0 then none
  else some (if w < s.phaseNs then 0 else s.phaseNs + (w - s.phaseNs) / s.periodNs * s.periodNs)

/-- GATE_CYCLE_START: at a point of the frame grid a host port's gate control list starts its cycle (R421). -/
def execGateCycleStart (p : Nat) (s : State) : Result State :=
  if s.frz.stopped then .next s else
  let g := s.portCfg p
  if 2 ≤ p ∨ g.gcl = 0 ∨ s.ethUp p = false then .next s
  else
    match s.gridPoint s.wall with
    | none => .next s
    | some w =>
      if Map.get 0 s.time.gateStart p = w + 1 then .next s
      else .next ({ s with time := { s.time with gateStart := Map.set 0 s.time.gateStart p (w + 1) } }.setF 6
        .ethStatus_gate_on 1 p)

/-- A gate control list as (gate states, interval in ns). -/
def State.gateList (s : State) (g : PortCfg) : List (Nat × Nat) :=
  (List.range g.gcl).map (fun i => (s.tsn (0x1680 + g.gclOff + 8 * i) 1, s.tsn (0x1680 + g.gclOff + 8 * i + 4) 4))

/-- How long from `t` ns into a list its gate for class `c` stays open: 0 where it is closed.  The last entry lasts to the end of
the cycle. -/
def gateOpenFor (c cycle : Nat) : List (Nat × Nat) → Nat → Nat → Nat
  | [], _, _ => 0
  | (st, n) :: l, at_, t =>
    let stop := if l.isEmpty then max cycle (at_ + n) else at_ + n
    if stop ≤ t then gateOpenFor c cycle l stop t
    else if testBit st c then (stop - max at_ t) + gateOpenFor c cycle l stop (max stop t) else 0

/-- A frame of class `c` that lasts `ns` may start on a host port now: its gate is open and stays open until the frame has ended
(R421).  Before the first point of the grid, and with no list, every gate is open (log entry 25). -/
def State.gateAllows (s : State) (p c ns : Nat) : Bool :=
  let g := s.portCfg p
  let start := Map.get 0 s.time.gateStart p
  if g.gcl = 0 ∨ start = 0 then true
  else
    let t0 := s.wall - (start - 1)
    let t := if g.cycle = 0 then t0 else t0 % g.cycle
    let l := s.gateList g
    let here := gateOpenFor c g.cycle l 0 t
    let more := if here = g.cycle - t then gateOpenFor c g.cycle l 0 0 else 0
    here ≠ 0 && decide (ns ≤ here + more)

/-- Bytes of a fragment frame on the line: MAC addresses, tags, headers, FCS and the fragment, with MACsec's tags, and the
preamble (R426, R429). -/
def frameBytes (macsec : Bool) (frag : Nat) : Nat := 64 + 32 * bit macsec + frag + 8

/-- How long so many bytes take on a port, in ns rounded up. -/
def lineNs (speed bytes : Nat) : Nat :=
  match speed with
  | 4 => (bytes * 8 + 9) / 10
  | 3 => (bytes * 16 + 9) / 10
  | _ => (bytes * 32 + 9) / 10

/-! ### Fragments (R426–R428) -/

/-- Fragments of a message. -/
def OutMsg.frags (m : OutMsg) : Nat := (m.bytes.length + 1439) / 1440

/-- A fragment's bytes, padded with zeros to a multiple of 4. -/
def OutMsg.frag (m : OutMsg) (j : Nat) : List Byte :=
  let l := (m.bytes.drop (1440 * j)).take 1440
  l ++ List.replicate ((4 - l.length % 4) % 4) 0

/-- The host ports that are up. -/
def State.hostUp (s : State) : List Nat := [0, 1].filter (fun p => s.ethUp p)

/-- The next fragment of a stream's first message is dealt with on every port; the last one ends the message, whose seq, frame and
kind the registers report if it was sent at all. -/
def State.nextFragment (s : State) (k : Nat) (m : OutMsg) (sent : Bool) : State :=
  let s1 := s.modStream k (fun y => { y with rtag := y.rtag + 1, seqNum := y.seqNum + 1 })
  if m.sent + 1 < m.frags then
    s1.modStream k (fun y => { y with queue := y.queue.modifyHead (fun m =>
      { m with sent := m.sent + 1, given := [], deferred := [] }) })
  else
    let s2 := (s1.modStream k (fun y => { y with queue := y.queue.tail })).backlogReg k
    if !sent then s2
    else
      let s3 := (s2.setF 6 .tsnStrSeq_seq m.seq.toNat 0 k).setF 6 .tsnStrFrame_frame m.frame.toNat 0 k
      match m.kind with
      | .tombstone => s3.bumpF 6 .tsnStrKinds_tombstones 0 k
      | .fallback => s3.bumpF 6 .tsnStrKinds_fallbacks 0 k
      | _ => s3

/-- A fragment on one port: sent, or held by the port's gate and counted once (R421, R426, R428). -/
def State.fragmentOn (s : State) (k : Nat) (m : OutMsg) (p : Nat) : State :=
  let g := s.portCfg p
  let data := m.frag m.sent
  let y := s.stream k
  if s.gateAllows p (s.outCfg k).pcp (lineNs g.speed (frameBytes (g.macsec != 0) data.length)) then
    let o := s.outCfg k
    let f : HostFrame := ⟨p, o.dest, g.mac, o.pcp, o.vlan, o.streamId, o.acf, k, y.rtag, y.seqNum, Word.ofNat m.wall, m.seq, m.sent, m.frags, data, g.macsec != 0⟩
    (({ s with out := { s.out with frames := s.out.frames ++ [f] } }.bumpF 6 .ethTx_frames p).modStream k (fun y =>
      { y with queue := y.queue.modifyHead (fun m => { m with given := m.given ++ [p] }) }))
  else if m.deferred.contains p then s
  else (s.bumpF 6 .ethOverrun_deferred p).modStream k (fun y =>
    { y with queue := y.queue.modifyHead (fun m => { m with deferred := m.deferred ++ [p] }) })

/-- FRAGMENT_SEND: the next fragment of a stream's first message goes out on both host ports with one R-TAG, as their gates allow;
with both ports down it is discarded and recorded (R421, R426–R428).  Nothing is sent once output framing has stopped (R487). -/
def execFragmentSend (k : Nat) (s : State) : Result State :=
  if s.frz.stopped then .next s
  else if s.saf.framingStopped then .next s
  else
    match (s.stream k).queue with
    | [] => .next s
    | m :: _ =>
      let up := s.hostUp
      if up.isEmpty then .next ((s.raise 0x0B00 1).nextFragment k m (!m.given.isEmpty || decide (0 < m.sent)))
      else
        let s1 := (up.filter (fun p => !m.given.contains p)).foldl (fun (s : State) p => s.fragmentOn k m p) s
        match (s1.stream k).queue with
        | [] => .next s1
        | n :: _ => if up.all (fun p => n.given.contains p) then .next (s1.nextFragment k n true) else .next s1

/-! ### Time (R430–R432) -/

/-- The correction would step wall time: more than 1 µs back or more than 1 s forward (R431). -/
def stepsWall (offset : Int) : Bool := decide (offset < -1000) || decide (offset > 1000000000)

/-- The servo's rate for a slewed correction: a free value within ±200 ppm (R431; log entry 4). -/
def State.servoRate (s : State) : Int × State :=
  let (n, s1) := s.free
  (((n % 400001 : Nat) : Int) - 200000, s1)

/-- Put a new wall mapping in force; a new epoch goes to the epoch record before; and the registers show them (R62, R431, R442). -/
def State.setSeg (s : State) (g : WallSeg) : State :=
  let s0 := if g.epoch = s.epoch then s else s.flashWrite 2 (fun f => { f with epoch := f.epoch.write (BitVec.ofNat 16 g.epoch) })
  let s1 := { s0 with time := { s0.time with prevSeg := s0.time.seg, seg := g } }
  ((s1.setF 6 .tsnTime_synced (bit g.synced)).setF 6 .tsnTime_epoch (g.epoch % 65536)).setF 6 .tsnRate_rate
    (satSigned 32 g.ppb)

/-- GPTP_SYNC: a valid Sync arrives on a host port that best-master selection makes the slave, with the offset that the correction
would move wall time by (R430–R432). -/
def execGptpSync (p : Nat) (offset : Int) (s : State) : Result State :=
  if s.frz.stopped then .next s
  else if 2 ≤ p ∨ s.ethUp p = false ∨ s.portsReady = false then .next s
  else
    let t := s.time
    let now := s.deviceTime
    let back := !t.everSynced || t.holdover
    let s1 := { s with time := { t with everSynced := true, holdover := false, port := p, lastSyncDt := now } }
    let s2 := ((((s1.setF 6 .ethStatus_ptp_slave 1 p).setF 6 .ethStatus_ptp_slave 0 (1 - p)).setF 6 .tsnTime_port p).setF 6
      .tsnTime_holdover 0).setF 6 .tsnOffset_offset (satSigned 32 offset)
    let s3 := if back then s2.raise 0x0201 1 else s2
    if !t.everSynced || stepsWall offset then
      let s4 := s3.setSeg ⟨now, ((s.wall : Int) + offset).toNat, t.seg.ppb, (t.seg.epoch + 1) % 65536, true⟩
      .next (if offset < 0 then s4.bumpF 6 .tsnSteps_back else s4.bumpF 6 .tsnSteps_forward)
    else
      let (ppb, s4) := s3.servoRate
      .next (s4.setSeg ⟨now, s.wall, ppb, t.seg.epoch, true⟩)

/-- SYNC_TIMEOUT: no valid Sync for 375 ms on the slave port: synchronisation is lost, wall time holds over at the last rate, and the
loss is recorded (R68, R432). -/
def execSyncTimeout (s : State) : Result State :=
  if s.frz.stopped then .next s else
  let t := s.time
  if t.everSynced && !t.holdover && decide (t.lastSyncDt + 337500000 ≤ s.deviceTime) then
    .next (((({ s with time := { t with holdover := true, seg := { t.seg with synced := false } } }.setF 6 .tsnTime_holdover
      1).setF 6 .tsnTime_synced 0).raise 0x0201 0))
  else .next s

/-! ### Ingress (R433–R437, R440) -/

/-- An ingress stream entry (Table TSN-6). -/
structure IngCfg where
  enable : Bool
  use : Nat
  dies : Nat
  streamId : Nat
  maxSdu : Nat
  ring : Nat
  rate : Nat
  burst : Nat
  deriving DecidableEq, Repr

/-- Ingress stream `k`'s entry. -/
def State.ingCfg (s : State) (k : Nat) : IngCfg :=
  let o := 0x1280 + 32 * k
  ⟨decide (k < 32) && s.tsn o 1 == 1, s.tsn (o + 1) 1, s.tsn (o + 2) 1, s.tsn (o + 4) 8, s.tsn (o + 0xC) 2,
   s.tsn (o + 0xE) 2 % 2 ^ 14, s.tsn (o + 0x10) 4, s.tsn (o + 0x14) 4⟩

/-- An ingress stream that has received nothing: its meter is full. -/
def IngStream.fresh : IngStream := ⟨none, [], 0, 0, 0, 0, []⟩

/-- Ingress stream `k`, and a change of it. -/
def State.ingStream (s : State) (k : Nat) : IngStream := Map.get IngStream.fresh s.ingStreams k
def State.modIngStream (s : State) (k : Nat) (f : IngStream → IngStream) : State :=
  { s with ingStreams := Map.modify IngStream.fresh s.ingStreams k f }

/-- A failed MACsec check: a doubt at most once per frame slot per port (R440). -/
def State.macsecFail (s : State) (p : Nat) : State :=
  if s.saf.macsecReported.contains p then s
  else { s with saf := { s.saf with macsecReported := p :: s.saf.macsecReported } }.doubt dMACSEC 6 s.frame p

/-- The meter of a stream: what is taken of its burst, in bits ÷ 900,000, falls by `rate` a cycle; the frame conforms if it fits
(R420, R434; log entry 26). -/
def IngStream.meter (x : IngStream) (g : IngCfg) (now size : Nat) : IngStream × Bool :=
  let taken := x.taken - g.rate * (now - x.meterDt)
  let need := size * 8 * 900000
  if taken + need ≤ g.burst * 8 * 900000 then ({ x with taken := taken + need, meterDt := now }, true)
  else ({ x with taken := taken, meterDt := now }, false)

/-- 802.1CB vector recovery with a history of 32 (R420, R434; log entry 27): the stream, whether the frame is kept, whether it is a
duplicate, and the numbers that leave the history without having come. -/
def IngStream.recover (x : IngStream) (now rtag : Nat) : IngStream × Bool × Bool × Nat :=
  match x.rtagLast with
  | none => ({ x with rtagLast := some rtag, rtagSeen := [rtag], span := 0, lastDt := now }, true, false, 0)
  | some last =>
    let fwd := (rtag + 65536 - last) % 65536
    let back := (last + 65536 - rtag) % 65536
    if back < 32 then
      if x.rtagSeen.contains rtag then (x, false, true, 0)
      else ({ x with rtagSeen := rtag :: x.rtagSeen, lastDt := now }, true, false, 0)
    else if fwd < 32 then
      let gone := (List.range fwd).filter (fun i =>
        decide (31 - i ≤ x.span) && !x.rtagSeen.contains ((last + 65536 - (31 - i)) % 65536))
      ({ x with rtagLast := some rtag
                rtagSeen := rtag :: x.rtagSeen.filter (fun r => decide ((rtag + 65536 - r) % 65536 < 32))
                span := cap 31 (x.span + fwd), lastDt := now }, true, false, gone.length)
    else (x, false, false, 0)

/-- A reassembled message is whole: its CRC-32C matches over the header, with the field zero, and the payload (Table TSN-5); the
header and payload without the padding. -/
def messageOf (l : List Byte) : Option (List Byte) :=
  let n := beNat ((l.drop 0x24).take 4)
  let body := l.take (48 + n)
  if l.length < 48 + n ∨ l.length < 48 then none
  else if beNat ((l.drop 0x28).take 4) =
      (crc32c (body.take 0x28 ++ List.replicate 4 0 ++ body.drop 0x2C)).toNat then some body
  else none

/-- The key of a host ingress ring of a die. -/
def holdKey (d q : Nat) : Nat := d * 65536 + q

/-- An entry enters a host ingress ring; the INGRESS instances of its frame that wait for it complete DONE (R91, R435). -/
def State.ringEntry (s : State) (d q : Nat) (l : List Byte) : State :=
  let f := Word.ofNat (leNat (l.take 4))
  let s1 := s.appendRing d q l
  ((s1.die d).seq.insts.foldl (fun (s : State) i =>
    let nd := s.node i.variant i.node
    if nd.kind == .ingress && i.released && i.ended.isNone && !i.complete && i.frame == f && s.ingressRing d nd == q then
      s.modInst d i.node i.frame (fun i => { i with ended := some .done })
    else s) s1).settle d

/-- The entry header of Table R435 and the message; fields least significant byte first (log entry 23). -/
def State.entryOf (s : State) (k ports : Nat) (msg : List Byte) : List Byte :=
  toLE 4 s.frame.toNat ++ toLE 8 s.deviceTime ++ toLE 4 msg.length ++ toLE 1 k ++ toLE 1 ports ++ List.replicate 14 0 ++ msg

/-- A complete data message goes over the hub link to one die's ring, waits in the hold, or is discarded: with false; a full ring refuses it
(R24, R116, R435, R436, R486). -/
def State.toRing (s : State) (d q : Nat) (l : List Byte) : State × Bool :=
  let e := s.queue d q
  let held := Map.get [] s.ringHold (holdKey d q)
  let full := (s.ringOf d q).full e
  let s1 := if full then s.bumpF d .dspQRefused_count 0 q else s
  if !s.dieUp d || !s.reach 6 d || s.queueKind d q != .ingress || decide (2 ^ e.log2b < l.length) then (s, false)
  else if held.isEmpty && !full then (s.ringEntry d q l, true)
  else if held.length < 4 then ({ s1 with ringHold := Map.set [] s1.ringHold (holdKey d q) (held ++ [l]) }, true)
  else (s1, false)

/-- A complete message of ingress stream `k`: a mode request to the safety manager, data to the rings of its dies (R435–R437). -/
def State.ingMessage (s : State) (k ports : Nat) (msg : List Byte) : State :=
  let g := s.ingCfg k
  if g.use = 1 then s.modeRequest k (msg.drop 48)
  else
    let l := s.entryOf k ports msg
    let (s1, given, lost) := ((List.range s.nDies).filter (testBit g.dies)).foldl (fun (x : State × Bool × Bool) d =>
      let (s, ok) := x.1.toRing d g.ring l
      (s, x.2.1 || ok, x.2.2 || !ok)) (s, false, false)
    let s2 := if given then s1.bumpF 6 .tsnIngCount_accepted 0 k else s1
    if lost then s2.bumpF 6 .tsnIngCount_dropped 0 k else s2

/-- A fragment joins its message; a message with all its fragments is judged (R434). -/
def State.reassemble (s : State) (k p : Nat) (f : IngFrame) : State :=
  if f.fragCount = 0 ∨ f.fragCount ≤ f.fragIndex then s
  else
    let x := s.ingStream k
    let old := match x.parts.find? (fun (a : Partial) => a.seq == f.msgSeq) with
      | some a => a
      | none => ⟨f.msgSeq, s.deviceTime, 0, f.fragCount, []⟩
    let new : Partial := { old with ports := old.ports ||| 2 ^ p, frags := Map.set [] old.frags f.fragIndex f.data }
    let rest := x.parts.filter (fun (a : Partial) => a.seq != f.msgSeq)
    let whole := (List.range new.count).all (fun i => !(Map.get [] new.frags i).isEmpty)
    if !whole then s.modIngStream k (fun x => { x with parts := rest ++ [new] })
    else
      let s1 := s.modIngStream k (fun x => { x with parts := rest })
      match messageOf ((List.range new.count).map (fun i => Map.get [] new.frags i)).flatten with
      | some msg => s1.ingMessage k new.ports msg
      | none => s1.bumpF 6 .tsnIngCount_dropped 0 k

/-- INGRESS_FRAME: a frame on a host port passes FCS, MACsec, the Qci filter and meter, 802.1CB elimination and reassembly
(R433–R437, R440). -/
def execIngressFrame (p : Nat) (f : IngFrame) (s : State) : Result State :=
  if s.frz.stopped then .next s
  else if 2 ≤ p ∨ s.ethUp p = false then .next s
  else
    let s0 := s.bumpF 6 .ethRx_frames p
    let sec := (s.portCfg p).macsec != 0
    if !f.fcsOk then .next (s0.bumpF 6 .ethRxDrop_fcs p)
    else if sec && !f.icvOk then .next ((s0.bumpF 6 .ethMacsec_icv_fail p).macsecFail p)
    else if sec && !f.replayOk then .next ((s0.bumpF 6 .ethMacsec_replay p).macsecFail p)
    else
      match (List.range 32).find? (fun k => (s.ingCfg k).enable && (s.ingCfg k).streamId == f.streamId.toNat) with
      | none => .next (s0.bumpF 6 .ethRxDrop_filter p)
      | some k =>
        let g := s.ingCfg k
        if min 1536 g.maxSdu < f.size then .next (s0.bumpF 6 .ethRxDrop_filter p)
        else
          let (x, ok) := (s0.ingStream k).meter g s.deviceTime f.size
          let s1 := s0.modIngStream k (fun _ => x)
          if !ok then .next (s1.bumpF 6 .ethRxDrop_filter p)
          else
            let (y, keep, dup, lost) := x.recover s.deviceTime (f.rtag % 65536)
            let s2 := (s1.modIngStream k (fun _ => y)).bumpF 6 .tsnCb_lost 0 0 lost
            if dup then .next (s2.bumpF 6 .tsnCb_eliminated)
            else if keep then .next (s2.reassemble k p f) else .next s2

/-- REASSEMBLY_TIMEOUT: messages incomplete 2 ms after their first fragment are discarded and counted (R434). -/
def execReassemblyTimeout (k : Nat) (s : State) : Result State :=
  if s.frz.stopped then .next s else
  let old := (s.ingStream k).parts.filter (fun (a : Partial) => decide (a.firstDt + 1800000 ≤ s.deviceTime))
  if old.isEmpty then .next s
  else .next ((s.modIngStream k (fun x => { x with
    parts := x.parts.filter (fun (a : Partial) => !decide (a.firstDt + 1800000 ≤ s.deviceTime)) })).bumpF 6
      .tsnIngCount_dropped 0 k old.length)

/-- INGRESS_HOLD_RETRY: the oldest entry held for a ring enters it once the ring has room (R436). -/
def execIngressHoldRetry (d q : Nat) (s : State) : Result State :=
  if s.frz.stopped then .next s else
  match Map.get [] s.ringHold (holdKey d q) with
  | [] => .next s
  | l :: rest =>
    if !s.dieUp d || !s.reach 6 d || (s.ringOf d q).full (s.queue d q) then .next s
    else .next ({ s with ringHold := Map.set [] s.ringHold (holdKey d q) rest }.ringEntry d q l)

/-- CB_RESET: 100 ms without a frame, the elimination of a stream forgets its history (R420). -/
def execCbReset (k : Nat) (s : State) : Result State :=
  if s.frz.stopped then .next s else
  let x := s.ingStream k
  if x.rtagLast.isSome && decide (x.lastDt + 90000000 ≤ s.deviceTime) then
    .next (s.modIngStream k (fun x => { x with rtagLast := none, rtagSeen := [], span := 0 }))
  else .next s

/-! ### The time registers (R33, R442) -/

/-- The key of an initiator's captures: what is captured (0 wall time's upper half, 1 the epoch, 2 and up a pair's upper half)
and for whom. -/
def captureKey (who : Init) (what : Nat) : Nat := what * 2 ^ 16 + who.key

/-- Put a capture aside. -/
def State.capture (s : State) (k : Nat) (w : Word) : State := { s with captures := Map.put s.captures k w }

/-- TSN_WALL_LO_READ: wall time, live, its upper half and the epoch captured for the reader (R33, R442). -/
def execTsnWallLoRead (who : Init) (s : State) : Result State :=
  if s.frz.stopped then .next s
  else if !who.canAccess then s.readErr 27
  else
    let w := s.wall
    .next (((s.capture (captureKey who 0) (Word.ofNat (w / 2 ^ 32))).capture (captureKey who 1)
      (Word.ofNat (s.epoch % 65536))).answer (Word.ofNat w))

/-- TSN_TIME as it is now, with a given epoch. -/
def State.tsnTime (s : State) (epoch : Nat) : Word :=
  Word.ofNat (bit s.synced + 2 * bit s.time.holdover + 4 * (s.time.port % 2) + epoch % 65536 * 65536)

/-- TSN_TIME_READ: the epoch captured by the reader's TSN_WALL_LO read, which is used up; all else, and the epoch of a later
read, live (R442). -/
def execTsnTimeRead (who : Init) (s : State) : Result State :=
  if s.frz.stopped then .next s
  else if !who.canAccess then s.readErr 27
  else
    let k := captureKey who 1
    match s.captures.find? (fun (p : Nat × Word) => p.1 == k) with
    | some (_, e) => .next ({ s with captures := Map.erase s.captures k }.answer (s.tsnTime e.toNat))
    | none => .next (s.answer (s.tsnTime s.epoch))

end Sys2Proof.Machine
end

