-- ==== Sys2Proof/Machine/FrameRoot.lean ====
section
/-! DEFINITION. The frame root (chapter 03, R65–R71, R96): slot lengths, frame starts with everything that takes effect at one, and
what the hub tells the other dies of frames that a restarting die abandons (R485). -/

namespace Sys2Proof.Machine

open Sys2Proof

/-! ### Slot lengths (R65–R68) -/

/-- The phase error of a start at wall time w in ns: positive when late; halfway counts as late (R67). -/
def phaseError (w phase period : Nat) : Int :=
  let r := ((w : Int) - phase) % period
  if 2 * r ≤ period then r else r - period

/-- A correction clamped to ±n. -/
def clampTo (n : Nat) (v : Int) : Int := if v < -(n : Int) then -n else if v > n then n else v

/-- How a slot that starts at wall time w is made: its length, the length of the latest slewed slot, the phase error if it is measured,
and whether the slot is stretched (R65–R68). -/
structure SlotPlan where
  len : Nat
  slew : Nat
  err : Option Int
  stretched : Bool
  deriving DecidableEq, Repr

/-- The plan of the slot that starts at wall time `w`. -/
def State.slotPlan (s : State) (w : Nat) : SlotPlan :=
  let l := s.slotNominal
  if !s.time.everSynced || s.periodNs = 0 then ⟨l, 0, none, false⟩
  else if s.time.holdover then ⟨if s.root.lastSlew = 0 then l else s.root.lastSlew, s.root.lastSlew, none, false⟩
  else
    let e := phaseError w s.phaseNs s.periodNs
    if e.natAbs ≤ s.realignNs then
      let n := ((l : Int) - clampTo s.slewCycles (roundDiv (9 * e) 10)).toNat
      ⟨n, n, some e, false⟩
    else
      let r := ((w : Int) - s.phaseNs) % s.periodNs
      ⟨((l : Int) + roundDiv (9 * ((s.periodNs : Int) - r)) 10).toNat, s.root.lastSlew, some e, true⟩

/-! ### Abandoned frames (R485) -/

/-- The nodes of a variant that run on a frame. -/
def State.nodesOn (s : State) (v : Nat) (f : Word) : List Nat :=
  (List.range (s.variant v).nodes).filter (fun n => (s.node v n).runsOn f)

/-- The hub tells every other C-die that nodes of die `d` completed SKIPPED for frame `f`. -/
def State.tellSkipped (s : State) (d v : Nat) (f : Word) (nodes : List Nat) : State :=
  let s1 := nodes.foldl (fun (s : State) n => (s.outEdges v n).foldl (fun (s : State) e =>
    if e.die = d ∨ s.dieUp e.die = false then s
    else match e.kind with
      | .same => s.deliverEdge e.die ⟨e.node, f, true, false, 0⟩
      | .prev => s.deliverEdge e.die ⟨e.node, f + 1, true, false, 0⟩
      | _ => s) s) s
  (List.range s.nDies).foldl (fun (s : State) p => if p = d ∨ s.dieUp p = false then s else s.settle p) s1

/-! ### Latching the start (R69, R96) -/

/-- The set of contexts that ingress reports lost (R69, R139). -/
def State.lostSet (s : State) : Nat :=
  (List.range 64).foldl (fun n c => if (s.ctxCfg c).enable && (s.ctx c).lost then n + 2 ^ c else n) 0

/-- The selection for die `d`: none of a failed die. -/
def State.selection (s : State) (d lost : Nat) : Nat × Bool :=
  if (s.die d).failed then (noVariant, false) else s.selectVariant d (s.coreCount d) lost

/-- A C-die whose clusters fill fewer than seven positions is failed (R508). -/
def State.failDies (s : State) : State :=
  (List.range s.nDies).foldl (fun (s : State) d => if s.dieUp d && s.coreCount d = 0 then s.dieFails d else s) s

/-- The SEQ block of die 6 after a start (R98). -/
def State.rootRegs (s : State) (x : FrameStart) (p : SlotPlan) : State :=
  let b (s : State) (f : Fld) (v : Nat) : State := s.setF 6 f v
  let s1 := b (b s.syncRegs .seqFrStatus_running 1) .seqFrStatus_stretched (bit p.stretched)
  let s2 := b (s1.setPair 6 .seqFrStartDtLo_value .seqFrStartDtHi_value x.dt) .seqFrFrame_value x.frame.toNat
  let s3 := (s2.setPair 6 .seqFrStartWtLo_value .seqFrStartWtHi_value x.wall).setPair 6 .seqFrLostLo_value .seqFrLostHi_value x.lost
  let s4 := match p.err with
    | some e => (b s3 .seqFrPhaseErr_value (satSigned 32 e)).raise 0x0200 (satSigned 32 e)
    | none => s3
  let s5 := if p.stretched then s4.bumpF 6 .seqFrRealign_value else s4
  let v (s : State) (d : Nat) (f g : Fld) : State :=
    if d < s.nDies then b (b s f (nth 0 x.variants d)) g (bit (nth false x.uncovered d)) else s
  v (v (v (v s5 0 .seqFrVariant_var0 .seqFrVariant_unc0) 1 .seqFrVariant_var1 .seqFrVariant_unc1) 2 .seqFrVariant_var2
    .seqFrVariant_unc2) 3 .seqFrVariant_var3 .seqFrVariant_unc3

/-- The frame notice in the Cosy mailbox, least significant byte first (R460; log entry 23), over a Cosy link that is up. -/
def State.cosyNotice (s : State) (x : FrameStart) : State :=
  if !s.cosyView.linkUp then s
  else
    let wanted := s.streamsOn.foldl (fun n k => if (s.stream k).state = .main then n else n + 2 ^ k) 0
    let body := toLE 4 x.frame.toNat ++ toLE 4 0 ++ toLE 8 x.dt ++ toLE 8 x.wall ++ toLE 2 x.epoch ++ toLE 2 0 ++
      toLE 4 s.periodNs ++ toLE 8 wanted ++ List.replicate 20 0
    s.putBytes (mailboxBase + 64 * (x.frame.toNat % 64)) (body ++ toLE 4 (crc32c body).toNat)

/-! ### What clears and returns at a frame start (R448, R456, R469) -/

/-- A doubt clears at this frame start by rule F, or by the change of its die's variant (R448, R476). -/
def State.clearsNow (s : State) (x : FrameStart) (before : Option FrameStart) (d : Doubt) : Bool :=
  let c := d.cause.cls
  if c = dEARLY ∨ c = dLATE ∨ c = dCANCEL ∨ c = dPOISON_OUT ∨ c = dMACSEC ∨ c = dCAMERA then true
  else if c = dGOLDEN_MISS then (s.ctx d.cause.sub).goldClear
  else if c = dDIVERSITY then (s.pair d.cause.sub).agreed
  else if c = dUNCOVERED then !nth false x.uncovered d.cause.die
  else match d.recovery with
    | .variantChange e => match before with
      | some y => nth 0 x.variants e != nth 0 y.variants e
      | none => false
    | _ => false

/-- Streams in COSY that no latched doubt covers move to RETURNING (R456). -/
def State.returnStreams (s : State) : State :=
  s.streamsOn.foldl (fun (s : State) k =>
    if (s.stream k).state = .cosy ∧ s.doubted k = false then s.modStream k (fun y => { y with state := .returning, clean := 0 }) else s) s

/-- An accepted service mode takes effect (R469). -/
def State.modeTakesEffect (s : State) : State :=
  match s.saf.nextMode with
  | none => s
  | some out => { s with saf := { s.saf with outOfService := out, nextMode := none } }.setF 6 .safMode_mode (bit out)

/-! ### The first starts (R43, R47, R52, R63, R486) -/

/-- What the first frame start after a cold start does: the pending slot becomes active, steps of the counter are to be burned, and the
doubts that wait for it arise (R43, R47, R52, R542). -/
def State.firstStart (s : State) : State :=
  if s.boot.framed then s
  else
    let s1 := { s with boot := { s.boot with step := 10, framed := true, trial := false } }.setF 6 .bootStatus_trial 0
    let s2 := if s.boot.trial then s1.setRecord s.boot.slot none else s1
    let s3 := if s.boot.cosyLost then s2.doubt dCOSY_LINK 6 s2.root.next else s2
    (if s.boot.sealedBad then s3.doubt dSECURITY 6 s3.root.next else s3).burnRegs

/-- The first frame start after any restart is kept in BOOT_FIRST_FRAME (R63). -/
def State.firstFrameReg (s : State) (dt : Nat) : State :=
  if s.boot.restarted then s
  else { s with boot := { s.boot with restarted := true } }.setPair 6 .bootFirstFrameLo_dt .bootFirstFrameHi_dt dt

/-- C-dies that are ready after a warm restart rejoin together at this start: the restart is complete, its doubts and those of die
restarts clear, and every stream's next message carries the mark (R448, R477, R486, R489). -/
def State.warmRejoins (s : State) : State :=
  let back := (List.range s.nDies).filter (fun d => (s.die d).restart.any (fun (r : Restart) => r.warm && r.ready))
  match back with
  | [] => s
  | d :: _ =>
    let since := ((s.die d).restart.map (fun (r : Restart) => r.since)).getD 0
    let s1 := back.foldl (fun (s : State) d =>
      (s.modDie d (fun x => { x with restart := none })).setLink (.hub d) .full |>.setLink (.ring d) .full |>.loadDie d |>.configureDie d) s
    let s2 := { s1 with boot := { s1.boot with rehash := back.foldl (fun l d => setInsert d l) s1.boot.rehash } }
    let s3 := s2.clearDoubts (fun x => match x.recovery with
      | .warmRestart => true
      | .dieRestart _ => true
      | _ => false)
    ((s3.markStreams allStreams).raise 0x0101 ((s3.deviceTime - since) / 900)).ringTry

/-! ### FRAME_START -/

/-- The next frame start is due: step 9 is done and none has come yet, or the slot has run its length (R44, R66–R69). -/
def State.startDue (s : State) : Bool :=
  !s.frz.stopped && s.pwr.removal.isNone && !s.saf.framingStopped &&
    (if s.root.running then decide (s.root.startDt + s.root.slotLen ≤ s.deviceTime) else decide (s.boot.step = 9))

/-- Everything that happens at a frame start (R43, R47, R52, R65–R71, R96, R121, R126, R140, R440, R448, R456, R460, R469, R485, R486). -/
def State.startFrame (s0 : State) : State :=
  let dt := if s0.root.running then s0.root.startDt + s0.root.slotLen else s0.deviceTime
  let s1 := ((s0.firstStart.firstFrameReg dt).warmRejoins).failDies
  let f := s1.root.next
  let w := s1.wallAt dt
  let lost := s1.lostSet
  let sel := (List.range 4).map (fun d => if d < s1.nDies then s1.selection d lost else (noVariant, false))
  let x : FrameStart := ⟨f, dt, w, (s1.segAt dt).epoch, (s1.segAt dt).synced, lost, sel.map (·.1), sel.map (·.2)⟩
  let before := s1.root.starts.getLast?
  let p := s1.slotPlan w
  let all := s1.root.starts ++ [x]
  let s2 := { s1 with root := ⟨true, f + 1, p.len, p.slew, dt, all.drop (all.length - 128)⟩ }
  let s3 := ((s2.publishFrame 6).rootRegs x p).cosyNotice x
  let s4 := (List.range s3.nDies).foldl (fun (s : State) d =>
    if s.dieUp d && s.reach 6 d then s.modSeq d (fun q => { q with starts := q.starts ++ [⟨x, nth 0 x.variants d, false⟩] })
    else match (s.die d).restart with
      | some r => if r.warm then s else s.tellSkipped d (nth 0 x.variants d) f (s.nodesOn (nth 0 x.variants d) f)
      | none => s) s3
  let s5 := s4.modeTakesEffect.clearDoubts (s4.clearsNow x before)
  let s6 := (List.range s5.nDies).foldl (fun (s : State) d =>
    if nth false x.uncovered d && !s.saf.doubts.any (fun y => y.cause.cls == dUNCOVERED && y.cause.die == d) then
      s.doubt dUNCOVERED d f else s) s5
  let s7 : State := { s6 with
    saf := { s6.saf with macsecReported := [] }
    pairs := Map.mapAll DivPair.fresh s6.pairs (fun e => { e with agreed := false })
    ingress := { s6.ingress with
      positions := s6.ingress.positions.map (fun (q : PipePos) => { q with arb := none })
      ctxs := Map.mapAll Ctx.fresh s6.ingress.ctxs (fun e => { e with goldClear := false }) } }
  let s8 := ((List.range 64).filter (fun c => (s7.ctxCfg c).enable && !s7.triggered c)).foldl (fun (s : State) c => s.openWindow c f dt) s7
  s8.returnStreams.strainMask allStreams

/-- FRAME_START: at the end of a frame slot the frame root starts the next frame; a class C doubt under which the module now goes out of
service begins a cold start (R69, R448). -/
def execFrameStart (s : State) : Result State :=
  if !s.startDue then .next s
  else
    let t := s.startFrame
    .next (if t.coldWanted then t.coldBegin true else t)

end Sys2Proof.Machine
end

