-- ==== Sys2Proof/Machine/Restart.lean ====
section
/-! DEFINITION. The safety manager's actions (chapter 18, R58–R61, R64, R448, R475–R477, R483–R489): latching doubts, die restarts, warm
restarts, their escalation, the background re-hash, and BOOT_REQ. -/

namespace Sys2Proof.Machine

open Sys2Proof

/-! ### Clearing a die (R61, Table CDY-8a, R483) -/

/-- What a C-die keeps in reset: its repairs and retired units, with no unit at work; everything else is cleared. -/
def Die.cleared (x : Die) (r : Option Restart) : Die :=
  { Die.fresh with
    loaded := x.loaded
    inReset := x.inReset
    failed := x.failed
    restart := r
    units := Map.mapAll UnitState.fresh x.units (fun u => 
      { UnitState.fresh with retired := u.retired, position := u.position, suspect := u.suspect, failDt := u.failDt })
    mems := x.mems.map (fun (p : Nat × MemCtl) => (p.1, { p.2 with selfRefresh := true, uncorrectable := [] }))
    cores := Map.mapAll Core.fresh x.cores (fun c => { Core.fresh with spareRows := c.spareRows })
    cmnRows := x.cmnRows
    trackBad := x.trackBad
    trackCtr := x.trackCtr
    repairDue := x.repairDue }

/-- All eight controllers of a die in self-refresh (R415, R483). -/
def State.refreshAll (s : State) (d : Nat) : State :=
  (List.range 8).foldl (fun (s : State) k => (s.modCtl d k (fun c => { c with selfRefresh := true })).ctlRegs d k) s

/-- The watches of other dies and modules on die d, held there or met and on their way back, are refused by its restart: counted once, and to
be sent again (R260). -/
def State.refuseWatches (s : State) (d : Nat) : State :=
  let held := (s.die d).watches.map (fun (w : Watch) => Travel.mk .refused w.src d w.slot w.flag w.value w.counted)
  let met := (s.travel.filter (fun t => t.kind == .met && t.src == d)).map (fun (t : Travel) =>
    { t with kind := .refused, src := t.dst, dst := d })
  let lost := (held ++ met).filter (fun t => t.src != d)
  { s.bumpF d .flgWatch_refused 0 0 (lost.filter (fun t => !t.counted)).length with
    travel := s.travel.filter (fun t => t.src != d && (t.dst != d || t.kind == .watch || t.kind == .refused)) ++
      lost.map (fun t => { t with counted := true }) }

/-- The registers that show what the reset of a die has cleared: its queues, slots, flags and patrol (R127, R262, R264). -/
def State.clearedRegs (s : State) (d : Nat) : State :=
  let gone (k : Nat) : Bool := [Fld.dspQHead_consumer, .dspQTail_producer, .dspQDepth_depth, .flgWaiters_local].any (fun f =>
    k / 2 ^ 16 == d * 2 ^ 24 + f.base)
  let s1 : State := { s with
    regs := s.regs.filter (fun (p : Nat × Word) => !gone p.1)
    perFrame := s.perFrame.map (fun (a : FrameAcc) => if a.die = d ∧ a.kind = .level then { a with cnt := 0 } else a) }
  let s2 := (List.range 72).foldl (fun (s : State) c => s.setF d .spdPatrol_next 0 c) s1
  ((((s2.setF d .seqHeldStarts_value 0).setF d .flgErr_count 0).setF d .flgWatch_used 0).dspStatus d).seqRegs d

/-- A C-die is reset with its DRAM in self-refresh: tasks, queues, flags, commons and scratchpads are cleared; notices bound for it are
discarded, watches of it are withdrawn and watches on it refused, and entries held for its rings are discarded and counted (R61,
R260, R483, R485, R486, R488). -/
def State.resetDie (s : State) (d : Nat) (r : Restart) : State :=
  let held := (s.ringHold.filter (fun p => p.1 / 65536 == d)).map (·.2) |>.flatten
  let s1 := ((s.refuseWatches d).modDie d (fun x => x.cleared (some r))).refreshAll d
  let s2 : State := { s1 with
    dies := s1.dies.map (fun (x : Die) => { x with watches := x.watches.filter (fun w => w.src != d) })
    flags := s1.flags.filter (fun (p : Nat × Word) => p.1 / 4096 != d)
    upsets := s1.upsets.filter (fun (p : Nat × Nat) => decide (p.1 < flagWord d 0 ∨ flagWord d 4096 ≤ p.1))
    notices := s1.notices.filter (fun n => n.dst != d)
    frz := { s1.frz with mesh := s1.frz.mesh.filter (fun x => s1.homeDie x.1 != d) }
    ringHold := s1.ringHold.filter (fun p => p.1 / 65536 != d)
    boot := { s1.boot with tested := setErase d s1.boot.tested, rehash := setErase d s1.boot.rehash, restarted := false }
    ring := if s1.ring.up then { s1.ring with breakDue := true } else s1.ring }
  held.foldl (fun (s : State) l => s.bumpF 6 .tsnIngCount_dropped 0 (nth 0 l 16).toNat)
    ((s2.clearMem (chipBase d) (chipBase d + 0x40000000)).clearedRegs d)

/-- Frames whose start message had reached a die and of which a node had not completed: with the variant and those nodes (R485). -/
def State.abandoned (s : State) (d : Nat) : List (Word × Nat × List Nat) :=
  let q := (s.die d).seq
  let begun := q.frames.map (fun (g : DieFrame) =>
    (g.start.frame, g.variant, (s.nodesOn g.variant g.start.frame).filter (fun n =>
      q.toCreate.any (fun p => p.1 == n && p.2.start.frame == g.start.frame) ||
      q.insts.any (fun i => i.node == n && i.frame == g.start.frame && !i.complete))))
  let waiting := (q.starts ++ q.heldStarts).map (fun (g : DieFrame) => (g.start.frame, g.variant, s.nodesOn g.variant g.start.frame))
  (begun ++ waiting).filter (fun e => !e.2.2.isEmpty)

/-! ### DOUBT_LATCH (R447) -/

/-- DOUBT_LATCH: the safety manager latches a doubt whose cause has arisen; one that waits for a cold start brings it at once while the
module is out of service (R447, R448, R476). -/
def execDoubtLatch (d : DoubtCause) (s : State) : Result State :=
  if s.frz.stopped then .next s
  else if s.doubtDue.contains d then
    let t := { s with doubtDue := s.doubtDue.erase d }.latch d
    .next (if t.coldWanted then t.coldBegin true else t)
  else .next s

/-! ### Die restart (R59, R477, R483–R485) -/

/-- A doubt with this recovery is latched. -/
def State.calls (s : State) (r : Recovery) : Bool := s.saf.doubts.any (fun d => d.recovery == r)

/-- DIE_RESTART: the restart of a C-die that a latched doubt calls for: tasks cancelled without records, DRAM in self-refresh, the die
reset; the other dies are told of every abandoned frame (R475, R483, R485).  A warm restart that is chosen too is run in its place (R477). -/
def execDieRestart (d : Nat) (s : State) : Result State :=
  if !s.calls (.dieRestart d) || s.calls .warmRestart || !s.dieUp d then .next s
  else
    let gone := s.abandoned d
    let s1 := s.resetDie d ⟨s.deviceTime, false, false⟩
    let s2 := gone.foldl (fun (s : State) e => s.tellSkipped d e.2.1 e.1 e.2.2) s1
    let s3 := { s2 with saf := { s2.saf with dieRestartAt := Map.set 0 s2.saf.dieRestartAt d (s.deviceTime + 1) } }
    .next (((s3.setF 6 .bootRestart_last_class 1).setF 6 .bootRestart_last_die d).bumpF 6 .bootRestart_die_restarts)

/-- Everything a die needs before it can rejoin: self-test done, every controller out of self-refresh. -/
def State.dieReady (s : State) (d : Nat) : Bool :=
  s.boot.tested.contains d && (List.range 8).all (fun k => !(s.ctl d k).selfRefresh)

/-- The hub's ingress makes good the frame on which a die rejoins: records marked dropped, strip flags to be raised (R485). -/
def State.rejoinSources (s : State) (d : Nat) (f : Word) : State :=
  ((List.range 64).filter (fun c => (s.ctxCfg c).enable && testBit (s.ctxCfg c).mask d)).foldl (fun (s : State) c =>
    let (a, s1) := s.free
    let (b, s2) := s1.free
    let (e, s3) := s2.free
    let record := frameRecord f c false true false false (!s.triggered c) 0 (a % 2 ^ 64) s.deviceTime (b % 2 ^ 64) (e % 2 ^ 16)
    (s3.write (s3.bufferAt c d f) record).modCtx c (fun x => { x with raise := x.raise ++ [(d, f)] })) s

/-- DIE_REJOIN: the die is ready: it takes the latest frame started as a held start, its restart is complete, its doubts clear and its
re-hash begins (R59, R448, R485, R489).  A die whose memory fails again is failed (R397, R484). -/
def execDieRejoin (d : Nat) (s : State) : Result State :=
  match (s.die d).restart with
  | none => .next s
  | some r =>
    if r.warm || !s.dieReady d then .next s
    else if !(s.die d).testFaults.isEmpty then .next (s.dieFails d)
    else
      let scope := s.saf.doubts.foldl (fun n x => if x.recovery = .dieRestart d then n ||| x.scope else n) 0
      let s1 := ((s.modDie d (fun x => { x with restart := none })).setLink (.hub d) .full).loadDie d |>.configureDie d
      let s2 := match s1.root.starts.getLast? with
        | some x =>
          (s1.startEffect d ⟨x, nth 0 x.variants d, true⟩).rejoinSources d x.frame
        | none => s1
      let s3 := (s2.recovered (.dieRestart d)).markStreams scope
      let s4 := { s3 with boot := { s3.boot with rehash := setInsert d s3.boot.rehash } }.raise 0x0100 ((s.deviceTime - r.since) / 900)
      .next s4.ringTry

/-- DIE_RESTART_ESCALATE: 30 ms after its decision a die restart that is not complete becomes a warm restart (R477). -/
def execDieRestartEscalate (d : Nat) (s : State) : Result State :=
  if s.frz.stopped then .next s else
  match (s.die d).restart with
  | none => .next s
  | some r =>
    if r.warm = false ∧ r.since + 27000000 ≤ s.deviceTime then
      .next { s with saf := { s.saf with doubts := s.saf.doubts.map (fun x =>
        if x.recovery = .dieRestart d then { x with recovery := .warmRestart } else x) } }
    else .next s

/-! ### Warm restart (R60, R477, R486) -/

/-- Restarts have failed: dies 0–3 stay in reset with FAULT_N, and a SELFTEST doubt covers every stream until the next cold start
(R477). -/
def State.giveUp (s : State) : State :=
  let s1 : State := { s with
    saf := { s.saf with dead := true }
    dies := s.dies.map (fun (x : Die) => { x with inReset := true, restart := none }) }
  (s1.fault true).latch ⟨dSELFTEST, 6, 0, .dead, s1.frame⟩

/-- A warm restart begins on every C-die that is not failed; a third within 60 s gives up (R60, R477, R486). -/
def State.warmBegin (s : State) : State :=
  let recent := s.saf.warmAt.filter (fun t => decide (s.deviceTime < t + 54000000000))
  if 2 ≤ recent.length then s.giveUp
  else
    let s1 := { s with saf := { s.saf with warmAt := s.deviceTime :: recent } }
    let s2 := (List.range s.nDies).foldl (fun (s : State) d =>
      if (s.die d).failed then s else s.resetDie d ⟨s.deviceTime, true, false⟩) s1
    (s2.setF 6 .bootRestart_last_class 2).bumpF 6 .bootRestart_warm_restarts

/-- A warm restart is in progress. -/
def State.warming (s : State) : Bool := s.dies.any (fun (x : Die) => x.restart.any (fun (r : Restart) => r.warm))

/-- WARM_RESTART: the warm restart that a latched doubt calls for (R476, R486). -/
def execWarmRestart (s : State) : Result State :=
  if s.frz.stopped then .next s
  else if !s.calls .warmRestart || s.warming || s.saf.dead || !s.boot.framed then .next s else .next s.warmBegin

/-- The reload region of a die holds the ten sections as the manifest hashes them; poison in it is no match (R60; log entry 98). -/
def State.reloadIntact (s : State) (d : Nat) : Bool :=
  (List.range 10).all (fun k =>
    let e := nth ⟨0, 0, 0, 0, 0, 0⟩ s.sections k
    let a := (s.reloadAt d).1 + s.reloadOff k
    !s.poisonIn a e.length && sha256 (s.bytesAt a e.length) == e.hash)

/-- A die's WEIGHTS copy is as the manifest hashes it. -/
def State.weightsIntact (s : State) (d : Nat) : Bool :=
  let e := nth ⟨0, 0, 0, 0, 0, 0⟩ s.sections 10
  !s.poisonIn (dramBase d + e.load) e.length && sha256 (s.bytesAt (dramBase d + e.load) e.length) == e.hash

/-- WARM_REJOIN: every C-die that is not failed is ready, its reload region hashed again: the hub sections are reloaded (R50), and they rejoin
at the next frame start.  A mismatch
leads to a cold start (R60, R486).  A die whose memory fails again is failed (R397, R484). -/
def execWarmRejoin (s : State) : Result State :=
  let mine := (List.range s.nDies).filter (fun d => (s.die d).restart.any (fun (r : Restart) => r.warm && !r.ready))
  if mine.isEmpty || !mine.all (fun d => s.dieReady d) then .next s
  else if !mine.all (fun d => s.reloadIntact d) then .next (s.coldBegin true)
  else .next ((mine.foldl (fun (s : State) d =>
    if !(s.die d).testFaults.isEmpty then s.dieFails d
    else s.modDie d (fun x => { x with restart := x.restart.map (fun (r : Restart) => { r with ready := true }) })) s).loadHub)

/-- WARM_RESTART_TIMEOUT: a warm restart without its frame start after 250 ms gives up (R477). -/
def execWarmRestartTimeout (s : State) : Result State :=
  if s.frz.stopped then .next s
  else if s.dies.any (fun (x : Die) => x.restart.any (fun (r : Restart) => r.warm && decide (r.since + 225000000 ≤ s.deviceTime))) then
    .next s.giveUp
  else .next s

/-- REHASH_COMPLETE: the background re-hash of a die's reload region and WEIGHTS ends; a mismatch is a doubt (R59, R60). -/
def execRehashComplete (d : Nat) (s : State) : Result State :=
  if s.frz.stopped then .next s
  else if !s.boot.rehash.contains d then .next s
  else
    let s1 := { s with boot := { s.boot with rehash := setErase d s.boot.rehash } }
    .next (if s.reloadIntact d && s.weightsIntact d then s1 else s1.doubt dREHASH d s1.frame)

/-! ### A hub failure (R487) -/

/-- HUB_LOCKSTEP_FAIL: output framing stops at the fragment boundary, dies 0–6 are held in reset and FAULT_N is asserted; the Cosy
goes on (R487). -/
def execHubLockstepFail (s : State) : Result State :=
  if s.frz.stopped then .next s else
  let t := s.mainReset false
  .next ({ t with saf := { t.saf with framingStopped := true, dead := true } }.fault true)

/-! ### BOOT_REQ (R64) -/

/-- BOOT_REQ_WARM: a request for a warm restart, honoured only out of service (R64).  DESIGN CHOICE (log entry 64): one that comes out of service
while a warm restart is in progress, or after restarts were given up, is dropped without an event. -/
def execBootReqWarm (who : Init) (s : State) : Result State :=
  if s.frz.stopped then .next s
  else if !who.canAccess then hostErr s 27
  else if !s.privileged who then .next s.viewMiss
  else if !s.saf.outOfService then .next (s.raise 0x0103 1)
  else if s.warming || s.saf.dead then .next s
  else .next s.warmBegin

/-- BOOT_REQ_COLD: a request for a cold start, which wins over a warm one in the same write (R64). -/
def execBootReqCold (who : Init) (alsoWarm : Bool) (s : State) : Result State :=
  if s.frz.stopped then .next s
  else if !who.canAccess then hostErr s 27
  else if !s.privileged who then .next s.viewMiss
  else if !s.saf.outOfService then .next (s.raise 0x0103 (2 + bit alsoWarm))
  else .next (s.coldBegin true)

end Sys2Proof.Machine
end

