-- ==== Sys2Proof/Machine/Bist.lean ====
section
/-! DEFINITION. Self-test, repair and spares while the module runs (chapter 19): rotation, slices, segments, coverage, row
repair, repair records and checker tests. -/

namespace Sys2Proof.Machine

open Sys2Proof

/-! ### What the BIST block latches (R510) -/

/-- Latch a failure in BIST_FAIL_LAST if it is armed; a memory failure with its place. -/
def State.latchBist (s : State) (d u : Nat) (r : SliceResult) : State :=
  if s.getF d .bistFailLast_valid = 1 then s
  else
    let s1 := ((s.setF d .bistFailLast_unit u).setF d .bistFailLast_kind r.kind).setF d .bistFailLast_valid 1
    if r.kind ≠ 2 then s1
    else (((s1.setF d .bistFailMem_memory r.memory).setF d .bistFailMem_bank r.bank).setF d .bistFailMem_row r.row).setF d
      .bistFailBit_bit r.bitNo

/-- A latch that names a unit and a kind alone. -/
def SliceResult.ofKind (k : Nat) : SliceResult := ⟨false, k, 0, 0, 0, 0⟩

/-! ### Units out of and in service (R495–R498, R507) -/

/-- A unit is diagnosed and retired.  The spare of its group takes the position it holds; with none the position is unserved (R507). -/
def State.retireSpared (s : State) (d u : Nat) : State :=
  match unitGroup u, (s.unit d u).position with
  | some g, some p =>
    match s.spare d g with
    | some v =>
      let s1 := if u < 72 then s.migrate d u v else s
      let s2 := (s1.modUnit d u (fun x => { x with position := none })).retire d u
      s2.modUnit d v (fun x => { x with position := some p, underTest := false, abandoned := x.underTest })
    | none => s.retire d u
  | _, _ => s.retire d u

/-- The schedulable cores of the variant in effect on a die; of the die itself before the first. -/
def State.variantCores (s : State) (d : Nat) : Nat :=
  match (s.die d).seq.loaded with
  | some v => (s.variant v).cores
  | none => s.coreCount d

/-- A pipe is diagnosed: its position is handed over to the spare and the pipe retired (R156). -/
def State.pipeFails (s : State) (k : Nat) : State :=
  match s.pipePos k with
  | some p => (s.modTest k (fun t => { t with underTest := false })).askHandover p true
  | none => s.retirePipe k

/-- Arithmetic cycles of a unit's slice (R494). -/
def sliceCycles (d u : Nat) : Nat := if d = 6 then 2700000 else if u < 72 then 4208048 else 3600000

/-- The unit of a group that has passed its slice and waits for a position. -/
def State.tested (s : State) (d g : Nat) : Option Nat :=
  (s.alive d g).find? (fun u =>
    let x := s.unit d u
    x.position.isNone && !x.underTest && !x.targeted && !x.forced)

/-- One step of a group's rotation at its next position: that of a unit whose slice was abandoned, else q, which then advances (R496, R498,
R499).  It waits for the position's task to end (R497). -/
def State.rotate (s : State) (d g t : Nat) : State :=
  let ps := groupPositions (s.variantCores d) g
  let q := Map.get 0 (s.die d).rotation g
  let back := (s.alive d g).find? (fun u => (s.unit d u).abandoned && (s.unit d u).position.isSome)
  let p := match back with
    | some u => ((s.unit d u).position).getD 0
    | none => nth 0 ps q
  let advance (s : State) : State := s.modDie d (fun x =>
    let m := Map.modify 0 x.rotation (g + 100) (· + 1)
    { x with rotation := if nth 0 ps q = p then Map.set 0 m g ((q + 1) % ps.length) else m })
  match s.holder d p with
  | some h =>
    if (s.unit d h).running.isSome || (s.unit d h).forced || (s.unit d h).segmentOpen then s
    else
      let s1 := if h < 72 then s.migrate d h t else s
      let s2 := s1.modUnit d h (fun x =>
        { x with position := none, underTest := true, targeted := false, abandoned := false, testDt := s.deviceTime })
      advance (s2.modUnit d t (fun x => { x with position := some p }))
  | none => advance (s.fill d g (s.variantCores d) p)

/-- ROTATION_STEP: at a grid point, or at the slice's end after it, the tested unit takes the next position and its holder goes under test
(R496, R499).  On die 6 a handover of the next position's pipe is asked for. -/
def execRotationStep (d g : Nat) (s : State) : Result State :=
  if s.frz.stopped then .next s
  else if d = 6 then
    match s.sparePipe with
    | none => .next s
    | some k =>
      if (Map.get PipeTest.fresh s.ingress.tests k).underTest || s.ingress.rotGrid * 4500000 > s.deviceTime || s.boot.step < 9 then .next s
      else .next ((s.askHandover s.ingress.rotQ false).modIng (fun i =>
        { i with rotQ := (i.rotQ + 1) % 4, rotGrid := i.rotGrid + 1 }))
  else if !s.dieUp d || 13 ≤ g || gridIndex g s.deviceTime ≤ Map.get 0 (s.die d).rotation (g + 100) then .next s
  else match s.tested d g with
    | none => .next s
    | some t => .next (s.rotate d g t)

/-! ### Slices (R494, R495, R498, R502) -/

/-- A scratchpad or store row that a March test found is queued for repair (R503): memory 0 scratchpad, 2 and 3 the stores, whose banks the
repair records number together (log entry 80). -/
def State.queueRow (s : State) (d u : Nat) (r : SliceResult) : State :=
  if 72 ≤ u then s
  else if r.memory = 0 then s.modCore d u (fun c => { c with repairQueue := setInsert (r.row * 16 + r.bank) c.repairQueue })
  else if r.memory = 2 ∨ r.memory = 3 then
    s.modCore d u (fun c => { c with repairQueue := setInsert (2 ^ 20 + r.row * 64 + r.bank % 32 + 32 * (r.memory - 2)) c.repairQueue })
  else s

/-- A unit has passed a whole slice: its coverage interval begins anew, one whose targeted slice it was is suspect, and a forced slice
clears its doubt (R498, R502). -/
def State.slicePassed (s : State) (d u : Nat) : State :=
  let x := s.unit d u
  let s1 := s.modUnit d u (fun y =>
    { y with underTest := false, targeted := false, forced := false, abandoned := false, uncovered := false, segments := 0
             fullDt := s.deviceTime, suspect := x.suspect || x.targeted })
  if x.uncovered then s1.recovered (.forcedSlice d u) else s1

/-- The March test of a core's slice has run over its scratchpad, and leaves there what the spec does not state (Table BST-2; log entry 99). -/
def State.marched (s : State) (d c : Nat) : State :=
  let v (i : Nat) : Nat := Config.unpredictable s.freeCtr i
  (List.range (v 0)).foldl (fun (s : State) i =>
    s.spoilByte (spdBase d c + v (2 * i + 1) % 0x60000) (BitVec.ofNat 8 (v (2 * i + 2))) false) { s with freeCtr := s.freeCtr + 1 }

/-- SLICE_DONE: a slice ends.  A pass may leave rows to repair; a failure retires the unit (R495, R503). -/
def execSliceDone (d u : Nat) (r : SliceResult) (s : State) : Result State :=
  if s.frz.stopped then .next s
  else if d = 6 then
    let t := Map.get PipeTest.fresh s.ingress.tests u
    if 5 ≤ u || !t.underTest || s.deviceTime < t.since + sliceCycles 6 u then .next s
    else if r.pass then .next ((s.modTest u (fun t => { t with underTest := false, fullDt := s.deviceTime })).recovered (.forcedSlice 6 u))
    else .next ((s.latchBist 6 u r).pipeFails u)
  else
    let x := s.unit d u
    if !s.dieUp d || 85 ≤ u || !(x.underTest || (x.forced && x.running.isNone)) || s.deviceTime < x.testDt + sliceCycles d u then .next s
    else
      let s1 := if u < 72 then s.marched d u else s
      if r.pass then .next ((if r.kind = 2 then (s1.latchBist d u r).queueRow d u r else s1).slicePassed d u)
      else .next ((s1.latchBist d u r).retireSpared d u)

/-! ### Segments (R500, R501) -/

/-- Arithmetic cycles of a unit's next segment. -/
def UnitState.segmentCycles (x : UnitState) : Nat := if x.segments = 16 then 8192 else 266304

/-- Device time lies in a test window of the die, and `n` cycles end before it closes (R500, R554). -/
def State.inTestWindow (s : State) (d n : Nat) : Bool :=
  match (s.die d).seq.frames.getLast? with
  | none => false
  | some g =>
    let t := s.deviceTime - g.start.dt
    (List.range 4).any (fun w =>
      let o := 0x100 + 64 * d + 16 + 4 * w
      let a := s.cad secPOWER o 2 * 1024
      let b := s.cad secPOWER (o + 2) 2 * 1024
      decide (a ≤ t ∧ t + n ≤ b))

/-- SEGMENT_START: a segment of a degraded group's unit that was tested longest ago is admitted in a test window, with its position free
and every candidate list empty (R500). -/
def execSegmentStart (d u : Nat) (s : State) : Result State :=
  let x := s.unit d u
  match unitGroup u, x.position with
  | some g, some p =>
    if s.dieUp d && s.degraded d g && s.unitFree d u && (s.alive d g).all (fun v => decide (x.fullDt ≤ (s.unit d v).fullDt)) &&
        (candidateLists p).all (fun c => (s.readyList d c.1).isEmpty) && s.inTestWindow d x.segmentCycles then
      .next (s.modUnit d u (fun y => { y with segmentOpen := true, testDt := s.deviceTime }))
    else .next s
  | _, _ => .next s

/-- SEGMENT_DONE: a segment ends and the signature accumulates; the seventeenth completes the slice, and a failure retires the unit
(R495, R500). -/
def execSegmentDone (d u : Nat) (r : SliceResult) (s : State) : Result State :=
  let x := s.unit d u
  if !s.dieUp d || !x.segmentOpen || s.deviceTime < x.testDt + x.segmentCycles then .next s
  else if !r.pass then .next ((s.latchBist d u r).retireSpared d u)
  else
    let s1 := s.modUnit d u (fun y => { y with segmentOpen := false, segments := y.segments + 1 })
    .next (if x.segments = 16 then s1.slicePassed d u else s1)

/-! ### Coverage and suspicion (R498, R502) -/

/-- COVERAGE_EXPIRY: a unit without a passed slice for 1,000 ms raises SELFTEST and is to take a forced slice at its next task boundary
(R502). -/
def execCoverageExpiry (d u : Nat) (s : State) : Result State :=
  if s.frz.stopped then .next s
  else if d = 6 then
    let t := Map.get PipeTest.fresh s.ingress.tests u
    let known := s.saf.doubts.any (fun x => x.recovery == .forcedSlice 6 u)
    if 5 ≤ u || s.ingress.retired.contains u || s.boot.step < 9 || known || s.deviceTime < t.fullDt + 900000000 then .next s
    else .next (((s.latchBist 6 u (.ofKind 5)).modTest u (fun t =>
      if t.underTest then t else { t with underTest := true, since := s.deviceTime })).doubt dSELFTEST 6 s.frame u .coverage)
  else
    let x := s.unit d u
    if !s.dieUp d || 85 ≤ u || x.retired || x.uncovered || s.deviceTime < x.fullDt + 900000000 then .next s
    else .next (((s.latchBist d u (.ofKind 5)).modUnit d u (fun y =>
      if y.underTest then { y with uncovered := true }
      else { y with uncovered := true, forced := true, segmentOpen := false, testDt := s.deviceTime })).doubt dSELFTEST d s.frame u
        .coverage)

/-- SUSPECT_CLEAR: 10 s without a check failure clear a suspect unit's mark (R498). -/
def execSuspectClear (d u : Nat) (s : State) : Result State :=
  if s.frz.stopped then .next s else
  let x := s.unit d u
  if x.suspect = true ∧ x.failDt + 9000000000 ≤ s.deviceTime then
    .next (s.modUnit d u (fun y => { y with suspect := false }))
  else .next s

/-! ### Row repair and repair records (R252, R503, R504) -/

/-- A queued commons row is mapped to a free spare row of its bank; one with none left stays queued. -/
def State.repairCommons (s : State) (d q : Nat) : State :=
  let r := s.repairCmnRow d (q % 64) (q / 64)
  if r.2 then r.1.modDie d (fun x => { x with cmnQueue := setErase q x.cmnQueue }) else s.cmnExhausted d (q % 64)

/-- A core's queued row is mapped to a free spare row of its bank; with none left the core is retired. -/
def State.repairCore (s : State) (d c q : Nat) : State :=
  let s1 := s.modCore d c (fun x => { x with repairQueue := setErase q x.repairQueue })
  let r := if 2 ^ 20 ≤ q then s1.repairCoreRow d c (64 + q % 64) (q % 2 ^ 20 / 64) else s1.repairCoreRow d c (q % 16) (q / 16)
  if r.2 then r.1 else s1.retire d c

/-- ROW_REPAIR: one queued row of a die is repaired: a commons row at once, a core's when the core is out of scheduled service.  A commons
row with no spare left stays in use, which is a doubt (R252, R503). -/
def execRowRepair (d : Nat) (s : State) : Result State :=
  if !s.dieUp d then .next s
  else
    let x := s.die d
    match x.cmnQueue.find? (fun q => (s.repairCmnRow d (q % 64) (q / 64)).2 || s.getF d .cmnSpare_exhausted 0 (q % 64) == 0) with
    | some q => .next (s.repairCommons d q)
    | none =>
      match (List.range 72).find? (fun c => !(s.core d c).repairQueue.isEmpty && (s.unit d c).position.isNone &&
          !(s.unit d c).retired) with
      | some c => .next (s.repairCore d c (nth 0 (s.core d c).repairQueue 0))
      | none => .next s

/-- One repair record is written with its CRC (Table BST-4). -/
def State.logRepair (s : State) (d : Nat) (r : List Byte) : State :=
  ({ s with flash := { s.flash with repairs := s.flash.repairs ++ [r ++ toLE 4 (crc32c r).toNat] } }).bumpF d .bistRepairs_written

/-- The first repair record that waits, and the state without it: those of the C-dies in turn, then the hub's. -/
def State.nextRepair (s : State) : Option (Nat × List Byte × State) :=
  match (List.range s.nDies).find? (fun d => !(s.die d).repairDue.isEmpty) with
  | some d => some (d, nth [] (s.die d).repairDue 0, s.modDie d (fun x => { x with repairDue := x.repairDue.drop 1 }))
  | none =>
    match s.ingress.repairDue with
    | [] => none
    | r :: l => some (6, r, s.modIng (fun i => { i with repairDue := l }))

/-- REPAIR_RECORD_WRITE: the record of a repair or a retirement is appended to the repair log (R504). -/
def execRepairRecordWrite (s : State) : Result State :=
  if s.frz.stopped then .next s else
  match s.nextRepair with
  | none => .next s
  | some (d, r, t) => .next (t.logRepair d r)

/-- Write every repair record that waits, as a removal asks for (R504). -/
def State.flushRepairs (s : State) : State :=
  let s1 := (List.range s.nDies).foldl (fun (s : State) d =>
    (s.die d).repairDue.foldl (fun (s : State) r => s.logRepair d r) s |>.modDie d (fun x => { x with repairDue := [] })) s
  (s1.ingress.repairDue.foldl (fun (s : State) r => s.logRepair 6 r) s1).modIng (fun i => { i with repairDue := [] })

/-! ### Checker tests (R505, R506) -/

/-- A failed checker test: a unit with a spare is retired; a C-die restarts; the hub asks for a warm restart, and only once (R506). -/
def State.checkerFails (s : State) (d : Nat) (k : CheckerAt) : State :=
  let hub (s : State) : State :=
    if s.saf.hubCheckFailed then s.doubt dSELFTEST 6 s.frame 0 .hubCheckerAgain
    else { s with saf := { s.saf with hubCheckFailed := true } }.doubt dSELFTEST 6 s.frame 0 .hubChecker
  match k with
  | .ofUnit u => if d = 6 then s.pipeFails u else s.retireSpared d u
  | .golden => hub s
  | .diversity => hub s
  | .lockstep => hub s
  | _ => s.doubt dSELFTEST d s.frame 0 .checker

/-- The checker exists on the die: units and hub comparators on theirs (Table BST-3). -/
def CheckerAt.on (k : CheckerAt) (d : Nat) : Bool :=
  match k with
  | .ofUnit u => if d = 6 then decide (u < 5) else decide (u < 85)
  | .golden | .diversity | .lockstep => d == 6
  | _ => d != 6

/-- CHECKER_TEST: a checker is exercised by an injection in its input path, and the result counted (R505, R506). -/
def execCheckerTest (d : Nat) (k : CheckerAt) (pass : Bool) (s : State) : Result State :=
  if s.frz.stopped then .next s
  else if !(if d = 6 then decide (3 ≤ s.boot.step) else s.dieUp d) || !k.on d then .next s
  else
    let s1 := s.bumpUnits d .bistChecker_run 1024 1
    if pass then .next s1
    else
      let s2 := s1.bumpF d .bistChecker_failed
      .next ((match k with
        | .ofUnit u => s2.latchBist d u (.ofKind 3)
        | _ => s2).checkerFails d k)

end Sys2Proof.Machine
end

