-- ==== Sys2Proof/Machine/Dma.lean ====
section
/-! DEFINITION. The DMA engines: channels and rings, descriptors and their completion, pause, halt and exact resume, host ingress
pops, and the end of DMA tasks (chapter 14). -/

namespace Sys2Proof.Machine

open Sys2Proof

/-! ### Channels, rings and descriptors (R370–R373) -/

/-- The channel number of a reference within its die, and its ring. -/
def ChanRef.num (c : ChanRef) : Nat := c.eng * 64 + c.ch
def ChanRef.ring (c : ChanRef) : Nat := 0x400 + c.num

/-- A channel that has a ring on a die that runs. -/
def State.chanUsed (s : State) (c : ChanRef) : Bool :=
  s.dieUp c.die && decide (c.eng < 8 ∧ c.ch < 64 ∧ c.num < (s.plan c.die).dma)

/-- The params of a ring: fed by the sequencer, safety class, and the completion queue of a SOFTWARE ring (Table DMA-1). -/
def State.ringFed (s : State) (c : ChanRef) : Bool := testBit (s.queue c.die c.ring).params 0
def State.ringSafety (s : State) (c : ChanRef) : Bool := testBit (s.queue c.die c.ring).params 1
def State.ringCq (s : State) (c : ChanRef) : Nat := bits (s.queue c.die c.ring).params 16 14

/-- The channel's state. -/
def State.dma (s : State) (c : ChanRef) : DmaChan := s.chan c.die c.num

/-- Change it. -/
def State.modDma (s : State) (c : ChanRef) (f : DmaChan → DmaChan) : State := s.modChan c.die c.num f

/-- A descriptor (Table DMA-2). -/
structure Desc where
  op : Nat
  flags : Nat
  flag : Nat
  flagDie : Nat
  flagValue : Nat
  src : Nat
  dst : Nat
  aux : Nat
  length : Nat
  id : Nat
  deriving DecidableEq, Repr

/-- The address of the channel's head descriptor. -/
def State.headAddr (s : State) (c : ChanRef) : Nat :=
  let e := s.queue c.die c.ring
  e.base + 64 * ((s.dma c).index % e.size)

/-- A descriptor in its 64 bytes. -/
def Desc.ofBytes (l : List Byte) : Desc :=
  let n (o k : Nat) : Nat := leNat ((l.drop o).take k)
  ⟨n 0 1, n 1 1, bits (n 2 2) 0 12, bits (n 2 2) 12 3, n 4 4, n 8 5, n 0x10 5, n 0x18 8, n 0x20 4, bits (n 0x24 4) 0 24⟩

/-- What a channel reads when it starts a descriptor: its 64 bytes, and the tensor descriptors that a COPY, GATHER, SCATTER or SCATTER_ADD
names (R265, R374). -/
def State.descBytes (s : State) (a : Nat) : List Byte :=
  let l := s.read a 64
  let x := Desc.ofBytes l
  if x.op = 1 then l ++ s.read x.src 128 ++ s.read x.dst 128
  else if 4 ≤ x.op ∧ x.op ≤ 6 then l ++ s.read x.src 128 ++ s.read x.dst 128 ++ s.read (x.aux % 2 ^ 40) 128
  else l

/-- The channel's head descriptor as it was read, or as it would be read now. -/
def State.headBytes (s : State) (c : ChanRef) : List Byte := ((s.dma c).held).getD (s.descBytes (s.headAddr c))
def State.head (s : State) (c : ChanRef) : Desc := Desc.ofBytes (s.headBytes c)

/-- The head descriptor is in progress, or hardware-owned. -/
def State.owned (s : State) (c : ChanRef) : Bool :=
  (s.dma c).held.isSome || testBit (s.byteRead (s.headAddr c + 1)).toNat 0

/-- The channel can start or go on with its head descriptor (R380). -/
def State.canStart (s : State) (c : ChanRef) : Bool :=
  let x := s.dma c
  s.dieUp c.die && s.chanUsed c && x.recordDue.isNone && ((x.state == .idle && (x.pending || x.more)) || x.state == .active)

/-! ### Moves of a descriptor -/

/-- A descriptor's granules in transfer order (R382), how they are performed, its out-of-range count, and what poison its indices carry. -/
structure DescMoves where
  moves : List Move
  add : Option Nat
  oor : Nat
  index : Taint
  deriving DecidableEq, Repr

/-- Granules of a range of bytes with or without a source. -/
def linearMoves (dst n : Nat) (f : Nat → Nat → Option Nat × List Byte) : List Move :=
  (List.range ((n + 63) / 64)).map (fun k =>
    let len := min 64 (n - 64 * k)
    let r := f k len
    ⟨dst + 64 * k, r.1, if r.1.isSome then len else 0, r.2, 0, none, 0, 0⟩)

/-- A length and address that LINEAR and FILL take. -/
def aligned16 (n a : Nat) : Bool := n % 16 == 0 && decide (16 ≤ n) && a % 16 == 0

/-- The place of local offsets for a unit that may use none (R270). -/
def noLocal : LocalAt := ⟨0, 0, 0⟩

/-- The moves of a data descriptor as the channel has read it; none for one that the rules call an error of the host's own making. -/
def State.descMoves (s : State) (l : List Byte) : Option DescMoves :=
  let x := Desc.ofBytes l
  let a := TDesc.ofBytes (l.drop 64)
  let b := TDesc.ofBytes (l.drop 192)
  let ix := TDesc.ofBytes (l.drop 320)
  let at2 := descPlace x.src && descPlace x.dst && !a.isLocal && !b.isLocal
  let at3 := at2 && descPlace (x.aux % 2 ^ 40) && !ix.isLocal
  let go (ms : List Move) (add : Option Nat) (oor : Nat) : Option DescMoves :=
    if ms.all (fun m => s.moveOk m) then some ⟨ms, add, oor, if x.op < 4 then Taint.none else s.indexTaint ix noLocal⟩ else none
  match x.op with
  | 0x1 => if at2 && copyable a b then go (copyMoves (Side.of a noLocal) (Side.of b noLocal)) none 0 else none
  | 0x2 => if aligned16 x.length x.dst && x.src % 16 == 0 then
      go (linearMoves x.dst x.length (fun k _ => (some (x.src + 64 * k), []))) none 0 else none
  | 0x3 => if aligned16 x.length x.dst then
      go (linearMoves x.dst x.length (fun _ n => (none, ((List.replicate 8 (toLE 8 x.aux)).flatten).take n))) none 0 else none
  | 0x4 =>
    if at3 && gatherOk a b ix then
      let r := s.gatherMoves (Side.of a noLocal) (Side.of b noLocal) (s.indices ix noLocal)
      go r.1 none r.2
    else none
  | 0x5 =>
    if at3 && gatherOk b a ix then
      let r := scatterMoves (Side.of a noLocal) (Side.of b noLocal) (s.indices ix noLocal)
      go r.1 none r.2
    else none
  | 0x6 =>
    if at3 && gatherOk b a ix && (b.format == 0xB || b.format == 0xC) then
      let r := scatterMoves (Side.of a noLocal) (Side.of b noLocal) (s.indices ix noLocal)
      go r.1 (some b.format) r.2
    else none
  | _ => none

/-- The rule that an ill-formed data descriptor breaks. -/
def dmaRule (op : Nat) : Nat := if op = 1 then 374 else if op ≤ 3 then 373 else if op = 6 then 290 else 286

/-- A granule is confirmed by the exact registers of a stop (R382). -/
def DmaChan.confirmed (x : DmaChan) (k : Nat) : Bool :=
  decide (64 * k < x.offset) || (decide (k < x.offset / 64 + 64) && x.mask.getLsbD (k - x.offset / 64))

/-- Perform the granules that `pick` selects. -/
def State.doGranules (s : State) (m : DescMoves) (pick : Nat → Bool) : State × Taint :=
  let ms := ((List.range m.moves.length).filter pick).map (fun k => m.moves.getD k ⟨0, none, 0, [], 0, none, 0, 0⟩)
  ms.foldl (fun (x : State × Taint) mv =>
    let r := match m.add with
      | some f => x.1.addMove f mv
      | none => x.1.doMove mv
    ((r.1.countSource mv).countRemote mv.dst (mv.len + mv.fill.length), x.2.or r.2)) (s, Taint.none)

/-! ### Completion (R377, R378) and DMA tasks (R386, R389, R479) -/

/-- The task in slot k has had a descriptor completed. -/
def State.taskDescDone (s : State) (c : ChanRef) (k oor : Nat) (poison hard : Bool) : State :=
  let d := c.die
  let s1 := s.modSlot d k (fun y => { y with dmaDone := y.dmaDone + 1, dmaOor := cap 0xFFFF (y.dmaOor + oor),
                                             dmaPoison := y.dmaPoison || poison, dmaHard := y.dmaHard || hard })
  match s1.slot d k with
  | none => s1
  | some y =>
    if y.dmaDone < y.dmaCount then s1
    else if y.stopped then s1.endTask d k 200 y .timeout y.dmaOor
    else if !y.dmaPoison then s1.endTask d k 200 y (if y.substitute then .substituted else .done) y.dmaOor
    else if !y.dmaHard then s1.endTask d k 200 y .poisoned y.dmaOor
    else if y.dmaScattered || decide (0 < y.reexec) then s1.unrecovered d k 200 y y.dmaOor
    else State.dmaAppend 17 (s1.modSlot d k (fun z => { z with reexec := 1, dmaAppended := 0, dmaDone := 0, dmaOor := 0,
                                                               dmaPoison := false, dmaHard := false })) d k

/-- Steps 4 and 5 of R377 and the move to the next descriptor: `idx` is the next index.  A full completion queue holds the channel
at step 4. -/
def State.dmaFinish (s : State) (c : ChanRef) (x : Desc) (status oor : Nat) (next : Nat) (retry : Bool) : State :=
  let d := c.die
  let cq := s.ringCq c
  let wants := testBit x.flags 1 && !s.ringFed c && cq != 0 && s.queueKind d cq == .cq
  if wants && s.cqFull d cq then
    let s1 := if retry then s else s.bumpF d .dspQRefused_count 0 cq
    s1.modDma c (fun y => { y with state := .active, recordDue := some (status + oor * 256 + next * 2 ^ 32) })
  else
    let code := if 128 ≤ status then 3 else if status = 0 then 0 else if status = 3 then 7 else 1
    let f := ((s.die d).seq.frames.getLast?.map (fun g => g.start.frame)).getD 0
    let rec_ := toLE 4 (x.id + code * 2 ^ 24) ++ toLE 4 f.toNat ++ toLE 4 (s.deviceTime % 2 ^ 32) ++
      toLE 4 (d + 6 * 8 + c.eng * 128 + cap 0xFFFF oor * 2 ^ 16)
    let s1 := if wants then s.appendRing d cq rec_ else s
    let s2 := if testBit x.flags 2 then s1.flagPost (dmaKey d) d x.flagDie x.flag (Word.ofNat x.flagValue) else s1
    let s3 := s2.modDma c (fun y =>
      { y with state := .idle, more := true, index := next, offset := 0, mask := 0, noresp := false, poison := false, hard := false,
               recordDue := none, held := none })
    if s3.owned c then s3 else s3.modDma c (fun y => { y with more := false })

/-- A descriptor completes: status, oor and time are written, codeword 0 with owner = 0, then the rest; a task's descriptor counts
towards its end. -/
def State.dmaComplete (s : State) (c : ChanRef) (x : Desc) (status oor next : Nat) : State :=
  let d := c.die
  let a := s.headAddr c
  let y := s.dma c
  let st := status + (if y.poison then 128 else 0)
  let s1 := (s.write (a + 0x30) (toLE 1 st ++ [0] ++ toLE 2 (cap 0xFFFF oor) ++ toLE 4 0 ++ toLE 8 s.deviceTime)).disown a
  let s2 := ((s1.bumpF d .dmaChDone_done c.eng c.ch).addFrame d .dmaLoad_descs 1 1 c.eng)
  let s3 := if y.poison then s2.bumpF d .dmaChErr_poison c.eng c.ch else s2
  let s4 := s3.dmaFinish c x st oor next false
  match (Map.get [] (s.die d).seq.dmaOwners c.ring) with
  | some k :: rest =>
    if s.ringFed c then
      (((s4.modSeq d (fun q => { q with dmaOwners := Map.set [] q.dmaOwners c.ring rest })).popRing d c.ring).passStopped d c.ring).taskDescDone
        c k oor y.poison y.hard |>.settle d
    else s4
  | _ => s4

/-- The next index in ring order. -/
def State.nextIndex (s : State) (c : ChanRef) : Nat := ((s.dma c).index + 1) % (s.queue c.die c.ring).size

/-- An operation code that Table DMA-3 reserves. -/
def reservedOp (op : Nat) : Bool := op == 0 || decide (0xA ≤ op)

/-- A channel that can start its head descriptor reads it: software-owned, the channel is idle; of another operation, this command is
not what the channel does; of a reserved one, it completes as the host's error. -/
def State.withHead (s : State) (c : ChanRef) (op : Nat) (f : State → Desc → Result State) : Result State :=
  let x := s.head c
  if !s.canStart c then .next s
  else if !s.owned c then .next (s.modDma c (fun y => { y with state := .idle, pending := false, more := false }))
  else
    let t := s.modDma c (fun y => { y with state := .active, pending := false, more := false, held := some (s.headBytes c) })
    if reservedOp x.op then hostErr (t.dmaComplete c x 0 0 (t.nextIndex c)) 374
    else if x.op ≠ op then .next s
    else f t x

/-- The task that owns the channel's descriptor in progress has issued a write of a SCATTER_ADD (R389, R479). -/
def State.noteScatter (s : State) (c : ChanRef) (m : DescMoves) : State :=
  match m.add, (Map.get [] (s.die c.die).seq.dmaOwners c.ring).head? with
  | some _, some (some k) => if m.moves.isEmpty then s else s.modSlot c.die k (fun z => { z with dmaScattered := true })
  | _, _ => s

/-- A data descriptor: its granules that are not confirmed yet are moved, then it completes.  While a lost link keeps one from moving it
gets no response, and the descriptor does not complete (R24, R381). -/
def State.dataDesc (s : State) (c : ChanRef) (op : Nat) : Result State :=
  s.withHead c op (fun t x =>
    match t.descMoves (t.headBytes c) with
    | none => hostErr (t.dmaComplete c x 0 0 (t.nextIndex c)) (dmaRule op)
    | some m =>
      let y := t.dma c
      if !m.moves.all (fun v => t.moveCarried c.die v) then .next t
      else
        let r := t.doGranules m (fun k => !y.confirmed k)
        let bad := r.2.or m.index
        let t1 := r.1.modDma c (fun z => { z with poison := z.poison || bad.poison, hard := z.hard || bad.hard })
        let t2 := t1.noteScatter c m
        let bytes := (m.moves.map (fun v => v.len + v.fill.length)).foldl (· + ·) 0
        let t3 := (t2.bumpUnits c.die .dmaBytes_bytes 65536 bytes c.eng).addFrame c.die .dmaLoad_busy 1024 m.moves.length c.eng
        .next (t3.dmaComplete c x 0 m.oor (t.nextIndex c)))

/-- COPY: one tensor to another, element by element in index order (Table DMA-3). -/
def execCopy (c : ChanRef) (s : State) : Result State := s.dataDesc c 0x1

/-- LINEAR: length bytes in ascending address order. -/
def execLinear (c : ChanRef) (s : State) : Result State := s.dataDesc c 0x2

/-- FILL: length bytes of a repeated 8-byte pattern. -/
def execFill (c : ChanRef) (s : State) : Result State := s.dataDesc c 0x3

/-- GATHER: the slices that an index tensor selects (R286–R289). -/
def execGather (c : ChanRef) (s : State) : Result State := s.dataDesc c 0x4

/-- SCATTER: source slices to the slices their indices select. -/
def execScatter (c : ChanRef) (s : State) : Result State := s.dataDesc c 0x5

/-- SCATTER_ADD: source slices added into the slices their indices select (R290, R291). -/
def execScatterAdd (c : ChanRef) (s : State) : Result State := s.dataDesc c 0x6

/-- DMA_FLAG_OP: a FLAG descriptor moves no data and completes with its flag add. -/
def execDmaFlagOp (c : ChanRef) (s : State) : Result State :=
  s.withHead c 0x7 (fun t x => .next (t.dmaComplete c x 0 0 (t.nextIndex c)))

/-- JUMP: the next descriptor read is at the index given; SOFTWARE rings only (R379). -/
def execJump (c : ChanRef) (s : State) : Result State :=
  s.withHead c 0x8 (fun t x =>
    let target := bits x.aux 0 16
    if t.ringFed c || decide ((t.queue c.die c.ring).size ≤ target) then hostErr (t.dmaComplete c x 0 0 (t.nextIndex c)) 379
    else .next (t.dmaComplete c x 0 0 target))

/-- POP: the oldest entry of a host ingress ring goes to dst and the ring's consumer index advances; an empty ring gives EMPTY
(R384). -/
def execPop (c : ChanRef) (s : State) : Result State :=
  s.withHead c 0x9 (fun t x =>
    let q := bits x.aux 0 14
    let e := t.queue c.die q
    let r := t.ringOf c.die q
    if t.queueKind c.die q ≠ .ingress ∨ x.dst % 64 ≠ 0 ∨ t.dataAddr x.dst = false then hostErr (t.dmaComplete c x 0 0 (t.nextIndex c)) 384
    else if r.depth e = 0 then .next (t.dmaComplete c x 3 0 (t.nextIndex c))
    else
      let a := e.addr r.cons
      let n := 2 ^ e.log2b
      let m : DescMoves := ⟨linearMoves x.dst n (fun k _ => (some (a + 64 * k), [])), none, 0, Taint.none⟩
      let y := t.dma c
      if !m.moves.all (fun v => t.moveCarried c.die v) then .next t
      else
      let g := t.doGranules m (fun k => !y.confirmed k)
      let t1 := (g.1.modDma c (fun z => { z with poison := z.poison || g.2.poison, hard := z.hard || g.2.hard })).popRing c.die q
      .next ((t1.bumpUnits c.die .dmaBytes_bytes 65536 n c.eng).dmaComplete c x 0 0 (t.nextIndex c)))

/-! ### Doorbells, pause, halt and resume (R380–R383, R481) -/

/-- DMA_DOORBELL: the channel's pending bit is set (R380). -/
def execDmaDoorbell (who : Init) (d eng ch : Nat) (s : State) : Result State :=
  if s.frz.stopped then .next s
  else if who.canAccess = false ∨ s.nDies ≤ d then hostErr s 27
  else if !s.privileged who then .next s.viewMiss
  else if s.chanUsed ⟨d, eng, ch⟩ then .next (s.modDma ⟨d, eng, ch⟩ (fun y => { y with pending := true })) else .next s

/-- A channel with a descriptor in progress stops with exact registers: the granules that are confirmed have landed (R382). -/
def State.stopChan (s : State) (c : ChanRef) (st : ChState) (offset : Nat) (mask : BitVec 64) : State :=
  let old := s.dma c
  let new : DmaChan :=
    { old with state := st, pending := false, more := false, offset := offset, mask := mask, held := some (s.headBytes c) }
  match s.descMoves (s.headBytes c) with
  | none => s.modDma c (fun _ => new)
  | some m =>
    let pick (k : Nat) : Bool := new.confirmed k && !old.confirmed k
    let r := s.doGranules m pick
    let t := r.1.modDma c (fun _ => { new with poison := old.poison || r.2.poison, hard := old.hard || r.2.hard })
    if (List.range m.moves.length).any pick then t.noteScatter c m else t

/-- A channel has a descriptor in progress, or can begin one. -/
def State.inProgress (s : State) (c : ChanRef) : Bool := s.canStart c && s.owned c

/-- DMA_NORESP_TIMEOUT: a request got no response for 57,600 cycles: the channel is HALTED with ERR_NORESP (R381). -/
def execDmaNorespTimeout (c : ChanRef) (addr offset : Nat) (mask : BitVec 64) (s : State) : Result State :=
  if !s.inProgress c || offset % 64 != 0 then .next s
  else
    let s1 := (s.stopChan c .halted offset mask).modDma c (fun y => { y with noresp := true, addr := addr % 2 ^ 40 })
    .next ((s1.bumpF c.die .dmaChErr_halts c.eng c.ch).raise 0x0800 c.ch c.die c.eng)

/-- DMA_PAUSE: pause = 1 stops the channel once its outstanding requests have ended (R381). -/
def execDmaPause (who : Init) (c : ChanRef) (offset : Nat) (mask : BitVec 64) (s : State) : Result State :=
  if s.frz.stopped then .next s
  else if who.canAccess = false ∨ s.nDies ≤ c.die then hostErr s 27
  else if !s.privileged who then .next s.viewMiss
  else if !s.chanUsed c then .next s
  else
    let s1 := s.setF c.die .dmaChCtl_pause 1 c.eng c.ch
    if s.inProgress c && offset % 64 == 0 then .next (s1.stopChan c .paused offset mask)
    else if (s.dma c).state == .idle then .next (s1.modDma c (fun y => { y with state := .paused })) else .next s1

/-- DMA_RESUME: pause = 0 resumes a PAUSED channel at its offset; on another it is ignored (R383). -/
def execDmaResume (who : Init) (c : ChanRef) (s : State) : Result State :=
  if s.frz.stopped then .next s
  else if who.canAccess = false ∨ s.nDies ≤ c.die then hostErr s 27
  else if !s.privileged who then .next s.viewMiss
  else if s.chanUsed c && (s.dma c).state == .paused then
    .next ((s.setF c.die .dmaChCtl_pause 0 c.eng c.ch).modDma c (fun y => { y with state := .active }))
  else .next s

/-- DMA_RETRY: retry = 1 clears the error of a HALTED channel and resumes it (R383). -/
def execDmaRetry (who : Init) (c : ChanRef) (s : State) : Result State :=
  if s.frz.stopped then .next s
  else if who.canAccess = false ∨ s.nDies ≤ c.die then hostErr s 27
  else if !s.privileged who then .next s.viewMiss
  else if s.chanUsed c && (s.dma c).state == .halted then
    .next (s.modDma c (fun y => { y with state := .active, noresp := false }))
  else .next s

/-- DMA_SKIP: skip = 1 completes the descriptor of a HALTED channel as SKIPPED and goes on (R383). -/
def execDmaSkip (who : Init) (c : ChanRef) (s : State) : Result State :=
  if s.frz.stopped then .next s
  else if who.canAccess = false ∨ s.nDies ≤ c.die then hostErr s 27
  else if !s.privileged who then .next s.viewMiss
  else if s.chanUsed c && (s.dma c).state == .halted then .next (s.dmaComplete c (s.head c) 1 0 (s.nextIndex c))
  else .next s

/-- DMA_REQUEST_MISMATCH: the duplicated request path disagrees: the channel stops as if HALTED but with no error and resumes once at
its offset; a second disagreement on the engine within one frame slot raises UNRECOVERED (R481). -/
def execDmaRequestMismatch (c : ChanRef) (offset : Nat) (mask : BitVec 64) (s : State) : Result State :=
  if !s.inProgress c || offset % 64 != 0 then .next s
  else
    let f := ((s.die c.die).seq.frames.getLast?.map (fun g => g.start.frame)).getD 0
    let again := Map.get 0 (s.die c.die).dmaMismatch c.eng == f + 1
    let s1 := (s.stopChan c .active offset mask).modDie c.die (fun x => { x with dmaMismatch := Map.put x.dmaMismatch c.eng (f + 1) })
    .next (if again then s1.doubt dUNRECOVERED c.die f else s1)

/-- A channel held at its record tries again (R378). -/
def State.dmaRecordRetry (s : State) (c : ChanRef) : State :=
  match (s.dma c).recordDue with
  | none => s
  | some v => s.dmaFinish c (s.head c) (v % 256) (v / 256 % 2 ^ 16) (v / 2 ^ 32) true

/-! ### What the registers report -/

/-- The state code of DMA_CH_STATUS. -/
def ChState.code : ChState → Nat
  | .idle => 0
  | .active => 1
  | .paused => 2
  | .halted => 3

/-- Write the registers of one channel as it is now; an unused channel reads UNUSED (R370). -/
def State.chanRegs (s : State) (c : ChanRef) : State :=
  let x := s.dma c
  let d := c.die
  let e := c.eng
  let i := c.ch
  let used := decide (c.num < (s.plan d).dma)
  (((((((((((s.setF d .dmaChStatus_state (if used then x.state.code else 4) e i).setF d .dmaChStatus_pending (bit x.pending) e
    i).setF d .dmaChStatus_error (bit x.noresp) e i).setF d .dmaChStatus_feeder (bit (used && s.ringFed c)) e i).setF d
    .dmaChStatus_safety (bit (used && s.ringSafety c)) e i).setF d .dmaChStatus_index x.index e i).setF d .dmaChOffset_offset
    x.offset e i).setF d .dmaChMaskLo_mask (x.mask.toNat % 2 ^ 32) e i).setF d .dmaChMaskHi_mask (x.mask.toNat / 2 ^ 32) e i).setF
    d .dmaChAddrLo_addr (x.addr % 2 ^ 32) e i).setF d .dmaChAddrHi_addr (x.addr / 2 ^ 32) e i)

/-- Write DMA_STATUS of every engine of a die. -/
def State.dmaRegs (s : State) (d : Nat) : State :=
  (List.range 8).foldl (fun (s : State) e =>
    let n (k : ChState) : Nat := ((List.range 64).filter (fun i => (s.dma ⟨d, e, i⟩).state == k)).length
    ((s.setF d .dmaStatus_active (n .active) e).setF d .dmaStatus_halted (n .halted) e).setF d .dmaStatus_paused (n .paused) e) s

end Sys2Proof.Machine
end

