-- ==== Sys2Proof/Machine/Features.lean ====
section
/-! DEFINITION. The feature engine: detection, descriptors, the track table and its registers (chapter 07). -/

namespace Sys2Proof.Machine

open Sys2Proof

/-! ### Detection (R185–R187) -/

/-- A corner: the source it was found on, its pixel and score, then its angle bin and descriptor. -/
structure Corner where
  src : Nat
  x : Nat
  y : Nat
  score : Nat
  angle : Nat
  desc : List Byte
  deriving DecidableEq, Repr

/-- The 16 pixels of the radius-3 circle in circular order (log entry 19). -/
def circle16 : List (Int × Int) :=
  [(0, -3), (1, -3), (2, -2), (3, -1), (3, 0), (3, 1), (2, 2), (1, 3), (0, 3), (-1, 3), (-2, 2), (-3, 1), (-3, 0), (-3, -1),
   (-2, -2), (-1, -3)]

/-- n contiguous members of a circle hold. -/
def arcHolds (n : Nat) (l : List Bool) : Bool :=
  (List.range l.length).any (fun a => (List.range n).all (fun k => l.getD ((a + k) % l.length) false))

/-- The score of a corner candidate; none where it is none (R185). -/
def State.cornerScore (s : State) (t : TDesc) (arc thr x y : Nat) : Option Nat :=
  let c : Int := s.clampPix t x y
  let ring := circle16.map (fun o => ((s.clampPix t (x + o.1) (y + o.2) : Nat) : Int))
  if arcHolds arc (ring.map (fun v => decide (c + thr < v))) || arcHolds arc (ring.map (fun v => decide (v < c - thr))) then
    some (cap 0xFFFF (sumNat (ring.map (fun v => (v - c).natAbs - thr))))
  else none

/-- The candidates of a level in raster order. -/
def State.candidates (s : State) (t : TDesc) (j arc thr : Nat) : List Corner :=
  let w := t.ext 0
  let h := t.ext 1
  ((List.range (h - 34)).map (fun b => (List.range (w - 34)).filterMap (fun a =>
    (s.cornerScore t arc thr (a + 17) (b + 17)).map (fun sc => ⟨j, a + 17, b + 17, sc, 0xFF, []⟩)))).flatten

/-- Raster order. -/
def rasterBefore (a b : Corner) : Bool := decide (a.y < b.y ∨ (a.y = b.y ∧ a.x < b.x))

/-- Suppression in a window of half-width r (R186). -/
def suppress (r : Nat) (l : List Corner) : List Corner :=
  l.filter (fun c => l.all (fun o =>
    if (o.x = c.x ∧ o.y = c.y) ∨ r < (max o.x c.x - min o.x c.x) ∨ r < (max o.y c.y - min o.y c.y) then true
    else if rasterBefore o c then decide (o.score < c.score) else decide (o.score ≤ c.score)))

/-- Higher score first, then the finer level, then raster order (R186). -/
def strongerCorner (a b : Corner) : Bool :=
  if a.score ≠ b.score then decide (b.score < a.score)
  else if a.src ≠ b.src then decide (a.src < b.src)
  else rasterBefore a b

/-- List order: by level, then raster. -/
def listBefore (a b : Corner) : Bool := if a.src ≠ b.src then decide (a.src < b.src) else rasterBefore a b

/-- The corners that cells keep, on one level. -/
def keepCells (wl hl most : Nat) (l : List Corner) : List Corner :=
  l.filter (fun c => decide ((l.filter (fun o =>
    o.x / 2 ^ wl == c.x / 2 ^ wl && o.y / 2 ^ hl == c.y / 2 ^ hl && strongerCorner o c)).length < most))

/-- A coordinate in level-0 pixels, u12.4 (R187): x × s in 4.12, ties to even.  The spec gives none to a coordinate beyond the format (log
entry 82). -/
def levelZero (x scale : Nat) : Nat :=
  let v := (roundEven ((x * scale * 16 : Nat) : Int) 4096).toNat
  if v < 65536 then v else Config.beyondLevelZero v % 65536

/-! ### Orientation and descriptor (R188, R189) -/

/-- cos(k × 11.25°) × 2^256 for k = 0 to 8. -/
def cosFine (k : Nat) : Nat :=
  match k with
  | 0 => 2 ^ 256
  | 1 => 113567176711097047325463768913859956330885371583230639589751637675741685910300
  | 2 => 106977941273076885255401814408341967549158484705964476431625176369167556163399
  | 3 => 96277603545853018020304790999990059815387889267871415742102090492308519884100
  | 4 => 81877371507464127617551201542979628307507432471243237061821853600756754782485
  | 5 => 64330637999402333542818658951793603937073551207776311932702068144533772107129
  | 6 => 44311714150060931561488076157189893527193699149339307236362825417981466611569
  | 7 => 22589915976228276810931329007774019079103816782282772219569592289057374999746
  | _ => 0

/-- cos(k × 11.25°) for k = 0 to 8, in 14 fraction bits. -/
def cosCoarse (k : Nat) : Nat := nth 0 [16384, 16069, 15137, 13623, 11585, 9102, 6270, 3196, 0] k

/-- The cosine of a bin from a first-quadrant table. -/
def binCos (table : Nat → Nat) (bin : Nat) : Int :=
  let b := bin % 32
  if b ≤ 8 then (table b : Int) else if b ≤ 16 then -(table (16 - b) : Int)
  else if b ≤ 24 then -(table (b - 16) : Int) else (table (32 - b) : Int)

/-- The sine of a bin. -/
def binSin (table : Nat → Nat) (bin : Nat) : Int := binCos table (bin + 24)

/-- The angle bin nearest to the direction (m10, m01) (R188): the bin whose direction it lies furthest along. -/
def angleBin (m10 m01 : Int) : Nat :=
  if m10 = 0 ∧ m01 = 0 then Config.binOfNoMoment % 32
  else
    let along (b : Nat) : Int := m10 * binCos cosFine b + m01 * binSin cosFine b
    (List.range 32).foldl (fun a b => if along a < along b then b else a) 0

/-- The orientation of a corner. -/
def State.orientation (s : State) (t : TDesc) (x y : Nat) : Nat :=
  let disc := ((List.range 31).map (fun (b : Nat) => (List.range 31).filterMap (fun (a : Nat) =>
    let u : Int := (a : Int) - 15
    let v : Int := (b : Int) - 15
    if u * u + v * v ≤ 225 then some (u, v, ((s.clampPix t (x + u) (y + v) : Nat) : Int)) else none))).flatten
  angleBin (sumInt (disc.map (fun p => p.1 * p.2.2))) (sumInt (disc.map (fun p => p.2.1 * p.2.2)))

/-- A pattern point rotated by a bin; 0xFF is upright. -/
def rotatePoint (bin : Nat) (u v : Int) : Int × Int :=
  if bin = 0xFF then (u, v)
  else
    let c := binCos cosCoarse bin
    let n := binSin cosCoarse bin
    (roundDiv (u * c - v * n) 16384, roundDiv (u * n + v * c) 16384)

/-- The mean of the 5 × 5 pixels about a point, rounded to nearest, ties upward. -/
def State.smooth (s : State) (t : TDesc) (x y : Int) : Int :=
  roundUp (sumInt ((List.range 25).map (fun k => ((s.clampPix t (x + (k % 5 : Nat) - 2) (y + (k / 5 : Nat) - 2) : Nat) : Int)))) 25

/-- The pair table as read at dispatch: four signed bytes an entry. -/
def pattern (l : List Byte) : List (List Int) :=
  (List.range 256).map (fun i => (List.range 4).map (fun k => signed 8 (nth 0 l (4 * i + k)).toNat))

/-- Every point of a pair table lies in the disc of radius 15. -/
def patternOk (p : List (List Int)) : Bool :=
  p.all (fun e => decide (nth 0 e 0 * nth 0 e 0 + nth 0 e 1 * nth 0 e 1 ≤ 225 ∧
    nth 0 e 2 * nth 0 e 2 + nth 0 e 3 * nth 0 e 3 ≤ 225))

/-- Bits, bit 0 first, as bytes. -/
def packBits (l : List Bool) : List Byte :=
  (List.range (ceilDiv l.length 8)).map (fun k =>
    BitVec.ofNat 8 (sumNat ((List.range 8).map (fun b => if l.getD (8 * k + b) false then 2 ^ b else 0))))

/-- The descriptor of a corner. -/
def State.describe (s : State) (t : TDesc) (pat : List (List Int)) (x y bin : Nat) : List Byte :=
  packBits (pat.map (fun e =>
    let a := rotatePoint bin (nth 0 e 0) (nth 0 e 1)
    let b := rotatePoint bin (nth 0 e 2) (nth 0 e 3)
    decide (s.smooth t (x + a.1) (y + a.2) < s.smooth t (x + b.1) (y + b.2))))

/-- Hamming distance of two byte strings. -/
def hamming (a b : List Byte) : Nat := sumNat ((a.zip b).map (fun p => popcount (p.1 ^^^ p.2).toNat))

/-! ### The track table (R191–R197) -/

/-- An entry of the track table. -/
structure Track where
  valid : Bool
  level : Nat
  hits : Nat
  x : Nat
  y : Nat
  vx : Int
  vy : Int
  lastFrame : Word
  birthFrame : Word
  id : Word
  angle : Nat
  score : Nat
  desc : List Byte
  deriving DecidableEq, Repr

/-- An entry from its 64 bytes (Table FFL-4). -/
def Track.ofBytes (l : List Byte) : Track :=
  let n (o k : Nat) : Nat := leNat ((l.drop o).take k)
  ⟨n 0 1 == 1, n 1 1, n 2 2, n 4 2, n 6 2, signed 16 (n 8 2), signed 16 (n 10 2), Word.ofNat (n 12 4), Word.ofNat (n 16 4),
    Word.ofNat (n 20 4), n 0x18 1, n 0x1A 2, (l.drop 0x20).take 32⟩

/-- An entry's 64 bytes. -/
def Track.bytes (t : Track) : List Byte :=
  toLE 1 (bit t.valid) ++ toLE 1 t.level ++ toLE 2 t.hits ++ toLE 2 t.x ++ toLE 2 t.y ++ toLE 2 (satSigned 16 t.vx) ++
    toLE 2 (satSigned 16 t.vy) ++ toLE 4 t.lastFrame.toNat ++ toLE 4 t.birthFrame.toNat ++ toLE 4 t.id.toNat ++ toLE 1 t.angle ++
    toLE 1 0 ++ toLE 2 t.score ++ toLE 4 0 ++ t.desc

/-- The bytes of entry e as last committed; one that is read with an uncorrectable error is treated as free, as one whose row has no spare always
is (R197, R252; log entry 80). -/
def State.trackBytes (s : State) (d e : Nat) : List Byte :=
  let l := mapBytes (s.die d).tracks (e * 64) 64
  if (s.die d).trackBad.contains e then (0 : Byte) :: l.drop 1 else l

/-- An entry's age for a frame. -/
def Track.age (t : Track) (f : Word) : Nat := (f - t.lastFrame).toNat

/-- An entry is active for a frame (R192). -/
def Track.active (t : Track) (f : Word) (maxAge : Nat) : Bool := t.valid && decide (1 ≤ t.age f ∧ t.age f ≤ maxAge)

/-- What the search for a corner's match found. -/
structure Match where
  claim : Option (Nat × Nat)
  ambiguous : Bool
  capped : Bool
  compared : Nat
  deriving DecidableEq, Repr

/-- The level-0 bin of a coordinate in 1/16 pixel. -/
def bin64 (v : Int) : Int := v / 1024

/-- The candidates of a corner in the order the engine visits them: bins by Chebyshev distance and raster order, entries by index
(R193). -/
def visitOrder (cx cy : Int) (l : List (Nat × Track × Int × Int)) : List (Nat × Track × Int × Int) :=
  let key (e : Nat × Track × Int × Int) : Nat × Int × Int :=
    let bx := bin64 e.2.2.1
    let by_ := bin64 e.2.2.2
    (max (bx - bin64 cx).natAbs (by_ - bin64 cy).natAbs, by_, bx)
  sortBy (fun a b =>
    let p := key a
    let q := key b
    if p.1 ≠ q.1 then decide (p.1 < q.1)
    else if p.2.1 ≠ q.2.1 then decide (p.2.1 < q.2.1)
    else if p.2.2 ≠ q.2.2 then decide (p.2.2 < q.2.2)
    else decide (a.1 < b.1)) l

/-- Match one corner against the active entries (R193, R194). -/
def matchCorner (j : Job) (f : Word) (level cx cy : Nat) (desc : List Byte) (entries : List (Nat × Track)) : Match :=
  let placed := entries.map (fun e =>
    let t := e.2
    if j.p 0x14 1 = 1 then (e.1, t, (t.x : Int) + t.age f * t.vx, (t.y : Int) + t.age f * t.vy)
    else (e.1, t, (t.x : Int), (t.y : Int)))
  let near := placed.filter (fun e =>
    decide (max e.2.1.level level - min e.2.1.level level ≤ j.p 0x11 1) &&
      decide ((e.2.2.1 - (cx : Int)).natAbs ≤ 16 * j.p 0x12 1 ∧ (e.2.2.2 - (cy : Int)).natAbs ≤ 16 * j.p 0x13 1))
  let seen := (visitOrder cx cy near).take 128
  let dists := seen.map (fun e => (e.1, hamming desc e.2.1.desc))
  let capped := decide (128 < near.length)
  match dists with
  | [] => ⟨none, false, capped, 0⟩
  | a :: l =>
    let best := l.foldl (fun (m : Nat × Nat) e => if e.2 < m.2 ∨ (e.2 = m.2 ∧ e.1 < m.1) then e else m) a
    let d2 := (dists.filter (fun e => e.1 != best.1)).foldl (fun m e => min m e.2) 257
    if best.2 ≤ j.p 0x0E 2 then
      if best.2 * 16 ≤ d2 * j.p 0x10 1 then ⟨some best, false, capped, seen.length⟩ else ⟨none, true, capped, seen.length⟩
    else ⟨none, false, capped, seen.length⟩

/-- What becomes of a corner: the entry it has, how, and its distance. -/
structure Fate where
  track : Option Nat
  id : Word
  dist : Option Nat
  matched : Bool
  new : Bool
  notEntered : Bool
  ambiguous : Bool
  capped : Bool
  conflict : Bool
  deriving DecidableEq, Repr

/-- The corner that wins an entry among those that claim it: the smallest distance, then list order (R194). -/
def claimWinner (ms : List Match) (e : Nat) : Option Nat :=
  ((List.range ms.length).foldl (fun (best : Option (Nat × Nat)) k =>
    match (ms[k]?).bind (fun m => m.claim) with
    | some (x, d) => if x = e then
        (match best with
          | some (_, bd) => if d < bd then some (k, d) else best
          | none => some (k, d))
      else best
    | none => best) none).map (·.1)

/-- The entry that a new track takes: the lowest free one, else the one that R195 replaces. -/
def newEntry (f : Word) (maxAge : Nat) (entries : List (Nat × Track)) (taken : List Nat) : Option Nat :=
  match entries.find? (fun e => !e.2.active f maxAge && !taken.contains e.1) with
  | some e => some e.1
  | none =>
    ((entries.filter (fun e => !taken.contains e.1)).foldl (fun (b : Option (Nat × Track)) e =>
      match b with
      | none => some e
      | some m => if m.2.age f < e.2.age f ∨ (m.2.age f = e.2.age f ∧ e.2.hits < m.2.hits) then some e else b)
      none).map (·.1)

/-- A corner as the feature list and the table take it. -/
structure Feature where
  c : Corner
  x : Nat
  y : Nat
  level : Nat

/-- The update of a matched entry (R195). -/
def Track.update (t : Track) (f : Word) (q : Feature) : Track :=
  let v (new old : Nat) : Int := clampInt (-32768) 32767 (roundEven ((new : Int) - old) (t.age f))
  { t with level := q.level, hits := cap 0xFFFF (t.hits + 1), x := q.x, y := q.y, vx := v q.x t.x, vy := v q.y t.y,
           lastFrame := f, angle := q.c.angle, score := q.c.score, desc := q.c.desc }

/-- The state of the placing of new tracks: fates, entries taken, the counter, and the journal. -/
structure Placing where
  fates : List Fate
  taken : List Nat
  ctr : Word
  journal : List (Nat × List Byte)

/-- Match, update and place (R194, R195). -/
def resolve (f : Word) (maxAge : Nat) (ctr : Word) (fs : List Feature) (ms : List Match) (entries : List (Nat × Track)) : Placing :=
  let track (e : Nat) : Track := ((entries.find? (fun x => x.1 == e)).map (·.2)).getD (Track.ofBytes [])
  let base := (List.range fs.length).map (fun k =>
    let m := ms.getD k ⟨none, false, false, 0⟩
    match m.claim with
    | some (e, dist) =>
      if claimWinner ms e = some k then Fate.mk (some e) (track e).id (some dist) true false false false m.capped false
      else Fate.mk none 0 none false false false false m.capped true
    | none => Fate.mk none 0 none false false false m.ambiguous m.capped false)
  let won := (List.range fs.length).filterMap (fun k =>
    let x := base.getD k (Fate.mk none 0 none false false false false false false)
    match x.track, fs[k]? with
    | some e, some q => some (e, ((track e).update f q).bytes)
    | _, _ => none)
  let order := sortBy (fun (a b : Nat × Feature) => decide (b.2.c.score < a.2.c.score))
    ((List.range fs.length).filterMap (fun k =>
      match fs[k]? with
      | some q => if (base.getD k (Fate.mk none 0 none false false false false false false)).matched then none else some (k, q)
      | none => none))
  order.foldl (fun (p : Placing) kq =>
    let (k, q) := kq
    match newEntry f maxAge entries p.taken with
    | some e =>
      let id := p.ctr + 1
      let t : Track := ⟨true, q.level, 0, q.x, q.y, 0, 0, f, f, id, q.c.angle, q.c.score, q.c.desc⟩
      { fates := p.fates.modify k (fun x => { x with track := some e, id := id, new := true }),
        taken := e :: p.taken, ctr := id, journal := p.journal ++ [(e, t.bytes)] }
    | none => { p with fates := p.fates.modify k (fun x => { x with notEntered := true }) })
    ⟨base, won.map (·.1), ctr, won⟩

/-! ### The feature list (R190) -/

/-- A feature record. -/
def featureRecord (q : Feature) (x : Fate) : List Byte :=
  toLE 2 q.x ++ toLE 2 q.y ++ toLE 2 q.c.score ++ toLE 1 q.level ++ toLE 1 q.c.angle ++ toLE 2 (x.track.getD 0xFFFF) ++
    toLE 2 (x.dist.getD 0xFFFF) ++
    toLE 1 (bit x.matched + bit x.new * 2 + bit x.notEntered * 4 + bit x.ambiguous * 8 + bit x.capped * 16 + bit x.conflict * 32) ++
    toLE 3 0 ++ toLE 4 x.id.toNat ++ List.replicate 12 0 ++ q.c.desc

/-- The fates of a kind. -/
def countFates (l : List Fate) (p : Fate → Bool) : Nat := (l.filter p).length

/-- The header. -/
def featureHeader (f : Word) (kept survived active : Nat) (l : List Fate) : List Byte :=
  toLE 4 f.toNat ++ toLE 2 kept ++ toLE 2 0 ++ toLE 4 survived ++ toLE 2 (countFates l (·.matched)) ++
    toLE 2 (countFates l (·.new)) ++ toLE 2 (countFates l (·.notEntered)) ++ toLE 2 (countFates l (·.capped)) ++
    toLE 2 active ++ List.replicate 42 0

/-! ### Tasks -/

/-- The partition a parameter block names lies in the table (Table FFL-1). -/
def partitionOk (j : Job) : Bool :=
  let a := j.p 0x16 2
  let n := j.p 0x18 2
  decide (a % 256 = 0 ∧ n % 256 = 0 ∧ 256 ≤ n ∧ n ≤ 32768 ∧ a + n ≤ 32768)

/-- A detection task's fields lie in their ranges. -/
def detectOk (j : Job) : Bool :=
  decide (j.p 1 1 ≤ 7 ∧ 1 ≤ j.p 2 1 ∧ j.p 2 1 ≤ 4 ∧ 9 ≤ j.p 3 1 ∧ j.p 3 1 ≤ 12 ∧ j.p 6 1 ≤ 1 ∧ j.p 7 1 ≤ 1 ∧ 4 ≤ j.p 8 1 ∧ j.p 8 1 ≤ 8 ∧
    4 ≤ j.p 9 1 ∧ j.p 9 1 ≤ 8 ∧ 1 ≤ j.p 0xA 1 ∧ j.p 0xA 1 ≤ 32 ∧ 1 ≤ j.p 0xB 1 ∧ 1 ≤ j.p 0xC 2 ∧ j.p 0xC 2 ≤ 4096 ∧
    j.p 0xE 2 ≤ 256 ∧ 1 ≤ j.p 0x10 1 ∧ j.p 0x10 1 ≤ 16 ∧ j.p 0x11 1 ≤ 1 ∧ 1 ≤ j.p 0x12 1 ∧ 1 ≤ j.p 0x13 1 ∧ j.p 0x14 1 ≤ 1) &&
    j.zero 0x15 0x16 && j.zero 0x1A 0x20 && j.zero 0x25 0x28 && j.zero 0x30 0x40

/-- What detection gives: the survivors of suppression, and the kept corners described, in list order. -/
def State.detect (s : State) (j : Job) (srcs : List TDesc) (pat : List (List Int)) : Nat × List Feature :=
  let levels := (List.range srcs.length).map (fun k =>
    suppress (if j.p 6 1 = 1 then 2 else 1) (s.candidates (srcs.getD k (TDesc.ofBytes [])) k (j.p 3 1) (j.p 4 2)))
  let celled := (levels.map (keepCells (j.p 8 1) (j.p 9 1) (j.p 0xA 1))).flatten
  let kept := sortBy listBefore ((sortBy strongerCorner celled).take (j.p 0xC 2))
  (sumNat (levels.map List.length), kept.map (fun c =>
    let t := srcs.getD c.src (TDesc.ofBytes [])
    let sc := j.p (0x28 + 2 * c.src) 2
    let bin := if j.p 7 1 = 1 then s.orientation t c.x c.y else 0xFF
    ⟨{ c with angle := bin, desc := s.describe t pat c.x c.y bin }, levelZero c.x sc, levelZero c.y sc, j.p 1 1 + c.src⟩))

/-- The sources of a feature task, and the entries of its partition as last committed. -/
def featureSrcs (j : Job) : List TDesc := (List.range (j.p 2 1)).map (fun k => j.arg k)
def State.partitionTracks (s : State) (d : Nat) (j : Job) : List (Nat × Track) :=
  (List.range (j.p 0x18 2)).map (fun k => (j.p 0x16 2 + k, Track.ofBytes (s.trackBytes d (j.p 0x16 2 + k))))

/-- The bytes that a tensor provides, run after run. -/
def TDesc.size (t : TDesc) : Nat := t.ext 0 * elemBits t.format / 8 * prodOf t.outer

/-- An output that holds records: a tensor whose bytes are taken run after run (log entry 83). -/
def State.listOut (s : State) (t : TDesc) : Bool := s.tensor t && decide (t.layout ≤ 1)

/-- The runs that a list of bytes fills, with the bytes of each: the run's index in order, then its bytes. -/
def listRuns (t : TDesc) (l : List (Byte × Bool)) : List (Nat × List (Byte × Bool)) :=
  let n := max 1 (t.ext 0 * elemBits t.format / 8)
  (List.range (ceilDiv l.length n)).map (fun k => ((t.runBase t.base (unrank t.outer k)).toNat, (l.drop (k * n)).take n))

/-- The writes that put records into an output, the pad behind each run that they fill. -/
def listWrites (t : TDesc) (rs : List (List Byte × Bool)) : List HeldWrite :=
  let n := t.ext 0 * elemBits t.format / 8
  ((listRuns t (rs.map (fun r => r.1.map (fun b => (b, r.2)))).flatten).map (fun r =>
    elemWrites r.1 (r.2.map (fun b => ([b.1], b.2)) ++ (if r.2.length = n then [(t.padBytes n (64 * t.runGranules - n), false)] else [])))).flatten

/-- The bytes that held writes cover. -/
def writeSpans (l : List HeldWrite) : List (Nat × Nat) := l.map (fun w => (w.addr, w.addr + w.bytes.length))

/-- The rule that a detection task breaks, if any. -/
def State.featureError (s : State) (d : Nat) (j : Job) (matching : Bool) : Option Nat :=
  let srcs := featureSrcs j
  let out := j.arg (j.p 2 1)
  if !(detectOk j && (!matching || partitionOk j)) then some 184
  else if !(srcs.all (fun t => decide (t.format ≤ 1) && s.image t (t.ext 0) (t.ext 1))) then some 183
  else if !patternOk (pattern j.latch.table.bytes) then some 189
  else if !s.listOut out || decide (out.size < 64 + 64 * j.p 0xC 2) then some 190
  else if matching && ((s.partitionTracks d j).any (fun e => e.2.valid && !precedes e.2.lastFrame j.task.frame) ||
      (s.die d).trackTasks.contains (j.p 0x16 2, j.p 0x18 2, j.task.frame)) then some 192
  else none

/-- A detection task, matching or not (R184–R198); `errs` are the entries read with an uncorrectable error (R197). -/
def State.featureTask (s : State) (d i : Nat) (j : Job) (matching : Bool) (errs : List Nat) : Result State :=
  match s.featureError d j matching with
  | some r => hostErr s r
  | none =>
      let srcs := featureSrcs j
      let reads := (srcs.map allSpans).flatten
      if !s.spansReach d reads then .next s else
      let out := j.arg (j.p 2 1)
      let pat := pattern j.latch.table.bytes
      let f := j.task.frame
      let count := j.p 0x18 2
      let raw := if matching then s.partitionTracks d j else []
      let bad := raw.filter (fun e => errs.contains e.1 || (s.die d).trackBad.contains e.1)
      let entries := raw.map (fun e => if errs.contains e.1 then (e.1, { e.2 with valid := false }) else e)
      let maxAge := j.p 0xB 1
      let (survived, fs) := s.detect j srcs pat
      let live := entries.filter (fun e => e.2.active f maxAge)
      let ms := if matching then fs.map (fun q => matchCorner j f q.level q.x q.y q.c.desc live) else []
      let r := if matching then resolve f maxAge (s.die d).trackCtr fs ms entries
        else ⟨fs.map (fun _ => Fate.mk none 0 none false false false false false false), [], 0, []⟩
      let active := (entries.filter (fun e => match r.journal.find? (fun x => x.1 == e.1) with
        | some x => (Track.ofBytes x.2).active f maxAge
        | none => e.2.active f maxAge)).length
      let taint := srcs.foldl (fun m t => m.or (s.imageTaint t)) j.taint
      let list := featureHeader f fs.length survived active r.fates ::
        ((fs.zip r.fates).map (fun x => featureRecord x.1 x.2))
      let ws := listWrites out (list.map (fun b => (b, taint.poison)))
      if spansMeet (writeSpans ws) reads then hostErr s 161 else
      let s2 := s.modDie d (fun x => { x with
        journal := if matching then r.journal else []
        journalCtr := r.ctr
        journalOf := if matching then [(j.p 0x16 2, count, f)] else [] })
      let pixels := sumNat (srcs.map (fun t => t.ext 0 * t.ext 1))
      let cyc := 200 + pixels + 8 * sumNat (srcs.map (fun t => t.ext 1)) + 8 * fs.length +
        (if matching then ceilDiv count 8 + sumNat (ms.map (fun m => ceilDiv m.compared 4)) + 2 * r.journal.length else 0)
      let s3 := s2.workDone d j reads ⟨ws, taint, 0, cyc⟩
      let c (p : Fate → Bool) : Nat := countFates r.fates p
      .next (((((((s3.bumpUnits d .ftrPixels_pixels 1024 pixels i).bumpF d .ftrCorners_kept i 0 fs.length).bumpF d
        .ftrCorners_capped i 0 (c (·.capped))).bumpF d .ftrMatch_matched i 0 (c (·.matched))).bumpF d .ftrMatch_new i 0
        (c (·.new))).bumpF d .ftrRefused_not_entered i 0 (c (·.notEntered))).bumpF d .ftrRefused_conflict i 0
        (c (·.conflict)) |>.bumpF d .ftrTrackErr_errors i 0 bad.length)

/-- The running feature task of a mode; a reserved mode is an error of the host's own making. -/
def State.withMode (s : State) (d i mode : Nat) (f : Job → Result State) : Result State :=
  match s.job d 3 i with
  | none => .next s
  | some j => if 3 < j.p 0 1 then hostErr s 184 else if j.p 0 1 = mode then f j else .next s

/-- FTR_DETECT_MATCH: detect, describe, match, and journal the updates of the partition (R184–R198). -/
def execFtrDetectMatch (d i : Nat) (errs : List Nat) (s : State) : Result State :=
  s.withMode d i 0 (fun j => s.featureTask d i j true errs)

/-- FTR_DETECT: as FTR_DETECT_MATCH without the track table (R184). -/
def execFtrDetect (d i : Nat) (s : State) : Result State :=
  s.withMode d i 1 (fun j => s.featureTask d i j false [])

/-- FTR_RESET: every entry of the partition becomes free (R184). -/
def execFtrReset (d i : Nat) (s : State) : Result State :=
  s.withMode d i 2 (fun j =>
    if !partitionOk j then hostErr s 184
    else
      let first := j.p 0x16 2
      let count := j.p 0x18 2
      let s1 := s.modDie d (fun x => { x with
        journal := (List.range count).map (fun k => (first + k, (0 : Byte) :: (s.trackBytes d (first + k)).drop 1)),
        journalCtr := x.trackCtr, journalOf := [] })
      .next (s1.workDone d j [] ⟨[], j.taint, 0, 200 + count / 8⟩))

/-- The output of a dump is as large as the partition, and reachable. -/
def State.dumpOk (s : State) (j : Job) : Bool := s.listOut (j.arg 0) && decide ((j.arg 0).size = 64 * j.p 0x18 2)

/-- FTR_DUMP: the partition is copied out in entry order as last committed (R184). -/
def execFtrDump (d i : Nat) (s : State) : Result State :=
  s.withMode d i 3 (fun j =>
    if !partitionOk j then hostErr s 184
    else
      let first := j.p 0x16 2
      let count := j.p 0x18 2
      if !s.dumpOk j then hostErr s 184
      else
        let ws := listWrites (j.arg 0) ((List.range count).map (fun k => (s.trackBytes d (first + k), false)))
        .next (s.workDone d j [] ⟨ws, j.taint, 0, 200 + 2 * count⟩))

/-- FTR_TRACK_SEL_WRITE: the entry, as last committed, is copied to the instance's holding buffer (R208, R209). -/
def execFtrTrackSelWrite (who : Init) (d i : Nat) (v : Word) (s : State) : Result State :=
  if who.canAccess = false ∨ s.nDies ≤ d ∨ 2 ≤ i then hostErr s 27
  else if !s.privileged who then .next s.viewMiss
  else if !s.dieUp d then .next s
  else
    let e := v.toNat % 32768
    .next ((s.setF d .ftrTrackSel_entry e i).modDie d (fun x => { x with
      trackHold := Map.put x.trackHold i (s.trackBytes d e), trackPtr := Map.set 0 x.trackPtr i 0 }))

/-- FTR_TRACK_DATA_READ: the next word of the holding buffer, words 0 to 15 in turn, wrapping. -/
def execFtrTrackDataRead (who : Init) (d i : Nat) (s : State) : Result State :=
  if who.canAccess = false ∨ s.nDies ≤ d ∨ 2 ≤ i then s.readErr 27
  else if !s.privileged who then .next { s.viewMiss with out := { s.out with reads := s.out.reads ++ [0] } }
  else if !s.dieUp d then .next s
  else
    let x := s.die d
    let k := Map.get 0 x.trackPtr i
    let w := Word.ofNat (leNat (((Map.get [] x.trackHold i).drop (4 * k)).take 4))
    .next { s.modDie d (fun x => { x with trackPtr := Map.set 0 x.trackPtr i ((k + 1) % 16) }) with
      out := { s.out with reads := s.out.reads ++ [w] } }

end Sys2Proof.Machine
end

