-- ==== Sys2Proof/Machine/Vision.lean ====
section
/-! DEFINITION. The pyramid and warp engines (chapter 06). -/

namespace Sys2Proof.Machine

open Sys2Proof

/-! ### Pyramid (R166–R169) -/

/-- A filter's taps in one axis, and the sum its weights are given in (Table PWP-4). -/
def pyrTaps (filter : Nat) (coef : List Nat) : List (Int × Int) × Nat :=
  let c (k : Nat) : Int := (nth 0 coef k : Nat)
  match filter with
  | 0 => ([(-2, 1), (-1, 4), (0, 6), (1, 4), (2, 1)], 16)
  | 1 => ([(-3, c 3), (-2, c 2), (-1, c 1), (0, c 0), (1, c 1), (2, c 2), (3, c 3)], 65536)
  | 2 => ([(0, 1), (1, 1)], 2)
  | _ => ([(0, 1)], 1)

/-- The extent of the next level: floor((n − 1) ÷ r) + 1 with r in 2.14 (R167). -/
def pyrExtent (n scale : Nat) : Nat := (n - 1) * 16384 / scale + 1

/-- The bilinear footprint of a position; with r = 2.0 every position is an integer and the sample is the filtered value itself (R167). -/
def pyrFootprint (scale : Nat) (px py : Int) : List ((Int × Int) × (Int × Int)) :=
  if scale = 0x8000 then [((px / 256, py / 256), (256, 256))] else footprint 1 px py

/-- One integer output pixel: filter and bilinear weights together, exact, rounded once. -/
def State.pyrInt (s : State) (t : TDesc) (border : Nat) (fl : List (Int × Int) × Nat) (fp : List ((Int × Int) × (Int × Int))) : Nat :=
  intSample (pixBits t.format) (256 * 256 * fl.2 * fl.2)
    ((fp.map (fun q => (fl.1.map (fun b => fl.1.map (fun a =>
      (q.2.1 * q.2.2 * a.2 * b.2, s.tap t border 0 (q.1.1 + a.1) (q.1.2 + b.1))))).flatten)).flatten)

/-- A filtered value in FP32: along the row, then down the column (log entry 18). -/
def State.pyrFilter (s : State) (t : TDesc) (border : Nat) (fl : List (Int × Int) × Nat) (x y : Int) : Nat :=
  f32sum (fl.1.map (fun b => f32mul (f32frac b.2 fl.2)
    (f32sum (fl.1.map (fun a => f32mul (f32frac a.2 fl.2)
      (FFmt.bf16.convert FFmt.fp32 (s.tap t border 0 (x + a.1) (y + b.1))))))))

/-- One BF16 output pixel. -/
def State.pyrBf16 (s : State) (t : TDesc) (border : Nat) (fl : List (Int × Int) × Nat) (fp : List ((Int × Int) × (Int × Int))) : Nat :=
  FFmt.fp32.convert FFmt.bf16
    (floatSample 256 (fp.map (fun q => (q.2, s.pyrFilter t border fl q.1.1 q.1.2))))

/-- The marks of an output pixel's taps. -/
def State.pyrTaint (s : State) (t : TDesc) (border : Nat) (fl : List (Int × Int) × Nat) (fp : List ((Int × Int) × (Int × Int))) : Taint :=
  fp.foldl (fun m q => fl.1.foldl (fun m b => fl.1.foldl (fun m a =>
    m.or (s.tapTaint t border (q.1.1 + a.1) (q.1.2 + b.1))) m) m) Taint.none

/-- The position, in 1/256 pixel, that output coordinate k samples (R163, R167). -/
def pyrAt (scale k : Nat) : Int := roundEven ((k * scale * 256 : Nat) : Int) 16384

/-- One row of a level: its writes and the marks of what it read. -/
def State.pyrRow (s : State) (src dst : TDesc) (border scale : Nat) (fl : List (Int × Int) × Nat) (y : Nat) : List HeldWrite × Taint :=
  let row := (List.range (dst.ext 0)).map (fun x =>
    let fp := pyrFootprint scale (pyrAt scale x) (pyrAt scale y)
    let v := if src.format = 2 then s.pyrBf16 src border fl fp else s.pyrInt src border fl fp
    (toLE (elemBits dst.format / 8) v, s.pyrTaint src border fl fp))
  (rowWrites dst y (row.map (fun e => (e.1, e.2.poison))), row.foldl (fun m e => m.or e.2) Taint.none)

/-- Rows of level k − 1 that a level's rows read: the filter's reach up and down, and the resampling tap except at r = 2.0 (R167–R169). -/
def pyrRowsIn (scale h : Nat) (fl : List (Int × Int) × Nat) (rows : List Nat) : Nat :=
  let up := fl.1.foldl (fun m (a : Int × Int) => min m a.1) 0
  let down := fl.1.foldl (fun m (a : Int × Int) => max m a.1) 0
  match rows.head?, rows.getLast? with
  | some a, some b =>
    let lo := clampInt 0 ((h : Int) - 1) (pyrAt scale a / 256 + up)
    let hi := clampInt 0 ((h : Int) - 1) (pyrAt scale b / 256 + (if scale = 0x8000 then 0 else 1) + down)
    (hi + 1 - lo).toNat
  | _, _ => 0

/-- The pyramid engine at work: memory as the engine sees it, with its own writes; the writes in order; the marks of what it read; output
pixels; pixel cycles. -/
structure PyrWork where
  seen : State
  writes : List HeldWrite
  taint : Taint
  pixels : Nat
  cycles : Nat

/-- Make the levels from level k − 1 on, one after another, rows in ascending order; each reads what the one before wrote (R168). -/
def State.pyrLevels (d : Nat) (j : Job) (border scale : Nat) (fl : List (Int × Int) × Nat) :
    List (Nat × TDesc) → TDesc → PyrWork → PyrWork
  | [], _, w => w
  | (k, dst) :: rest, src, w =>
    let rows := (rowRange (j.p (0x10 + 4 * (k - 1)) 2) (j.p (0x12 + 4 * (k - 1)) 2) (dst.ext 1)).getD []
    let made := rows.map (fun y => w.seen.pyrRow src dst border scale fl y)
    let ws := (made.map (fun r => r.1)).flatten
    let nin := pyrRowsIn scale (src.ext 1) fl rows * src.ext 0
    let nout := rows.length * dst.ext 0
    State.pyrLevels d j border scale fl rest dst
      ⟨w.seen.makeWrites d ws, w.writes ++ ws, made.foldl (fun t r => t.or r.2) w.taint, w.pixels + nout,
        w.cycles + max (ceilDiv nin 8) (ceilDiv nout 2) + 8 * rows.length⟩

/-- The level extents follow R167 and every level is an image of the task's format. -/
def State.pyrOk (s : State) (fmt scale : Nat) : TDesc → List (Nat × TDesc) → Bool
  | _, [] => true
  | a, (_, b) :: l =>
    s.image b (pyrExtent (a.ext 0) scale) (pyrExtent (a.ext 1) scale) && b.format == fmt && s.pyrOk fmt scale b l

/-- The levels a task makes, counted from 1, and the rows of one that it writes. -/
def pyrOuts (j : Job) : List (Nat × TDesc) := (List.range (j.p 0 1)).map (fun k => (k + 1, j.arg (k + 1)))
def pyrRows (j : Job) (o : Nat × TDesc) : Option (List Nat) :=
  rowRange (j.p (0x10 + 4 * (o.1 - 1)) 2) (j.p (0x12 + 4 * (o.1 - 1)) 2) (o.2.ext 1)

/-- A pyramid task's writes of one level overlap another level that is a source of the task (R161). -/
def pyrOverlap (j : Job) : Bool :=
  (pyrOuts j).any (fun o => (List.range (j.p 0 1)).any (fun m =>
    m != o.1 && spansMeet (rowSpans o.2 ((pyrRows j o).getD [])) (allSpans (j.arg m))))

/-- The rule that a pyramid task breaks, if any. -/
def State.pyrError (s : State) (j : Job) : Option Nat :=
  let n := j.p 0 1
  let filter := j.p 1 1
  let fmt := j.p 3 1
  let scale := j.p 4 2
  let src := j.arg 0
  let outs := pyrOuts j
  if !(decide (1 ≤ n ∧ n ≤ 8 ∧ filter ≤ 3 ∧ j.p 2 1 ≤ 2 ∧ fmt ≤ 2 ∧ 0x4000 ≤ scale ∧ scale ≤ 0x8000) && j.zero 6 8 &&
      j.zero 0x30 0x40 && (filter != 2 || scale == 0x8000)) then some 166
  else if !(s.image src (src.ext 0) (src.ext 1) && src.format == fmt && s.pyrOk fmt scale src outs &&
      outs.all (fun o => (pyrRows j o).isSome)) then some 159
  else if pyrOverlap j then some 161
  else none

/-- PYR_TASK: a pyramid task makes its levels in turn (R159–R169). -/
def execPyrTask (d i : Nat) (s : State) : Result State :=
  match s.job d 1 i with
  | none => .next s
  | some j =>
    match s.pyrError j with
    | some r => hostErr s r
    | none =>
      if !s.spansReach d (allSpans (j.arg 0)) then .next s
      else
        let fl := pyrTaps (j.p 1 1) ((List.range 4).map (fun k => j.p (8 + 2 * k) 2))
        let w := State.pyrLevels d j (j.p 2 1) (j.p 4 2) fl (pyrOuts j) (j.arg 0) ⟨s, [], j.taint, 0, 200⟩
        .next ((s.workDone d j (allSpans (j.arg 0)) ⟨w.writes, w.taint, 0, w.cycles⟩).bumpUnits d .pyrPixels_pixels 1024 w.pixels i)

/-! ### Warp: mesh mode (R170–R177) -/

/-- The mesh of a task: where its nodes lie, and its size. -/
structure Mesh where
  base : Nat
  cols : Nat
  rows : Nat
  log2 : Nat
  deriving DecidableEq, Repr

/-- The address of a node: rows begin on 64-byte boundaries (R171). -/
def Mesh.node (m : Mesh) (i j : Nat) : Nat := m.base + j * (ceilDiv (m.cols * 8) 64 * 64) + i * 8

/-- The mesh that a parameter block names; one in the Caddy lies in this die's copy of the MESH section (R171). -/
def State.mesh (s : State) (d i : Nat) (j : Job) : Mesh :=
  let m := j.p 0x10 8
  let copy := s.getF d .wrpMeshBaseLo_base i + s.getF d .wrpMeshBaseHi_base i * 2 ^ 32
  ⟨if testBit m 63 then copy + m % 2 ^ 40 else m % 2 ^ 40, j.p 0x18 2, j.p 0x1A 2, j.p 5 1⟩

/-- The source position of an output pixel in 1/256 pixel, none where a node with weight is invalid, and the nodes' marks (R172). -/
def State.meshAt (s : State) (m : Mesh) (x y : Nat) : Option (Int × Int) × Taint :=
  let g := 2 ^ m.log2
  let i := x / g
  let u := x % g
  let j := y / g
  let v := y % g
  let nodes := ([((i, j), (g - u) * (g - v)), ((i + 1, j), u * (g - v)), ((i, j + 1), (g - u) * v),
    ((i + 1, j + 1), u * v)]).filter (fun n => n.2 != 0)
  let read := nodes.map (fun n =>
    (n.2, leNat (s.read (m.node n.1.1 n.1.2) 4), leNat (s.read (m.node n.1.1 n.1.2 + 4) 4)))
  let taint := nodes.foldl (fun t n => t.or (s.taintOf (m.node n.1.1 n.1.2) 8)) Taint.none
  if read.any (fun n => n.2.1 == 0x80000000 || n.2.2 == 0x80000000) then (none, taint)
  else
    let px := sumInt (read.map (fun n => (n.1 : Int) * signed 32 n.2.1))
    let py := sumInt (read.map (fun n => (n.1 : Int) * signed 32 n.2.2))
    (some (roundEven (px * 256) (g * g * 65536), roundEven (py * 256) (g * g * 65536)), taint)

/-- A plane of a mesh task: source and output. -/
abbrev Plane := TDesc × TDesc

/-- The position that samples pixel (x, y) of a plane: a UV8 plane takes half of that of (2x, 2y) (R174). -/
def State.planeAt (s : State) (m : Mesh) (p : Plane) (x y : Nat) : Option (Int × Int) × Taint :=
  if p.1.format = 3 then
    let r := s.meshAt m (2 * x) (2 * y)
    (r.1.map (fun q => (roundEven q.1 2, roundEven q.2 2)), r.2)
  else s.meshAt m x y

/-- One pixel of a plane: its bytes, its status bits and its marks. -/
def State.warpPixel (s : State) (filter border : Nat) (m : Mesh) (p : Plane) (x y : Nat) : List Byte × Nat × Taint :=
  let src := p.1
  let parts := List.range (pixParts src.format)
  let out (f : Nat → Nat) : List Byte := (parts.map (fun c => toLE (pixBits src.format / 8) (f c))).flatten
  match s.planeAt m p x y with
  | (none, t) => (out (padPart src), 4, t)
  | (some (px, py), t) =>
    let fp := footprint filter px py
    let st := sampleStatus src fp
    let b := if st = 1 then 2 else border
    let u := axisUnit filter
    let value (c : Nat) : Nat :=
      if src.format = 2 then
        FFmt.fp32.convert FFmt.bf16 (floatSample u (fp.map (fun q =>
          (q.2, FFmt.bf16.convert FFmt.fp32 (s.tap src b c q.1.1 q.1.2)))))
      else intSample (pixBits src.format) (u * u) (fp.map (fun q => (q.2.1 * q.2.2, s.tap src b c q.1.1 q.1.2)))
    (out value, st, fp.foldl (fun t q => t.or (s.tapTaint src b q.1.1 q.1.2)) t)

/-- The rectangle that bounds the pixels that the footprints of a block's samples read, and the granules that holds; an outside sample reads
none (R164, R176). -/
def State.blockFetch (s : State) (filter border : Nat) (m : Mesh) (p : Plane) (x0 y0 w h : Nat) : Nat × Nat :=
  let taps := ((List.range h).map (fun b => ((List.range w).map (fun a =>
    match (s.planeAt m p (x0 + a) (y0 + b)).1 with
    | none => []
    | some (px, py) =>
      let fp := footprint filter px py
      if sampleStatus p.1 fp = 1 then [] else (fp.map (fun q => (tapAt p.1 border q.1.1 q.1.2).toList)).flatten)).flatten)).flatten
  let e := elemBits p.1.format / 8
  match taps with
  | [] => (0, 0)
  | t :: l =>
    let lo := l.foldl (fun (a : Nat × Nat) b => (min a.1 b.1, min a.2 b.2)) t
    let hi := l.foldl (fun (a : Nat × Nat) b => (max a.1 b.1, max a.2 b.2)) t
    let gran := ((hi.1 + 1) * e + 63) / 64 - lo.1 * e / 64
    let rows := hi.2 + 1 - lo.2
    (gran * rows, gran * rows * 64)

/-- Pixel cycles of a block, and its splits: a rectangle above 32 KiB splits the block along its longer side (R176, R177). -/
def State.blockCost (s : State) (filter border : Nat) (m : Mesh) (p : Plane) : Nat → Nat → Nat → Nat → Nat → Nat × Nat
  | 0, _, _, w, h => (ceilDiv (w * h) 2, 0)
  | n + 1, x0, y0, w, h =>
    let f := s.blockFetch filter border m p x0 y0 w h
    if f.2 ≤ 32768 ∨ w * h ≤ 1 then (max (ceilDiv (w * h) 2) f.1, 0)
    else
      let (a, b) := if h ≤ w then
          (s.blockCost filter border m p n x0 y0 (w / 2) h, s.blockCost filter border m p n (x0 + w / 2) y0 (w - w / 2) h)
        else
          (s.blockCost filter border m p n x0 y0 w (h / 2), s.blockCost filter border m p n x0 (y0 + h / 2) w (h - h / 2))
      (a.1 + b.1, a.2 + b.2 + 1)

/-- Pixel cycles and splits of a plane's rows first to last; the blocks begin at the task's first row (DESIGN CHOICE, log entry 84: R176 does
not say where the blocks of a band begin). -/
def State.planeCost (s : State) (filter border : Nat) (m : Mesh) (p : Plane) (first last : Nat) : Nat × Nat :=
  let rows := last + 1 - first
  ((List.range (ceilDiv rows 8)).map (fun by_ => (List.range (ceilDiv (p.2.ext 0) 32)).map (fun bx =>
    s.blockCost filter border m p 10 (32 * bx) (first + 8 * by_) (min 32 (p.2.ext 0 - 32 * bx))
      (min 8 (rows - 8 * by_))))).flatten.foldl (fun (a : Nat × Nat) b => (a.1 + b.1, a.2 + b.2)) (0, 0)

/-- The rows of a plane that a task writes. -/
def planeRows (p : Plane) (rows : List Nat) : List Nat :=
  if p.1.format = 3 then (rows.filter (fun y => y % 2 == 0)).map (fun y => y / 2) else rows

/-- The rows of a plane: their writes, and the marks of what they read. -/
def State.warpPlane (s : State) (filter border : Nat) (m : Mesh) (p : Plane) (rows : List Nat) : List HeldWrite × Taint :=
  (planeRows p rows).foldl (fun (x : List HeldWrite × Taint) y =>
    let row := (List.range (p.2.ext 0)).map (fun a => s.warpPixel filter border m p a y)
    (x.1 ++ rowWrites p.2 y (row.map (fun e => (e.1, e.2.2.poison))), row.foldl (fun t e => t.or e.2.2) x.2))
    ([], Taint.none)

/-- The status byte of an output position: the codes of every plane that samples there (R175). -/
def State.meshStatus (s : State) (filter border : Nat) (m : Mesh) (ps : List Plane) (x y : Nat) : Nat × Taint :=
  ps.foldl (fun (a : Nat × Taint) p =>
    if p.1.format = 3 then
      if x % 2 = 0 ∧ y % 2 = 0 then
        let r := (s.warpPixel filter border m p (x / 2) (y / 2)).2
        (a.1 ||| r.1, a.2.or r.2)
      else a
    else
      let r := (s.warpPixel filter border m p x y).2
      (a.1 ||| r.1, a.2.or r.2)) (0, Taint.none)

/-- The out-of-range and invalid counts of status bytes. -/
def oorCount (l : List Nat) : Nat := (l.filter (fun b => testBit b 0 || testBit b 2)).length
def invalidCount (l : List Nat) : Nat := (l.filter (fun b => testBit b 2)).length

/-- The writes of the status plane if one is asked for. -/
def statusWrites (t : Option TDesc) (w : Nat) (rows : List Nat) (st : Nat → Nat → Nat × Taint) : List HeldWrite :=
  match t with
  | none => []
  | some t => (rows.map (fun y => rowWrites t y
      ((List.range w).map (fun a => let r := st a y; ([BitVec.ofNat 8 r.1], r.2.poison))))).flatten

/-- Count a warp task's pixels, out-of-range positions, invalid positions and splits. -/
def State.warpCounts (s : State) (d i pixels oor invalid splits : Nat) : State :=
  (((s.bumpUnits d .wrpPixels_pixels 1024 pixels i).bumpF d .wrpOor_oor i 0 oor).bumpF d .wrpInvalid_invalid i 0 invalid).bumpF d
    .wrpInvalid_split i 0 splits

/-- The fields both warp modes check. -/
def warpBlockOk (j : Job) : Bool :=
  decide (j.p 0 1 ≤ 1 ∧ j.p 1 1 ≤ 2 ∧ j.p 2 1 ≤ 2 ∧ j.p 6 1 ≤ 1 ∧ 1 ≤ j.p 8 2 ∧ j.p 8 2 ≤ 4096 ∧ 1 ≤ j.p 0xA 2 ∧ j.p 0xA 2 ≤ 4096) &&
    j.zero 0x1D 0x1E && j.zero 0x20 0x40

/-- The planes of a mesh task, its status plane, and the rows it writes. -/
def meshPlanes (j : Job) : List Plane := (List.range (j.p 4 1)).map (fun k => (j.arg k, j.arg (j.p 4 1 + k)))
def warpStatus (j : Job) (k : Nat) : Option TDesc := if j.p 6 1 = 1 then some (j.arg k) else none
def warpRows (j : Job) : Option (List Nat) := rowRange (j.p 0xC 2) (j.p 0xE 2) (j.p 0xA 2)

/-- The bytes that a mesh task writes. -/
def meshSpans (j : Job) : List (Nat × Nat) :=
  let rows := (warpRows j).getD []
  ((meshPlanes j).map (fun p => rowSpans p.2 (planeRows p rows))).flatten ++
    (match warpStatus j (2 * j.p 4 1) with | some t => rowSpans t rows | none => [])

/-- The bytes that a mesh task reads: its mesh and its sources. -/
def meshReads (j : Job) (m : Mesh) : List (Nat × Nat) :=
  (m.base, m.node m.cols (m.rows - 1)) :: ((meshPlanes j).map (fun p => allSpans p.1)).flatten

/-- The rule that a mesh task breaks, if any. -/
def State.meshError (s : State) (d i : Nat) (j : Job) : Option Nat :=
  let n := j.p 4 1
  let w := j.p 8 2
  let h := j.p 0xA 2
  let m := s.mesh d i j
  let g := 2 ^ m.log2
  let ps := meshPlanes j
  let planeOk (p : Plane) : Bool :=
    let (ow, oh) := if p.1.format = 3 then (ceilDiv w 2, ceilDiv h 2) else (w, h)
    decide (p.1.format ≤ 3) && p.2.format == p.1.format && s.image p.1 (p.1.ext 0) (p.1.ext 1) && s.image p.2 ow oh
  if (warpRows j).isNone then some 170
  else if !(warpBlockOk j && decide (1 ≤ n ∧ n ≤ 4 ∧ 2 ≤ m.log2 ∧ m.log2 ≤ 6 ∧ j.p 3 1 ≤ 3) && j.zero 7 8 &&
      bits (j.p 0x10 8) 40 23 == 0) then some 170
  else if m.cols < ceilDiv (w - 1) g + 1 ∨ m.rows < ceilDiv (h - 1) g + 1 then some 172
  else if !(ps.all planeOk && (match warpStatus j (2 * n) with | some t => s.image t w h && t.format == 0 | none => true) &&
      s.spansOk [(m.base, m.node m.cols (m.rows - 1))]) then some 159
  else if spansMeet (meshSpans j) (meshReads j m) then some 161
  else none

/-- WRP_MESH_TASK: a warp task in mesh mode (R170–R177). -/
def execWrpMeshTask (d i : Nat) (s : State) : Result State :=
  match s.job d 2 i with
  | none => .next s
  | some j =>
    if j.p 0 1 = 1 then .next s
    else match s.meshError d i j with
    | some r => hostErr s r
    | none =>
      if !s.spansReach d (meshReads j (s.mesh d i j)) then .next s else
      let n := j.p 4 1
      let filter := j.p 1 1
      let border := j.p 2 1
      let w := j.p 8 2
      let m := s.mesh d i j
      let ps := meshPlanes j
      let rows := (warpRows j).getD []
      let r := ps.foldl (fun (x : List HeldWrite × Taint) p =>
        let q := s.warpPlane filter border m p rows
        (x.1 ++ q.1, x.2.or q.2)) ([], j.taint)
      let st (x y : Nat) : Nat × Taint := s.meshStatus filter border m ps x y
      let codes := (rows.map (fun y => (List.range w).map (fun x => (st x y).1))).flatten
      let cost := ps.foldl (fun (a : Nat × Nat) p =>
        let pr := planeRows p rows
        let c := match pr.head?, pr.getLast? with
          | some x, some y => s.planeCost filter border m p x y
          | _, _ => (0, 0)
        (a.1 + c.1, a.2 + c.2)) (0, 0)
      let pixels := sumNat (ps.map (fun p => (planeRows p rows).length * p.2.ext 0))
      let s1 := s.workDone d j (meshReads j m)
        ⟨r.1 ++ statusWrites (warpStatus j (2 * n)) w rows st, r.2, cap 0xFFFF (oorCount codes), 200 + cost.1⟩
      .next (s1.warpCounts d i pixels (oorCount codes) (invalidCount codes) cost.2)

/-! ### Warp: sampler mode (R178–R180) -/

/-- A coordinate as FP32 in 1/256 pixel, ties to even; none where it is not finite or its magnitude reaches 32,768 (R179). -/
def samplerPos (n : Nat) : Option Int :=
  match FFmt.fp32.decode n with
  | .fin neg m e =>
    let v : Int := if 0 ≤ e then smant neg (m * 2 ^ e.toNat) * 256 else roundEven (smant neg m * 256) (2 ^ (-e).toNat)
    let big := if 0 ≤ e then decide (32768 ≤ m * 2 ^ e.toNat) else decide (32768 * 2 ^ (-e).toNat ≤ m)
    if big then none else some v
  | _ => none

/-- Conversion of a coordinate to source pixels in FP32 (R179). -/
def samplerConv (coord n extent : Nat) : Nat :=
  let one := f32ofInt 1
  let half := f32frac 1 2
  match coord with
  | 0 => n
  | 1 => f32mul (f32sub (f32mul (f32add n one) (f32ofInt (extent : Nat))) one) half
  | _ => f32mul (f32mul (f32add n one) (f32ofInt ((extent - 1 : Nat) : Int))) half

/-- The width and height of a CV32 source. -/
def cvSize (t : TDesc) : TDesc := { t with extent := [t.ext 1, t.ext 2] }

/-- Channel c of a source at a position inside it, as FP32, with its mark. -/
def State.cvPixel (s : State) (t : TDesc) (x y c : Nat) : Nat × Taint :=
  let run := t.runBase t.base [x, y]
  if t.format = 2 then
    let a := run.toNat + 2 * c
    (FFmt.bf16.convert FFmt.fp32 (leNat (s.read a 2)), s.taintOf a 2)
  else
    let a := run.toNat + c
    let sa := t.scaleAddr ⟨0, 0, 0⟩ t.scaleBase (run - t.base + 32 * (c / 32 : Nat))
    (mxToF32 4 (leNat (s.read a 1)) (leNat (s.read sa 1)), (s.taintOf a 1).or (s.taintOf sa 1))

/-- The pad value of a source as FP32. -/
def cvPad (t : TDesc) : Nat :=
  if t.format = 2 then FFmt.bf16.convert FFmt.fp32 (t.pad % 65536) else mxToF32 4 (t.pad % 256) t.padScale

/-- A point as resolved: its weight, its source, its position (none: invalid), and its record's mark. -/
structure Point where
  weight : Nat
  src : Option TDesc
  pos : Option (Int × Int)
  taint : Taint

/-- Resolve the point of a coordinate record. -/
def State.point (s : State) (coord : Nat) (srcs : List TDesc) (a : Nat) : Point :=
  let n (o : Nat) : Nat := leNat (s.read (a + o) 4)
  let src := srcs[n 12]?
  let pos := match src with
    | none => none
    | some t =>
      match samplerPos' (n 0), samplerPos' (n 4) with
      | true, true =>
        match samplerPos (samplerConv coord (n 0) (t.ext 1)), samplerPos (samplerConv coord (n 4) (t.ext 2)) with
        | some x, some y => some (x, y)
        | _, _ => none
      | _, _ => none
  ⟨n 8, src, pos, s.taintOf a 16⟩
where
  /-- A coordinate is finite. -/
  samplerPos' (n : Nat) : Bool := match FFmt.fp32.decode n with
    | .fin _ _ _ => true
    | _ => false

/-- Channel c of a point's sample, with its mark (R164, R179). -/
def State.pointSample (s : State) (filter border c : Nat) (q : Point) : Nat × Taint :=
  match q.src, q.pos with
  | some t, some (px, py) =>
    let fp := footprint filter px py
    let b := if sampleStatus (cvSize t) fp = 1 then 2 else border
    let taps := fp.map (fun f => (f.2, match tapAt (cvSize t) b f.1.1 f.1.2 with
      | some (x, y) => s.cvPixel t x y c
      | none => (cvPad t, Taint.none)))
    (floatSample (axisUnit filter) (taps.map (fun f => (f.1, f.2.1))), taps.foldl (fun m f => m.or f.2.2) q.taint)
  | some t, none => (cvPad t, q.taint)
  | none, _ => (Config.padOfNoSource, q.taint)

/-- The status bits of a point. -/
def pointStatus (filter : Nat) (q : Point) : Nat :=
  match q.src, q.pos with
  | some t, some (px, py) => sampleStatus (cvSize t) (footprint filter px py)
  | _, _ => 4

/-- Output channels of a position, and its mark. -/
def State.samplerPixel (s : State) (filter border channels : Nat) (ps : List Point) : List (List Byte × Bool) × Taint :=
  (List.range channels).foldl (fun (a : List (List Byte × Bool) × Taint) c =>
    let r := ps.map (fun q => (q.weight, s.pointSample filter border c q))
    let v := FFmt.fp32.convert FFmt.bf16 (f32sum (r.map (fun x => f32mul x.1 x.2.1)))
    let t := r.foldl (fun m x => m.or x.2.2) Taint.none
    (a.1 ++ [(toLE 2 v, t.poison)], a.2.or t)) ([], Taint.none)

/-- The sources of a sampler task. -/
def samplerSrcs (j : Job) : List TDesc := (List.range (j.p 4 1)).map (fun x => j.arg x)

/-- The bytes that a sampler task writes. -/
def samplerSpans (j : Job) : List (Nat × Nat) :=
  let n := j.p 4 1
  let out := j.arg (n + 1)
  let rows := (warpRows j).getD []
  (rows.map (fun y => (List.range (j.p 8 2)).map (fun x =>
    let a := (out.runBase out.base [x, y]).toNat
    (a, a + 2 * j.p 0x1E 2)))).flatten ++ (match warpStatus j (n + 2) with | some t => rowSpans t rows | none => [])

/-- The bytes that a sampler task reads: its sources with their scale planes, and its coordinates. -/
def samplerReads (j : Job) : List (Nat × Nat) :=
  ((samplerSrcs j).map runSpans).flatten ++ runSpans (j.arg (j.p 4 1))

/-- The rule that a sampler task breaks, if any. -/
def State.samplerError (s : State) (j : Job) : Option Nat :=
  let n := j.p 4 1
  let fmt := j.p 3 1
  let w := j.p 8 2
  let h := j.p 0xA 2
  let k := j.p 0x1C 1
  let c := j.p 0x1E 2
  let srcs := samplerSrcs j
  let coords := j.arg n
  let out := j.arg (n + 1)
  let cvOk (t : TDesc) (f : Nat) : Bool := s.tensor t && t.layout == 1 && t.format == f && t.rank == 3 && t.ext 0 == c
  let rowBytes := w * k * 16
  if (warpRows j).isNone then some 170
  else if !(warpBlockOk j && decide (1 ≤ n ∧ n ≤ 8 ∧ j.p 1 1 ≤ 1 ∧ (fmt = 2 ∨ fmt = 4) ∧ j.p 7 1 ≤ 2 ∧ 1 ≤ k ∧ k ≤ 16 ∧ 32 ≤ c ∧
      c ≤ 2048 ∧ c % 32 = 0) && j.zero 5 6) then some 170
  else if w * k % 4 ≠ 0 then some 178
  else if !(srcs.all (fun t => cvOk t fmt) && cvOk out 2 && out.ext 1 == w && out.ext 2 == h && s.tensor coords &&
      decide (coords.layout ≤ 1) && coords.rank == 2 && coords.ext 1 == h && coords.ext 0 * elemBits coords.format == rowBytes * 8 &&
      (match warpStatus j (n + 2) with | some t => s.image t w h && t.format == 0 | none => true)) then some 159
  else if spansMeet (samplerSpans j) (samplerReads j) then some 161
  else none

/-- WRP_SAMPLER_TASK: a warp task in sampler mode (R178–R180). -/
def execWrpSamplerTask (d i : Nat) (s : State) : Result State :=
  match s.job d 2 i with
  | none => .next s
  | some j =>
    if j.p 0 1 = 0 then .next s
    else match s.samplerError j with
    | some r => hostErr s r
    | none =>
      if !s.spansReach d (samplerReads j) then .next s else
      let n := j.p 4 1
      let filter := j.p 1 1
      let w := j.p 8 2
      let k := j.p 0x1C 1
      let c := j.p 0x1E 2
      let coords := j.arg n
      let out := j.arg (n + 1)
      let rows := (warpRows j).getD []
      let points (x y : Nat) : List Point := (List.range k).map (fun p =>
        s.point (j.p 7 1) (samplerSrcs j) ((coords.runBase coords.base [y]).toNat + (x * k + p) * 16))
      let st (x y : Nat) : Nat × Taint :=
        (points x y).foldl (fun (a : Nat × Taint) q => (a.1 ||| pointStatus filter q, a.2.or q.taint)) (0, Taint.none)
      let r := rows.foldl (fun (a : List HeldWrite × Taint) y => (List.range w).foldl (fun (a : List HeldWrite × Taint) x =>
        let v := s.samplerPixel filter (j.p 2 1) c (points x y)
        (a.1 ++ runWrites out (out.runBase out.base [x, y]).toNat v.1, a.2.or v.2)) a) ([], j.taint)
      let codes := (rows.map (fun y => (List.range w).map (fun x => (st x y).1))).flatten
      let s1 := s.workDone d j (samplerReads j)
        ⟨r.1 ++ statusWrites (warpStatus j (n + 2)) w rows st, r.2, cap 0xFFFF (oorCount codes),
          200 + 8 * rows.length + ceilDiv (rows.length * w * k * c) (if filter = 1 then 2 else 8)⟩
      .next (s1.warpCounts d i (rows.length * w * c) (oorCount codes) (invalidCount codes) 0)
end Sys2Proof.Machine
end

