-- ==== Sys2Proof/Machine/Flow.lean ====
section
/-! DEFINITION. The optical flow engine (chapter 07). -/

namespace Sys2Proof.Machine

open Sys2Proof

/-! ### Census and texture, shared with stereo (R201, R203, R215, R223) -/

/-- The census of a pixel over a window of half-widths hx, hy: a bit for each other pixel in raster order, set when its code is below
the centre's. -/
def State.census (s : State) (t : TDesc) (hx hy : Nat) (x y : Int) : List Bool :=
  let c := s.clampPix t x y
  ((List.range (2 * hy + 1)).map (fun (b : Nat) => (List.range (2 * hx + 1)).filterMap (fun (a : Nat) =>
    if a = hx ∧ b = hy then none else some (decide (s.clampPix t (x + a - hx) (y + b - hy) < c))))).flatten

/-- Hamming distance of two censuses. -/
def censusDist (a b : List Bool) : Nat := ((a.zip b).filter (fun p => p.1 != p.2)).length

/-- The texture of a pixel over a window of half-width h (R203, R223). -/
def State.texture (s : State) (t : TDesc) (h : Nat) (x y : Int) : Nat :=
  let i (a b : Int) : Int := s.clampPix t a b
  sumNat ((List.range (2 * h + 1)).map (fun (b : Nat) => sumNat ((List.range (2 * h + 1)).map (fun (a : Nat) =>
    let px := x + a - h
    let py := y + b - h
    (i (px + 1) py - i (px - 1) py).natAbs + (i px (py + 1) - i px (py - 1)).natAbs))))

/-! ### Vectors -/

/-- The status of a flow vector (Table FFL-8). -/
inductive FlowStatus where
  | valid | lowTexture | noMatch | occluded
  deriving DecidableEq, Repr

/-- The code of a status. -/
def FlowStatus.code : FlowStatus → Nat
  | .valid => 0
  | .lowTexture => 1
  | .noMatch => 2
  | .occluded => 3

/-- A vector as the engine holds it: components in 1/16 pixel, status, the two costs, whether test 1 gave the status, and its mark. -/
structure FlowVec where
  dx : Int
  dy : Int
  status : FlowStatus
  c1 : Nat
  c2 : Nat
  first : Bool
  taint : Taint
  deriving DecidableEq, Repr

/-- A field of vectors: the rows that are computed. -/
abbrev FlowField := List (Nat × List FlowVec)

/-- A vector of a field. -/
def flowAt (f : FlowField) (x y : Int) : Option FlowVec :=
  if x < 0 ∨ y < 0 then none
  else match f.find? (fun r => r.1 == y.toNat) with
    | some r => r.2[x.toNat]?
    | none => none

/-- A word of a flow output as components and status (Table FFL-7). -/
def flowWord (w : Nat) : Int × Int × Nat := (signed 15 (bits w 0 15), signed 15 (bits w 16 15), bits w 31 1 * 2 + bits w 15 1)

/-- The word of a vector (R204). -/
def FlowVec.word (v : FlowVec) : Nat :=
  let ok := v.status == .valid
  let d (n : Int) : Nat := if ok then (n % 32768).toNat else 0
  d v.dx + v.status.code % 2 * 2 ^ 15 + d v.dy * 2 ^ 16 + v.status.code / 2 * 2 ^ 31

/-- The lower median. -/
def medianLow (l : List Int) : Int := nth 0 (sortBy (fun a b => decide (a < b)) l) ((l.length - 1) / 2)

/-- The component-wise median of the VALID vectors in the 3 × 3 neighbourhood; none where there are none. -/
def flowMedian (f : FlowField) (x y : Nat) : Option (Int × Int) :=
  let vs := ((List.range 9).filterMap (fun (k : Nat) => flowAt f ((x : Int) + (k % 3 : Nat) - 1) ((y : Int) + (k / 3 : Nat) - 1))).filter
    (fun v => v.status == .valid)
  if vs.isEmpty then none else some (medianLow (vs.map (·.dx)), medianLow (vs.map (·.dy)))

/-- Options[1]: each VALID vector becomes the median of its neighbourhood (R202). -/
def smoothField (f : FlowField) : FlowField :=
  f.map (fun r => (r.1, (List.range r.2.length).filterMap (fun x => (r.2[x]?).map (fun v =>
    if v.status = .valid then
      match flowMedian f x r.1 with
      | some m => { v with dx := m.1, dy := m.2 }
      | none => v
    else v))))

/-- The vector a coarser level gives to its children, in whole pixels (R200). -/
def propagated (f : FlowField) (x y : Nat) : Int × Int :=
  match flowAt f x y with
  | none => (0, 0)
  | some v =>
    if v.status = .valid then (v.dx / 16, v.dy / 16)
    else match flowMedian f x y with
      | some m => (m.1 / 16, m.2 / 16)
      | none => (0, 0)

/-! ### Search (R200–R203) -/

/-- The parameters of a flow task. -/
structure FlowPar where
  sx : Nat
  sy : Nat
  half : Nat
  uniq : Nat
  costMax : Nat
  textureMin : Nat
  subpixel : Bool
  checkThr : Nat
  back : Option TDesc
  deriving DecidableEq, Repr

/-- The highest cost of R201. -/
def FlowPar.top (p : FlowPar) : Nat := 24 * (2 * p.half + 1) * (2 * p.half + 1)

/-- The cost of displacement (dx, dy) at (x, y). -/
def State.flowCost (s : State) (p : FlowPar) (ref tgt : TDesc) (x y dx dy : Int) : Nat :=
  sumNat ((List.range (2 * p.half + 1)).map (fun (b : Nat) => sumNat ((List.range (2 * p.half + 1)).map (fun (a : Nat) =>
    let qx := x + a - p.half
    let qy := y + b - p.half
    censusDist (s.census ref 2 2 qx qy) (s.census tgt 2 2 (qx + dx) (qy + dy))))))

/-- An evaluated candidate: its offset from the prediction and its cost. -/
structure Cand where
  i : Int
  j : Int
  cost : Nat
  deriving DecidableEq, Repr

/-- The order of winners (R202). -/
def Cand.before (a b : Cand) : Bool :=
  if a.cost ≠ b.cost then decide (a.cost < b.cost)
  else if a.i.natAbs + a.j.natAbs ≠ b.i.natAbs + b.j.natAbs then decide (a.i.natAbs + a.j.natAbs < b.i.natAbs + b.j.natAbs)
  else if a.j ≠ b.j then decide (a.j < b.j)
  else decide (a.i < b.i)

/-- The candidates evaluated at a pixel. -/
def State.flowCands (s : State) (p : FlowPar) (ref tgt : TDesc) (x y : Nat) (pred : Int × Int) : List Cand :=
  ((List.range (2 * p.sy + 1)).map (fun (b : Nat) => (List.range (2 * p.sx + 1)).filterMap (fun (a : Nat) =>
    let i : Int := (a : Int) - p.sx
    let j : Int := (b : Int) - p.sy
    if inside tgt (x + pred.1 + i) (y + pred.2 + j) then
      some ⟨i, j, s.flowCost p ref tgt x y (pred.1 + i) (pred.2 + j)⟩
    else none))).flatten

/-- A parabola's offset in 1/16, clamped to half a pixel, ties to even (R202, R221). -/
def parabola (below least above : Int) : Int :=
  let den := 2 * (below - 2 * least + above)
  if den ≤ 0 then 0 else clampInt (-8) 8 (roundEven ((below - above) * 16) den.toNat)

/-- The refinement in one axis, where both neighbours were evaluated. -/
def refine (cs : List Cand) (w : Cand) (ax : Bool) : Int :=
  let at_ (k : Int) : Option Cand := cs.find? (fun c => if ax then c.i == w.i + k && c.j == w.j else c.i == w.i && c.j == w.j + k)
  match at_ (-1), at_ 1 with
  | some a, some b => parabola a.cost w.cost b.cost
  | _, _ => 0

/-- The vector of one pixel; `fine` at the output level. -/
def State.flowVec (s : State) (p : FlowPar) (ref tgt : TDesc) (fine : Bool) (x y : Nat) (pred : Int × Int) (mark : Taint) : FlowVec :=
  let cs := s.flowCands p ref tgt x y pred
  let h : Int := p.half + 2
  let t := (mark.or (s.rectTaint ref (x - h) (x + h) (y - h) (y + h))).or
    (s.rectTaint tgt (x + pred.1 - p.sx - h) (x + pred.1 + p.sx + h) (y + pred.2 - p.sy - h) (y + pred.2 + p.sy + h))
  match cs with
  | [] => ⟨0, 0, .occluded, 0, 0, true, t⟩
  | a :: l =>
    let w := l.foldl (fun (m : Cand) c => if c.before m then c else m) a
    let c2 := ((cs.filter (fun c => decide (1 < (c.i - w.i).natAbs ∨ 1 < (c.j - w.j).natAbs))).foldl
      (fun (m : Option Nat) c => match m with
        | none => some c.cost
        | some n => some (min n c.cost)) none).getD p.top
    let dx := (pred.1 + w.i) * 16 + (if fine && p.subpixel then refine cs w true else 0)
    let dy := (pred.2 + w.j) * 16 + (if fine && p.subpixel then refine cs w false else 0)
    let px := (x : Int) * 16 + dx
    let py := (y : Int) * 16 + dy
    let out := decide (px < 0 ∨ ((tgt.ext 0 - 1 : Nat) : Int) * 16 < px ∨ py < 0 ∨ ((tgt.ext 1 - 1 : Nat) : Int) * 16 < py)
    let range (v : Int) : Bool := decide (v < -16384 ∨ 16383 < v)
    let edge := decide (w.i.natAbs = p.sx ∨ w.j.natAbs = p.sy)
    let backBad : Bool := match (if fine then p.back else none) with
      | none => false
      | some b =>
        let bw := flowWord (leNat (s.read (pixAddr b (roundEven px 16).toNat (roundEven py 16).toNat) 4))
        bw.2.2 != 0 || decide (p.checkThr < (dx + bw.1).natAbs + (dy + bw.2.1).natAbs)
    let t := match (if fine ∧ out = false then p.back else none) with
      | none => t
      | some b => t.or (s.taintOf (pixAddr b (roundEven px 16).toNat (roundEven py 16).toNat) 4)
    let st := if out then FlowStatus.occluded
      else if s.texture ref p.half x y < p.textureMin then .lowTexture
      else if decide (p.costMax < w.cost) || edge || decide (c2 * p.uniq < w.cost * 16) || range dx || range dy then .noMatch
      else if backBad then .occluded else .valid
    ⟨dx, dy, st, w.cost, c2, out, t⟩

/-- The rows computed at octave k above the output level (R206). -/
def coarseRows (rows : List Nat) (whole : Bool) (k h : Nat) : List Nat :=
  if whole then List.range h
  else match rows.head?, rows.getLast? with
    | some a, some b =>
      let lo := a / 2 ^ k - 2
      let hi := min (h - 1) (ceilDiv b (2 ^ k) + 2)
      (List.range (hi + 1 - lo)).map (fun n => lo + n)
    | _, _ => []

/-- Compute a level from the one above it; `pred` gives the prediction and its mark. -/
def State.flowLevel (s : State) (p : FlowPar) (ref tgt : TDesc) (fine median : Bool) (rows : List Nat)
    (pred : Nat → Nat → (Int × Int) × Taint) : FlowField :=
  let f := rows.map (fun y => (y, (List.range (ref.ext 0)).map (fun x =>
    let q := pred x y
    s.flowVec p ref tgt fine x y q.1 q.2)))
  if median then smoothField f else f

/-- All levels, the coarsest first. -/
def State.flowLevels (s : State) (p : FlowPar) (median whole : Bool) (rows : List Nat) :
    List (Nat × TDesc × TDesc) → (Nat → Nat → (Int × Int) × Taint) → FlowField
  | [], _ => []
  | (k, ref, tgt) :: rest, pred =>
    let f := s.flowLevel p ref tgt (k == 0) median (if k = 0 then rows else coarseRows rows whole k (ref.ext 1)) pred
    if rest.isEmpty then f
    else s.flowLevels p median whole rows rest (fun x y =>
      let v := propagated f (x / 2) (y / 2)
      ((2 * v.1, 2 * v.2), ((flowAt f (x / 2) (y / 2)).map (·.taint)).getD Taint.none))

/-- The confidence of a vector (R205). -/
def confidence (ok : Bool) (c1 c2 : Nat) : Nat := if ok ∧ 0 < c2 then 255 * (c2 - c1) / c2 else 0

/-- Coarser sources have the extents of R167 with r = 2.0. -/
def halving : List TDesc → Bool
  | a :: b :: l => b.ext 0 == pyrExtent (a.ext 0) 0x8000 && b.ext 1 == pyrExtent (a.ext 1) 0x8000 && halving (b :: l)
  | _ => true

/-- A plane of `width` bits an element, of an extent, that an engine can write or read. -/
def State.plane (s : State) (t : TDesc) (width w h : Nat) : Bool := s.image t w h && elemBits t.format == width

/-- The writes of the rows of a plane, element by element. -/
def planeWrites {α : Type} (t : TDesc) (rows : List (Nat × List α)) (elem : α → List Byte × Bool) : List HeldWrite :=
  (rows.map (fun r => rowWrites t r.1 (r.2.map elem))).flatten

/-- The images of a flow task: references, targets, the planes its options ask for, and its outputs (R199). -/
def flowRefs (j : Job) : List TDesc := (List.range (j.p 0 1)).map (fun k => j.arg k)
def flowTgts (j : Job) : List TDesc := (List.range (j.p 0 1)).map (fun k => j.arg (j.p 0 1 + k))
def flowPrior (j : Job) : Option TDesc := if testBit (j.p 0xC 1) 2 then some (j.arg (2 * j.p 0 1)) else none
def flowBack (j : Job) : Option TDesc :=
  if testBit (j.p 0xC 1) 3 then some (j.arg (2 * j.p 0 1 + bit (testBit (j.p 0xC 1) 2))) else none
def flowOutAt (j : Job) : Nat := 2 * j.p 0 1 + bit (testBit (j.p 0xC 1) 2) + bit (testBit (j.p 0xC 1) 3)
def flowConf (j : Job) : Option TDesc := if testBit (j.p 0xC 1) 4 then some (j.arg (flowOutAt j + 1)) else none

/-- The parameters of a flow task, and the rows it writes, with their bytes and those that it reads. -/
def flowPar (j : Job) : FlowPar :=
  ⟨j.p 2 1, j.p 3 1, if j.p 4 1 = 1 then 3 else 2, j.p 5 1, j.p 6 2, j.p 8 4, testBit (j.p 0xC 1) 0, j.p 0xD 1, flowBack j⟩
def flowRows (j : Job) : Option (List Nat) := rowRange (j.p 0xE 2) (j.p 0x10 2) (((flowRefs j).headD (TDesc.ofBytes [])).ext 1)
def flowSpans (j : Job) : List (Nat × Nat) :=
  let rows := (flowRows j).getD []
  rowSpans (j.arg (flowOutAt j)) rows ++ (match flowConf j with | some t => rowSpans t rows | none => [])
def flowReads (j : Job) : List (Nat × Nat) :=
  ((flowRefs j ++ flowTgts j ++ (flowPrior j).toList ++ (flowBack j).toList).map allSpans).flatten

/-- The rule that a flow task breaks, if any. -/
def State.flowError (s : State) (j : Job) : Option Nat :=
  let n := j.p 0 1
  let refs := flowRefs j
  let tgts := flowTgts j
  let ref0 := refs.headD (TDesc.ofBytes [])
  let w := ref0.ext 0
  let h := ref0.ext 1
  let p := flowPar j
  let srcOk (t : TDesc) : Bool := t.format == j.p 1 1 && s.image t (t.ext 0) (t.ext 1)
  let sizes (a b : TDesc) : Bool := a.ext 0 == b.ext 0 && a.ext 1 == b.ext 1
  let planeOf (t : Option TDesc) (width : Nat) : Bool := match t with
    | some t => s.plane t width w h
    | none => true
  if (flowRows j).isNone then some 199
  else if !(decide (1 ≤ n ∧ n ≤ 6 ∧ j.p 1 1 ≤ 1 ∧ 2 ≤ p.sx ∧ p.sx ≤ 12 ∧ 1 ≤ p.sy ∧ p.sy ≤ 8 ∧ j.p 4 1 ≤ 1 ∧ 1 ≤ p.uniq ∧ p.uniq ≤ 16 ∧
      p.costMax ≤ 1176 ∧ j.p 0xC 1 < 32) && j.zero 0x12 0x40) then some 199
  else if !(refs.all srcOk && tgts.all srcOk && (refs.zip tgts).all (fun q => sizes q.1 q.2) && halving refs &&
      s.plane (j.arg (flowOutAt j)) 32 w h && planeOf (flowConf j) 8 && planeOf (flowPrior j) 32 &&
      planeOf (flowBack j) 32) then some 159
  else if !pitchOk (j.arg (flowOutAt j)) then some 204
  else if spansMeet (flowSpans j) (flowReads j) then some 161
  else none

/-- FLW_TASK: a flow task (R199–R206). -/
def execFlwTask (d i : Nat) (s : State) : Result State :=
  match s.job d 4 i with
  | none => .next s
  | some j =>
    match s.flowError j with
    | some r => hostErr s r
    | none =>
      if !s.spansReach d (flowReads j) then .next s else
      let n := j.p 0 1
      let opt := j.p 0xC 1
      let refs := flowRefs j
      let tgts := flowTgts j
      let prior := flowPrior j
      let p := flowPar j
      let rows := (flowRows j).getD []
      let start (x y : Nat) : (Int × Int) × Taint :=
        match prior with
        | none => ((0, 0), Taint.none)
        | some t =>
          let a := pixAddr t (x * 2 ^ (n - 1)) (y * 2 ^ (n - 1))
          let v := flowWord (leNat (s.read a 4))
          let q (c : Int) : Int := roundEven c (16 * 2 ^ (n - 1))
          ((if v.2.2 = 0 then (q v.1, q v.2.1) else (0, 0)), s.taintOf a 4)
      let whole := j.p 0xE 2 == 0xFFFF
      let levels := ((List.range n).reverse).map (fun k =>
        (k, refs.getD k (TDesc.ofBytes []), tgts.getD k (TDesc.ofBytes [])))
      let f := s.flowLevels p (testBit opt 1) whole rows levels start
      let ws := planeWrites (j.arg (flowOutAt j)) f (fun v => (toLE 4 v.word, v.taint.poison)) ++
        (match flowConf j with
          | none => []
          | some t => planeWrites t f (fun v =>
              ([BitVec.ofNat 8 (confidence (v.status == .valid) v.c1 v.c2)], v.taint.poison)))
      let vs := (f.map (fun r => r.2)).flatten
      let count (st : FlowStatus) : Nat := (vs.filter (fun v => v.status == st)).length
      let taint := vs.foldl (fun m v => m.or v.taint) j.taint
      let coarse := ((List.range n).drop 1).map (fun k =>
        let t := refs.getD k (TDesc.ofBytes [])
        (t.ext 0, (coarseRows rows whole k (t.ext 1)).length))
      let cyc := 200 + max (2 * vs.length + 16 * rows.length) (sumNat (coarse.map (fun c => 2 * c.1 * c.2 + 16 * c.2))) +
        sumNat (coarse.map (fun c => 16 * c.1)) + 128
      let s3 := s.workDone d j (flowReads j)
        ⟨ws, taint, cap 0xFFFF (vs.filter (fun v => v.first)).length, cyc⟩
      .next (((((s3.bumpUnits d .flwPixels_pixels 1024 vs.length i).bumpUnits d .flwValid_valid 1024 (count .valid) i).bumpUnits
        d .flwInvalid_low_texture 1024 (count .lowTexture) i).bumpUnits d .flwInvalid_no_match 1024 (count .noMatch)
        i).bumpUnits d .flwOccluded_occluded 1024 (count .occluded) i)

end Sys2Proof.Machine
end

