-- ==== Sys2Proof/Machine/Freeze.lean ====
section
/-! DEFINITION. Freeze and state read-out (chapter 24), the plumbing of maintenance sessions that it shares with chapter 22
(R537), and the TAP (R543). -/

namespace Sys2Proof.Machine

open Sys2Proof

/-! ### Messages of a maintenance session (R537) -/

/-- The module sends a session message: the 16-byte header and the payload.  The session id and the number of the module's own
messages, which nothing gives, are free values (log entry 32). -/
def State.sendMsg (s : State) (type : Nat) (payload : List Byte) : State :=
  let (id, s1) := s.free
  let (sq, s2) := s1.free
  { s2 with out := { s2.out with replies := s2.out.replies ++
    [toLE 2 type ++ toLE 2 0 ++ toLE 4 id ++ toLE 4 sq ++ toLE 4 payload.length ++ payload] } }

/-- ACCEPT, with what the module reports. -/
def State.accept (s : State) (report : List Byte := []) : State := s.sendMsg 4 (toLE 1 0 ++ report)

/-- REFUSE: its cause byte is a free value (log entry 32). -/
def State.refuse (s : State) : State :=
  let (c, s1) := s.free
  s1.sendMsg 4 (toLE 1 1 ++ toLE 1 c)

/-- The maintenance port is served: by firmware, by the loader in the holding state (R46), of a scrapped module (R535), and by the
read-out controller during a freeze (R573). -/
def State.served (s : State) : Bool :=
  s.pwr.good && s.pwr.resetN && (decide (9 ≤ s.boot.step) || s.boot.holding || (s.sec.lifecycle == 2 && decide (5 ≤ s.boot.step)))

/-- The message of a session has come: its time, for the 60 s of R537. -/
def State.heard (s : State) : State :=
  { s with sec := { s.sec with session := s.sec.session.map (fun x => { x with lastDt := s.deviceTime }) } }

/-- A session's role by number: 3 for an INTEGRATOR of a MANUFACTURED module, who may provision alone (R538), and 4 for any role of a SCRAPPED
one, of which only attestation is served (R535). -/
def State.roleNow (s : State) (x : Session) : Nat :=
  if s.sec.lifecycle = 2 then 4 else if s.sec.lifecycle = 0 ∧ x.role = 1 then 3 else x.role

/-- A session message that needs one of some roles: answered REFUSE where the session's role is another, or none is open (R537).  While
the module is frozen only the FREEZE sub-commands are served. -/
def State.message (s : State) (roles : List Nat) (frozen : Bool) (f : Session → State → Result State) : Result State :=
  if !s.served then .next s
  else match s.sec.session with
    | none => .next s.refuse
    | some x =>
      if roles.contains (s.roleNow x) && (frozen || !s.frz.stopped) then f x s.heard else .next s.heard.refuse

/-! ### Requests (R570, R571) -/

/-- A restart of any class is in progress. -/
def State.inRestart (s : State) : Bool := !s.boot.framed || s.dies.any (fun (x : Die) => x.restart.isSome)

/-- The module may freeze: out of service, and no restart, removal or freeze in progress. -/
def State.mayFreeze (s : State) : Bool :=
  s.saf.outOfService && !s.inRestart && s.pwr.removal.isNone && !s.frz.requested && !s.frz.stopped

/-- A request for a freeze from a source: accepted, ignored while frozen, or counted and recorded as refused. -/
def State.askFreeze (s : State) (source : Nat) (permitted : Bool) : State :=
  if s.frz.stopped then s
  else if s.mayFreeze && permitted then { s with frz := { s.frz with requested := true, source := source } }
  else (s.bumpF 6 .frzRefused_refused).raise 0x0F10 source

/-- FREEZE_N is honoured only under an unlock with scope [2]. -/
def State.pinArmed (s : State) : Bool := s.sec.unlocked && testBit s.sec.scope 2

/-- FRZ_STATUS as it is now (Table FRZ-5). -/
def State.frzRegs (s : State) : State :=
  (s.setF 6 .frzStatus_permitted (bit s.mayFreeze)).setF 6 .frzStatus_pin_armed (bit (s.mayFreeze && s.pinArmed))

/-- FREEZE_PIN: FREEZE_N has been low in two consecutive peripheral cycles (R570). -/
def execFreezePin (s : State) : Result State := .next (s.askFreeze 1 s.pinArmed)

/-- FRZ_CTL_FREEZE: a write of FRZ_CTL.freeze (R570). -/
def execFrzCtlFreeze (who : Init) (s : State) : Result State :=
  if s.frz.stopped then .next s
  else if !who.canAccess then hostErr s 27
  else if !s.privileged who then .next s.viewMiss
  else .next (s.askFreeze 3 true)

/-- FREEZE: the session sub-command; a request that is not honoured, its session's role being another or the module not in a state to freeze, is
counted and recorded, and answered REFUSE, as is one made while frozen (R570, R571, Table FRZ-4). -/
def execFreeze (s : State) : Result State :=
  s.message [0, 1, 2, 3, 4] true (fun x t =>
    let permitted := t.roleNow x == 1 || t.roleNow x == 2
    if t.mayFreeze && permitted then .next (t.askFreeze 2 true).accept else .next (t.askFreeze 2 permitted).refuse)

/-! ### The image (R574, Table FRZ-3) -/

/-- `n` free bytes, and the state that has used them up: what a scan chain or a check symbol holds, the manual does not say. -/
def State.freeBytes (s : State) (n : Nat) : List Byte × State :=
  ((List.range n).map (fun i => BitVec.ofNat 8 (Config.freeNat (s.freeCtr + i))), { s with freeCtr := s.freeCtr + n })

/-- SRAM bytes as the image gives them: after every 16 bytes their 16 check bits, which are free. -/
def withChecks (s : State) (l : List Byte) : List Byte × State :=
  let n := (l.length + 15) / 16
  let (c, s1) := s.freeBytes (2 * n)
  (((List.range n).map (fun i => (l.drop (16 * i)).take 16 ++ (c.drop (2 * i)).take 2)).flatten, s1)

/-- One segment: header with kind, die, length and CRC, and 8 bytes at its end; then the payload. -/
def segment (kind die last : Nat) (payload : List Byte) : List Byte :=
  toLE 1 kind ++ toLE 1 die ++ toLE 2 0 ++ toLE 8 payload.length ++ toLE 4 (crc32c payload).toNat ++ toLE 8 0 ++ toLE 8 last ++ payload

/-- Bytes up to a number of them, zero beyond. -/
def padTo (n : Nat) (l : List Byte) : List Byte := l.take n ++ List.replicate (n - l.length) 0

/-- A C-die's on-chip memories in the order of their kinds: scratchpads, commons, bundle stores, slot-table stores, track table. -/
def State.dieArrays (s : State) (d : Nat) : List (List Byte) :=
  let bundles := padTo 0x20000 (s.dieBytes d secSCHED (s.sched d 16 8) (32 * s.sched d 2 2))
  let tables := padTo 0x10000 (s.dieBytes d secSCHED (s.sched d 24 8) (2048 * s.sched d 4 1))
  [((List.range 72).map (fun c => s.bytesAt (spdBase d c) 0x60000)).flatten,
   s.bytesAt (chipBase d) 0x01FFC000 ++ ((List.range 4096).map (fun f => toLE 4 (s.flagVal d f).toNat)).flatten,
   (List.replicate 72 bundles).flatten, (List.replicate 72 tables).flatten, mapBytes (s.die d).tracks 0 0x200000]

/-- The segments of one die: its scan chains, then its arrays. -/
def State.dieSegments (s : State) (d : Nat) : List Byte × State :=
  let (scan, s1) := s.freeBytes ((if d = 6 then 1024 else 1792) * 8192)
  let arrays : List (Nat × List Byte) :=
    if d = 6 then [(7, s.bytesAt hubSramBase 0x1000000)] else List.zip [2, 3, 4, 5, 6] (s.dieArrays d)
  arrays.foldl (fun (x : List Byte × State) a =>
    let (p, t) := withChecks x.2 a.2
    (x.1 ++ segment a.1 d 0 p, t)) (segment 1 d 0 scan, s1)

/-- The image header. -/
def State.imageHeader (s : State) : List Byte :=
  let stepping (d : Nat) : Nat := if d = 6 then s.getF 6 .idDie_stepping else if d < s.nDies then s.getF d .idDie_stepping else 0
  let idm := (s.reg 6 0x4 0 0).toNat
  let body := toLE 4 0x465A5232 ++ toLE 1 1 ++ toLE 1 s.frz.source ++ toLE 2 (6 * s.nDies + 2) ++ toLE 4 idm ++
    (([0, 1, 2, 3, 6].map (fun d => toLE 1 (stepping d))).flatten) ++ toLE 3 0 ++ toLE 16 s.sec.serial.toNat ++ toLE 8 s.frz.stopDt ++
    toLE 8 (s.wallAt s.frz.stopDt) ++ toLE 2 s.epoch ++ toLE 2 0 ++ toLE 4 s.frame.toNat
  let whole := padTo 0xFC body
  whole ++ toLE 4 (crc32c whole).toNat

/-- The whole image is sent in one message; the read-out leaves every chain as it was. -/
def State.readOut (s : State) : State :=
  let (body, s1) := ((List.range s.nDies) ++ [6]).foldl (fun (x : List Byte × State) d =>
    let (p, t) := x.2.dieSegments d
    (x.1 ++ p, t)) ([], s)
  { s1.sendMsg 0x26 (s.imageHeader ++ body) with frz := { s1.frz with image := true, intact := true } }

/-- CLOCK_STOP: with every controller in self-refresh all divided clocks stop at the next common edge; the image goes out on the open
session (R572, R574). -/
def execClockStop (s : State) : Result State :=
  if !s.frz.requested || s.frz.stopped ||
      !(List.range s.nDies).all (fun d => !s.dieUp d || (List.range 8).all (fun k => (s.ctl d k).selfRefresh)) then .next s
  else
    let s1 := ({ s with frz := { s.frz with stopped := true, stopDt := s.deviceTime, image := false, intact := false, dram := false } }.setPair
      6 .frzStopDtLo_dt .frzStopDtHi_dt s.deviceTime).setF 6 .frzStatus_last_source s.frz.source |>.setF 6 .frzStatus_last_dram 0
    .next (if s1.sec.session.isSome then s1.readOut else s1)

/-- READ_STATE: the image is streamed again (Table FRZ-4). -/
def execReadState (s : State) : Result State :=
  s.message [1, 2] true (fun _ t => if t.frz.stopped then .next t.readOut else .next t.refuse)

/-- A logical frame of a die's DRAM as READ_DRAM sends it: in ascending offset, after each group its check burst, which is free. -/
def State.dramFrame (s : State) (d f : Nat) : List Byte × State :=
  (List.range 64).foldl (fun (x : List Byte × State) g =>
    let (c, t) := x.2.freeBytes 128
    (x.1 ++ s.bytesAt (dramBase d + f * 0x10000 + g * 1024) 1024 ++ c, t)) ([], s)

/-- READ_DRAM: after a complete image, a range of logical frames of a die is streamed; its controllers leave self-refresh for it and
return to it (R575). -/
def execReadDram (d first last : Nat) (s : State) : Result State :=
  s.message [1, 2] true (fun _ t =>
    if !t.frz.stopped || !t.frz.image || decide (t.nDies ≤ d ∨ last < first ∨ 1835008 ≤ last) then .next t.refuse
    else
      let (p, t1) := (List.range (last - first + 1)).foldl (fun (x : List Byte × State) i =>
        let (q, u) := x.2.dramFrame d (first + i)
        (x.1 ++ q, u)) ([], t)
      .next ({ t1.sendMsg 0x26 (segment 8 d first p) with frz := { t1.frz with dram := true } }.setF 6 .frzStatus_last_dram 1))

/-! ### The end of a freeze (R576, R577) -/

/-- The clocks run again: device time goes on from the latched count, the ring is broken and forms again; the freeze's length in ms
of reference time, which no clock of this model counts, is a free value (log entry 33). -/
def State.endFreeze (s : State) (value : Nat) : State :=
  let (ms, s1) := s.free
  let ms := if s.frz.stopped then ms % 2 ^ 32 else 0
  let s2 := ({ s1 with frz := { s1.frz with requested := false, stopped := false } }.setF 6 .frzDuration_ms ms).raise 0x0F11 value 6 ms
  if s2.ring.up then (s2.breakRing (s2.ringEpoch 0 + 1)) else s2

/-- RESUME: honoured after a non-destructive read-out; the controllers then leave self-refresh one by one (R576). -/
def execResume (s : State) : Result State :=
  s.message [1, 2] true (fun _ t =>
    if t.frz.stopped && t.frz.intact then .next ((t.endFreeze 0).bumpF 6 .frzStatus_count).ringTry.accept else .next t.refuse)

/-- FREEZE_STATUS: answered with the FRZ_STATUS value (Table FRZ-4). -/
def execFreezeStatus (s : State) : Result State :=
  s.message [1, 2] true (fun _ t => .next (t.sendMsg 0x26 (toLE 4 (t.frzRegs.reg 6 0x3A0000 0 0).toNat)))

/-! ### The TAP (R543) -/

/-- The TAP lets an instruction act: BYPASS, IDCODE and SAMPLE/PRELOAD always, EXTEST and the instrument network only under their
scopes. -/
def State.tapAllows (s : State) : TapInstr → Bool
  | .bypass | .idcode | .samplePreload => true
  | .extest => s.sec.unlocked && testBit s.sec.scope 0
  | .instrument _ => s.sec.unlocked && testBit s.sec.scope 1

/-- TAP_ACCESS: what an allowed instruction shifts out is a free value but for BYPASS, which gives a 0; one that is not allowed stays
inert (log entry 34). -/
def execTapAccess (i : TapInstr) (s : State) : Result State :=
  if !s.tapAllows i || !s.pwr.good then .next s
  else if i = .bypass then .next (s.answer 0)
  else
    let (v, s1) := s.free
    .next (s1.answer (Word.ofNat v))

end Sys2Proof.Machine
end

