-- ==== Sys2Proof/Machine/Power.lean ====
section
/-! DEFINITION. Power, clocks, hot-plug and the control pins (chapter 23): insertion, removal, power loss, domains, clock faults,
monitors, reset. -/

namespace Sys2Proof.Machine

open Sys2Proof

/-- Change the power state. -/
def State.modPwr (s : State) (f : Power → Power) : State := { s with pwr := f s.pwr }

/-! ### Insertion (R559) -/

/-- A cut by heat ends while every sensor reads below 85 °C, and not before (R557). -/
def Power.cooled (p : Power) : Power := { p with cut := p.cut && !p.hot.isEmpty }

/-- BLADE_CONTACT: blade 0 makes contact; blades that regain power end a cut by heat (R557, R559). -/
def execBladeContact (s : State) : Result State :=
  if s.pwr.good then .next s else .next (s.modPwr (fun p => { p.cooled with contact := true }))

/-- INRUSH_START: the input has been continuously at 34 V or more for 10 ms: inrush starts, then SAFE_TO_REMOVE is driven low. -/
def execInrushStart (s : State) : Result State :=
  if s.pwr.contact && !s.pwr.inrush && !s.pwr.cut && !s.pwr.safeToRemove then .next (s.modPwr (fun p => { p with inrush := true }))
  else .next s

/-! ### Power loss (R548, R557, R561) -/

/-- The rails of dies 0–6 are down: nothing is kept but OTP and flash. -/
def State.railsOff (s : State) : State :=
  let s1 := { s with flash := s.flash.powerLost s.deviceTime }
  (s1.mainReset false).modPwr (fun p => { p with inrush := false, good := false, domains := [] })

/-- The Cosy without power keeps its OTP and its NOR. -/
def CosyDie.unpowered (c : CosyDie) : CosyDie :=
  { CosyDie.off with vkey := c.vkey, ikey := c.ikey, counter := c.counter, serial := c.serial
                     halfA := c.halfA, halfB := c.halfB, half := c.half, next := c.next }

/-- The Cosy's own path loses power: the Cosy stops, and its link is lost. -/
def State.cosyOff (s : State) : State :=
  let s1 := { s with cosy := s.cosy.unpowered }
  if s1.cosyView.linkUp then s1.linkLost .cosy else s1

/-- INPUT_OUT_OF_RANGE: an input outside its limits for 100 µs opens its switch: a power loss without a removal request (R548). -/
def execInputOutOfRange (cosyPath : Bool) (mv : Nat) (s : State) : Result State :=
  let low := if cosyPath then 30000 else 34000
  if low ≤ mv ∧ mv ≤ 62000 then .next s
  else if cosyPath then .next s.cosyOff
  else .next s.railsOff

/-- LOW_INPUT_TICK: with the input between 34 V and 36 V an event is raised once per second (R548). -/
def execLowInputTick (mv : Nat) (s : State) : Result State :=
  if s.frz.stopped then .next s else
  let s1 := s.setF 6 .pwrIn_volts (cap 65535 (mv / 10))
  if !s.pwr.good || mv < 34000 then .next s
  else if 36000 ≤ mv then .next (s1.modPwr (fun p => { p with lowDt := none }))
  else
    let due := match s.pwr.lowDt with
      | none => true
      | some t => decide (t + 900000000 ≤ s.deviceTime)
    if due then .next (((s1.modPwr (fun p => { p with lowDt := some s.deviceTime })).bumpF 6 .hswUnder_low_input).raise 0x0F07 mv)
    else .next s1

/-- A junction reading as the cut by heat keeps it: the dies at 85 °C or more. -/
def Power.felt (p : Power) (d : Nat) (t : Int) : Power :=
  { p with hot := if 85 ≤ t then setInsert d p.hot else setErase d p.hot }

/-- THERMAL_CUT: a junction at 115 °C opens the main switch without the removal sequence, with FAULT_N (R557). -/
def execThermalCut (d : Nat) (s : State) : Result State :=
  if !s.pwr.good || !(decide (d < s.nDies) || d == 6) then .next s
  else .next ((s.railsOff.modPwr (fun p => { p.felt d 115 with cut := true })).fault true)

/-! ### Monitors (R549, R556) -/

/-- A monitor trips: its event and, where it names no clock part, a MONITOR doubt (R556, R566). -/
def State.trips (s : State) (d code field : Nat) : State := (s.raise 0x0F01 code d field).doubt dMONITOR d s.frame

/-- POWER_WINDOW: a 1 ms average of the main input power: above warn_w an event once per frame slot, above the limit a trip (R549). -/
def execPowerWindow (w : Nat) (s : State) : Result State :=
  if s.frz.stopped then .next s
  else if !s.pwr.good then .next s
  else
    let s1 := (s.setF 6 .pwrInPower_avg (cap 65535 w)).peakF 6 .pwrInPower_peak w
    let warn := decide (8 ≤ s.boot.step) && decide (s.cad secPOWER 4 2 < w) && s.pwr.warned != some s.frame
    let s2 := if warn then (s1.modPwr (fun p => { p with warned := some s.frame })).raise 0x0F04 w else s1
    .next (if (if s.m2 then 360 else 600) < w then s2.trips 6 4 0 else s2)

/-- A temperature reading of a die's hottest sensor, or of the coolant inlet: registers, warning, trip. -/
def State.warmth (s : State) (d : Nat) (inlet : Bool) (sensor : Nat) (t : Int) : State :=
  let byte (v : Int) : Nat := satSigned 8 v
  if inlet then
    let before := signed 8 (s.getF 6 .pwrTemp_inlet)
    let s1 := s.setF 6 .pwrTemp_inlet (byte t)
    let s2 := if before < 55 ∧ 55 ≤ t then s1.raise 0x0F03 t.toNat 6 1 else s1
    if 65 ≤ t then s2.trips 6 3 sensor else s2
  else
    let s1 := (s.setF d .pwrTemp_now (byte t)).setF d .pwrTemp_warn (bit (decide (95 ≤ t)))
    let s2 := if signed 8 (s.getF d .pwrTemp_peak) < t then s1.setF d .pwrTemp_peak (byte t) else s1
    let s3 := if s.getF d .pwrTemp_warn = 0 ∧ 95 ≤ t then s2.raise 0x0F03 t.toNat d 0 else s2
    if 105 ≤ t then s3.trips d 2 sensor else s3

/-- MONITOR_TRIP: a monitor's reading: °C, mV or W by its kind.  A rail that is reported is outside its window; a temperature below its
trip only warns (R556).  The junction sensors are read while a cut by heat lasts, too (R557; log entry 102). -/
def execMonitorTrip (d : Nat) (m : MonitorKind) (sensor : Nat) (reading : Int) (s : State) : Result State :=
  if !(decide (d < s.nDies) || d == 6) then .next s
  else if !s.pwr.good then
    .next (if m = .junction ∧ s.pwr.cut = true then s.modPwr (fun p => p.felt d reading) else s)
  else if s.frz.stopped then .next s
  else match m with
    | .clock => .next ((if d = 6 then s else s.setF d .clkStatus_ref 1).trips d 0 0)
    | .rail => .next (((s.setF d .pwrRail_mv (cap 65535 reading.toNat) 0 sensor).setF d .pwrRail_window 1 0 sensor).trips d 1 sensor)
    | .junction => .next ((s.modPwr (fun p => p.felt d reading)).warmth d false sensor reading)
    | .inlet => .next (s.warmth 6 true sensor reading)
    | .power => .next (s.trips 6 4 0)

/-- MONITOR_TEST: every 256 ms a monitor is tested; a failure follows R506 for its die (R556). -/
def execMonitorTest (d : Nat) (m : MonitorKind) (pass : Bool) (s : State) : Result State :=
  if s.frz.stopped then .next s else
  let home := if m = .inlet ∨ m = .power then 6 else d
  if pass || !s.pwr.good || !(decide (home < s.nDies) || home == 6) then .next s
  else .next (s.checkerFails home (if home = 6 then .lockstep else .commons))

/-! ### Regulator phases and domains (R550–R552) -/

/-- PHASE_FAIL: a phase of a rail group fails and the spare takes its share; the second loss is recorded too.  The number of phases in
service, which the manual does not give, is a free value (R550; log entry 35). -/
def execPhaseFail (d g : Nat) (s : State) : Result State :=
  if !s.pwr.good || !((decide (d < s.nDies) && decide (g < 6)) || (d == 6 && decide (g < 5))) then .next s
  else
    let n := Map.get 0 s.pwr.phases (d * 8 + g) + 1
    let (v, s1) := s.free
    let s2 := (s1.modPwr (fun p => { p with phases := Map.set 0 p.phases (d * 8 + g) n })).setF d .pwrRail_spare_used 1 0 g
    .next (((s2.setF d .pwrRail_second_loss (bit (decide (2 ≤ n))) 0 g).setF d .pwrRail_phases v 0 g).raise 0x0F02 n d g)

/-- A switched domain exists (Tables ORG-2 to ORG-4, PWR-5): 94 of each C-die, 20 of the hub, 8 of the Cosy. -/
def State.hasDomain (s : State) (d n : Nat) : Bool :=
  (decide (d < s.nDies) && decide (n < 94)) || (d == 6 && decide (n < 20)) || (d == 7 && decide (n < 8))

/-- The module's count of switched domains (R3, R20, R551). -/
def State.domainCount (s : State) : Nat := 94 * s.nDies + 20 + 8

/-- A domain's unit is retired or recorded as off for good. -/
def State.domainRetired (s : State) (d n : Nat) : Bool :=
  if d = 6 then s.ingress.retired.contains n || s.pwr.hubOff.contains n else decide (n < 85) && (s.unit d n).retired

/-- The hub policy holds a domain off (R552). -/
def State.domainHeld (s : State) (d n : Nat) : Bool :=
  d == 6 && decide (8 ≤ s.boot.step) &&
    ((decide (5 ≤ n ∧ n ≤ 8) && (List.range 4).all (fun i => !(s.linkCfg (4 * (n - 5) + i)).used)) ||
     (decide (9 ≤ n ∧ n ≤ 12) && testBit (s.cad secPOWER 0x200 1) (n - 9)) ||
     (decide (13 ≤ n ∧ n ≤ 14) && !(s.portCfg (n - 13)).enable))

/-- What R551 makes of a domain: on from its die's start, but for retirement and policy. -/
def State.domainWanted (s : State) (d n : Nat) : Bool :=
  s.pwr.good && !s.domainRetired d n && !s.domainHeld d n && (d == 6 || !(s.die d).inReset)

/-- PWR_DOM of a domain as it is (R568). -/
def State.domainRegs (s : State) (d n : Nat) : State :=
  ((s.setF d .pwrDom_state (bit (Map.get false s.pwr.domains (d * 128 + n))) 0 n).setF d .pwrDom_retired (bit (s.domainRetired d n)) 0
    n).setF d .pwrDom_policy (bit (s.domainHeld d n)) 0 n

/-- DOMAIN_SWITCH: a domain changes to the state that R551 gives it; to the other it never changes.  The Cosy switches its own, which dies 0–6
do not see. -/
def execDomainSwitch (d n : Nat) (on : Bool) (s : State) : Result State :=
  if s.frz.stopped then .next s
  else if !s.hasDomain d n then .next s
  else if d = 7 then
    .next (if s.cosy.powered then
      { s with cosy := { s.cosy with domains := if on then setInsert n s.cosy.domains else setErase n s.cosy.domains } } else s)
  else if s.domainWanted d n != on then .next s
  else
    .next ((s.modPwr (fun p => { p with domains := Map.set false p.domains (d * 128 + n) on })).domainRegs d n)

/-! ### Clocks (R554, R555) -/

/-- CLK_STATUS of the hub. -/
def State.clkRegs (s : State) : State :=
  let p := s.pwr
  let b (s : State) (f : Fld) (v : Nat) : State := s.setF 6 f v
  b (b (b (b (b s .clkStatus_root p.root) .clkStatus_ref p.ref) .clkStatus_holdover (bit p.holdover.isSome)) .clkStatus_ref0_ok
    (bit !(p.refFailed.contains 0))) .clkStatus_ref1_ok (bit !(p.refFailed.contains 1))

/-- A part is diagnosed with no spare left for it: MONITOR stays latched until a cold start. -/
def State.lastPart (s : State) : State := (s.raise 0x0F01 0).doubt dMONITOR 6 s.frame 0 .clockLastPart

/-- The MONITOR doubt of a diagnosis that a switch follows. -/
def State.clockPart (s : State) : State := (s.raise 0x0F01 0).latch ⟨dMONITOR, 6, 0, .clockPart, s.frame⟩

/-- The root PLL is diagnosed: a hitless switch to the spare, at whose edge the doubt clears. -/
def State.pllFails (s : State) : State :=
  if s.pwr.root ≠ 0 then s.lastPart
  else
    let s1 := (s.modPwr (fun p => { p with root := 1, rootFailed := setInsert 0 p.rootFailed })).clockPart
    (((s1.bumpF 6 .clkSwitch_pll).raise 0x0F00 0).clkRegs).recovered .clockSpare

/-- The active reference is diagnosed: holdover, and the spare reference becomes active. -/
def State.refFails (s : State) : State :=
  let a := s.pwr.ref
  let s1 := s.modPwr (fun p => { p with refFailed := setInsert a p.refFailed })
  if s.pwr.refFailed.contains (1 - a) then s1.clkRegs.lastPart
  else
    let s2 := (s1.modPwr (fun p => { p with ref := 1 - a, holdover := some s.deviceTime })).clockPart
    ((s2.bumpF 6 .clkSwitch_ref).raise 0x0F00 1).clkRegs

/-- CLOCK_COMPARE: which comparisons of one window disagree: root with reference 0, root with reference 1, the references; and whether the
root's lock detector reports loss (Table PWR-7).  A pattern that the table does not diagnose does nothing (log entry 36); the
deviations measured are free values. -/
def execClockCompare (root0 root1 refs lossMain : Bool) (s : State) : Result State :=
  if s.frz.stopped then .next s
  else if !s.pwr.good || s.boot.step < 2 then .next s
  else
    let (a, s1) := s.free
    let (b, s2) := s1.free
    let (c, s3) := s2.free
    let t := (((s3.setF 6 .clkDev_ref0 a).setF 6 .clkDev_ref1 b).setF 6 .clkRefDev_refs c).setF 6
      (if s.pwr.root = 0 then .clkStatus_main_lock else .clkStatus_spare_lock) (bit !lossMain)
    let r0 := root0 || lossMain
    let r1 := root1 || lossMain
    let act := if s.pwr.ref = 0 then r0 else r1
    let other := if s.pwr.ref = 0 then r1 else r0
    if act && other && !refs then .next t.pllFails
    else if act && refs && !other then .next t.refFails
    else if refs && !act && !other then
      if s.pwr.refFailed.contains (1 - s.pwr.ref) then .next t
      else .next (t.modPwr (fun p => { p with refFailed := setInsert (1 - p.ref) p.refFailed })).clkRegs.lastPart
    else .next t

/-- HOLDOVER_END: the PLLs have slewed to the new reference: the doubt clears (R555, Table REC-2). -/
def execHoldoverEnd (s : State) : Result State :=
  if s.pwr.holdover.isNone then .next s
  else .next ((s.modPwr (fun p => { p with holdover := none })).clkRegs.recovered .clockSpare)

/-! ### Removal (R560–R563, Table PWR-11) -/

/-- Decide a stream's started, undecided frames at once: C(n) as FALLBACK if it is held, TOMBSTONE otherwise. -/
def State.decideRest : Nat → State → Nat → State
  | 0, s, _ => s
  | n + 1, s, k => match s.undecided k with
    | none => s
    | some x =>
      match (s.stream k).cosy.find? (fun (m : Msg) => m.frame == x.frame) with
      | some c => State.decideRest n ((s.enqueue k x .fallback 0 c.envelope c.payload).closeFrame k x false) k
      | none => State.decideRest n ((s.enqueue k x .tombstone 0 0 []).closeFrame k x false) k

/-- Every task of every C-die is cancelled without records, and every unit, sequencer ring's channel and relay path is free. -/
def State.dropTasks (s : State) : State :=
  { s with dies := s.dies.map (fun (x : Die) => { x with
      seq := { x.seq with starts := [], heldStarts := [], toCreate := [], insts := [], slots := [], heldTasks := [], owed := [], lists := []
                          dmaOwners := [] }
      chans := Map.mapAllKeys DmaChan.fresh x.chans (fun k c =>
        if (Map.get [] x.seq.dmaOwners (k + 0x400)).any (fun o => o.isSome) then
          { c with state := .idle, pending := false, more := false, recordDue := none, held := none }
        else c)
      relay := { x.relay with next := { x.relay.next with busy := none }, prev := { x.relay.prev with busy := none } }
      units := Map.mapAll UnitState.fresh x.units (fun u => { u with running := none }) }) }

/-- Events on their way reach the recorder. -/
def State.gatherEvents (s : State) : State :=
  s.evDue.foldl (fun (s : State) e => s.intoAccum e) { s with evDue := [] }

/-- The time since a removal was requested, in ms, at which each step of Table PWR-11 is taken. -/
def removalSteps : List Nat := [1, 20, 60, 80, 100]

/-- One step of the removal sequence. -/
def State.removalStep (s : State) (ms : Nat) : State :=
  if ms = 1 then
    let s1 := s.dropTasks
    if s1.ring.up then
      let e := s1.ringEpoch 0 + 1
      ((s1.sendFlit 0 9 0 e []).sendFlit 1 9 0 e []).breakRing e
    else s1
  else if ms = 20 then { s with streams := Map.mapAll Stream.fresh s.streams (fun y => { y with queue := [] }) }
  else if ms = 60 then
    let s1 := s.gatherEvents.flushRecorder
    let s2 := s1.modRec (fun r => { r with
      logRegion := r.slots.foldl (fun (m : Map (List Byte)) p => Map.put m (s1.logRegionBase + p.1) p.2) r.logRegion })
    (s2.modRec (fun r => { r with unwritten := [] })).persistRegs.flushRepairs
  else if ms = 80 then s.writeMark
  else s.railsOff.modPwr (fun p => { p with contact := false, safeToRemove := true, removal := none })

/-- REMOVAL_REQUEST: EJECT_REQ_N held low for 1 ms: the request is latched, a freeze ends, no further frame starts, and every started
frame is decided; the rest of Table PWR-11 follows in device time.  With MOD_RESET_N held the rails go off at once (R560, R562,
R577). -/
def execRemovalRequest (s : State) : Result State :=
  if !s.pwr.good || s.pwr.removal.isSome then .next s
  else if !s.pwr.resetN then .next (s.railsOff.modPwr (fun p => { p with contact := false, safeToRemove := true }))
  else
    let s1 := if s.frz.requested then s.endFreeze 1 else s
    let s2 := ((s1.modPwr (fun p => { p with removal := some s.deviceTime })).setF 6 .hswStatus_removing 1).raise 0x0F06 0
    let s3 := { s2 with root := { s2.root with running := false } }
    .next (s3.streamsOn.foldl (fun (s : State) k => State.decideRest (s.root.starts.length + 1) s k) s3)

/-- The step of a removal that falls due at this device time. -/
def State.removalDue (s : State) : Option Nat :=
  match s.pwr.removal with
  | none => none
  | some r => removalSteps.find? (fun ms => r + ms * 900000 == s.deviceTime)

/-- Do that step, if there is one. -/
def State.removalAt (s : State) : Option Nat → State
  | none => s
  | some ms => s.removalStep ms

/-- The end of an arithmetic cycle on every C-die. -/
def State.diesEnd (s : State) : State := (List.range 4).foldl (fun (s : State) d => s.cycleEnd d) s

/-- What passes with one arithmetic cycle in which no command comes: device time, what the C-dies do at a cycle's end, and a removal's steps as
they fall due (log entry 3). -/
def State.idle (s : State) : State :=
  if s.tick.deviceTime = s.deviceTime then s.tick else s.tick.diesEnd.removalAt s.tick.removalDue

/-! ### The reset input and PRESENT_N (R557, R562, R563) -/

/-- MOD_RESET_N: low, it holds dies 0–6 in reset, rails up; released, it begins a cold start, also after a removal or a cut by heat.  While a
removal is latched it is ignored, and a removal request of the same cycle, one that waits in the queue, wins (R562). -/
def execModResetN (level : Bool) (s : State) : Result State :=
  if s.pwr.removal.isSome || s.pwr.resetN = level then .next s
  else if !level && s.pending.contains .removalRequest then .next s
  else if !level then
    .next ((if s.pwr.good then s.mainReset false else s).modPwr (fun p => { p with resetN := false }))
  else
    let s1 := s.modPwr (fun p => { p with resetN := true })
    if s.pwr.good then .next (s1.coldBegin false)
    else .next (s1.modPwr (fun p => { p.cooled with contact := p.contact || p.safeToRemove, safeToRemove := false }))

/-- PRESENT_N_MAKE: PRESENT_N has been broken and made again: after a removal the module starts again (R563). -/
def execPresentNMake (s : State) : Result State :=
  if s.pwr.safeToRemove then
    .next (s.modPwr (fun p => { p with present := true, contact := true, safeToRemove := false }))
  else .next (s.modPwr (fun p => { p with present := true }))

end Sys2Proof.Machine
end

