-- ==== Sys2Proof/Machine/Queues.lean ====
section
/-! DEFINITION. Retries of refused producers, and software's consumer index (R115, R116). -/

namespace Sys2Proof.Machine

open Sys2Proof

/-- Everything that waits for room in ring queue q tries again: records in slots and in the store, the appends of DMA tasks, and
channels held at their record (Table DSP-6). -/
def State.retryQueue (s : State) (d q : Nat) : State :=
  let recs := (s.die d).seq.owed.filter (fun o => o.slot.isSome && o.cq == q && o.refused)
  let s1 := recs.foldl (fun (s : State) o => match o.slot with
    | some k => s.recordOut d k o
    | none => s) s
  let dma := (s1.die d).seq.slots.filter (fun p => p.2.desc.kind == 6 && p.2.state == .running && p.2.dmaRefused &&
    p.2.dmaRing == q)
  let s2 := dma.foldl (fun (s : State) (p : Nat × Slot) => State.dmaAppend 17 s d p.1) s1
  let held := (s2.die d).chans.filter (fun (p : Nat × DmaChan) => p.2.recordDue.isSome && s2.ringCq ⟨d, p.1 / 64, p.1 % 64⟩ == q)
  (held.foldl (fun (s : State) (p : Nat × DmaChan) => s.dmaRecordRetry ⟨d, p.1 / 64, p.1 % 64⟩) s2).settle d

/-- QUEUE_RETRY: a refused hardware producer retries (R116). -/
def execQueueRetry (d q : Nat) (s : State) : Result State :=
  if !s.dieUp d then .next s else .next (s.retryQueue d q)

/-- DSP_Q_HEAD_WRITE: software writes a new consumer index; the queue's refused producers retry at once (R115, R116).  DESIGN CHOICE (log
entry 75): a reserved queue number is the host's error here as a ready list, a DMA ring or a relay queue is. -/
def execDspQHeadWrite (who : Init) (d : Nat) (v : Word) (s : State) : Result State :=
  let q := s.getF d .dspQSel_queue
  if who.canAccess = false ∨ s.nDies ≤ d then hostErr s 27
  else if !s.privileged who then .next s.viewMiss
  else if !(s.queueKind d q == .cq || s.queueKind d q == .ingress) then hostErr s 127
  else
    let e := s.queue d q
    let r := s.ringOf d q
    let n := v.toNat % (2 * e.size)
    if (Ring.mk r.prod n).depth e > r.depth e then hostErr s 127
    else if !s.dieUp d then .next s
    else .next ((s.setRing d q { r with cons := n }).retryQueue d q)

end Sys2Proof.Machine
end

