-- ==== Sys2Proof/Machine/Registers.lean ====
section
/-! DEFINITION. Register accesses by address (R14, R29–R33, R544): the shadow copies, what the registers report that no event keeps,
reads and writes by access and view, pairs, and the two windows that are no registers (R26). -/

namespace Sys2Proof.Machine

open Sys2Proof

/-! ### The map (R29, R30) -/

/-- The register at a place of a die's window, and its instance; none where the tables leave it empty. -/
def regSpecAt (die place : Nat) : Option (RegSpec × Nat) :=
  regTable.findSome? (fun r =>
    let here := match r.space with
      | .cdie => decide (die < 4)
      | .hub => die == 6
      | .both => decide (die < 4) || die == 6
    if !here then none
    else (List.range r.cnt).findSome? (fun i =>
      if r.base + i * r.stride ≤ place ∧ place < r.base + i * r.stride + 4 * r.rep then some (r, i) else none))

/-- A register's word at reset. -/
def RegSpec.word (r : RegSpec) : Nat := r.fields.foldl (fun n f => n + f.reset % 2 ^ f.width * 2 ^ f.lsb) 0

/-- The bits of a register's listed fields. -/
def RegSpec.mask (r : RegSpec) : Nat := r.fields.foldl (fun n f => n + (2 ^ f.width - 1) * 2 ^ f.lsb) 0

/-- What a register's selector has selected. -/
def State.selected (s : State) (die : Nat) (r : RegSpec) (i : Nat) : Nat :=
  match r.sel with
  | none => 0
  | some p => (s.reg die (p + i * r.stride) 0 0).toNat

/-! ### The shadow copies (R126) -/

/-- The registers of a die below and above its own in the canonical order, with new ones between. -/
def putDie (die : Nat) (m new : Map Word) : Map Word :=
  m.takeWhile (fun (p : Nat × Word) => decide (p.1 < die * 2 ^ 40)) ++ new ++
    m.dropWhile (fun (p : Nat × Word) => decide (p.1 < (die + 1) * 2 ^ 40))

/-- The listed registers of a die. -/
def ofDie (die : Nat) (m : Map Word) : Map Word := m.filter (fun (p : Nat × Word) => decide (p.1 / 2 ^ 40 = die))

/-- The status of a vision engine: its position in its kind, in service, under test, retired, busy. -/
def State.engineStatus (s : State) (d u base : Nat) (f0 f1 f2 f3 f4 : Fld) : State :=
  let x := s.unit d u
  let i := unitInstance u
  let p := match x.position with
    | some p => if p < base then 3 else p - base
    | none => 3
  ((((s.setF d f0 p i).setF d f1 (bit (x.position.isSome && !x.retired)) i).setF d f2 (bit x.underTest) i).setF d f3 (bit x.retired)
    i).setF d f4 (bit x.running.isSome) i

/-- Every engine's status (Tables of chapters 06 to 08). -/
def State.engineRegs (s : State) (d : Nat) : State :=
  let run (l : List Nat) (base : Nat) (f0 f1 f2 f3 f4 : Fld) (s : State) : State :=
    l.foldl (fun (s : State) u => s.engineStatus d u base f0 f1 f2 f3 f4) s
  let s1 := run (groupUnits 8) 64 .pyrStatus_position .pyrStatus_in_service .pyrStatus_under_test .pyrStatus_retired .pyrStatus_busy s
  let s2 := run (groupUnits 9) 66 .wrpStatus_position .wrpStatus_in_service .wrpStatus_under_test .wrpStatus_retired .wrpStatus_busy s1
  let s3 := run (groupUnits 10) 68 .ftrStatus_position .ftrStatus_in_service .ftrStatus_under_test .ftrStatus_retired .ftrStatus_busy s2
  let s4 := run (groupUnits 11) 69 .flwStatus_position .flwStatus_in_service .flwStatus_under_test .flwStatus_retired .flwStatus_busy s3
  run (groupUnits 12) 70 .steStatus_position .steStatus_in_service .steStatus_under_test .steStatus_retired .steStatus_busy s4

/-- SEQ_NODE_STATE and SEQ_NODE_FRAME of every instance, by node and instance slot, oldest first (R98). -/
def State.nodeRegs (s : State) (d : Nat) : State :=
  let clear (s : State) (place : Nat) : State := { s with regs := s.regs.filter (fun (p : Nat × Word) => p.1 / 2 ^ 16 != d * 2 ^ 24 + place) }
  let s1 := clear (clear s Fld.seqNodeState_count.base) Fld.seqNodeFrame_value.base
  let all := (s.die d).seq.insts
  all.foldl (fun (s : State) i =>
    let older := (all.filter (fun j => j.node == i.node && precedes j.frame i.frame)).length
    let x := i.node + older * 4096
    let b (s : State) (f : Fld) (v : Nat) : State := s.setF d f v 0 x
    b (b (b (b (b (b (b s .seqNodeState_count (cap 255 i.count)) .seqNodeState_status (if i.complete then i.status.code else 0))
      .seqNodeState_exists 1) .seqNodeState_released (bit i.released)) .seqNodeState_complete (bit i.complete)) .seqNodeState_pending
      i.left) .seqNodeFrame_value i.frame.toNat) s1

/-- What is measured and never stated: a fresh free value for a field (log entry 37). -/
def State.measure (s : State) (d : Nat) (f : Fld) (i : Nat := 0) (x : Nat := 0) : State :=
  let (v, s1) := s.free
  s1.setF d f v i x

/-- The registers of a C-die that no event keeps. -/
def State.dieRegs (s : State) (d : Nat) : State :=
  let s1 := (((s.unitRegs d).engineRegs d).dmaRegs d).nodeRegs d
  let s2 := (List.range 8).foldl (fun (s : State) k => s.ctlRegs d k) (s1.seqRegs d)
  let s3 := (s2.setF d .dspPlan_dma_count (s.plan d).dma).setF d .dspPlan_sw_slot_limit (s.plan d).swLimit
  let s4 := (List.range 72).foldl (fun (s : State) c =>
    let used (b : Nat) : Nat := (List.range 8).foldl (fun n i => n + spareUsed (Map.get [] (s.core d c).spareRows (b + i)) % 16 * 16 ^ i) 0
    ((s.setF d .spdSpareLo_used (used 0) c).setF d .spdSpareHi_used (used 8) c)) s3
  let s5 := (List.range 64).foldl (fun (s : State) b => s.setF d .cmnSpare_used (spareUsed (Map.get [] (s.die d).cmnRows b)) 0 b) s4
  let s6 := s5.measure d .cmnLoad_conflict
  let s7 := (List.range 94).foldl (fun (s : State) n => s.domainRegs d n) s6
  (List.range 6).foldl (fun (s : State) g => s.measure d .pwrRail_mv 0 g) (s7.flagRegs d (s7.getF d .flgSel_flag))

/-- The ING block as it is: what its selected context, its links and its scripts show (R157). -/
def State.ingLive (s : State) : State :=
  let s1 := (s.setF 6 .ingStatus_scripts_done (bit s.ingress.scriptsDone)).ingRegs (s.getF 6 .ingCtxSel_ctx)
  (List.range 16).foldl (fun (s : State) l => s.linkRegs l) s1

/-- The registers of the hub that no event keeps. -/
def State.hubRegs (s : State) : State :=
  let s1 := (List.range 64).foldl (fun (s : State) c => s.ingRegs c) (s.setF 6 .ingStatus_scripts_done (bit s.ingress.scriptsDone))
  let s2 := (List.range 16).foldl (fun (s : State) l => s.linkRegs l) s1.ispRegs.strRegs
  let s3 := (List.range 4).foldl (fun (s : State) p => s.portRegs p) s2
  let s4 := (List.range 5).foldl (fun (s : State) k =>
    let t := Map.get PipeTest.fresh s.ingress.tests k
    let x := if s.ingress.retired.contains k then 4 else if t.underTest then 1 else if (s.pipePos k).isNone then 2 else 0
    (s.setF 6 .bistUnit_state x 0 k).setF 6 .bistUnitAge_age (cap (2 ^ 32 - 1) ((s.deviceTime - t.fullDt) / 1024)) 0 k) s3
  let s5 := (s4.setF 6 .bistStatus_rotating (bit (decide (9 ≤ s.boot.step)))).setF 6 .bistStatus_degraded (2 * bit s.sparePipe.isNone)
  let s6 := ((s5.measure 6 .ethPeerDelay_delay 0).measure 6 .ethPeerDelay_delay 1).measure 6 .pwrIn_amps
  let s7 := (List.range 20).foldl (fun (s : State) n => s.domainRegs 6 n) s6
  (List.range 5).foldl (fun (s : State) g => s.measure 6 .pwrRail_mv 0 g) (s7.measure 6 .pwrIn_volts)

/-- SHADOW_REFRESH: every 256 cycles a die's shadow copies take what its registers hold (R126). -/
def execShadowRefresh (d : Nat) (s : State) : Result State :=
  if !(s.dieUp d || (d == 6 && s.pwr.good && s.pwr.resetN)) then .next s
  else
    let t := if d = 6 then s.hubRegs else s.dieRegs d
    .next { t with shadow := putDie d t.shadow (ofDie d t.regs) }

/-! ### What is live at a read -/

/-- Bring the live registers of a block up to date before a read of it: the time base (R98), ING (R157), DMA channels (R370), flags (R262), SEC (R546), CLK and HSW (R567,
R569), FRZ (R578). -/
def State.liveRegs (s : State) (die place : Nat) : State :=
  let slot := place / 0x10000
  if die = 6 then
    if slot = 0x32 then s.secRegs
    else if slot = 0x3A then s.frzRegs
    else if slot = 0x01 then s.clkRegs
    else if slot = 0x03 then s.syncRegs
    else if slot = 0x33 then s.ingLive
    else if slot = 0x30 then (s.measure 6 .hswStatus_eject_req).measure 6 .hswStatus_freeze_pin
    else s
  else if slot = 0x06 then
    let f := s.getF die .flgSel_flag
    (s.flagRegs die f).setF die .flgValue_value (s.flagVal die f).toNat 0 f
  else if slot = 0x01 then s.setF die .clkStatus_root (bit (decide (2 ≤ s.boot.step)))
  else if 8 ≤ slot ∧ slot ≤ 0xF then s.chanRegs ⟨die, slot - 8, s.getF die .dmaChSel_channel (slot - 8)⟩
  else s

/-! ### Reads (R14) -/

/-- A field as a view shows it: P fields read 0 through the unprivileged view, WO fields read a free value. -/
def State.fieldSeen (s : State) (die place x rst : Nat) (priv : Bool) (v : Nat) (f : FieldSpec) : Nat :=
  if f.priv && !priv then 0
  else if f.access = .wo then bits v f.lsb f.width
  else if f.shadow then fieldOf (Map.get (Word.ofNat rst) s.shadow (regKey die place x)) f.lsb f.width
  else fieldOf (s.reg die place x rst) f.lsb f.width

/-- A register's word as a view shows it, and the state after the read: RC fields that the view shows are cleared. -/
def State.readRegister (s0 : State) (die place : Nat) (r : RegSpec) (i : Nat) (priv : Bool) : Word × State :=
  let s := s0.liveRegs die place
  let x := s.selected die r i
  let wo := r.fields.any (fun f => f.access == .wo)
  let (v, s1) := if wo then s.free else (0, s)
  let w := r.fields.foldl (fun n f => n + s.fieldSeen die place x r.word priv v f * 2 ^ f.lsb) 0
  let left := r.fields.foldl (fun (w : Word) f =>
    if f.access = .rc ∧ (priv || !f.priv) = true then putField w f.lsb f.width 0 else w) (s1.reg die place x r.word)
  (Word.ofNat w, if r.fields.any (fun f => f.access == .rc) then s1.setReg die place x r.word left else s1)

/-- The _LO registers of the pairs that R33 governs; each _HI stands 4 bytes above. -/
def loBases : List (Nat × Space) :=
  [(Fld.ingLostLo_lost.base, .hub), (Fld.ispCtxLo_ctx.base, .hub), (Fld.wrpMeshBaseLo_base.base, .cdie),
   (Fld.spdSpareLo_used.base, .cdie), (Fld.rlyPortPeerLo_serial.base, .hub), (Fld.dmaChMaskLo_mask.base, .cdie),
   (Fld.dmaChAddrLo_addr.base, .cdie), (Fld.memEccAddrLo_addr.base, .cdie), (Fld.memLockedAddrLo_addr.base, .cdie),
   (Fld.tsnWallLo_wall.base, .hub), (Fld.frzStopDtLo_dt.base, .hub), (Fld.bootFirstFrameLo_dt.base, .hub),
   (Fld.seqFrStartDtLo_value.base, .hub), (Fld.seqFrStartWtLo_value.base, .hub), (Fld.seqFrLostLo_value.base, .hub)]

/-- A register is the _LO of a pair, or the _HI of one. -/
def RegSpec.isLo (r : RegSpec) : Bool := loBases.contains (r.base, r.space)
def RegSpec.isHi (r : RegSpec) : Bool := decide (4 ≤ r.base) && loBases.contains (r.base - 4, r.space)

/-- The key of an initiator's capture, or held write, of the pair whose _LO stands at a place. -/
def pairKey (who : Init) (die lo : Nat) : Nat := captureKey who (2 + die * 2 ^ 24 + lo)

/-- SEQ_NODE_STATE and SEQ_NODE_FRAME of a C-die, either of which is read together with the other (R100). -/
def nodePair (die place : Nat) : Option Nat :=
  if die = 6 then none
  else if place = Fld.seqNodeState_count.base then some Fld.seqNodeFrame_value.base
  else if place = Fld.seqNodeFrame_value.base then some Fld.seqNodeState_count.base
  else none

/-- An access of an initiator to anything but such a register of a die ends the pair it has begun to read there (R100). -/
def State.endPairs (s : State) (who : Init) (die place : Nat) : State :=
  let kept (d : Nat) : Bool := d == die && (nodePair die place).isSome
  let mine (d k : Nat) : Bool := k == pairKey who d Fld.seqNodeState_count.base || k == pairKey who d Fld.seqNodeFrame_value.base
  { s with captures := s.captures.filter (fun (p : Nat × Word) => !(List.range 4).any (fun d => mine d p.1 && !kept d)) }

/-- A read of one of the two: what the read of the other one just before has kept for it, or the shadow copy, of which the other's part is
kept (R100).  DESIGN CHOICE (log entry 70): a third read in a row begins a new pair. -/
def State.readNodePair (s : State) (who : Init) (die place other : Nat) (r : RegSpec) (i : Nat) (priv : Bool) : State :=
  match s.captures.find? (fun (p : Nat × Word) => p.1 == pairKey who die place) with
  | some (k, c) => { s with captures := Map.erase s.captures k }.answer c
  | none =>
    let (w, t) := s.readRegister die place r i priv
    match regSpecAt die other with
    | some (h, j) => (t.capture (pairKey who die other) (t.readRegister die other h j priv).1).answer w
    | none => t.answer w

/-- A read by place: the pairs capture, the registers with a row of their own do what that row says, all else by access and view. -/
def State.readPlace (s : State) (who : Init) (die place : Nat) (priv : Bool) : Result State :=
  match regSpecAt die place with
  | none => s.readErr 30
  | some (r, i) =>
    if (die ≠ 6 ∧ s.dieUp die = false) ∨ s.reach who.die die = false then
      let (v, s1) := s.free
      .next (s1.answer (Word.ofNat v))
    else if die = 6 ∧ place = Fld.tsnWallLo_wall.base then execTsnWallLoRead who s
    else if die = 6 ∧ place = Fld.tsnWallHi_wall.base then
      (match s.captures.find? (fun (p : Nat × Word) => p.1 == captureKey who 0) with
      | some (_, w) => .next ({ s with captures := Map.erase s.captures (captureKey who 0) }.answer w)
      | none => .next (s.answer (Word.ofNat (s.wall / 2 ^ 32))))
    else if die = 6 ∧ place = Fld.tsnTime_epoch.base then execTsnTimeRead who s
    else if r.base = Fld.ftrTrackData_word.base ∧ die ≠ 6 then
      (if priv then execFtrTrackDataRead who die i s else .next (s.answer 0))
    else if die = 6 ∧ place = Fld.evrRaiseValue_value.base then .next (s.answer (Map.get 0 s.recorder.latches who.key))
    else if die = 6 ∧ r.base = Fld.evrWindow_word.base then
      .next (s.answer (if priv then Word.ofNat (leNat (((Map.get [] s.recorder.slots (s.getF 6 .evrCursor_slot)).drop
        (place - r.base)).take 4)) else 0))
    else match nodePair die place with
    | some other => .next (s.readNodePair who die place other r i priv)
    | none =>
      let (w, t) := s.readRegister die place r i priv
      if r.isLo then
        match regSpecAt die (place + 4) with
        | some (h, j) => .next ((t.capture (pairKey who die place) (t.readRegister die (place + 4) h j priv).1).answer w)
        | none => .next (t.answer w)
      else if r.isHi then
        match t.captures.find? (fun (p : Nat × Word) => p.1 == pairKey who die (place - 4)) with
        | some (_, c) => .next ({ t with captures := Map.erase t.captures (pairKey who die (place - 4)) }.answer c)
        | none => .next (t.answer w)
      else .next (t.answer w)

/-! ### Writes (R14, R15) -/

/-- A field after a write of word v through a view. -/
def FieldSpec.written (f : FieldSpec) (priv : Bool) (w : Word) (v : Nat) : Word :=
  let old := fieldOf w f.lsb f.width
  let new := bits v f.lsb f.width
  if f.priv && !priv then w
  else match f.access with
    | .rw | .wo => putField w f.lsb f.width new
    | .w1c => putField w f.lsb f.width (old - (old &&& new))
    | .w1s => putField w f.lsb f.width (old ||| new)
    | .ro | .rc => w

/-- A word sets a bit outside the register's fields, through a view that reaches the register (R14, R15). -/
def RegSpec.reserved (r : RegSpec) (priv : Bool) (v : Word) : Bool :=
  r.fields.any (fun f => priv || !f.priv) && decide (v.toNat &&& (2 ^ 32 - 1 - r.mask) ≠ 0)

/-- A write by access and view alone. -/
def State.writeRegister (s : State) (die place : Nat) (r : RegSpec) (i : Nat) (priv : Bool) (v : Word) : Result State :=
  let x := s.selected die r i
  .next (s.setReg die place x r.word (r.fields.foldl (fun (w : Word) f => f.written priv w v.toNat) (s.reg die place x r.word)))

/-- A write of DMA_CH_CTL: retry, skip, then pause or resume (R383). -/
def State.writeChCtl (s : State) (who : Init) (d e : Nat) (v : Nat) : Result State :=
  let c : ChanRef := ⟨d, e, s.getF d .dmaChSel_channel e⟩
  let x := s.dma c
  andThen (if testBit v 1 then execDmaRetry who c s else .next s) (fun t =>
    andThen (if testBit v 2 then execDmaSkip who c t else .next t) (fun u =>
      if testBit v 0 then execDmaPause who c x.offset x.mask u else execDmaResume who c u))

/-- A write by place through a view: the registers with a row of their own do what that row says, all else by access and view.  A write to
a C-die that does not run, or that a lost link would carry, is discarded (R24, R475); one that sets a reserved bit is the host's error
and does nothing else (R15). -/
def State.writePlace (s : State) (who : Init) (die place : Nat) (priv : Bool) (v : Word) : Result State :=
  match regSpecAt die place with
  | none => hostErr s 30
  | some (r, i) =>
    let n := v.toNat
    let hub := die == 6
    if (!hub && !s.dieUp die) || !s.reach who.die die then .next s
    else if r.reserved priv v then hostErr s 15
    else if hub && place == Fld.evrRaiseValue_value.base then
      .next (s.modRec (fun q => { q with latches := Map.set 0 q.latches who.key v }))
    else if hub && place == Fld.evrRaiseCode_code.base then execEvrRaiseCode who priv (BitVec.ofNat 16 n) s
    else if hub && place == Fld.bootReq_warm.base then
      (if !priv then .next s
       else if testBit n 1 then execBootReqCold who (testBit n 0) s
       else if testBit n 0 then execBootReqWarm who s else .next s)
    else if hub && place == Fld.ingI2cCmd_addr.base then (if priv then execIngI2cCmd who v s else .next s)
    else if hub && place == Fld.evrFreeze_freeze.base then
      (if !priv then .next s else if testBit n 0 then execEvrFreezeSet who s else execEvrFreezeClear who s)
    else if hub && place == Fld.frzCtl_freeze.base then
      (if priv && testBit n 0 then execFrzCtlFreeze who s else .next s)
    else if hub then s.writeRegister die place r i priv v
    else if place = Fld.dspPushCtl_queue.base then (if priv then execDspPush who die (n % 2 ^ 14) s else .next s)
    else if place = Fld.dspCancelCtl_target.base then
      (if !priv then .next s
       else if testBit n 12 then execDspCancelSlot who die (n % 2048) s else execDspCancelNode who die (n % 4096) s)
    else if place = Fld.dspQHead_consumer.base then (if priv then execDspQHeadWrite who die v s else .next s)
    else if r.base = Fld.ftrTrackSel_entry.base then (if priv then execFtrTrackSelWrite who die i v s else .next s)
    else if place = Fld.flgSet_value.base then
      (if priv then execFlagSet (.reg who) die (s.getF die .flgSel_flag) v false s else .next s)
    else if place = Fld.flgAdd_value.base then
      (if priv then execFlagAdd (.reg who) die (s.getF die .flgSel_flag) v false s else .next s)
    else if r.base = Fld.dmaDoorbell_channel.base then (if priv then execDmaDoorbell who die i (n % 64) s else .next s)
    else if r.base = Fld.dmaChCtl_pause.base then (if priv then s.writeChCtl who die i n else .next s)
    else s.writeRegister die place r i priv v

/-! ### Accesses by address (R27, R29, R31, R544) -/

/-- An access to a register view by address: die, place and effective view; an unprivileged access to the privileged view is counted and
made through the other.  `bad` answers an error of the host's own making: the wrong initiator, an access that is no aligned word, a window
that holds no blocks. -/
def State.viewAccess (s : State) (who : Init) (addr width : Nat) (bad : State → Nat → Result State)
    (f : State → Nat → Nat → Bool → Result State) : Result State :=
  match s.region addr with
  | .view priv off =>
    if !who.canAccess then bad s 27
    else if addr % 4 ≠ 0 ∨ width ≠ 4 then bad s 31
    else if s.nDies ≤ off / 2 ^ 24 ∧ off / 2 ^ 24 ≠ 6 then bad s 30
    else if priv && !s.privileged who then f s.viewMiss (off / 2 ^ 24) (off % 2 ^ 24) false
    else f s (off / 2 ^ 24) (off % 2 ^ 24) priv
  | .reserved => s.noPlace addr bad
  | _ => bad s 31

/-- A word read. -/
def State.regReadAt (s : State) (who : Init) (addr width : Nat) : Result State :=
  s.viewAccess who addr width State.readErr (fun t d p priv => (t.endPairs who d p).readPlace who d p priv)

/-- A word written. -/
def State.regWriteAt (s : State) (who : Init) (addr : Nat) (v : Word) (width : Nat) : Result State :=
  s.viewAccess who addr width hostErr (fun t d p priv => (t.endPairs who 6 0).writePlace who d p priv v)

/-- The register at an address satisfies a test. -/
def State.regIs (s : State) (addr : Nat) (p : RegSpec → Bool) : Bool :=
  match s.region addr with
  | .view _ off => match regSpecAt (off / 2 ^ 24) (off % 2 ^ 24) with
    | some (r, _) => p r
    | none => true
  | _ => true

/-- REGISTER_READ: a read of `width` bytes: of a register (R14, R31), or of a hardware flag at its address, which is an aligned 32-bit
read (Table SPD-4). -/
def execRegisterRead (who : Init) (addr width : Nat) (s : State) : Result State :=
  if s.frz.stopped then .next s else
  match s.region addr with
  | .flag d f =>
    if addr % 4 ≠ 0 ∨ width ≠ 4 then s.readErr 257
    else if s.dieUp d && s.reach who.die d then .next (s.answer (s.flagVal d f))
    else
      let (v, s1) := s.free
      .next (s1.answer (Word.ofNat v))
  | _ => s.regReadAt who addr width

/-- REGISTER_WRITE: a write of `width` bytes to a register (R14, R31). -/
def execRegisterWrite (who : Init) (addr : Nat) (v : Word) (width : Nat) (s : State) : Result State :=
  if s.frz.stopped then .next s else
  s.regWriteAt who addr v width

/-- REG_LO_READ: the whole pair is captured for the reading initiator (R33). -/
def execRegLoRead (who : Init) (addr : Nat) (s : State) : Result State :=
  if s.frz.stopped then .next s
  else if s.regIs addr RegSpec.isLo then s.regReadAt who addr 4 else s.readErr 33

/-- REG_HI_READ: the captured upper half, which is used up, or the live one (R33). -/
def execRegHiRead (who : Init) (addr : Nat) (s : State) : Result State :=
  if s.frz.stopped then .next s
  else if s.regIs addr RegSpec.isHi then s.regReadAt who addr 4 else s.readErr 33

/-- REG_LO_WRITE: held until the same initiator writes the _HI register (R33). -/
def execRegLoWrite (who : Init) (addr : Nat) (v : Word) (s : State) : Result State :=
  if s.frz.stopped then .next s
  else if s.regIs addr RegSpec.isLo then
    s.viewAccess who addr 4 hostErr (fun t d p _ => match regSpecAt d p with
      | none => hostErr t 30
      | some _ => .next { t with loHeld := Map.put t.loHeld (pairKey who d p) v })
  else hostErr s 33

/-- REG_HI_WRITE: takes effect together with the held _LO write (R33). -/
def execRegHiWrite (who : Init) (addr : Nat) (v : Word) (s : State) : Result State :=
  if s.frz.stopped then .next s
  else if s.regIs addr RegSpec.isHi then
    s.viewAccess who addr 4 hostErr (fun t d p priv =>
      match t.loHeld.find? (fun (q : Nat × Word) => q.1 == pairKey who d (p - 4)) with
      | some (k, lo) => andThen ({ t with loHeld := Map.erase t.loHeld k }.writePlace who d (p - 4) priv lo)
          (fun u => u.writePlace who d p priv v)
      | none => t.writePlace who d p priv v)
  else hostErr s 33

/-! ### Windows that are no registers (R26) -/

/-- COSY_MAILBOX_READ: a read of the mailbox from dies 0–6 returns zero (R26).  An access to another place does not come to the mailbox. -/
def execCosyMailboxRead (addr : Nat) (s : State) : Result State :=
  if s.frz.stopped then .next s else
  match s.region addr with
  | .mailbox _ => .next (s.answer 0)
  | .reserved => s.noPlace addr State.readErr
  | _ => .next s

/-- INGRESS_BUFFER_WRITE: a write to the ingress buffers is discarded and not counted (R26).  One to another place does not come here. -/
def execIngressBufferWrite (addr : Nat) (_data : List Byte) (s : State) : Result State :=
  if s.frz.stopped then .next s else
  match s.region addr with
  | .reserved => s.noPlace addr hostErr
  | _ => .next s

end Sys2Proof.Machine
end

