-- ==== Sys2Proof/Machine/Session.lean ====
section
/-! DEFINITION. Maintenance sessions (R537–R543, Table SEC-3), uploads and commits (R53–R55), attestation (R540), provisioning and
scrapping (R539), and the security block's checks (R534, R541). -/

namespace Sys2Proof.Machine

open Sys2Proof

/-- Change the security block. -/
def State.modSec (s : State) (f : Security → Security) : State := { s with sec := f s.sec }

/-- Change the session that is open. -/
def State.modSession (s : State) (f : Session → Session) : State := s.modSec (fun x => { x with session := x.session.map f })

/-! ### Opening, proving, closing (R537, R538) -/

/-- The CHALLENGE's payload: the nonce, then the serial. -/
def State.challenge (s : State) (nonce : Hash) : List Byte := Hash.bytes nonce ++ toLE 16 s.sec.serial.toNat

/-- OPEN: a session opens in role NONE, or the one that is open begins its exchange anew, and the CHALLENGE goes out with a nonce of the
generator; refused during the 60 s after eight failed PROVEs, and while the generator is bad (R538, R541).  DEDUCED (log entry 39): an OPEN
within an open session keeps that session's slot and its first-write mark, since the session of R53 and R55 goes on. -/
def execOpenSession (role : Nat) (key nonce : Hash) (s : State) : Result State :=
  if !s.served then .next s
  else if s.sec.lockout.isSome || !s.sec.trngOk || !(role == 1 || role == 2) then .next s.heard.refuse
  else
    let t := s.modSec (fun x => { x with session := some ⟨0, role, key, nonce, some s.deviceTime, s.deviceTime,
      (x.session.map (fun y => y.slot)).getD none, (x.session.map (fun y => y.wrote)).getD false⟩ })
    .next (t.sendMsg 2 (s.challenge nonce)).secRegs

/-- The key of an OPEN is the role's: by its OTP hash, or any for INTEGRATOR of a MANUFACTURED module; a SCRAPPED one grants none. -/
def State.keyAllowed (s : State) (role : Nat) (key : Hash) : Bool :=
  s.sec.lifecycle != 2 && ((role == 1 && s.sec.lifecycle == 0) ||
    sha256 (Hash.bytes key) == (if role = 1 then s.sec.ikey else s.sec.vkey))

/-- A failed PROVE: counted and recorded; the eighth in a row refuses every OPEN for 60 s. -/
def State.proveFails (s : State) : State :=
  let n := s.sec.failed + 1
  let s1 := (s.modSec (fun x => { x with
    failed := n, lockout := if 8 ≤ n then some (s.deviceTime + 54000000000) else x.lockout })).bumpF 6 .secAuth_failed
  (s1.raise 0x0181 n).refuse.secRegs

/-- PROVE: the role is granted if it comes within 10 s of the CHALLENGE, the key is the role's and the signature verifies; each challenge
serves once (R538).  Without a challenge it is refused (log entry 39). -/
def execProve (sig : List Byte) (s : State) : Result State :=
  s.message [0, 1, 2, 3] true (fun x t =>
    match x.challenge with
    | none => .next t.refuse
    | some at_ =>
      let u := t.modSession (fun y => { y with challenge := none, role := 0 })
      let msg := ascii "ILK2-SESSION" ++ s.challenge x.nonce ++ toLE 1 x.asked
      if s.deviceTime ≤ at_ + 9000000000 ∧ s.keyAllowed x.asked x.key = true ∧ slhVerify (Hash.bytes x.key) msg sig = true then
        .next ((((u.modSession (fun y => { y with role := x.asked })).modSec (fun y => { y with failed := 0 })).raise 0x0180
          x.asked).accept).secRegs
      else .next u.proveFails)

/-- CLOSE: the session ends; a freeze goes on (R577). -/
def execClose (s : State) : Result State :=
  s.message [0, 1, 2, 3, 4] true (fun _ t => .next ((t.accept).modSec (fun x => { x with session := none })).secRegs)

/-- SESSION_TIMEOUT: 60 s without a message end the session (R537); during a freeze, when device time stands, by the sender's word. -/
def execSessionTimeout (s : State) : Result State :=
  match s.sec.session with
  | none => .next s
  | some x =>
    if x.lastDt + 54000000000 ≤ s.deviceTime ∨ s.frz.stopped = true then .next (s.modSec (fun y => { y with session := none })).secRegs
    else .next s

/-- AUTH_LOCKOUT_END: the 60 s are over (R538). -/
def execAuthLockoutEnd (s : State) : Result State :=
  match s.sec.lockout with
  | none => .next s
  | some t => if t ≤ s.deviceTime then .next (s.modSec (fun x => { x with lockout := none, failed := 0 })).secRegs else .next s

/-! ### Attestation (R540, Table SEC-4) -/

/-- The body of a report. -/
def State.attestBody (s : State) (nonce : Hash) : List Byte :=
  let hold := s.boot.holding || decide (s.boot.step < 8)
  let img (n v : Nat) : List Byte := toLE n (if hold then 0 else v)
  let stepping (d : Nat) : Nat := if d = 6 ∨ d < s.nDies then s.getF d .idDie_stepping else 0
  let cores (d : Nat) : Nat := ((List.range 72).filter (fun c => (s.unit d c).retired)).length
  let flags := bit s.boot.holding + 2 * bit s.sec.unlocked + 4 * bit s.saf.outOfService + 8 * bit !s.saf.doubts.isEmpty
  toLE 4 0x41545432 ++ toLE 2 1 ++ toLE 1 s.sec.lifecycle ++ toLE 1 flags ++ toLE 16 s.sec.serial.toNat ++
    toLE 4 (s.reg 6 0x4 0 0).toNat ++ ((List.range 4).map (fun d => toLE 1 (stepping d))).flatten ++ toLE 1 (stepping 6) ++
    toLE 1 s.sec.counter ++ img 1 (s.getF 6 .bootImage_rollback_index) ++ toLE 1 (if hold then 0xFF else bit s.boot.slot) ++
    img 4 (s.getF 6 .bootVersion_image_version) ++ toLE 4 s.bootCount ++ toLE 4 0 ++ Hash.bytes nonce ++
    Hash.bytes s.sec.loaderHash ++ (if hold then List.replicate 32 0 else Hash.bytes (sha256 (mapBytes s.caddy (cadKey 0 0) 0x2400))) ++
    Hash.bytes s.cosyView.ident ++ Hash.bytes s.sec.ikey ++ Hash.bytes s.sec.vkey ++ toLE 8 s.deviceTime ++ toLE 8 s.wall ++
    toLE 2 s.epoch ++ toLE 2 0 ++ toLE 4 (s.getF 6 .safActive_classes) ++
    ((List.range 4).map (fun d => toLE 1 (if d < s.nDies then cap 255 (cores d) else 0))).flatten ++ List.replicate 20 0 ++
    s.attestKey

/-- ATTEST: the body is sampled; one report is made at a time, and none while the generator is bad (R540, R541). -/
def execAttest (nonce : Hash) (s : State) : Result State :=
  s.message [0, 1, 2, 3, 4] false (fun _ t =>
    if t.sec.attest.isSome || !t.sec.trngOk then .next (t.bumpF 6 .secAttest_refused).refuse
    else .next (t.modSec (fun x => { x with attest := some (t.attestBody nonce) })).secRegs)

/-- ATTEST_SIGNED: the signature is made and the report goes out: body, signature, endorsement; a SCRAPPED module's signature is zeros
(R535, R540). -/
def execAttestSigned (s : State) : Result State :=
  if s.frz.stopped then .next s else
  match s.sec.attest with
  | none => .next s
  | some body =>
    let (random, s0) := s.freeBytes 16
    let sig := s.attestSign random body
    let s1 := s0.modSec (fun x => { x with attest := none })
    if s1.sec.session.isNone then .next s1.secRegs
    else .next (((s1.bumpF 6 .secAttest_reports).raise 0x0183 0).sendMsg 0x10
      (body ++ sig ++ mapBytes s.flash.loader Config.endorsementAt 7856)).secRegs

/-! ### Registers and the log (R537) -/

/-- Read `n` words from an address on through the view that the role permits. -/
def State.readWords : Nat → State → Nat → List Word → Result (State × List Word)
  | 0, s, _, l => .next (s, l)
  | n + 1, s, addr, l =>
    match s.regReadAt .session addr 4 with
    | .next t => State.readWords n { t with out := { t.out with reads := s.out.reads } } (addr + 4) (l ++ t.out.reads.drop s.out.reads.length)
    | .fault e => .fault e
    | .refused e => .refused e

/-- REG_READ: 1–64 words (R537). -/
def execRegRead (addr count : Nat) (s : State) : Result State :=
  s.message [0, 1, 2, 3] false (fun _ t =>
    if count = 0 ∨ 64 < count then .next t.refuse
    else match State.readWords count t addr [] with
      | .next (u, l) => .next (u.sendMsg 0x11 (l.map (fun w => toLE 4 w.toNat)).flatten)
      | .fault e => .fault e
      | .refused e => .refused e)

/-- Write words from an address on. -/
def State.writeWords : List Word → State → Nat → Result State
  | [], s, _ => .next s
  | w :: l, s, addr =>
    match s.regWriteAt .session addr w 4 with
    | .next t => State.writeWords l t (addr + 4)
    | .fault e => .fault e
    | .refused e => .refused e

/-- REG_WRITE: words through the privileged view (R537). -/
def execRegWrite (addr : Nat) (words : List Word) (s : State) : Result State :=
  s.message [1, 2] false (fun _ t => andThen (State.writeWords words t addr) (fun u => .next u.accept))

/-- LOG_READ: a range of the log partition; what its first MiB holds, the headers among it, has no stated form and is free (R530, R537). -/
def execLogRead (off len : Nat) (s : State) : Result State :=
  s.message [1] false (fun _ t =>
    let (f, u) := t.freeBytes len
    let data := (List.range len).map (fun i =>
      if off + i < 0x100000 then f.getD i 0 else (Map.get [] t.recorder.logRegion ((off + i) / 256)).getD ((off + i) % 256) 0)
    .next (u.sendMsg 0x21 data))

/-! ### Uploads and commits (R53–R55, R57) -/

/-- An image slot written from an offset on. -/
def State.putSlot (s : State) (b : Bool) (off : Nat) (data : List Byte) : State :=
  if b then { s with flash := { s.flash with slotB := mapPut s.flash.slotB off data } }
  else { s with flash := { s.flash with slotA := mapPut s.flash.slotA off data } }

/-- UPLOAD: blocks of an image to the slot that the session's first UPLOAD names, which must not be the one that governed this start; the
first write clears a pending mark of that slot (R53, R55). -/
def execUpload (slot : Bool) (off : Nat) (data : List Byte) (s : State) : Result State :=
  s.message [1] false (fun x t =>
    let b := x.slot.getD slot
    if (!t.boot.holding && b == t.boot.slot) || off % 4096 != 0 || data.length % 4096 != 0 || decide (2 ^ 37 < off + data.length) then
      .next t.refuse
    else
      let t1 := t.modSession (fun y => { y with slot := some b, wrote := true })
      let t2 := if !x.wrote && t.slotRecord.pending == some b then t1.setRecord t1.slotRecord.active none else t1
      .next (t2.putSlot b off data).accept)

/-- COMMIT: the image just uploaded is to be read back (R54).  DESIGN CHOICE (log entry 64): one in a session that has made no UPLOAD, or while
a read-back runs, is refused. -/
def execCommit (s : State) : Result State :=
  s.message [1] false (fun x t =>
    match x.slot with
    | none => .next t.refuse
    | some b =>
      if t.boot.commit.isSome then .next t.refuse
      else .next ({ t with boot := { t.boot with commit := some b } }.setF 6 .bootSlot_commit_busy 1))

/-- The failure cause of checks 1–8 on a slot (R41, R54). -/
def State.commitCause (s : State) (b : Bool) : Nat :=
  let m := s.slotBytes b
  let c := s.manifestCause m
  if c ≠ 0 then c else if (List.range 11).all (fun i => sectionMatches m (secEntry m 0 i)) then 0 else 10

/-- COMMIT_READBACK_DONE: the result is reported, a UFS read error among the causes; if every check passes the slot is marked pending, and
in the holding state the session closes (R54, R55). -/
def execCommitReadbackDone (readErr : Bool) (s : State) : Result State :=
  if s.frz.stopped then .next s else
  match s.boot.commit with
  | none => .next s
  | some b =>
    let c := if readErr then 1 else s.commitCause b
    let s1 := ({ s with boot := { s.boot with commit := none } }.setF 6 .bootSlot_commit_busy 0).setF 6 .bootSlot_commit_fail c
    let s2 := if c = 0 then s1.setRecord s1.slotRecord.active (some b) else s1
    let s3 := if s2.sec.session.isSome then s2.sendMsg 4 (if c = 0 then toLE 1 0 else toLE 1 1 ++ toLE 1 c) else s2
    .next (if c = 0 ∧ s.boot.holding = true then (s3.modSec (fun x => { x with session := none })).secRegs else s3)

/-- HOLDING_COLD_START: a commit has passed in the holding state: within 1 s the module starts anew (R55). -/
def execHoldingColdStart (s : State) : Result State :=
  if s.frz.stopped then .next s
  else if s.boot.holding && s.slotRecord.pending.isSome && s.boot.commit.isNone then .next (s.coldBegin true) else .next s

/-- COSY_IMAGE: part of a new Cosy image, by its offset in the image, goes to the mailbox's delivery window, from which the Cosy takes it
(R57, Table SAF-7).  The window is used again every 512 KiB of the image, and a part must lie within one use of it and within the
128 MiB half (log entry 63). -/
def execCosyImage (off : Nat) (data : List Byte) (s : State) : Result State :=
  s.message [1] false (fun _ t =>
    if 0x80000 < off % 0x80000 + data.length ∨ 2 ^ 27 < off + data.length then .next t.refuse
    else
      let t1 := t.write (mailboxBase + 0x80000 + off % 0x80000) data
      .next (if t1.cosy.powered && t1.cosyView.linkUp then { t1 with cosy := t1.cosy.deliver off data } else t1).accept)

/-! ### Keys, provisioning, debug unlock, the loader (R539, R542, R543) -/

/-- The sealed key record of some keys: AES-256-GCM under the sealing key, the record's sequence number as nonce (R542; log entry 28). -/
def State.sealKeys (s : State) (keys : List Byte) : List Byte :=
  match s.derived (ascii "ILK2-SEAL") with
  | some k => sealed k (toLE 12 (s.flash.sealedKeys.seqNo + 1).toNat) keys
  | none => []

/-- CAK_SET: a new sealed key record, in effect at the next cold start (R542). -/
def execCakSet (keys : List Byte) (s : State) : Result State :=
  s.message [1] false (fun _ t =>
    .next (t.flashWrite 3 (fun f => { f with sealedKeys := f.sealedKeys.write (t.sealKeys keys) })).accept)

/-- PROVISION: the hash of the session's key and then the first lifecycle step are burned, and the module cold-starts; with another key
burned already it is refused.  Power lost between the two burns leaves the hash burned and the module MANUFACTURED (R539). -/
def execProvision (powerLost : Bool) (s : State) : Result State :=
  s.message [3] false (fun x t =>
    let h := sha256 (Hash.bytes x.key)
    if t.sec.ikey ≠ 0 ∧ t.sec.ikey ≠ h then .next t.refuse
    else if powerLost then .next (t.modSec (fun y => { y with ikey := h })).railsOff
    else .next ((t.modSec (fun y => { y with ikey := h, lifecycle := 1 })).accept.coldBegin true))

/-- UNLOCK: a token for this serial and the session's CHALLENGE, signed by the session's key, unlocks debug while the module is out of
service; any other changes nothing (R543). -/
def execUnlock (token sig : List Byte) (s : State) : Result State :=
  s.message [1, 2] false (fun x t =>
    let scope := ((token.drop 4).take 1).foldl (fun _ b => b.toNat) 0
    let good := token.length == 64 && leNat (token.take 4) == 0x554E4C4B && (token.drop 5).take 11 == List.replicate 11 0 &&
      (token.drop 16).take 16 == toLE 16 t.sec.serial.toNat && token.drop 32 == Hash.bytes x.nonce && decide (scope < 8)
    if good && slhVerify (Hash.bytes x.key) token sig && t.saf.outOfService then
      .next (((t.modSec (fun y => { y with unlocked := true, scope := scope })).raise 0x0182 scope 6 x.role).accept).secRegs
    else .next t.refuse)

/-- LOADER_WRITE: the first-stage loader and its endorsement (R537). -/
def execLoaderWrite (off : Nat) (data : List Byte) (s : State) : Result State :=
  s.message [2] false (fun _ t => .next ({ t with flash := { t.flash with loader := mapPut t.flash.loader off data } }).accept)

/-- SCRAP: the second lifecycle step is burned; dies 0–3 are held in reset with FAULT_N asserted (R535). -/
def execScrap (s : State) : Result State :=
  s.message [2] false (fun _ t =>
    let u := t.modSec (fun y => { y with lifecycle := 2 })
    .next (({ u with dies := u.dies.map (fun (x : Die) => { x with inReset := true }) }.fault true).accept).secRegs)

/-! ### Checks of the security block (R534, R541) -/

/-- A check fails: recorded, and after the first frame start a SECURITY doubt. -/
def State.checkFailed (s : State) (which : Nat) : State :=
  let t := s.secRegs.raise 0x0184 which
  if s.boot.framed then t.doubt dSECURITY 6 t.frame else t

/-- OTP_REREAD: once per second every field of OTP is compared with the copy latched at cold start (R534). -/
def execOtpReread (_field : Nat) (agrees : Bool) (s : State) : Result State :=
  if s.frz.stopped then .next s
  else if agrees || s.boot.step = 0 then .next s else .next ((s.modSec (fun x => { x with otpOk := false })).checkFailed 0)

/-- SECURITY_KAT: a known-answer test: 0 SHA-256, 1 SLH-DSA verification, 2 AES-256-GCM (R541). -/
def execSecurityKat (which : Nat) (pass : Bool) (s : State) : Result State :=
  if s.frz.stopped then .next s
  else if pass || s.boot.step = 0 || 3 ≤ which then .next s
  else .next ((s.modSec (fun x => { x with katOk := false })).checkFailed (which + 1))

/-- TRNG_SAMPLE: the generator's health tests on a sample; a failure refuses every CHALLENGE and ATTEST until the next cold start (R541). -/
def execTrngSample (pass : Bool) (s : State) : Result State :=
  if s.frz.stopped then .next s
  else if pass || s.boot.step = 0 then .next s else .next ((s.modSec (fun x => { x with trngOk := false })).checkFailed 4)

end Sys2Proof.Machine
end

