-- ==== Sys2Proof/Machine/Stereo.lean ====
section
/-! DEFINITION. The stereo engine: semi-global matching (chapter 08). -/

namespace Sys2Proof.Machine

open Sys2Proof

/-! ### Parameters (R213–R215) -/

/-- The parameters of a stereo task. -/
structure SgmPar where
  hx : Nat
  hy : Nat
  five : Bool
  dMin : Nat
  n : Nat
  subpixel : Bool
  lr : Bool
  p1 : Nat
  p2 : Nat
  p2Min : Nat
  gamma : Nat
  uniq : Nat
  lrThr : Nat
  matchMax : Nat
  textureMin : Nat
  deriving DecidableEq, Repr

/-- The census width. -/
def SgmPar.bits (p : SgmPar) : Nat := (2 * p.hx + 1) * (2 * p.hy + 1) - 1

/-- The parameters of a block. -/
def SgmPar.of (j : Job) : SgmPar :=
  let c := j.p 2 1
  let o := j.p 7 1
  ⟨if c = 0 then 2 else if c = 1 then 3 else 4, if c = 0 then 2 else 3, j.p 3 1 == 1, j.p 4 2, 64 * 2 ^ j.p 6 1, testBit o 0,
    testBit o 1, j.p 8 1, j.p 9 1, j.p 0xA 1, j.p 0xB 1, j.p 0xC 1, j.p 0xD 1, j.p 0xE 1, j.p 0x10 4⟩

/-- Every field lies in its range (Table STE-1, R214). -/
def SgmPar.ok (p : SgmPar) (j : Job) (w : Nat) : Bool :=
  decide (j.p 2 1 ≤ 2 ∧ j.p 3 1 ≤ 1 ∧ j.p 6 1 ≤ 3 ∧ p.dMin + p.n ≤ 512 ∧ j.p 7 1 < 8 ∧ 1 ≤ p.p1 ∧ p.p1 ≤ 63 ∧ 8 ≤ p.p2 ∧
    p.p1 + 1 ≤ p.p2Min ∧ p.p2Min ≤ p.p2 ∧ 1 ≤ p.uniq ∧ p.uniq ≤ 16 ∧ p.matchMax ≤ p.bits) && j.zero 0x18 0x40 &&
    (!p.five || decide (w * p.n ≤ 1048576))

/-! ### Costs and aggregation (R215–R219) -/

/-- The costs of a pixel by candidate, whether each is evaluated, and the mark of what they were computed from. -/
structure Costs where
  cost : List Nat
  open_ : List Bool
  taint : Taint
  deriving DecidableEq, Repr

/-- The raw costs of a row. -/
def State.rowCosts (s : State) (p : SgmPar) (left right : TDesc) (y : Nat) : List Costs :=
  let w := left.ext 0
  let cl := (List.range w).map (fun (x : Nat) => s.census left p.hx p.hy x y)
  let cr := (List.range w).map (fun (x : Nat) => s.census right p.hx p.hy x y)
  (List.range w).map (fun x =>
    let ds := (List.range p.n).map (fun k => p.dMin + k)
    let y0 : Int := (y : Int) - p.hy
    let y1 : Int := (y : Int) + p.hy
    ⟨ds.map (fun d => if d ≤ x then censusDist (nth [] cl x) (nth [] cr (x - d)) else p.bits), ds.map (fun d => decide (d ≤ x)),
      (s.rectTaint left ((x : Int) - p.hx) ((x : Int) + p.hx) y0 y1).or
        (s.rectTaint right ((x : Int) - p.dMin - p.n - p.hx) ((x : Int) - p.dMin + p.hx) y0 y1)⟩)

/-- The state of a path at a pixel: the aggregated costs, and their mark. -/
abbrev PathCost := List Nat × Taint

/-- One step of a path (R217); none before its first pixel. -/
def aggregate (p : SgmPar) (p2 : Nat) (prev : Option PathCost) (c : Costs) : PathCost :=
  match prev with
  | none => (c.cost, c.taint)
  | some (l, t) =>
    let m := l.foldl min (l.headD 0)
    ((List.range c.cost.length).map (fun k =>
      let here := nth 0 l k
      let a := if 0 < k then min here (nth 0 l (k - 1) + p.p1) else here
      let b := if k + 1 < l.length then min a (nth 0 l (k + 1) + p.p1) else a
      nth 0 c.cost k + min b (m + p2) - m), t.or c.taint)

/-- A left pixel's code in 8 bits (R218). -/
def State.code8 (s : State) (t : TDesc) (x y : Int) : Int :=
  ((if t.format = 1 then s.clampPix t x y / 256 else s.clampPix t x y : Nat) : Int)

/-- The large penalty at (x, y) along a path whose step is (rx, ry) (R218). -/
def State.penalty (s : State) (p : SgmPar) (left : TDesc) (x y rx ry : Int) : Nat :=
  max p.p2Min (p.p2 - p.gamma * (s.code8 left x y - s.code8 left (x - rx) (y - ry)).natAbs / 16)

/-- The path from the left, or from the right, along a row. -/
def State.rowPath (s : State) (p : SgmPar) (left : TDesc) (y : Nat) (r : Int) (cs : List (Nat × Costs)) : List (Nat × PathCost) :=
  (cs.foldl (fun (a : List (Nat × PathCost) × Option PathCost) xc =>
    let l := aggregate p (s.penalty p left xc.1 y r 0) a.2 xc.2
    (a.1 ++ [(xc.1, l)], some l)) ([], none)).1

/-- A path from the row above: its costs there, column by column. -/
def State.downPath (s : State) (p : SgmPar) (left : TDesc) (y : Nat) (r : Int) (above : Option (List PathCost))
    (cs : List Costs) : List PathCost :=
  (List.range cs.length).map (fun (x : Nat) =>
    let c := cs.getD x ⟨[], [], Taint.none⟩
    let from_ : Int := (x : Int) - r
    match above with
    | none => aggregate p p.p2 none c
    | some l => if from_ < 0 ∨ (cs.length : Int) ≤ from_ then aggregate p p.p2 none c
      else aggregate p (s.penalty p left x y r 1) (l[from_.toNat]?) c)

/-! ### Winners (R220–R225) -/

/-- The statuses of Table STE-3. -/
inductive SteStatus where
  | valid | lowTexture | occluded | ambiguous | noMatch | border | test
  deriving DecidableEq, Repr

/-- The code of a status. -/
def SteStatus.code : SteStatus → Nat
  | .valid => 0
  | .lowTexture => 1
  | .occluded => 2
  | .ambiguous => 3
  | .noMatch => 4
  | .border => 5
  | .test => 6

/-- An output pixel. -/
structure StePixel where
  status : SteStatus
  disp : Nat
  conf : Nat
  taint : Taint
  deriving DecidableEq, Repr

/-- The word of a pixel (R224). -/
def StePixel.word (q : StePixel) : Nat := q.status.code * 2 ^ 13 + (if q.status = .valid then q.disp else 0)

/-- The least of a list of pairs (value, index) with ties to the smaller index, which comes first. -/
def leastBy (l : List (Nat × Nat)) : Option (Nat × Nat) :=
  l.foldl (fun (m : Option (Nat × Nat)) e => match m with
    | none => some e
    | some b => if e.1 < b.1 then some e else m) none

/-- D_R(q): the integer right-view disparity of a right column (R222). -/
def rightView (p : SgmPar) (sums : List (List Nat × Costs)) (q : Nat) : Option Nat :=
  (leastBy ((List.range p.n).filterMap (fun k =>
    match sums[q + p.dMin + k]? with
    | some (l, c) => if c.open_.getD k false then some (nth 0 l k, p.dMin + k) else none
    | none => none))).map (·.2)

/-- One pixel's winner, status and confidence. -/
def State.stePixel (s : State) (p : SgmPar) (left : TDesc) (y x : Nat) (sums : List (List Nat × Costs)) (taint : Taint) : StePixel :=
  let (l, c) := sums.getD x ([], ⟨[], [], Taint.none⟩)
  let cand := (List.range p.n).filterMap (fun k => if c.open_.getD k false then some (nth 0 l k, k) else none)
  match leastBy cand with
  | none => ⟨.border, 0, 0, taint⟩
  | some (s1, k) =>
    let d := p.dMin + k
    let s2 := ((leastBy (cand.filter (fun e => decide (e.2 + 1 < k ∨ k + 1 < e.2)))).map (·.1)).getD 1585
    let neighbour (m : Nat) : Option Nat := (cand.find? (fun e => e.2 == m)).map (·.1)
    let δ : Int := if p.subpixel then
        match (if k = 0 then none else neighbour (k - 1)), neighbour (k + 1) with
        | some a, some b => parabola a s1 b
        | _, _ => 0
      else 0
    let disp : Int := (d : Int) * 16 + δ
    let q := (x : Int) - roundEven disp 16
    let dr := if q < 0 then none else rightView p sums q.toNat
    let lrBad := match dr with
      | none => true
      | some r => decide (p.lrThr < (disp - (r : Int) * 16).natAbs)
    let st := if x < d + p.hx then SteStatus.border
      else if s.texture left 2 x y < p.textureMin then .lowTexture
      else if p.matchMax < nth 0 c.cost k then .noMatch
      else if s2 * p.uniq < s1 * 16 then .ambiguous
      else if p.lr && lrBad then .occluded else .valid
    ⟨st, (clampInt 0 8191 disp).toNat, confidence (st == .valid) s1 s2,
      taint.or (s.rectTaint left ((x : Int) - 3) (x + 3) ((y : Int) - 3) (y + 3))⟩

/-- The paths carried from row to row: NW, N, NE. -/
structure SgmState where
  nw : Option (List PathCost)
  n : Option (List PathCost)
  ne : Option (List PathCost)
  rows : List (Nat × List StePixel)

/-- One computed row (R219). -/
def State.sgmRow (s : State) (p : SgmPar) (left right : TDesc) (g : SgmState) (y : Nat) : SgmState :=
  let cs := s.rowCosts p left right y
  let num := (List.range cs.length).zip cs
  let west := (s.rowPath p left y 1 num).map (·.2)
  let nw := s.downPath p left y 1 g.nw cs
  let n := s.downPath p left y 0 g.n cs
  let ne := s.downPath p left y (-1) g.ne cs
  let east := if p.five then ((s.rowPath p left y (-1) num.reverse).reverse).map (·.2) else []
  let paths (x : Nat) : List PathCost := [west, nw, n, ne, east].filterMap (fun l => l[x]?)
  let sums := (List.range cs.length).map (fun x =>
    ((List.range p.n).map (fun k => sumNat ((paths x).map (fun q => nth 0 q.1 k))), cs.getD x ⟨[], [], Taint.none⟩))
  let marks := (List.range cs.length).map (fun x => (paths x).foldl (fun t q => t.or q.2) Taint.none)
  let row := marks.foldl (fun a b => a.or b) Taint.none
  ⟨some nw, some n, some ne, g.rows ++ [(y, (List.range cs.length).map (fun x =>
    s.stePixel p left y x sums (if p.lr then row else nth Taint.none marks x)))]⟩

/-! ### Tasks -/

/-- The writes of a task's rows. -/
def steWrites (out : TDesc) (conf : Option TDesc) (rows : List (Nat × List StePixel)) : List HeldWrite :=
  planeWrites out rows (fun q => (toLE 2 q.word, q.taint.poison)) ++
    (match conf with
      | none => []
      | some t => planeWrites t rows (fun q => ([BitVec.ofNat 8 q.conf], q.taint.poison)))

/-- Count the pixels written by status (R232). -/
def State.steCounts (s : State) (d i : Nat) (l : List StePixel) : State :=
  let n (st : SteStatus) : Nat := (l.filter (fun q => q.status == st)).length
  (((((((s.bumpUnits d .stePixels_pixels 1024 l.length i).bumpUnits d .steValid_valid 1024 (n .valid) i).bumpUnits d
    .steTexOcc_low_texture 1024 (n .lowTexture) i).bumpUnits d .steTexOcc_occluded 1024 (n .occluded) i).bumpUnits d
    .steAmbNom_ambiguous 1024 (n .ambiguous) i).bumpUnits d .steAmbNom_no_match 1024 (n .noMatch) i).bumpUnits d
    .steBrdTst_border 1024 (n .border) i).bumpUnits d .steBrdTst_test 1024 (n .test) i

/-- Sources and outputs of a stereo task (R211). -/
def State.steImages (s : State) (fmt : Nat) (left right out : TDesc) (conf : Option TDesc) : Bool :=
  let w := left.ext 0
  let h := left.ext 1
  decide (fmt ≤ 1 ∧ 64 ≤ w ∧ w ≤ 4096 ∧ 16 ≤ h ∧ h ≤ 4096) && left.format == fmt && right.format == fmt && s.image left w h &&
    s.image right w h && s.plane out 16 w h && pitchOk out && (match conf with | some t => s.plane t 8 w h && pitchOk t | none => true)

/-- The confidence plane of a stereo task, the rows it writes, and their bytes. -/
def steConf (j : Job) : Option TDesc := if testBit (j.p 7 1) 2 then some (j.arg 3) else none
def steRows (j : Job) : Option (List Nat) := rowRange (j.p 0x14 2) (j.p 0x16 2) ((j.arg 0).ext 1)
def steSpans (j : Job) : List (Nat × Nat) :=
  let rows := (steRows j).getD []
  rowSpans (j.arg 2) rows ++ (match steConf j with | some t => rowSpans t rows | none => [])

/-- The bytes that a stereo task in mode SGM reads. -/
def steReads (j : Job) : List (Nat × Nat) := allSpans (j.arg 0) ++ allSpans (j.arg 1)

/-- The rule that a stereo task breaks, if any. -/
def State.steError (s : State) (j : Job) (mode : Nat) : Option Nat :=
  let left := j.arg 0
  let right := j.arg 1
  if (steRows j).isNone then some 213
  else if j.p 0 1 ≠ mode ∨ j.zero 0x18 0x40 = false ∨ (mode = 0 ∧ (SgmPar.of j).ok j (left.ext 0) = false) then some 213
  else if !s.steImages (j.p 1 1) left right (j.arg 2) (steConf j) then some 211
  else if mode = 0 ∧ spansMeet (steSpans j) (steReads j) = true then some 161
  else none

/-- STE_SGM: a stereo task in mode SGM (R210–R229). -/
def execSteSgm (d i : Nat) (s : State) : Result State :=
  match s.job d 5 i with
  | none => .next s
  | some j =>
    if j.p 0 1 = 1 then .next s
    else match s.steError j 0 with
    | some r => hostErr s r
    | none =>
      if !s.spansReach d (steReads j) then .next s else
      let p := SgmPar.of j
      let left := j.arg 0
      let rows := (steRows j).getD []
      let lead := if j.p 0x14 2 = 0xFFFF then 0 else min (j.p 0xF 1) (rows.headD 0)
      let all := (List.range lead).map (fun k => rows.headD 0 - lead + k) ++ rows
      let g := all.foldl (fun (g : SgmState) y => s.sgmRow p left (j.arg 1) g y) ⟨none, none, none, []⟩
      let made := g.rows.drop lead
      let pix := (made.map (·.2)).flatten
      let taint := pix.foldl (fun m q => m.or q.taint) j.taint
      let k := if p.n ≤ 128 then 1 else p.n / 128
      let s1 := s.workDone d j (steReads j) ⟨steWrites (j.arg 2) (steConf j) made, taint,
        cap 0xFFFF (pix.filter (fun q => q.status == .border)).length,
        200 + (all.length + bit p.five) * (k * left.ext 0 + 32)⟩
      .next (s1.steCounts d i pix)

/-- STE_TEST_FILL: the rows are filled with TEST words and no confidence; neither source is read (R226). -/
def execSteTestFill (d i : Nat) (s : State) : Result State :=
  match s.job d 5 i with
  | none => .next s
  | some j =>
    if j.p 0 1 = 0 then .next s
    else match s.steError j 1 with
    | some r => hostErr s r
    | none =>
      let w := (j.arg 0).ext 0
      let rows := (steRows j).getD []
      let made := rows.map (fun y => (y, List.replicate w (StePixel.mk .test 0 0 Taint.none)))
      let s1 := s.workDone d j [] ⟨steWrites (j.arg 2) (steConf j) made, j.taint, 0, 200 + rows.length * (w + 32)⟩
      .next (s1.steCounts d i (made.map (·.2)).flatten)

end Sys2Proof.Machine
end

