-- ==== Sys2Proof/Machine/VectorUnit.lean ====
section
/-! DEFINITION. The vector unit of a neural core: loads and stores of its registers and the operations of Table NCO-9
(R315–R317, R337–R339). -/

namespace Sys2Proof.Machine

open Sys2Proof

/-! ### Registers -/

/-- Lane l of vector register r, and whether it is marked. -/
def Core.lane (x : Core) (r l : Nat) : Nat := (Map.get 0 x.v (r * 64 + l)).toNat

/-- The 64 lanes of a register. -/
def Core.vreg (x : Core) (r : Nat) : List Nat := (List.range 64).map (fun l => x.lane r l)

/-- The poisoned lanes of a register. -/
def Core.vmarks (x : Core) (r : Nat) : List Nat := (List.range 64).filter (fun l => x.vPoison.contains (r * 64 + l))

/-- A result goes on its way to its register, unless another producer writes that register in the same cycle (R315). -/
def State.sendResult (s : State) (c : CoreRef) (w : VWrite) : Result State :=
  if (s.core c.die c.core).vPend.any (fun q => q.due == w.due && q.reg == w.reg) then s.coreErr c 315
  else .next (s.modCore c.die c.core (fun x => { x with vPend := x.vPend ++ [w] }))

/-- VECTOR_LOAD: 1 to 4 granules are read through VUR0 or VUR1 and written to a register at t + 6 (R315). -/
def execVectorLoad (c : CoreRef) (port : Nat) (s : State) : Result State :=
  s.inBundle c (fun t =>
    let w := t.slotWord c 2
    let en := if port = 0 then testBit w 23 else testBit w 31
    let reg := if port = 0 then bits w 24 4 else bits w 32 4
    let gi := if port = 0 then bits w 28 3 else bits w 36 3
    if !en || decide (1 < port) then .next s
    else
      let g := t.gen c.die c.core gi
      if 3 < g.width then t.coreErr c 315
      else if !g.inLine 1 then t.coreErr c 302
      else if !(t.core c.die c.core).portFree (5 + port) c.cyc then t.coreErr c 301
      else
        let r := t.genRead c.die c.core c.cyc (5 + port) g
        let lanes := (r.1.map (fun q => (List.range 16).map (fun k => Word.ofNat (leNat ((q.1.drop (4 * k)).take 4))))).flatten
        let bad := (r.1.map (fun q => (List.range 16).map (fun k => q.2.getD (k / 4) false))).flatten
        ((r.2.stepGen c.die c.core gi).occupy c.die c.core (5 + port) (c.cyc + 1)).sendResult c
          ⟨c.cyc + 6, reg, lanes, (List.range bad.length).filter (fun l => bad.getD l false)⟩)

/-- VECTOR_STORE: 1 to 4 granules of a register are written through VUW (R315). -/
def execVectorStore (c : CoreRef) (s : State) : Result State :=
  s.inBundle c (fun t =>
    let w := t.slotWord c 2
    if !testBit w 39 then .next s
    else
      let gi := bits w 44 3
      let g := t.gen c.die c.core gi
      let x := t.core c.die c.core
      let reg := bits w 40 4
      if 3 < g.width then t.coreErr c 315
      else if !g.inLine 1 then t.coreErr c 302
      else if !x.portFree 0x7 c.cyc then t.coreErr c 301
      else
        let gr (k : Nat) : Granule := packGranule 4 (((List.range 16).map (fun j =>
          (x.lane reg (16 * k + j), x.vPoison.contains (reg * 64 + 16 * k + j)))))
        .next ((((List.range g.lanes.length).foldl (fun (y : State) k =>
          y.portWrite c.die c.core c.cyc 0x7 (g.lanes.getD k (0, 0)) (gr k)) t).stepGen c.die c.core gi).occupy c.die c.core 0x7 (c.cyc + 1)))

/-! ### Operations -/

/-- What an operation reads: three source registers, half, and the immediate. -/
structure VIn where
  a : List Nat
  b : List Nat
  c : List Nat
  half : Bool
  imm : Nat
  deriving DecidableEq, Repr

/-- Which lanes of a result a poisoned source lane marks (R243). -/
inductive Spread where
  | lanes (b c : Bool) | reduce | bcast | perm | cvtmx | scins | none
  deriving DecidableEq, Repr

/-- The marked lanes of a result. -/
def Spread.marks (k : Spread) (i : VIn) (pa pb pc : List Nat) : List Nat :=
  match k with
  | .lanes b c => (List.range 64).filter (fun l => pa.contains l || (b && pb.contains l) || (c && pc.contains l))
  | .reduce => if pa.isEmpty then [] else [0]
  | .bcast => if pa.contains (i.imm % 64) then List.range 64 else []
  | .perm => (List.range 64).filter (fun l => pa.contains (i.b.getD l 0 % 64) || pb.contains l)
  | .cvtmx => (List.range 64).filter (fun l =>
      if l < 16 then pa.any (fun p => decide (p / 32 = l / 8)) else l == 16 && !pa.isEmpty)
  | .scins => (List.range 64).filter (fun l => pc.contains l || pa.contains 16 &&
      (let j := i.imm % 64
       if testBit i.imm 6 then l == 2 * j / 4 else l == j / 4 || l == (64 + j) / 4))
  | .none => []

/-- Lane by lane in FP32. -/
def map1 (f : Nat → Nat) (i : VIn) : List Nat := i.a.map f
def map2 (f : Nat → Nat → Nat) (i : VIn) : List Nat := List.zipWith f i.a i.b
def map3 (f : Nat → Nat → Nat → Nat) (i : VIn) : List Nat :=
  (List.range 64).map (fun l => f (i.a.getD l 0) (i.b.getD l 0) (i.c.getD l 0))

/-- Both BF16 halves of a lane by one function of encodings (R316). -/
def halves1 (f : Nat → Nat) (x : Nat) : Nat := f (x % 2 ^ 16) + f (x / 2 ^ 16) * 2 ^ 16
def halves2 (f : Nat → Nat → Nat) (x y : Nat) : Nat := f (x % 2 ^ 16) (y % 2 ^ 16) + f (x / 2 ^ 16) (y / 2 ^ 16) * 2 ^ 16
def halves3 (f : Nat → Nat → Nat → Nat) (x y z : Nat) : Nat :=
  f (x % 2 ^ 16) (y % 2 ^ 16) (z % 2 ^ 16) + f (x / 2 ^ 16) (y / 2 ^ 16) (z / 2 ^ 16) * 2 ^ 16

/-- A binary operation on values, in FP32 lanes or BF16 halves, rounded once (R316). -/
def fpBin (g : FVal → FVal → FVal) (i : VIn) : List Nat :=
  let f (t : FFmt) (x y : Nat) : Nat := t.encode (g (t.decode x) (t.decode y))
  if i.half then map2 (halves2 (f .bf16)) i else map2 (f .fp32) i

/-- An operation that FP32 gives to a stated accuracy, in FP32 lanes or, rounded to BF16, in BF16 halves. -/
def fpUn (g : Nat → Nat) (i : VIn) : List Nat :=
  if i.half then map1 (halves1 (fun x => FFmt.fp32.convert .bf16 (g (FFmt.bf16.convert .fp32 x)))) i else map1 g i

/-- A comparison: all ones where true. -/
def fpCmp (g : FVal → FVal → Bool) (i : VIn) : List Nat :=
  if i.half then map2 (halves2 (fun x y => if g (FFmt.bf16.decode x) (FFmt.bf16.decode y) then 0xFFFF else 0)) i
  else map2 (fun x y => if g (FFmt.fp32.decode x) (FFmt.fp32.decode y) then 0xFFFFFFFF else 0) i

/-- NaN and infinite results, counted in VU_SPECIAL. -/
def specials (half : Bool) (l : List Nat) : Nat × Nat :=
  let vs := if half then (l.map (fun x => [FFmt.bf16.decode (x % 2 ^ 16), FFmt.bf16.decode (x / 2 ^ 16)])).flatten
    else l.map FFmt.fp32.decode
  ((vs.filter (fun v => v == .nan)).length, (vs.filter (fun v => match v with | .inf _ => true | _ => false)).length)

/-- A disagreement of the checker lane or of the reduction trees is a check failure (R317). -/
def State.vectorFail (s : State) (c : CoreRef) (code lane : Nat) : State :=
  let i := c.core
  let s1 := if lane = 64 then s.bumpF c.die .vuFail_tree i else s.bumpF c.die .vuFail_lane i
  let s2 := if s1.getF c.die .vuFailLast_valid i = 1 then s1
    else ((s1.setF c.die .vuFailLast_lane (lane % 64) i).setF c.die .vuFailLast_op code i).setF c.die .vuFailLast_valid 1 i
  (s2.setF c.die .vuStatus_chk_fail 1 i).checkFail c.die i

/-- Perform the operation of the bundle's vector slot if its code is `code`: the result is written after the latency, its marked
lanes follow, special results are counted for a floating-point operation, and the checker lane compares (R316, R317). -/
def State.vectorOp (s : State) (v : VOp) (code latency : Nat) (fp : Bool) (k : Spread) (f : VIn → List Nat) : Result State :=
  s.inBundle v.core (fun t =>
    let w := t.slotWord v.core 2
    if bits w 0 6 ≠ code then .next s
    else
      let d := v.core.die
      let c := v.core.core
      let x := t.core d c
      let i : VIn := ⟨x.vreg (bits w 10 4), x.vreg (bits w 14 4), x.vreg (bits w 18 4), testBit w 22, bits w 48 16⟩
      let r := f i
      let marks := k.marks i (x.vmarks (bits w 10 4)) (x.vmarks (bits w 14 4)) (x.vmarks (bits w 18 4))
      let t1 := t.addFrame d .vuOps_ops 1024 1 c
      let sp := specials (i.half && decide (code ≤ 0x12)) r
      let t2 := if fp then (t1.bumpF d .vuSpecial_nan c 0 sp.1).bumpF d .vuSpecial_inf c 0 sp.2 else t1
      match v.fault with
      | some l =>
        if l = v.core.cyc % 64 ∨ (l = 64 ∧ (code = 0x13 ∨ code = 0x14)) then .next (t2.vectorFail v.core code l)
        else t2.sendResult v.core ⟨v.core.cyc + latency, bits w 6 4, r.map Word.ofNat, marks⟩
      | none => t2.sendResult v.core ⟨v.core.cyc + latency, bits w 6 4, r.map Word.ofNat, marks⟩)

/-- ADD: a + b. -/
def execAdd (v : VOp) (s : State) : Result State := s.vectorOp v 0x01 2 true (.lanes true false) (fpBin FVal.add)

/-- SUB: a − b. -/
def execSub (v : VOp) (s : State) : Result State :=
  s.vectorOp v 0x02 2 true (.lanes true false) (fpBin (fun x y => x.add y.negate))

/-- MUL: a × b. -/
def execMul (v : VOp) (s : State) : Result State := s.vectorOp v 0x03 4 true (.lanes true false) (fpBin FVal.mul)

/-- FMA: a × b + c with one rounding. -/
def execFma (v : VOp) (s : State) : Result State :=
  s.vectorOp v 0x04 4 true (.lanes true true) (fun i =>
    let f (t : FFmt) (x y z : Nat) : Nat := t.encode (((t.decode x).mul (t.decode y)).add (t.decode z))
    if i.half then map3 (halves3 (f .bf16)) i else map3 (f .fp32) i)

/-- MAX: the larger of a and b. -/
def execMax (v : VOp) (s : State) : Result State := s.vectorOp v 0x05 2 true (.lanes true false) (fpBin FVal.max)

/-- MIN: the smaller of a and b. -/
def execMin (v : VOp) (s : State) : Result State := s.vectorOp v 0x06 2 true (.lanes true false) (fpBin FVal.min)

/-- An encoding of format t with its sign replaced by `g` of it; a NaN is canonical (R322). -/
def withSign (t : FFmt) (g : Bool → Bool) (x : Nat) : Nat :=
  match t.decode x with
  | .nan => t.nan
  | _ => x % t.sign + (if g (testBit x (t.eb + t.mb)) then t.sign else 0)

/-- ABS: the sign of each lane cleared. -/
def execAbs (v : VOp) (s : State) : Result State :=
  s.vectorOp v 0x07 2 true (.lanes false false) (fun i =>
    if i.half then map1 (halves1 (withSign .bf16 (fun _ => false))) i else map1 (withSign .fp32 (fun _ => false)) i)

/-- NEG: the sign of each lane inverted. -/
def execNeg (v : VOp) (s : State) : Result State :=
  s.vectorOp v 0x08 2 true (.lanes false false) (fun i =>
    if i.half then map1 (halves1 (withSign .bf16 not)) i else map1 (withSign .fp32 not) i)

/-- CMPLT: all ones where a < b. -/
def execCmplt (v : VOp) (s : State) : Result State := s.vectorOp v 0x09 2 false (.lanes true false) (fpCmp FVal.lt)

/-- CMPEQ: all ones where a = b. -/
def execCmpeq (v : VOp) (s : State) : Result State := s.vectorOp v 0x0A 2 false (.lanes true false) (fpCmp FVal.eqv)

/-- SEL: a where c is not zero, else b. -/
def execSel (v : VOp) (s : State) : Result State :=
  s.vectorOp v 0x0B 2 false (.lanes true true) (fun i =>
    let f (x y z : Nat) : Nat := if z ≠ 0 then x else y
    if i.half then map3 (halves3 f) i else map3 f i)

/-- RCP: 1 ÷ a. -/
def execRcp (v : VOp) (s : State) : Result State := s.vectorOp v 0x0C 6 true (.lanes false false) (fpUn f32rcp)

/-- RSQRT: 1 ÷ √a. -/
def execRsqrt (v : VOp) (s : State) : Result State := s.vectorOp v 0x0D 6 true (.lanes false false) (fpUn f32rsqrt)

/-- SQRT: √a. -/
def execSqrt (v : VOp) (s : State) : Result State := s.vectorOp v 0x0E 6 true (.lanes false false) (fpUn f32sqrt)

/-- EXP2: 2^a. -/
def execExp2 (v : VOp) (s : State) : Result State := s.vectorOp v 0x0F 8 true (.lanes false false) (fpUn f32exp2)

/-- LOG2: log₂ a. -/
def execLog2 (v : VOp) (s : State) : Result State := s.vectorOp v 0x10 8 true (.lanes false false) (fpUn f32log2)

/-- TANH: tanh a. -/
def execTanh (v : VOp) (s : State) : Result State := s.vectorOp v 0x11 8 true (.lanes false false) (fpUn f32tanh)

/-- SIGMOID: 1 ÷ (1 + e^−a). -/
def execSigmoid (v : VOp) (s : State) : Result State := s.vectorOp v 0x12 8 true (.lanes false false) (fpUn f32sigmoid)

/-- Adjacent pairs of a list combined. -/
def pairUp (f : Nat → Nat → Nat) : List Nat → List Nat
  | x :: y :: l => f x y :: pairUp f l
  | l => l

/-- The fixed tree of six levels (R338). -/
def tree6 (f : Nat → Nat → Nat) (l : List Nat) : Nat :=
  (pairUp f (pairUp f (pairUp f (pairUp f (pairUp f (pairUp f l)))))).headD 0

/-- A value in lane 0 and zero in the others. -/
def lane0 (x : Nat) : List Nat := x :: List.replicate 63 0

/-- RSUM: the lanes of a added by the tree of R338. -/
def execRsum (v : VOp) (s : State) : Result State :=
  s.vectorOp v 0x13 6 true .reduce (fun i => lane0 (tree6 f32add i.a))

/-- RMAX: the largest lane of a (R339). -/
def execRmax (v : VOp) (s : State) : Result State :=
  s.vectorOp v 0x14 6 true .reduce (fun i =>
    lane0 (tree6 (fun x y => FFmt.fp32.encode (FVal.max (FFmt.fp32.decode x) (FFmt.fp32.decode y))) i.a))

/-- BCAST: lane imm[5:0] of a in every lane. -/
def execBcast (v : VOp) (s : State) : Result State :=
  s.vectorOp v 0x15 2 false .bcast (fun i => List.replicate 64 (i.a.getD (i.imm % 64) 0))

/-- PERM: lane b[ℓ] mod 64 of a. -/
def execPerm (v : VOp) (s : State) : Result State :=
  s.vectorOp v 0x16 2 false .perm (fun i => i.b.map (fun y => i.a.getD (y % 64) 0))

/-- MOVI: imm × 2^16 in every lane. -/
def execMovi (v : VOp) (s : State) : Result State :=
  s.vectorOp v 0x17 2 false .none (fun i => List.replicate 64 (i.imm * 2 ^ 16))

/-- FP32 pairs packed into the 16-bit elements of a lane. -/
def pack2 (t : FFmt) (i : VIn) : List Nat := map2 (fun x y => FFmt.fp32.convert t x + FFmt.fp32.convert t y * 2 ^ 16) i

/-- 16-bit element 2ℓ + imm[0] of each lane widened. -/
def unpack2 (t : FFmt) (i : VIn) : List Nat :=
  map1 (fun x => t.convert .fp32 (if testBit i.imm 0 then x / 2 ^ 16 else x % 2 ^ 16)) i

/-- PACKBF. -/
def execPackbf (v : VOp) (s : State) : Result State := s.vectorOp v 0x18 4 false (.lanes true false) (pack2 .bf16)

/-- UNPKBF. -/
def execUnpkbf (v : VOp) (s : State) : Result State := s.vectorOp v 0x19 4 false (.lanes false false) (unpack2 .bf16)

/-- PACKH. -/
def execPackh (v : VOp) (s : State) : Result State := s.vectorOp v 0x1A 4 false (.lanes true false) (pack2 .fp16)

/-- UNPKH. -/
def execUnpkh (v : VOp) (s : State) : Result State := s.vectorOp v 0x1B 4 false (.lanes false false) (unpack2 .fp16)

/-- 256 bytes as 64 lanes. -/
def bytesToLanes (l : List Nat) : List Nat :=
  (List.range 64).map (fun k => l.getD (4 * k) 0 + l.getD (4 * k + 1) 0 * 256 + l.getD (4 * k + 2) 0 * 2 ^ 16 +
    l.getD (4 * k + 3) 0 * 2 ^ 24)

/-- The bytes of 64 lanes. -/
def lanesToBytes (l : List Nat) : List Nat := (l.map (fun x => [bits x 0 8, bits x 8 8, bits x 16 8, bits x 24 8])).flatten

/-- CVTMX: the lanes of a as two MX blocks with their scales (R332–R336).  A format other than those named is reserved: an error of
the host's own making. -/
def execCvtmx (v : VOp) (s : State) : Result State :=
  let f := match s.atCycle v.core with
    | .here t => if bits (t.slotWord v.core 2) 0 6 = 0x1C then bits (t.slotWord v.core 2) 48 4 else 4
    | _ => 4
  if f = 4 ∨ f = 5 ∨ f = 9 then
    s.vectorOp v 0x1C 6 false .cvtmx (fun i =>
      let p := mxQuantise (i.imm % 16) (i.a.take 32)
      let q := mxQuantise (i.imm % 16) (i.a.drop 32)
      bytesToLanes (p.2 ++ q.2 ++ [p.1, q.1]))
  else
    match s.atCycle v.core with
    | .here t => t.coreErr v.core 316
    | _ => .next s

/-- SCINS: c with the scale bytes of a CVTMX result put at byte j and 64 + j, or 2j and 2j + 1. -/
def execScins (v : VOp) (s : State) : Result State :=
  s.vectorOp v 0x1D 2 false .scins (fun i =>
    let j := i.imm % 64
    let a := lanesToBytes i.a
    let (p, q) := if testBit i.imm 6 then (2 * j, 2 * j + 1) else (j, 64 + j)
    bytesToLanes (((lanesToBytes i.c).set p (a.getD 64 0)).set q (a.getD 65 0)))

/-- IADD. -/
def execIadd (v : VOp) (s : State) : Result State :=
  s.vectorOp v 0x20 2 false (.lanes true false) (map2 (fun x y => (x + y) % 2 ^ 32))

/-- ISUB. -/
def execIsub (v : VOp) (s : State) : Result State :=
  s.vectorOp v 0x21 2 false (.lanes true false) (map2 (fun x y => (x + 2 ^ 32 - y) % 2 ^ 32))

/-- IMUL: the low 32 bits. -/
def execImul (v : VOp) (s : State) : Result State :=
  s.vectorOp v 0x22 4 false (.lanes true false) (map2 (fun x y => x * y % 2 ^ 32))

/-- SHL: left by b mod 32. -/
def execShl (v : VOp) (s : State) : Result State :=
  s.vectorOp v 0x23 2 false (.lanes true false) (map2 (fun x y => x * 2 ^ (y % 32) % 2 ^ 32))

/-- SHRA: arithmetic right by b mod 32. -/
def execShra (v : VOp) (s : State) : Result State :=
  s.vectorOp v 0x24 2 false (.lanes true false) (map2 (fun x y => ((signed 32 x / 2 ^ (y % 32)) % 2 ^ 32).toNat))

/-- SHRL: logical right by b mod 32. -/
def execShrl (v : VOp) (s : State) : Result State :=
  s.vectorOp v 0x25 2 false (.lanes true false) (map2 (fun x y => x / 2 ^ (y % 32)))

/-- AND. -/
def execVand (v : VOp) (s : State) : Result State :=
  s.vectorOp v 0x26 2 false (.lanes true false) (map2 (fun x y => Nat.land x y))

/-- OR. -/
def execVor (v : VOp) (s : State) : Result State :=
  s.vectorOp v 0x27 2 false (.lanes true false) (map2 (fun x y => Nat.lor x y))

/-- XOR. -/
def execVxor (v : VOp) (s : State) : Result State :=
  s.vectorOp v 0x28 2 false (.lanes true false) (map2 (fun x y => Nat.xor x y))

/-- IMIN, signed. -/
def execImin (v : VOp) (s : State) : Result State :=
  s.vectorOp v 0x29 2 false (.lanes true false) (map2 (fun x y => if signed 32 y < signed 32 x then y else x))

/-- IMAX, signed. -/
def execImax (v : VOp) (s : State) : Result State :=
  s.vectorOp v 0x2A 2 false (.lanes true false) (map2 (fun x y => if signed 32 x < signed 32 y then y else x))

/-- ICMPLT, signed: all ones where a < b. -/
def execIcmplt (v : VOp) (s : State) : Result State :=
  s.vectorOp v 0x2B 2 false (.lanes true false) (map2 (fun x y => if signed 32 x < signed 32 y then 0xFFFFFFFF else 0))

/-- CVTIF: FP32 of INT32 a. -/
def execCvtif (v : VOp) (s : State) : Result State :=
  s.vectorOp v 0x2C 4 false (.lanes false false) (map1 (fun x => f32ofInt (signed 32 x)))

/-- CVTFI: INT32 of a, ties to even, saturating; NaN gives 0. -/
def execCvtfi (v : VOp) (s : State) : Result State :=
  s.vectorOp v 0x2D 4 false (.lanes false false) (map1 f32toInt32)

/-- IOTA: ℓ + imm. -/
def execIota (v : VOp) (s : State) : Result State :=
  s.vectorOp v 0x2E 2 false .none (fun i => (List.range 64).map (fun l => l + i.imm))

end Sys2Proof.Machine
end

