-- ==== Sys2Proof/Machine/Dispatch.lean ====
section
/-! DEFINITION. The dispatch of a command to its meaning: one arm for each row of the table of operations and events. -/

namespace Sys2Proof.Machine

open Sys2Proof

/-- What a command does to everything but the queue. -/
def exec (i : Instr) (s : State) : Host.Outcome State Fault Refusal :=
  match i with
  | .registerWrite who addr v width => Sys2Proof.Machine.execRegisterWrite who addr v width s
  | .regLoRead who addr => Sys2Proof.Machine.execRegLoRead who addr s
  | .regHiRead who addr => Sys2Proof.Machine.execRegHiRead who addr s
  | .regLoWrite who addr v => Sys2Proof.Machine.execRegLoWrite who addr v s
  | .regHiWrite who addr v => Sys2Proof.Machine.execRegHiWrite who addr v s
  | .cosyMailboxRead addr => Sys2Proof.Machine.execCosyMailboxRead addr s
  | .ingressBufferWrite addr data => Sys2Proof.Machine.execIngressBufferWrite addr data s
  | .linkRetrain l halfTrains => Sys2Proof.Machine.execLinkRetrain l halfTrains s
  | .cosyLinkTrain => Sys2Proof.Machine.execCosyLinkTrain s
  | .powerGood slotId => Sys2Proof.Machine.execPowerGood slotId s
  | .hubSelftestDone failed => Sys2Proof.Machine.execHubSelftestDone failed s
  | .cosySelftestReport => Sys2Proof.Machine.execCosySelftestReport s
  | .cosyResultTimeout => Sys2Proof.Machine.execCosyResultTimeout s
  | .ufsLinkUp readErrA readErrB answers sealedOk => Sys2Proof.Machine.execUfsLinkUp readErrA readErrB answers sealedOk s
  | .cdieSelftestDone die faults => Sys2Proof.Machine.execCdieSelftestDone die faults s
  | .sectionHashed k => Sys2Proof.Machine.execSectionHashed k s
  | .firmwareRunning => Sys2Proof.Machine.execFirmwareRunning s
  | .rollbackBurnStep => Sys2Proof.Machine.execRollbackBurnStep s
  | .upload slot off data => Sys2Proof.Machine.execUpload slot off data s
  | .commit => Sys2Proof.Machine.execCommit s
  | .commitReadbackDone readErr => Sys2Proof.Machine.execCommitReadbackDone readErr s
  | .holdingColdStart => Sys2Proof.Machine.execHoldingColdStart s
  | .cosyPowerGood selfTest => Sys2Proof.Machine.execCosyPowerGood selfTest s
  | .cosyImage off data => Sys2Proof.Machine.execCosyImage off data s
  | .bootReqWarm who => Sys2Proof.Machine.execBootReqWarm who s
  | .bootReqCold who alsoWarm => Sys2Proof.Machine.execBootReqCold who alsoWarm s
  | .dieRestart die => Sys2Proof.Machine.execDieRestart die s
  | .dieRejoin die => Sys2Proof.Machine.execDieRejoin die s
  | .dieRestartEscalate die => Sys2Proof.Machine.execDieRestartEscalate die s
  | .warmRestart => Sys2Proof.Machine.execWarmRestart s
  | .warmRejoin => Sys2Proof.Machine.execWarmRejoin s
  | .warmRestartTimeout => Sys2Proof.Machine.execWarmRestartTimeout s
  | .rehashComplete die => Sys2Proof.Machine.execRehashComplete die s
  | .numberingMark => Sys2Proof.Machine.execNumberingMark s
  | .frameStart => Sys2Proof.Machine.execFrameStart s
  | .frameStartEffect die => Sys2Proof.Machine.execFrameStartEffect die s
  | .heldStartEffect die => Sys2Proof.Machine.execHeldStartEffect die s
  | .cameraTrigger ctx => Sys2Proof.Machine.execCameraTrigger ctx s
  | .frameTriggerOffset die node frame => Sys2Proof.Machine.execFrameTriggerOffset die node frame s
  | .completionNotice src dst => Sys2Proof.Machine.execCompletionNotice src dst s
  | .ingressWindowOpen die node frame => Sys2Proof.Machine.execIngressWindowOpen die node frame s
  | .winClose die node frame => Sys2Proof.Machine.execWinClose die node frame s
  | .variantLoad die => Sys2Proof.Machine.execVariantLoad die s
  | .shadowRefresh die => Sys2Proof.Machine.execShadowRefresh die s
  | .slotGrant die => Sys2Proof.Machine.execSlotGrant die s
  | .dispatch die unit => Sys2Proof.Machine.execDispatch die unit s
  | .unitEndReport die unit e => Sys2Proof.Machine.execUnitEndReport die unit e s
  | .completionRecordWrite die slot => Sys2Proof.Machine.execCompletionRecordWrite die slot s
  | .queueRetry die queue => Sys2Proof.Machine.execQueueRetry die queue s
  | .dspPush who die list => Sys2Proof.Machine.execDspPush who die list s
  | .dspCancelNode who die node => Sys2Proof.Machine.execDspCancelNode who die node s
  | .dspCancelSlot who die slot => Sys2Proof.Machine.execDspCancelSlot who die slot s
  | .dspQHeadWrite who die v => Sys2Proof.Machine.execDspQHeadWrite who die v s
  | .aphyLinkTrain link gear latency => Sys2Proof.Machine.execAphyLinkTrain link gear latency s
  | .csi2LongPacket link vc dt payload st => Sys2Proof.Machine.execCsi2LongPacket link vc dt payload st s
  | .csi2Fs link vc st => Sys2Proof.Machine.execCsi2Fs link vc st s
  | .csi2Fe link vc st => Sys2Proof.Machine.execCsi2Fe link vc st s
  | .acceptWindowClose ctx => Sys2Proof.Machine.execAcceptWindowClose ctx s
  | .pipeLineDone pos errs => Sys2Proof.Machine.execPipeLineDone pos errs s
  | .stripPost ctx die => Sys2Proof.Machine.execStripPost ctx die s
  | .dropFlagRaise ctx die => Sys2Proof.Machine.execDropFlagRaise ctx die s
  | .goldenLineStart pos => Sys2Proof.Machine.execGoldenLineStart pos s
  | .pipeHandover pos => Sys2Proof.Machine.execPipeHandover pos s
  | .handoverForced pos => Sys2Proof.Machine.execHandoverForced pos s
  | .ingI2cCmd who v => Sys2Proof.Machine.execIngI2cCmd who v s
  | .i2cComplete ok data => Sys2Proof.Machine.execI2cComplete ok data s
  | .pyrTask die inst => Sys2Proof.Machine.execPyrTask die inst s
  | .wrpMeshTask die inst => Sys2Proof.Machine.execWrpMeshTask die inst s
  | .wrpSamplerTask die inst => Sys2Proof.Machine.execWrpSamplerTask die inst s
  | .ftrDetectMatch die inst errs => Sys2Proof.Machine.execFtrDetectMatch die inst errs s
  | .ftrDetect die inst => Sys2Proof.Machine.execFtrDetect die inst s
  | .ftrReset die inst => Sys2Proof.Machine.execFtrReset die inst s
  | .ftrDump die inst => Sys2Proof.Machine.execFtrDump die inst s
  | .ftrTrackSelWrite who die inst v => Sys2Proof.Machine.execFtrTrackSelWrite who die inst v s
  | .ftrTrackDataRead who die inst => Sys2Proof.Machine.execFtrTrackDataRead who die inst s
  | .flwTask die inst => Sys2Proof.Machine.execFlwTask die inst s
  | .steSgm die inst => Sys2Proof.Machine.execSteSgm die inst s
  | .steTestFill die inst => Sys2Proof.Machine.execSteTestFill die inst s
  | .remoteRequest die core req => Sys2Proof.Machine.execRemoteRequest die core req s
  | .remoteAccess die core => Sys2Proof.Machine.execRemoteAccess die core s
  | .spdPatrol die core obs => Sys2Proof.Machine.execSpdPatrol die core obs s
  | .cmnPatrol die bank obs => Sys2Proof.Machine.execCmnPatrol die bank obs s
  | .flagAdd src die flag v flagErr => Sys2Proof.Machine.execFlagAdd src die flag v flagErr s
  | .flagSet src die flag v flagErr => Sys2Proof.Machine.execFlagSet src die flag v flagErr s
  | .watchArrive src dst => Sys2Proof.Machine.execWatchArrive src dst s
  | .watchMetNotice src dst => Sys2Proof.Machine.execWatchMetNotice src dst s
  | .watchRetry src dst => Sys2Proof.Machine.execWatchRetry src dst s
  | .watchWithdraw src dst slot => Sys2Proof.Machine.execWatchWithdraw src dst slot s
  | .restartTaggedAccess die addr wr => Sys2Proof.Machine.execRestartTaggedAccess die addr wr s
  | .gset c => Sys2Proof.Machine.execGset c s
  | .st c => Sys2Proof.Machine.execSt c s
  | .lda c => Sys2Proof.Machine.execLda c s
  | .ldb c => Sys2Proof.Machine.execLdb c s
  | .run c => Sys2Proof.Machine.execRun c s
  | .blockClose c dev fault => Sys2Proof.Machine.execBlockClose c dev fault s
  | .store c fault => Sys2Proof.Machine.execStore c fault s
  | .accin c => Sys2Proof.Machine.execAccin c s
  | .loop c => Sys2Proof.Machine.execLoop c s
  | .endBundle c => Sys2Proof.Machine.execEndBundle c s
  | .vectorLoad c port => Sys2Proof.Machine.execVectorLoad c port s
  | .vectorStore c => Sys2Proof.Machine.execVectorStore c s
  | .add v => Sys2Proof.Machine.execAdd v s
  | .sub v => Sys2Proof.Machine.execSub v s
  | .mul v => Sys2Proof.Machine.execMul v s
  | .fma v => Sys2Proof.Machine.execFma v s
  | .max v => Sys2Proof.Machine.execMax v s
  | .min v => Sys2Proof.Machine.execMin v s
  | .abs v => Sys2Proof.Machine.execAbs v s
  | .neg v => Sys2Proof.Machine.execNeg v s
  | .cmplt v => Sys2Proof.Machine.execCmplt v s
  | .cmpeq v => Sys2Proof.Machine.execCmpeq v s
  | .sel v => Sys2Proof.Machine.execSel v s
  | .rcp v => Sys2Proof.Machine.execRcp v s
  | .rsqrt v => Sys2Proof.Machine.execRsqrt v s
  | .sqrt v => Sys2Proof.Machine.execSqrt v s
  | .exp2 v => Sys2Proof.Machine.execExp2 v s
  | .log2 v => Sys2Proof.Machine.execLog2 v s
  | .tanh v => Sys2Proof.Machine.execTanh v s
  | .sigmoid v => Sys2Proof.Machine.execSigmoid v s
  | .rsum v => Sys2Proof.Machine.execRsum v s
  | .rmax v => Sys2Proof.Machine.execRmax v s
  | .bcast v => Sys2Proof.Machine.execBcast v s
  | .perm v => Sys2Proof.Machine.execPerm v s
  | .movi v => Sys2Proof.Machine.execMovi v s
  | .packbf v => Sys2Proof.Machine.execPackbf v s
  | .unpkbf v => Sys2Proof.Machine.execUnpkbf v s
  | .packh v => Sys2Proof.Machine.execPackh v s
  | .unpkh v => Sys2Proof.Machine.execUnpkh v s
  | .cvtmx v => Sys2Proof.Machine.execCvtmx v s
  | .scins v => Sys2Proof.Machine.execScins v s
  | .iadd v => Sys2Proof.Machine.execIadd v s
  | .isub v => Sys2Proof.Machine.execIsub v s
  | .imul v => Sys2Proof.Machine.execImul v s
  | .shl v => Sys2Proof.Machine.execShl v s
  | .shra v => Sys2Proof.Machine.execShra v s
  | .shrl v => Sys2Proof.Machine.execShrl v s
  | .vand v => Sys2Proof.Machine.execVand v s
  | .vor v => Sys2Proof.Machine.execVor v s
  | .vxor v => Sys2Proof.Machine.execVxor v s
  | .imin v => Sys2Proof.Machine.execImin v s
  | .imax v => Sys2Proof.Machine.execImax v s
  | .icmplt v => Sys2Proof.Machine.execIcmplt v s
  | .cvtif v => Sys2Proof.Machine.execCvtif v s
  | .cvtfi v => Sys2Proof.Machine.execCvtfi v s
  | .iota v => Sys2Proof.Machine.execIota v s
  | .dmaDoorbell who die eng ch => Sys2Proof.Machine.execDmaDoorbell who die eng ch s
  | .copy ch => Sys2Proof.Machine.execCopy ch s
  | .linear ch => Sys2Proof.Machine.execLinear ch s
  | .fill ch => Sys2Proof.Machine.execFill ch s
  | .gather ch => Sys2Proof.Machine.execGather ch s
  | .scatter ch => Sys2Proof.Machine.execScatter ch s
  | .scatterAdd ch => Sys2Proof.Machine.execScatterAdd ch s
  | .dmaFlagOp ch => Sys2Proof.Machine.execDmaFlagOp ch s
  | .jump ch => Sys2Proof.Machine.execJump ch s
  | .pop ch => Sys2Proof.Machine.execPop ch s
  | .dmaNorespTimeout ch addr offset mask => Sys2Proof.Machine.execDmaNorespTimeout ch addr offset mask s
  | .dmaPause who ch offset mask => Sys2Proof.Machine.execDmaPause who ch offset mask s
  | .dmaResume who ch => Sys2Proof.Machine.execDmaResume who ch s
  | .dmaRetry who ch => Sys2Proof.Machine.execDmaRetry who ch s
  | .dmaSkip who ch => Sys2Proof.Machine.execDmaSkip who ch s
  | .dmaRequestMismatch ch offset mask => Sys2Proof.Machine.execDmaRequestMismatch ch offset mask s
  | .hungUnit die unit => Sys2Proof.Machine.execHungUnit die unit s
  | .relayTask die => Sys2Proof.Machine.execRelayTask die s
  | .relayPathTake die dir => Sys2Proof.Machine.execRelayPathTake die dir s
  | .relayData die dir => Sys2Proof.Machine.execRelayData die dir s
  | .relayFlagEntry die dir => Sys2Proof.Machine.execRelayFlagEntry die dir s
  | .relayCommit die dir => Sys2Proof.Machine.execRelayCommit die dir s
  | .relayResync die dir => Sys2Proof.Machine.execRelayResync die dir s
  | .relayAck die => Sys2Proof.Machine.execRelayAck die s
  | .forwardRetry die dir => Sys2Proof.Machine.execForwardRetry die dir s
  | .flitIdle port h => Sys2Proof.Machine.execFlitIdle port h s
  | .flitHead port h entry => Sys2Proof.Machine.execFlitHead port h entry s
  | .flitData port h data marks => Sys2Proof.Machine.execFlitData port h data marks s
  | .flitDelivered port h => Sys2Proof.Machine.execFlitDelivered port h s
  | .flitWatch port h die flag value => Sys2Proof.Machine.execFlitWatch port h die flag value s
  | .flitMet port h => Sys2Proof.Machine.execFlitMet port h s
  | .flitNak port h => Sys2Proof.Machine.execFlitNak port h s
  | .flitIdent port h id => Sys2Proof.Machine.execFlitIdent port h id s
  | .flitCensus port h list second => Sys2Proof.Machine.execFlitCensus port h list second s
  | .flitBreak port h epoch => Sys2Proof.Machine.execFlitBreak port h epoch s
  | .ringBreak => Sys2Proof.Machine.execRingBreak s
  | .relayLaneFail port lane => Sys2Proof.Machine.execRelayLaneFail port lane s
  | .relayPortSilent port => Sys2Proof.Machine.execRelayPortSilent port s
  | .relayPortTrainTimeout port => Sys2Proof.Machine.execRelayPortTrainTimeout port s
  | .dramRead die addr obs => Sys2Proof.Machine.execDramRead die addr obs s
  | .dramWrite die addr data poison => Sys2Proof.Machine.execDramWrite die addr data poison s
  | .dramMerge die addr m => Sys2Proof.Machine.execDramMerge die addr m s
  | .dramPatrol die ctl obs => Sys2Proof.Machine.execDramPatrol die ctl obs s
  | .dramRetire die ctl => Sys2Proof.Machine.execDramRetire die ctl s
  | .dramRefresh die ctl => Sys2Proof.Machine.execDramRefresh die ctl s
  | .dramTempRead die ctl temp => Sys2Proof.Machine.execDramTempRead die ctl temp s
  | .calibrationDue die ctl => Sys2Proof.Machine.execCalibrationDue die ctl s
  | .quietWindowOpen die ctl win pass => Sys2Proof.Machine.execQuietWindowOpen die ctl win pass s
  | .calibrationForced die ctl stallNs pass => Sys2Proof.Machine.execCalibrationForced die ctl stallNs pass s
  | .selfRefreshEnter die ctl => Sys2Proof.Machine.execSelfRefreshEnter die ctl s
  | .selfRefreshExit die ctl pass => Sys2Proof.Machine.execSelfRefreshExit die ctl pass s
  | .hostPortLink port up => Sys2Proof.Machine.execHostPortLink port up s
  | .gateCycleStart port => Sys2Proof.Machine.execGateCycleStart port s
  | .outputAccept die node frame payload poisoned => Sys2Proof.Machine.execOutputAccept die node frame payload poisoned s
  | .fragmentSend stream => Sys2Proof.Machine.execFragmentSend stream s
  | .gptpSync port offset => Sys2Proof.Machine.execGptpSync port offset s
  | .syncTimeout => Sys2Proof.Machine.execSyncTimeout s
  | .ingressFrame port f => Sys2Proof.Machine.execIngressFrame port f s
  | .reassemblyTimeout stream => Sys2Proof.Machine.execReassemblyTimeout stream s
  | .ingressHoldRetry die ring => Sys2Proof.Machine.execIngressHoldRetry die ring s
  | .cbReset stream => Sys2Proof.Machine.execCbReset stream s
  | .modeRequest stream payload => Sys2Proof.Machine.execModeRequest stream payload s
  | .tsnWallLoRead who => Sys2Proof.Machine.execTsnWallLoRead who s
  | .tsnTimeRead who => Sys2Proof.Machine.execTsnTimeRead who s
  | .doubtLatch d => Sys2Proof.Machine.execDoubtLatch d s
  | .streamDeadline stream => Sys2Proof.Machine.execStreamDeadline stream s
  | .cosyMessage m => Sys2Proof.Machine.execCosyMessage m s
  | .diversityVerdict pair frame => Sys2Proof.Machine.execDiversityVerdict pair frame s
  | .hubLockstepFail => Sys2Proof.Machine.execHubLockstepFail s
  | .rotationStep die group => Sys2Proof.Machine.execRotationStep die group s
  | .sliceDone die unit r => Sys2Proof.Machine.execSliceDone die unit r s
  | .segmentStart die unit => Sys2Proof.Machine.execSegmentStart die unit s
  | .segmentDone die unit r => Sys2Proof.Machine.execSegmentDone die unit r s
  | .coverageExpiry die unit => Sys2Proof.Machine.execCoverageExpiry die unit s
  | .suspectClear die unit => Sys2Proof.Machine.execSuspectClear die unit s
  | .rowRepair die => Sys2Proof.Machine.execRowRepair die s
  | .repairRecordWrite => Sys2Proof.Machine.execRepairRecordWrite s
  | .checkerTest die k pass => Sys2Proof.Machine.execCheckerTest die k pass s
  | .eventArrive e => Sys2Proof.Machine.execEventArrive e s
  | .accumulatorClose code => Sys2Proof.Machine.execAccumulatorClose code s
  | .evrRaiseCode who priv code => Sys2Proof.Machine.execEvrRaiseCode who priv code s
  | .evrFreezeSet who => Sys2Proof.Machine.execEvrFreezeSet who s
  | .evrFreezeClear who => Sys2Proof.Machine.execEvrFreezeClear who s
  | .evrFreezeExpire => Sys2Proof.Machine.execEvrFreezeExpire s
  | .logPersist ok => Sys2Proof.Machine.execLogPersist ok s
  | .openSession role key nonce => Sys2Proof.Machine.execOpenSession role key nonce s
  | .prove sig => Sys2Proof.Machine.execProve sig s
  | .close => Sys2Proof.Machine.execClose s
  | .sessionTimeout => Sys2Proof.Machine.execSessionTimeout s
  | .authLockoutEnd => Sys2Proof.Machine.execAuthLockoutEnd s
  | .attest nonce => Sys2Proof.Machine.execAttest nonce s
  | .attestSigned => Sys2Proof.Machine.execAttestSigned s
  | .regRead addr count => Sys2Proof.Machine.execRegRead addr count s
  | .regWrite addr words => Sys2Proof.Machine.execRegWrite addr words s
  | .logRead off len => Sys2Proof.Machine.execLogRead off len s
  | .cakSet keys => Sys2Proof.Machine.execCakSet keys s
  | .provision powerLost => Sys2Proof.Machine.execProvision powerLost s
  | .unlock token sig => Sys2Proof.Machine.execUnlock token sig s
  | .loaderWrite off data => Sys2Proof.Machine.execLoaderWrite off data s
  | .scrap => Sys2Proof.Machine.execScrap s
  | .otpReread field agrees => Sys2Proof.Machine.execOtpReread field agrees s
  | .securityKat which pass => Sys2Proof.Machine.execSecurityKat which pass s
  | .trngSample pass => Sys2Proof.Machine.execTrngSample pass s
  | .bladeContact => Sys2Proof.Machine.execBladeContact s
  | .inrushStart => Sys2Proof.Machine.execInrushStart s
  | .removalRequest => Sys2Proof.Machine.execRemovalRequest s
  | .inputOutOfRange cosyPath mv => Sys2Proof.Machine.execInputOutOfRange cosyPath mv s
  | .lowInputTick mv => Sys2Proof.Machine.execLowInputTick mv s
  | .powerWindow watts => Sys2Proof.Machine.execPowerWindow watts s
  | .phaseFail die group => Sys2Proof.Machine.execPhaseFail die group s
  | .domainSwitch die domain on => Sys2Proof.Machine.execDomainSwitch die domain on s
  | .clockCompare root0 root1 refs lossMain => Sys2Proof.Machine.execClockCompare root0 root1 refs lossMain s
  | .holdoverEnd => Sys2Proof.Machine.execHoldoverEnd s
  | .monitorTrip die m sensor reading => Sys2Proof.Machine.execMonitorTrip die m sensor reading s
  | .monitorTest die m pass => Sys2Proof.Machine.execMonitorTest die m pass s
  | .thermalCut die => Sys2Proof.Machine.execThermalCut die s
  | .modResetN level => Sys2Proof.Machine.execModResetN level s
  | .presentNMake => Sys2Proof.Machine.execPresentNMake s
  | .freezePin => Sys2Proof.Machine.execFreezePin s
  | .frzCtlFreeze who => Sys2Proof.Machine.execFrzCtlFreeze who s
  | .freeze => Sys2Proof.Machine.execFreeze s
  | .clockStop => Sys2Proof.Machine.execClockStop s
  | .readState => Sys2Proof.Machine.execReadState s
  | .readDram die first last => Sys2Proof.Machine.execReadDram die first last s
  | .resume => Sys2Proof.Machine.execResume s
  | .freezeStatus => Sys2Proof.Machine.execFreezeStatus s
  | .registerRead who addr width => Sys2Proof.Machine.execRegisterRead who addr width s
  | .censusTimeout => Sys2Proof.Machine.execCensusTimeout s
  | .cosyFrame streams wall => Sys2Proof.Machine.execCosyFrame streams wall s
  | .aphyLinkLost link backOnly => Sys2Proof.Machine.execAphyLinkLost link backOnly s
  | .tapAccess instr => Sys2Proof.Machine.execTapAccess instr s
  | .rootPllLock => Sys2Proof.Machine.execRootPllLock s
  | .loaderRunning => Sys2Proof.Machine.execLoaderRunning s

end Sys2Proof.Machine
end

