-- ==== Sys2Proof/Safety.lean ====
section
/-! DEFINITION. What counts as a safe run, in the terms the statements use: a command completes, memory and registers keep their
canonical forms, and the module's identity in OTP moves only forward. -/

namespace Sys2Proof.Machine

open Sys2Proof

/-- A byte memory in canonical form: addresses strictly rising, and no entry equal to what an unlisted address reads as (0, log
entry 5). -/
def Memory.wf (m : List Host.Cell) : Bool := Map.wf (0 : Byte) m

/-- A list of numbers strictly rising. -/
def rising : List Nat → Bool
  | [] => true
  | [_] => true
  | a :: b :: l => decide (a < b) && rising (b :: l)

/-- The module's memory and its poison marks are in canonical form. -/
def State.memOk (s : State) : Bool := Memory.wf s.mem && rising s.poison

/-- The command completes: it answers a next state. -/
def Completes (c : Instr) (s : State) : Prop := ∃ t, exec c s = .next t

/-- What one-time-programmable storage and the fitted part allow from one state to a later one: the part, the serial number and the
vendor's key hash stay, the integrator's key hash is written at most once, the lifecycle and the rollback counter only rise
(R43, R534, R535). -/
def OtpForward (s t : State) : Prop :=
  t.m2 = s.m2 ∧ t.sec.serial = s.sec.serial ∧ t.sec.vkey = s.sec.vkey ∧
    s.sec.lifecycle ≤ t.sec.lifecycle ∧ s.sec.counter ≤ t.sec.counter

/-- A cold start has begun between two states: step 1 of Table CDY-7 is done, the cold-start count is one up, no C-die runs, and of all memory
only the Cosy's mailbox keeps its bytes (R44, R61, R530). -/
def ColdStarted (s t : State) : Prop :=
  t.boot.step = 1 ∧ t.flash = { s.flash.counted with writing := some (4, 0) } ∧ (∀ d, t.dieUp d = false) ∧
    (∀ a off, s.region a = .mailbox off → t.byteAt a = s.byteAt a) ∧
    (∀ a, (∀ off, s.region a ≠ .mailbox off) → t.byteAt a = 0) ∧
    (∀ d f, t.flagVal d f = 0) ∧ t.cosy = s.cosy ∧ t.deviceTime = 0

/-- The module has answered with one session message of a type and a payload; its session id and number are free (log entry 32). -/
def Replied (s t : State) (type : Nat) (payload : List Byte) : Prop :=
  ∃ id sq, t.out = { s.out with replies := s.out.replies ++
    [toLE 2 type ++ toLE 2 0 ++ toLE 4 id ++ toLE 4 sq ++ toLE 4 payload.length ++ payload] }

/-- The answer ACCEPT. -/
def Accepted (s t : State) : Prop := Replied s t 4 (toLE 1 0)

/-- The answer REFUSE; its cause byte is free (log entry 32). -/
def Refused (s t : State) : Prop := ∃ c, Replied s t 4 (toLE 1 1 ++ toLE 1 c)

/-- A session is open, served and not frozen, in a role by number: 1 INTEGRATOR, 2 VENDOR, 0 NONE, 3 for an INTEGRATOR of a MANUFACTURED
module, who may only provision, and 4 for any role of a SCRAPPED one (R535, R537, R538, Table SEC-3). -/
def InSession (s : State) (x : Session) (role : Nat) : Prop :=
  s.served = true ∧ s.sec.session = some x ∧ s.frz.stopped = false ∧
    role = s.roleNow x

/-- A DMA channel starts a hardware-owned head descriptor of one operation that asks for no completion record and no flag, on a ring
that serves no task (R370, R377, R380). -/
def DmaReady (s : State) (c : ChanRef) (op : Nat) : Prop :=
  s.canStart c = true ∧ s.owned c = true ∧ (s.head c).op = op ∧ c.die < s.dies.length ∧ testBit (s.head c).flags 1 = false ∧
    testBit (s.head c).flags 2 = false ∧ Map.get [] (s.die c.die).seq.dmaOwners c.ring = []

/-- The state in which a channel has read its head descriptor (R380). -/
def State.withRead (s : State) (c : ChanRef) : State :=
  s.modDma c (fun y => { y with state := .active, pending := false, more := false, held := some (s.headBytes c) })

/-- Writes to `n` bytes of a die land: the die runs, and they lie in its commons, or in its DRAM, unlocked, under a controller that serves
(R397, R403, R415, R475). -/
def State.landsAt (s : State) (d a n : Nat) : Prop :=
  s.dieUp d = true ∧ ∀ i < n, (∃ o, s.region (a + i) = .commons d o) ∨
    ∃ o, s.region (a + i) = .dram d o ∧ (s.ctl d (dramCtl o)).failed = false ∧ (s.ctl d (dramCtl o)).selfRefresh = false ∧
      s.lockedAt (a + i) = false

/-- The 64 bytes of a ring's entry lie where their die can write them (R371). -/
def State.entryAt (s : State) (d a : Nat) : Prop := a % 64 = 0 ∧ s.landsAt d a 64

/-- Only the `n` bytes from an address have changed. -/
def OnlyAt (s t : State) (a n : Nat) : Prop := ∀ b, b < a ∨ a + n ≤ b → t.byteAt b = s.byteAt b

/-- A channel's head descriptor lies where its die can write it. -/
def State.ringOk (s : State) (c : ChanRef) : Prop := s.entryAt c.die (s.headAddr c)

/-- The place of the next entry of a ring. -/
def State.nextEntry (s : State) (d q : Nat) : Nat := (s.queue d q).addr (s.ringOf d q).prod

/-- The descriptor at an address has its completion codeword and is software-owned: its status, out-of-range count and time (R374, R377). -/
def DescDone (s t : State) (a status oor : Nat) : Prop :=
  testBit (t.byteAt (a + 1)).toNat 0 = false ∧ bits (t.byteAt (a + 0x30)).toNat 0 7 = status ∧ t.memLE (a + 0x32) 2 = cap 0xFFFF oor ∧
    t.memLE (a + 0x38) 8 = s.deviceTime % 2 ^ 64

/-- What a completion leaves of memory and flags: those of another state, but for the descriptor's owner byte and completion codeword. -/
def DescFrame (g t : State) (a : Nat) : Prop :=
  t.flags = g.flags ∧ ∀ b, b ≠ a + 1 → ¬ (a + 0x30 ≤ b ∧ b < a + 0x40) → t.byteAt b = g.byteAt b

/-- A channel has done with a descriptor and stands at another index of its ring; no other channel has moved (R377, R383). -/
def WentOn (s t : State) (c : ChanRef) (next : Nat) : Prop :=
  (t.dma c).state = .idle ∧ (t.dma c).index = next ∧ (t.dma c).offset = 0 ∧ (t.dma c).mask = 0 ∧ (t.dma c).noresp = false ∧
    (t.dma c).recordDue = none ∧
    (∀ e, (e.die ≠ c.die ∨ e.num ≠ c.num) → t.dma e = s.dma e)

/-- Nothing waits in a module's ports or for its pairs, and the port is the next of its pair to be served (R360). -/
def PortQuiet (s : State) (p : Nat) : Prop :=
  (∀ q < 4, (s.port q).rxq = []) ∧ (∀ k < 2, Map.get [] s.ring.txq k = []) ∧ s.turnOf (pairOf p) s.ring.rxTurn = p

/-- A good flit that is next in the sequence of its port, which runs and has nothing waiting (R360, R361). -/
def FlitOk (s : State) (p : Nat) (h : FlitHdr) : Prop :=
  s.frz.stopped = false ∧ s.portAllowed p = true ∧ (s.port p).trained = true ∧ h.ok = true ∧ h.seq = (s.port p).rxSeq ∧ PortQuiet s p

/-- The port has taken a flit that consumes a sequence number (R361). -/
def FlitTaken (s t : State) (p : Nat) : Prop :=
  (t.port p).rxSeq = ((s.port p).rxSeq + 1) % 65536 ∧ (t.port p).trained = true ∧ (t.port p).lastDt = s.deviceTime ∧
    (t.port p).silentFrom = none

/-- An engine has done its task, and waits for the report of its end: every byte that it holds for writing lies in the spans, and besides its unit's
record nothing of the module's data has changed but counters and, for a feature engine, the journal of its die (R160, R161). -/
def EngineDone (s t : State) (d : Nat) (j : Job) (spans : List (Nat × Nat)) : Prop :=
  (t.unit d j.unit).done = true ∧ (∀ u, u ≠ j.unit → t.unit d u = s.unit d u) ∧
    (∀ w ∈ (t.unit d j.unit).writes, ∀ k < w.bytes.length, ∃ p ∈ spans, p.1 ≤ w.addr + k ∧ w.addr + k < p.2) ∧
    t.mem = s.mem ∧ t.flags = s.flags ∧ t.out = s.out ∧ t.travel = s.travel ∧ t.sec = s.sec ∧ t.flash = s.flash

/-- The bytes that a pyramid task writes. -/
def pyrSpans (j : Job) : List (Nat × Nat) := ((pyrOuts j).map (fun o => rowSpans o.2 ((pyrRows j o).getD []))).flatten

/-- Lane l of the source register that the vector word of the bundle names at bit o (Table NCO-8). -/
def State.vsrc (t : State) (c : CoreRef) (o l : Nat) : Word :=
  Map.get 0 (t.core c.die c.core).v (bits (t.slotWord c 2) o 4 * 64 + l)

/-- The core, brought to the cycle of a vector operation, issues a bundle with its code; no check fails, and no other result is due at its
register in the cycle of its own (R315, R317). -/
def VectorReady (s t : State) (v : VOp) (code latency : Nat) : Prop :=
  s.atCycle v.core = .here t ∧ v.core.die < t.dies.length ∧ v.fault = none ∧ bits (t.slotWord v.core 2) 0 6 = code ∧
    ∀ q ∈ (t.core v.core.die v.core.core).vPend, ¬ (q.due = v.core.cyc + latency ∧ q.reg = bits (t.slotWord v.core 2) 6 4)

/-- A result is on its way to the destination register with these lanes, and nothing else has changed but counters (R315). -/
def VectorSent (t u : State) (c : CoreRef) (latency : Nat) (f : Nat → Word) : Prop :=
  (∃ p, (u.core c.die c.core).vPend =
    (t.core c.die c.core).vPend ++ [⟨c.cyc + latency, bits (t.slotWord c 2) 6 4, (List.range 64).map f, p⟩]) ∧
    (∀ k, k ≠ c.core → u.core c.die k = t.core c.die k) ∧
    u = { t with regs := u.regs, dies := u.dies, perFrame := u.perFrame }

end Sys2Proof.Machine
end

