-- ==== Sys2Proof/Certificates/Slice0/Obligations.lean ====
section
/-! DEFINITION. The statements for the provers. -/

open Sys2Proof
open Sys2Proof.Machine

/-! ### The machine -/

/-- The machine's step is the front command's own effect on everything but the queue (the block's queue is the model's: log entry 3).

With no command waiting and no removal latched, one arithmetic cycle passes: while power is good, reset is not asserted and the clocks run
(R20, R572), device time counts it, and where no flag has been updated in it nothing else changes but what the cycle counts and, by a free
value, a symbol that may turn wrong (the model's choices, log entries 3 and 72); else nothing changes. -/
def Obligations.StepRunsFrontCommandOrIdles : Prop :=
  (∀ (c : Instr) (rest : List Instr) (s : State),
     step { s with pending := c :: rest } = exec c { s with pending := rest }) ∧
  (∀ s : State, s.pending = [] → s.pwr.removal = none →
     ((s.pwr.good = false ∨ s.pwr.resetN = false ∨ s.frz.stopped = true) → step s = .next s) ∧
     (s.pwr.good = true → s.pwr.resetN = true → s.frz.stopped = false →
       ∃ t, step s = .next t ∧ t.deviceTime = s.deviceTime + 1 ∧ t.pending = [] ∧
         ((∀ d < 4, (s.die d).flagCyc = []) →
           t = { s with deviceTime := t.deviceTime, upsets := t.upsets, perFrame := t.perFrame, freeCtr := s.freeCtr + 1 })))

/-- No command touches the commands that wait behind it (the model's queue, log entry 3). -/
def Obligations.StepLeavesWaitingCommands : Prop :=
  (∀ (c : Instr) (s t : State), exec c s = .next t → t.pending = s.pending) ∧
  (∀ (c : Instr) (rest : List Instr) (s t : State), s.pending = c :: rest → step s = .next t → t.pending = rest)

/-- From every state whose lifecycle is one of R534's three, a step keeps the part, the serial number and the vendor's key hash, never takes
the lifecycle or the rollback counter back, and leaves an integrator's key hash that is burned as it is. -/
def Obligations.OtpMovesForward : Prop :=
  ∀ s t : State, s.sec.lifecycle ≤ 2 → step s = .next t →
    OtpForward s t ∧ t.sec.lifecycle ≤ 2 ∧ (s.sec.ikey ≠ 0 → t.sec.ikey = s.sec.ikey)

/-- Right after reset no command waits, memory is canonical with nothing listed, no die runs, no task, flag, doubt or event is held, OTP is
as manufactured, and the ID registers say which die they are on (the values the manual does not give are the model's: log entries 5,
6, 7, 12). -/
def Obligations.ResetIsCleanStart : Prop :=
  State.reset.pending = [] ∧ State.reset.memOk = true ∧ (∀ a, State.reset.byteAt a = 0) ∧
  (∀ d, State.reset.dieUp d = false) ∧ (∀ d f, State.reset.flagVal d f = 0) ∧
  State.reset.doubtDue = [] ∧ State.reset.evDue = [] ∧ State.reset.saf.doubts = [] ∧
  State.reset.sec.lifecycle ≤ 2 ∧ State.reset.deviceTime = 0 ∧
  (∀ d ∈ [0, 1, 2, 3, 6], State.reset.getF d .idDie_die = d)

/-! ### Register accesses (chapters 00 and 01) -/

/-- A word written through the privileged view to a hub register that has no row of its own, by a privileged initiator that can reach the views
and the hub, zero in every reserved bit: each field takes the effect of its Access column, and nothing but that register changes, and no
pair that the initiator has begun to read on a C-die goes on. -/
def Obligations.RegisterWriteFollowsAccess : Prop :=
  ∀ (s : State) (who : Init) (p : Nat) (r : RegSpec) (i : Nat) (v : Word),
    s.frz.stopped = false → who.canAccess = true → s.privileged who = true → s.reach who.die 6 = true →
    p < 2 ^ 24 → p % 4 = 0 → regSpecAt 6 p = some (r, i) →
    p ∉ [Fld.evrRaiseValue_value.base, Fld.evrRaiseCode_code.base, Fld.bootReq_warm.base, Fld.ingI2cCmd_addr.base,
      Fld.evrFreeze_freeze.base, Fld.frzCtl_freeze.base] →
    v.toNat &&& (2 ^ 32 - 1 - r.mask) = 0 →
    ∃ t, exec (.registerWrite who (0xF000000000 + 6 * 2 ^ 24 + p) v 4) s = .next t ∧ t = { s.endPairs who 6 0 with regs := t.regs } ∧
      (∀ f ∈ r.fields,
        fieldOf (t.reg 6 p (s.selected 6 r i) r.word) f.lsb f.width =
          (match f.access with
          | .rw | .wo => bits v.toNat f.lsb f.width
          | .w1c => fieldOf (s.reg 6 p (s.selected 6 r i) r.word) f.lsb f.width -
              (fieldOf (s.reg 6 p (s.selected 6 r i) r.word) f.lsb f.width &&& bits v.toNat f.lsb f.width)
          | .w1s => fieldOf (s.reg 6 p (s.selected 6 r i) r.word) f.lsb f.width ||| bits v.toNat f.lsb f.width
          | .ro | .rc => fieldOf (s.reg 6 p (s.selected 6 r i) r.word) f.lsb f.width)) ∧
      (∀ d b x rst, regKey d b x ≠ regKey 6 p (s.selected 6 r i) → t.reg d b x rst = s.reg d b x rst)

/-- A word read through the privileged view from a hub register that has no row of its own, holds no WO field, is in no pair and is kept as it
changes: the answer shows in each listed field what the register, or its shadow copy, holds there; RC fields are cleared, and nothing else
changes. -/
def Obligations.RegisterReadAnswersFields : Prop :=
  ∀ (s : State) (who : Init) (p : Nat) (r : RegSpec) (i : Nat),
    s.frz.stopped = false → who.canAccess = true → s.privileged who = true → s.reach who.die 6 = true →
    p < 2 ^ 24 → p % 4 = 0 → regSpecAt 6 p = some (r, i) →
    p ∉ [Fld.tsnWallLo_wall.base, Fld.tsnWallHi_wall.base, Fld.tsnTime_epoch.base, Fld.evrRaiseValue_value.base] →
    r.base ≠ Fld.evrWindow_word.base → p / 0x10000 ∉ [0x32, 0x3A, 0x01, 0x03, 0x33, 0x30] →
    r.isLo = false → r.isHi = false → (∀ f ∈ r.fields, f.access ≠ .wo) →
    ∃ t w, exec (.registerRead who (0xF000000000 + 6 * 2 ^ 24 + p) 4) s = .next t ∧
      t = { s.endPairs who 6 p with regs := t.regs, out := { s.out with reads := s.out.reads ++ [w] } } ∧
      (∀ f ∈ r.fields, fieldOf w f.lsb f.width =
        fieldOf (if f.shadow then Map.get (Word.ofNat r.word) s.shadow (regKey 6 p (s.selected 6 r i))
          else s.reg 6 p (s.selected 6 r i) r.word) f.lsb f.width) ∧
      (∀ f ∈ r.fields, fieldOf (t.reg 6 p (s.selected 6 r i) r.word) f.lsb f.width =
        if f.access = .rc then 0 else fieldOf (s.reg 6 p (s.selected 6 r i) r.word) f.lsb f.width) ∧
      (∀ d b x rst, regKey d b x ≠ regKey 6 p (s.selected 6 r i) → t.reg d b x rst = s.reg d b x rst)

/-- Reads of a hub pair: a read of the _LO register captures the _HI word for its initiator, and a read of the _HI register answers that
capture and uses it up, whatever the register holds by then.

Writes of a pair, of the hub or of a C-die that runs: a write of the _LO register is held and changes no register; the initiator's write of the _HI
register then writes both words by access and view, and the held word is used up. -/
def Obligations.PairsAreReadAndWrittenWhole : Prop :=
  (∀ (s : State) (who : Init) (p : Nat) (r h : RegSpec) (i j : Nat),
     s.frz.stopped = false → who.canAccess = true → s.privileged who = true → s.reach who.die 6 = true → p + 4 < 2 ^ 24 → p % 4 = 0 →
     regSpecAt 6 p = some (r, i) → regSpecAt 6 (p + 4) = some (h, j) → r.isLo = true → r.isHi = false → h.isHi = true → h.isLo = false →
     p ≠ Fld.tsnWallLo_wall.base → p / 0x10000 ∉ [0x32, 0x3A, 0x01, 0x03, 0x33, 0x30] →
     (p + 4) / 0x10000 ∉ [0x32, 0x3A, 0x01, 0x03, 0x33, 0x30] →
     (∀ f ∈ r.fields ++ h.fields, f.access ≠ .wo ∧ f.access ≠ .rc) →
     (∃ t w c, exec (.regLoRead who (0xF000000000 + 6 * 2 ^ 24 + p)) s = .next t ∧
       t = { s with captures := Map.put (s.endPairs who 6 p).captures (pairKey who 6 p) c, out := { s.out with reads := s.out.reads ++ [w] } } ∧
       (∀ f ∈ h.fields, fieldOf c f.lsb f.width =
         fieldOf (if f.shadow then Map.get (Word.ofNat h.word) s.shadow (regKey 6 (p + 4) (s.selected 6 h j))
           else s.reg 6 (p + 4) (s.selected 6 h j) h.word) f.lsb f.width)) ∧
     (∀ k c, s.captures.find? (fun q => q.1 == pairKey who 6 p) = some (k, c) →
       exec (.regHiRead who (0xF000000000 + 6 * 2 ^ 24 + (p + 4))) s =
         .next { s with captures := Map.erase (s.endPairs who 6 (p + 4)).captures (pairKey who 6 p), out := { s.out with reads := s.out.reads ++ [c] } })) ∧
  (∀ (s : State) (who : Init) (d p : Nat) (r h : RegSpec) (i j : Nat) (lo hi : Word),
     s.frz.stopped = false → who.canAccess = true → s.privileged who = true → s.reach who.die d = true → (d = 6 ∨ s.dieUp d = true) → p + 4 < 2 ^ 24 → p % 4 = 0 →
     regSpecAt d p = some (r, i) → regSpecAt d (p + 4) = some (h, j) → r.isLo = true → h.isHi = true → r.sel = none → h.sel = none →
     lo.toNat &&& (2 ^ 32 - 1 - r.mask) = 0 → hi.toNat &&& (2 ^ 32 - 1 - h.mask) = 0 →
     exec (.regLoWrite who (0xF000000000 + d * 2 ^ 24 + p) lo) s =
         .next { s with loHeld := Map.put s.loHeld (pairKey who d p) lo } ∧
     (s.loHeld.find? (fun q => q.1 == pairKey who d p) = some (pairKey who d p, lo) →
       ∃ t, exec (.regHiWrite who (0xF000000000 + d * 2 ^ 24 + (p + 4)) hi) s = .next t ∧
         t = { s with regs := t.regs, loHeld := Map.erase s.loHeld (pairKey who d p) } ∧
         (∀ f ∈ r.fields, f.access = .rw → fieldOf (t.reg d p 0 r.word) f.lsb f.width = bits lo.toNat f.lsb f.width) ∧
         (∀ f ∈ h.fields, f.access = .rw → fieldOf (t.reg d (p + 4) 0 h.word) f.lsb f.width = bits hi.toNat f.lsb f.width) ∧
         (∀ f ∈ h.fields, f.access = .w1c → fieldOf (t.reg d (p + 4) 0 h.word) f.lsb f.width =
           fieldOf (s.reg d (p + 4) 0 h.word) f.lsb f.width -
             (fieldOf (s.reg d (p + 4) 0 h.word) f.lsb f.width &&& bits hi.toNat f.lsb f.width)) ∧
         (∀ e b x rst, regKey e b x ≠ regKey d p 0 → regKey e b x ≠ regKey d (p + 4) 0 → t.reg e b x rst = s.reg e b x rst)))

/-- A read of the Cosy mailbox returns zero and a write to the ingress buffers is discarded; neither has another effect. -/
def Obligations.MailboxReadsZeroIngressWritesDiscarded : Prop :=
  ∀ (s : State) (addr off : Nat) (data : List Byte), s.frz.stopped = false →
    (s.region addr = .mailbox off →
      exec (.cosyMailboxRead addr) s = .next { s with out := { s.out with reads := s.out.reads ++ [0] } }) ∧
    (s.region addr = .ingress off → exec (.ingressBufferWrite addr data) s = .next s)

/-! ### Cold starts (chapter 02) -/

/-- The steps of a start up to the loader, each from the state that its row waits for: power-good begins a cold start and samples SLOT_ID; the
PLL locks and the attestation key is derived; the hub passes or holds the module in reset; the 150 ms for the Cosy's result end; the
loader runs if its vendor signature verifies, and else never.  The time from blade contact is a free value (log entry 29).

The Cosy beside the start: it starts from its own power-good and its own NOR, with the newest image that it can verify (log entry 63), its link trains, and its result reaches the hub, which takes it into step 3 while that
step waits for it, and holds the module in reset if the self-test failed by then; its frames' messages go out on the Cosy port alone. -/
def Obligations.StartStepsUpToTheLoader : Prop :=
  ((∀ (s : State) (slotId : BitVec 4), s.pwr.inrush = true → s.pwr.good = false → s.pwr.cut = false → s.pwr.resetN = true →
     ∃ t, exec (.powerGood slotId) s = .next t ∧ ColdStarted s t ∧ t.pwr.good = true ∧
       t.getF 6 .hswStatus_slot_id = slotId.toNat ∧ t.getF 6 .bootRestart_requested = 0 ∧ t.out = s.out) ∧
   (∀ s : State, s.boot.step = 1 →
     ∃ t, exec .rootPllLock s = .next t ∧ t = { s with regs := t.regs, boot := { s.boot with step := 2 } } ∧
       t.getF 6 .clkStatus_main_lock = 1 ∧ t.getF 6 .clkStatus_spare_lock = 1 ∧
       (∀ i < 8, t.getF 6 .secAttPub_key i = leNat ((s.attestKey.drop (4 * i)).take 4))) ∧
   (∀ (s : State) (bad : List Nat), s.boot.step = 2 → s.boot.hubPass = false → s.boot.failed = false →
     (16 ∈ bad ∨ 17 ∈ bad ∨ 19 ∈ bad ∨ (13 ∈ bad ∧ 14 ∈ bad) →
       exec (.hubSelftestDone bad) s = .next (({ s with boot := { s.boot with failed := true } }).fault true)) ∧
     (¬ (16 ∈ bad ∨ 17 ∈ bad ∨ 19 ∈ bad ∨ (13 ∈ bad ∧ 14 ∈ bad)) →
       ∃ t, exec (.hubSelftestDone bad) s = .next t ∧ t.boot.hubPass = true ∧
         t = { s with regs := t.regs, boot := t.boot, ingress := t.ingress, pwr := { s.pwr with hubOff := t.pwr.hubOff } } ∧
         (∀ n ∈ bad, n < 5 → n ∈ t.ingress.retired) ∧ (∀ n ∈ bad, 5 ≤ n → n < 20 → n ∈ t.pwr.hubOff) ∧
         t.boot.step = if (s.cosyView.reported = true ∧ s.cosyView.selfTestPass = true) ∨ s.boot.waited = true then 3 else 2)) ∧
   (∀ s : State, 1 ≤ s.boot.step → s.boot.step ≤ 2 → s.cosyView.reported = false → s.boot.waited = false → 135000000 ≤ s.deviceTime →
     ∃ t, exec .cosyResultTimeout s = .next t ∧ t = { s with boot := t.boot } ∧ t.boot.waited = true ∧
       (s.boot.step = 2 → s.boot.hubPass = true → s.boot.failed = false → t.boot.step = 3 ∧ t.boot.check9 = false ∧ t.boot.cosyLost = true) ∧
       (s.boot.step = 1 ∨ s.boot.hubPass = false ∨ s.boot.failed = true → t.boot.step = s.boot.step)) ∧
   (∀ s : State, s.boot.step = 3 →
     ∃ t, exec .loaderRunning s = .next t ∧ (s.loaderGood = false → t = s) ∧
       (s.loaderGood = true → t.boot = { s.boot with step := 4 } ∧ t.getF 6 .bootStatus_phase = 1 ∧
         t.sec = { s.sec with loaderHash := sha256 (mapBytes s.flash.loader 0 Config.loaderSize) } ∧
         t = { s with regs := t.regs, boot := t.boot, sec := t.sec }))) ∧
  ((∀ (s : State) (selfTest : Bool),
     ∃ t, exec (.cosyPowerGood selfTest) s = .next t ∧ t = { s with cosy := t.cosy } ∧ t.cosy.powered = true ∧ t.cosy.selfTest = selfTest ∧
       t.cosy.halfA = s.cosy.halfA ∧ t.cosy.halfB = s.cosy.halfB ∧ t.cosy.image = [] ∧ t.cosy.seqs = [] ∧
       (s.cosy.verifies (s.cosy.bank s.cosy.next) = true → t.cosy.running = true ∧ t.cosy.half = s.cosy.next ∧
         t.cosy.ident = sha256 (mapBytes (s.cosy.bank s.cosy.next) 0 0x8000)) ∧
       (s.cosy.verifies (s.cosy.bank s.cosy.next) = false → s.cosy.verifies (s.cosy.bank (!s.cosy.next)) = true →
         t.cosy.running = true ∧ t.cosy.half = (!s.cosy.next) ∧ t.cosy.ident = sha256 (mapBytes (s.cosy.bank (!s.cosy.next)) 0 0x8000)) ∧
       (s.cosy.verifies (s.cosy.bank s.cosy.next) = false → s.cosy.verifies (s.cosy.bank (!s.cosy.next)) = false →
         t.cosy.running = false)) ∧
   (∀ s : State, s.frz.stopped = false → s.cosy.powered = true → s.boot.step ≠ 0 → s.cosyView.linkUp = true →
     ∃ t, exec .cosySelftestReport s = .next t ∧
       t.cosyView.reported = true ∧ t.cosyView.selfTestPass = s.cosy.selfTest ∧ t.cosyView.ident = s.cosy.ident ∧
       t = { s with regs := t.regs, boot := t.boot, pwr := { s.pwr with faultN := t.pwr.faultN }, cosyView := t.cosyView,
                    doubtDue := t.doubtDue } ∧
       (s.boot.step = 2 → s.boot.hubPass = true → s.boot.failed = false → s.boot.waited = false → s.cosy.selfTest = true →
         t.boot.step = 3 ∧ t.boot.check9 = true) ∧
       (s.boot.step ≤ 2 → s.boot.waited = false → s.cosy.selfTest = false →
         t.pwr.faultN = true ∧ t.boot.failed = true ∧ t.boot.step = s.boot.step)) ∧
   (∀ s : State, s.frz.stopped = false → s.cosy.powered = true → s.boot.step ≠ 0 → s.cosyView.linkUp = false →
     ∃ t, exec .cosyLinkTrain s = .next t ∧ t.cosyView.linkUp = true ∧ t.link .cosy = .full ∧ t.cosyView.reported = true ∧
       t.cosyView.selfTestPass = s.cosy.selfTest ∧ t.cosyView.ident = s.cosy.ident ∧ t.mem = s.mem ∧ t.out = s.out) ∧
   (∀ (s : State) (outs : List CosyOut) (wall : Nat), s.cosy.running = true →
     ∃ t ms, exec (.cosyFrame outs wall) s = .next t ∧ ms.length = outs.length ∧
       t = { s with cosy := { s.cosy with seqs := t.cosy.seqs }, freeCtr := s.freeCtr + 1,
                    out := { s.out with cosyMsgs := s.out.cosyMsgs ++ ms } }))

/-- UFS_LINK_UP: numbers resume above the mark and the epoch above the stored one, the slots are tried in order and the sensor scripts run: where
the manifest of the slot that goes first passes, it goes on to streaming; with none readable the module holds.  A SCRAPPED module tries
no slot.  A script that stops on a failed transaction or comparison is recorded for its link.

Sections are released one by one as their hashes match, each copied to the reload region of every C-die that has not failed; a mismatch fails
the slot with cause 10; the last leads on to firmware, which runs with pipe p at position p where it lives (the reload region's layout is the
model's: log entry 31). -/
def Obligations.SlotsAreTriedAndSectionsReleased : Prop :=
  (∀ (s : State) (readErrA readErrB : Bool) (answers : List (List (Option (BitVec 24)))) (sealedOk : Bool), s.boot.step = 4 →
     ∃ t, exec (.ufsLinkUp readErrA readErrB answers sealedOk) s = .next t ∧
       t.root.next = (match s.flash.mark.now with | some m => m.frame + 65536 | none => 0) ∧ t.boot.noMark = s.flash.mark.now.isNone ∧
       (∀ e : BitVec 16, e = (match s.flash.mark.now with
           | some m => laterEpoch (s.flash.epoch.now.getD 0) m.epoch
           | none => s.flash.epoch.now.getD 0) + 1 →
         t.time.seg.epoch = e.toNat ∧ t.flash.epoch = s.flash.epoch.write e) ∧
       (∀ k < 64, (t.stream k).seq = (match s.flash.mark.now with | some m => nth 0 m.seqs k + 65536 | none => 0)) ∧
       t.sec.keys = (if sealedOk = true then s.openKeys else none) ∧ t.sec.sealedOk = t.sec.keys.isSome ∧
       t.mem = s.mem ∧ t.flags = s.flags ∧
       (s.sec.lifecycle = 2 → t.pwr.faultN = true ∧ t.boot.step = 5 ∧ t.boot.holding = s.boot.holding) ∧
       (s.sec.lifecycle ≠ 2 → t.ingress.scriptsDone = true ∧
         ∀ m, m = s.slotBytes t.boot.slot → ∀ l < 16, ∀ g, g = LinkCfg.of (fun o n => imgN m ((secEntry m 0 5).offset + 0x100 + 32 * l + o) n) →
           (l ∈ t.ingress.scriptFailed ↔ g.used = true ∧
             (runScript (entries8 (mapBytes m ((secEntry m 0 5).offset + g.scriptOff) g.scriptLen)) (nth [] answers l)).2 = false)) ∧
       (s.sec.lifecycle ≠ 2 → ∀ b, b = s.slotRecord.pending.getD s.slotRecord.active →
         (if b then readErrB else readErrA) = false → s.manifestCause (s.slotBytes b) = 0 →
         t.boot.step = 6 ∧ t.boot.slot = b ∧ t.boot.hashed = 0 ∧ t.getF 6 .bootStatus_phase = 3 ∧
         t.caddy = mapCopy (s.slotBytes b) 0 0x8000 [] (cadKey 0 0) ∧ (∀ d < s.nDies, d < s.dies.length → (t.die d).inReset = false)) ∧
       (s.sec.lifecycle ≠ 2 → readErrA = true → readErrB = true →
         t.boot.holding = true ∧ t.pwr.faultN = true ∧ t.getF 6 .bootStatus_phase = 6 ∧ (∀ d, t.dieUp d = false))) ∧
  ((∀ (s : State) (k : Nat) (e : SecEntry), s.boot.step = 6 → k = s.boot.hashed → k < 10 →
     e = nth ⟨0, 0, 0, 0, 0, 0⟩ s.sections k → e.kind ≠ secWEIGHTS → s.boot.slot ∈ s.boot.tried →
     (sectionMatches (s.slotBytes s.boot.slot) e = true →
       ∃ t, exec (.sectionHashed k) s = .next t ∧ t.boot = { s.boot with hashed := k + 1 } ∧ t.getF 6 .bootStatus_sections = k + 1 ∧
         t.caddy = mapCopy (s.slotBytes s.boot.slot) e.offset e.length s.caddy (cadKey e.kind 0) ∧
         t = { s with regs := t.regs, boot := t.boot, caddy := t.caddy, mem := t.mem, poison := t.poison } ∧
         (s.memOk = true → Map.wf 0 (s.slotBytes s.boot.slot) = true → reloadSize s.sections ≤ 0x1C00000000 →
           s.reloadOff k + e.length ≤ reloadSize s.sections → e.kind ≠ secGOLDEN →
           ∀ d < s.nDies, (s.die d).failed = false → ∀ i < e.length,
             t.byteAt ((s.reloadAt d).1 + s.reloadOff k + i) = Map.get 0 (s.slotBytes s.boot.slot) (e.offset + i))) ∧
     (sectionMatches (s.slotBytes s.boot.slot) e = false →
       ∃ t, exec (.sectionHashed k) s = .next t ∧
         t.getF 6 (if s.boot.slot then .bootStatus_fail_b else .bootStatus_fail_a) = 10 ∧ t.mem = s.mem)) ∧
   (∀ s : State, s.boot.step = 6 → s.boot.hashed = 10 → (∀ d < s.nDies, d ∈ s.boot.tested) →
     sectionMatches (s.slotBytes s.boot.slot) (nth ⟨0, 0, 0, 0, 0, 0⟩ s.sections 10) = true →
     (s.boot.check9 = true → s.cosyView.ident = Hash.ofBytes (s.cadBytes secCOSYLINK 8 32)) →
     ∃ t, exec (.sectionHashed 10) s = .next t ∧ t.boot = { s.boot with hashed := 11, step := 8 } ∧ t.getF 6 .bootStatus_phase = 4 ∧
       t.getF 6 .bootVersion_image_version = imgN (s.slotBytes s.boot.slot) 0xC 4 ∧ t.locked = s.lockRanges.locked ∧ t.caddy = s.caddy ∧
       t.flash = s.flash ∧ t.sec = s.sec) ∧
   (∀ s : State, s.boot.step = 8 → s.magicsOk = true →
     ∃ t, exec .firmwareRunning s = .next t ∧ t.boot.step = 9 ∧ t.getF 6 .bootStatus_phase = 5 ∧ t.ingress.positions.length = 4 ∧
       (∀ p < 4, p ∉ s.ingress.retired → (nth (PipePos.fresh 0) t.ingress.positions p).pipe = some p) ∧
       t.ingress.retired = s.ingress.retired ∧ t.flags = s.flags ∧ t.flash = s.flash ∧ t.sec = s.sec) ∧
   (∀ (s : State) (d : Nat) (faults : List StartFault), d < s.nDies → d < s.dies.length → (s.die d).failed = false →
     (s.die d).restart = none → 5 ≤ s.boot.step → s.boot.step ≤ 8 → d ∉ s.boot.tested → (s.die d).inReset = false →
     ∃ t, exec (.cdieSelftestDone d faults) s = .next t ∧ d ∈ t.boot.tested ∧ t.flags = s.flags ∧ t.boot.step = s.boot.step ∧
       ((∃ k, .memCtl k ∈ faults) ∨ .part ∈ faults → (t.die d).failed = true ∧ (t.die d).inReset = true ∧
         ⟨dSELFTEST, d, 0, .failedDie, s.frame⟩ ∈ t.doubtDue)))

/-- The counter in OTP: after the first frame start a burn step raises it by one while it is below the image's index, and nothing else of OTP
changes; with no step due nothing at all changes.

The numbering mark: every 65,536 frames the hub writes to flash the frame number, the epoch and the sequence number of each of the 64
output streams, in the copy that does not govern so far, and nothing else changes. -/
def Obligations.BurnStepsAndNumberingMarks : Prop :=
  (∀ s : State, s.frz.stopped = false →
     (s.boot.framed = true → s.sec.counter < s.getF 6 .bootImage_rollback_index →
       ∃ t, exec .rollbackBurnStep s = .next t ∧ t.sec = { s.sec with counter := s.sec.counter + 1 } ∧
         t = { s with regs := t.regs, sec := t.sec } ∧ t.getF 6 .bootImage_otp_counter = (s.sec.counter + 1) % 128 ∧
         t.getF 6 .bootImage_burn_pending = bit (decide (s.sec.counter + 1 < s.getF 6 .bootImage_rollback_index))) ∧
     (s.boot.framed = false ∨ s.getF 6 .bootImage_rollback_index ≤ s.sec.counter → exec .rollbackBurnStep s = .next s)) ∧
  (∀ s : State, s.frz.stopped = false → s.root.running = true → s.frame.toNat % 65536 = 0 →
     ∀ m : Mark, m = Mark.mk s.frame (BitVec.ofNat 16 s.epoch) ((List.range 64).map (fun k => (s.stream k).seq)) →
       ∃ t, exec .numberingMark s = .next t ∧
         t = { s with flash := { s.flash with mark := s.flash.mark.write m, writing := some (1, s.deviceTime) } } ∧
         (s.flash.mark.seqNo ≠ 0xFFFFFFFF → t.flash.mark.now = some m))

/-- A lane of a link between dies fails: the link goes on at half width and the event is recorded (with the number that log entry 61 gives the link);
one that cannot train at half width is lost, and its loss is a doubt on the die (of the Cosy link: at once only after the first frame start).

A doubt on its way is latched while the module is in service: it leaves the list of those due, and it, or one of the same class, die, subject and recovery choice latched before,
stands among the latched doubts. -/
def Obligations.LinksRetrainAndDoubtsLatch : Prop :=
  ((∀ (s : State) (d : Nat), s.frz.stopped = false → d < s.nDies → s.boot.step ≠ 0 → s.link (.hub d) ≠ .lost →
     exec (.linkRetrain (.hub d) true) s = .next ((s.setLink (.hub d) .half).raise 0x0600 d) ∧
     exec (.linkRetrain (.hub d) false) s = .next ((s.setLink (.hub d) .lost).doubt dDIE_LINK d s.frame 0 .hubLink)) ∧
   (∀ (s : State) (d : Nat), s.frz.stopped = false → d < s.nDies → s.boot.step ≠ 0 → s.link (.ring d) ≠ .lost →
     exec (.linkRetrain (.ring d) true) s = .next ((s.setLink (.ring d) .half).raise 0x0600 (8 + d)) ∧
     exec (.linkRetrain (.ring d) false) s = .next ((s.setLink (.ring d) .lost).doubt dDIE_LINK d s.frame 0 .ringLink)) ∧
   (∀ s : State, s.frz.stopped = false → s.cosyView.linkUp = true → s.boot.step ≠ 0 → s.link .cosy ≠ .lost →
     exec (.linkRetrain .cosy true) s = .next ((s.setLink .cosy .half).raise 0x0600 16) ∧
     ∃ t, exec (.linkRetrain .cosy false) s = .next t ∧ t.link .cosy = .lost ∧ t.cosyView = { s.cosyView with linkUp := false } ∧
       (s.boot.framed = true → t.doubtDue = s.doubtDue ++ [⟨dCOSY_LINK, 6, 0, .plain, s.frame⟩] ∧ t.boot = s.boot) ∧
       (s.boot.framed = false → t.doubtDue = s.doubtDue ∧ t.boot = { s.boot with cosyLost := true }) ∧
       t = { s with links := t.links, cosyView := t.cosyView, doubtDue := t.doubtDue, boot := t.boot })) ∧
  (∀ (s : State) (d : DoubtCause), s.frz.stopped = false → d ∈ s.doubtDue → s.saf.outOfService = false →
     ∃ t, exec (.doubtLatch d) s = .next t ∧ t.doubtDue = s.doubtDue.erase d ∧
       (∃ x ∈ t.saf.doubts, x.cause.cls = d.cls ∧ x.cause.die = d.die ∧ x.cause.sub = d.sub ∧ x.cause.why = d.why) ∧
       (∀ x ∈ s.saf.doubts, x ∈ t.saf.doubts) ∧ t.mem = s.mem ∧ t.flags = s.flags ∧ t.flash = s.flash ∧ t.sec = s.sec)

/-! ### Restarts (chapters 02 and 18) -/

/-- A die restart: the die is in restart from this moment, its DRAM is in self-refresh and kept, its commons, scratchpads and flags are cleared, and
the restart is recorded; where no frame is abandoned, all memory outside the die's on-chip window is as before.

The end of a die restart: it rejoins and its re-hash begins once the die is ready; one whose memory fails again is failed; one that takes
30 ms becomes a warm restart; and the re-hash ends with a doubt on a mismatch. -/
def Obligations.DieRestartsClearAndRejoin : Prop :=
  (∀ (s : State) (d : Nat), s.calls (.dieRestart d) = true → s.calls .warmRestart = false → s.dieUp d = true → d < s.dies.length →
     ∃ t, exec (.dieRestart d) s = .next t ∧ t.getF 6 .bootRestart_last_class = 1 ∧ t.getF 6 .bootRestart_last_die = d ∧
       (s.abandoned d = [] →
         (t.die d).restart = some ⟨s.deviceTime, false, false⟩ ∧ t.dieUp d = false ∧
         (∀ f < 4096, t.flagVal d f = 0) ∧ (∀ k < 8, (t.ctl d k).selfRefresh = true) ∧
         (∀ a, chipBase d ≤ a → a < chipBase d + 0x40000000 → t.byteAt a = 0) ∧
         (∀ a, a < chipBase d ∨ chipBase d + 0x40000000 ≤ a → t.byteAt a = s.byteAt a) ∧
         t.flash = s.flash ∧ t.sec = s.sec ∧ t.deviceTime = s.deviceTime)) ∧
  ((∀ (s : State) (d : Nat) (r : Restart), (s.die d).restart = some r → r.warm = false → s.dieReady d = true → d < s.dies.length →
     ((s.die d).testFaults ≠ [] → exec (.dieRejoin d) s = .next (s.dieFails d)) ∧
     ((s.die d).testFaults = [] →
       ∃ t, exec (.dieRejoin d) s = .next t ∧ d ∈ t.boot.rehash ∧ (∀ x ∈ t.saf.doubts, x.recovery ≠ .dieRestart d) ∧
         (s.root.starts = [] → (t.die d).restart = none))) ∧
   (∀ (s : State) (d : Nat) (r : Restart), s.frz.stopped = false → (s.die d).restart = some r → r.warm = false →
     r.since + 27000000 ≤ s.deviceTime →
     exec (.dieRestartEscalate d) s = .next { s with saf := { s.saf with doubts := s.saf.doubts.map (fun x =>
       if x.recovery = .dieRestart d then { x with recovery := .warmRestart } else x) } }) ∧
   (∀ (s : State) (d : Nat), s.frz.stopped = false → d ∈ s.boot.rehash →
     exec (.rehashComplete d) s =
       .next (if s.reloadIntact d = true ∧ s.weightsIntact d = true then { s with boot := { s.boot with rehash := setErase d s.boot.rehash } }
         else { s with boot := { s.boot with rehash := setErase d s.boot.rehash },
                       doubtDue := s.doubtDue ++ [⟨dREHASH, d, 0, .plain, s.frame⟩] })))

/-- Warm restarts: one begins on every C-die that is not failed; the dies become ready together, and the hub reloads its sections from the
lowest-numbered C-die that works; a third within 60 s, or one that outlasts 250 ms,
gives up with the dies held in reset and FAULT_N asserted.

BOOT_REQ is honoured only out of service: a warm request then begins a warm restart, a cold one a cold start; in service either is recorded and
changes nothing else.  A hub whose lockstep fails stops output framing and holds dies 0 to 6 in reset with FAULT_N asserted. -/
def Obligations.WarmAndRequestedRestarts : Prop :=
  ((∀ s : State, s.frz.stopped = false → s.calls .warmRestart = true → s.warming = false → s.saf.dead = false → s.boot.framed = true → s.nDies ≤ s.dies.length →
     ((s.saf.warmAt.filter (fun t => decide (s.deviceTime < t + 54000000000))).length < 2 →
       ∃ t, exec .warmRestart s = .next t ∧ t.getF 6 .bootRestart_last_class = 2 ∧
         (∀ d < s.nDies, (s.die d).failed = false → (t.die d).restart = some ⟨s.deviceTime, true, false⟩)) ∧
     (2 ≤ (s.saf.warmAt.filter (fun t => decide (s.deviceTime < t + 54000000000))).length →
       ∃ t, exec .warmRestart s = .next t ∧ t.saf.dead = true ∧ t.pwr.faultN = true ∧ (∀ d, t.dieUp d = false) ∧ t.mem = s.mem)) ∧
   (∀ s : State, (∃ d < s.nDies, ∃ r, (s.die d).restart = some r ∧ r.warm = true ∧ r.ready = false) →
     (∀ d < s.nDies, ∀ r, (s.die d).restart = some r → r.warm = true → r.ready = false →
       s.dieReady d = true ∧ s.reloadIntact d = true ∧ (s.die d).testFaults = []) →
     ∃ t, exec .warmRejoin s = .next t ∧ t = { s with dies := t.dies, caddy := t.caddy, mem := t.mem } ∧
       (∀ d, (List.range s.nDies).find? (fun d => !(s.die d).failed) = some d → t.caddy = s.reloaded d s.caddy) ∧
       (∀ d < s.nDies, ∀ r, (s.die d).restart = some r → r.warm = true → (t.die d).restart = some { r with ready := true })) ∧
   (∀ s : State, s.frz.stopped = false → (∃ x ∈ s.dies, ∃ r, x.restart = some r ∧ r.warm = true ∧ r.since + 225000000 ≤ s.deviceTime) →
     ∃ t, exec .warmRestartTimeout s = .next t ∧ t.saf.dead = true ∧ t.pwr.faultN = true ∧ (∀ d, t.dieUp d = false) ∧ t.mem = s.mem)) ∧
  ((∀ (s : State) (who : Init), s.frz.stopped = false → who.canAccess = true → s.privileged who = true →
     (s.saf.outOfService = false →
       exec (.bootReqWarm who) s = .next (s.raise 0x0103 1) ∧
       exec (.bootReqCold who false) s = .next (s.raise 0x0103 2) ∧ exec (.bootReqCold who true) s = .next (s.raise 0x0103 3)) ∧
     (s.saf.outOfService = true → s.warming = false → s.saf.dead = false → s.nDies ≤ s.dies.length →
       (s.saf.warmAt.filter (fun t => decide (s.deviceTime < t + 54000000000))).length < 2 →
       ∃ t, exec (.bootReqWarm who) s = .next t ∧ t.getF 6 .bootRestart_last_class = 2 ∧
         (∀ d < s.nDies, (s.die d).failed = false → (t.die d).restart = some ⟨s.deviceTime, true, false⟩)) ∧
     (s.saf.outOfService = true → ∀ alsoWarm,
       ∃ t, exec (.bootReqCold who alsoWarm) s = .next t ∧ ColdStarted s t ∧ t.getF 6 .bootRestart_requested = 1 ∧ t.out = s.out)) ∧
   (∀ s : State, s.frz.stopped = false → ∃ t, exec .hubLockstepFail s = .next t ∧ t.saf.framingStopped = true ∧ t.saf.dead = true ∧ t.pwr.faultN = true ∧
     (∀ d, t.dieUp d = false) ∧ t.cosy = s.cosy ∧ t.out = s.out ∧ t.flash = { s.flash with writing := none }))

/-! ### Maintenance sessions and the security block (chapters 02 and 22) -/

/-- OPEN opens a session in role NONE, or begins the exchange of the open one anew, and answers the CHALLENGE: nonce and serial; during a lockout, with a
bad generator, or for another role it is refused.

PROVE within 10 s of its CHALLENGE, with the role's key and its signature, grants the role and clears the count; any other is refused, counted
and recorded, and the eighth in a row refuses every OPEN for 60 s.  CLOSE and 60 s of silence end the session; the lockout ends after its 60 s. -/
def Obligations.OpenChallengesAndProveGrants : Prop :=
  (∀ (s : State) (role : Nat) (key nonce : Hash), s.served = true →
     ((role = 1 ∨ role = 2) → s.sec.lockout = none → s.sec.trngOk = true →
       ∃ t x, exec (.openSession role key nonce) s = .next t ∧ t.sec = { s.sec with session := some x } ∧
         x.role = 0 ∧ x.asked = role ∧ x.key = key ∧ x.nonce = nonce ∧ x.challenge = some s.deviceTime ∧ x.lastDt = s.deviceTime ∧
         Replied s t 2 (Hash.bytes nonce ++ toLE 16 s.sec.serial.toNat) ∧
         t = { s with regs := t.regs, sec := t.sec, out := t.out, freeCtr := t.freeCtr }) ∧
     (s.sec.lockout ≠ none ∨ s.sec.trngOk = false ∨ (role ≠ 1 ∧ role ≠ 2) →
       ∃ t, exec (.openSession role key nonce) s = .next t ∧ Refused s t ∧
         t = { s with sec := { s.sec with session := t.sec.session }, out := t.out, freeCtr := t.freeCtr })) ∧
  ((∀ (s : State) (x : Session) (at_ : Nat) (sig : List Byte), s.served = true → s.sec.session = some x → x.role ≤ 2 →
     s.sec.lifecycle ≠ 2 → x.challenge = some at_ →
     (s.deviceTime ≤ at_ + 9000000000 → s.keyAllowed x.asked x.key = true →
       ∃ t, exec (.prove sig) s = .next t ∧
         (slhVerify (Hash.bytes x.key) (ascii "ILK2-SESSION" ++ s.challenge x.nonce ++ toLE 1 x.asked) sig = true → Accepted s t ∧
           t.sec = { s.sec with session := some { x with role := x.asked, challenge := none, lastDt := s.deviceTime }, failed := 0 } ∧
           t = { s with regs := t.regs, sec := t.sec, out := t.out, freeCtr := t.freeCtr, evDue := (s.raise 0x0180 x.asked).evDue }) ∧
         (slhVerify (Hash.bytes x.key) (ascii "ILK2-SESSION" ++ s.challenge x.nonce ++ toLE 1 x.asked) sig = false → Refused s t ∧ t.sec.failed = s.sec.failed + 1)) ∧
     (at_ + 9000000000 < s.deviceTime ∨ s.keyAllowed x.asked x.key = false →
       ∃ t, exec (.prove sig) s = .next t ∧ Refused s t ∧
         t.sec = { s.sec with session := some { x with role := 0, challenge := none, lastDt := s.deviceTime }, failed := s.sec.failed + 1,
                              lockout := if 7 ≤ s.sec.failed then some (s.deviceTime + 54000000000) else s.sec.lockout } ∧
         t = { s with regs := t.regs, sec := t.sec, out := t.out, freeCtr := t.freeCtr,
                      evDue := (s.raise 0x0181 (s.sec.failed + 1)).evDue })) ∧
   (∀ (s : State) (x : Session), s.served = true → s.sec.session = some x → x.role ≤ 2 →
     ∃ t, exec .close s = .next t ∧ Accepted s t ∧ t.sec = { s.sec with session := none } ∧
       t = { s with regs := t.regs, sec := t.sec, out := t.out, freeCtr := t.freeCtr }) ∧
   (∀ (s : State) (x : Session), s.sec.session = some x → x.lastDt + 54000000000 ≤ s.deviceTime →
     ∃ t, exec .sessionTimeout s = .next t ∧ t = { s with regs := t.regs, sec := { s.sec with session := none } }) ∧
   (∀ (s : State) (u : Nat), s.sec.lockout = some u → u ≤ s.deviceTime →
     ∃ t, exec .authLockoutEnd s = .next t ∧ t = { s with regs := t.regs, sec := { s.sec with lockout := none, failed := 0 } }))

/-- A session message whose row of Table SEC-3 does not name the session's role is answered REFUSE and changes nothing but the session's clock.

A session reads and writes a hub register with the privilege of its role, one word here, and reads the log. -/
def Obligations.SessionsActWithTheirRole : Prop :=
  (∀ (s : State) (x : Session) (role : Nat), InSession s x role →
     ∀ c : Instr,
       ((role ≠ 1 ∧ ((∃ slot off data, c = .upload slot off data) ∨ c = .commit ∨ (∃ off data, c = .cosyImage off data) ∨
           (∃ keys, c = .cakSet keys) ∨ (∃ off len, c = .logRead off len))) ∨
         (role ≠ 2 ∧ (c = .scrap ∨ (∃ off data, c = .loaderWrite off data))) ∨ (role ≠ 3 ∧ (∃ powerLost, c = .provision powerLost)) ∨
         (role = 4 ∧ ((∃ addr n, c = .regRead addr n) ∨ (∃ sig, c = .prove sig))) ∨
         (role ≠ 1 ∧ role ≠ 2 ∧ ((∃ addr words, c = .regWrite addr words) ∨ (∃ token sig, c = .unlock token sig) ∨
           c = .readState ∨ (∃ d a b, c = .readDram d a b) ∨ c = .resume ∨ c = .freezeStatus))) →
       ∃ t, exec c s = .next t ∧ Refused s t ∧
         t = { s with out := t.out, freeCtr := t.freeCtr,
                      sec := { s.sec with session := some { x with lastDt := s.deviceTime } } }) ∧
  ((∀ (s : State) (x : Session) (role p i : Nat) (r : RegSpec), InSession s x role → role ≤ 3 → s.privileged .session = true →
     p < 2 ^ 24 → p % 4 = 0 → regSpecAt 6 p = some (r, i) →
     p ∉ [Fld.tsnWallLo_wall.base, Fld.tsnWallHi_wall.base, Fld.tsnTime_epoch.base, Fld.evrRaiseValue_value.base] →
     r.base ≠ Fld.evrWindow_word.base → p / 0x10000 ∉ [0x32, 0x3A, 0x01, 0x03, 0x33, 0x30] →
     r.isLo = false → r.isHi = false → (∀ f ∈ r.fields, f.access ≠ .wo ∧ f.access ≠ .rc) →
     ∃ t w, exec (.regRead (0xF000000000 + 6 * 2 ^ 24 + p) 1) s = .next t ∧ Replied s t 0x11 (toLE 4 (BitVec.toNat w)) ∧
       (∀ f ∈ r.fields, fieldOf w f.lsb f.width =
         fieldOf (if f.shadow then Map.get (Word.ofNat r.word) s.shadow (regKey 6 p (s.selected 6 r i))
           else s.reg 6 p (s.selected 6 r i) r.word) f.lsb f.width) ∧
       t = { s.endPairs .session 6 p with out := t.out, freeCtr := t.freeCtr, sec := { s.sec with session := some { x with lastDt := s.deviceTime } } }) ∧
   (∀ (s : State) (x : Session) (role p i : Nat) (r : RegSpec) (v : Word), InSession s x role → (role = 1 ∨ role = 2) →
     s.privileged .session = true → p < 2 ^ 24 → p % 4 = 0 → regSpecAt 6 p = some (r, i) →
     p ∉ [Fld.evrRaiseValue_value.base, Fld.evrRaiseCode_code.base, Fld.bootReq_warm.base, Fld.ingI2cCmd_addr.base,
       Fld.evrFreeze_freeze.base, Fld.frzCtl_freeze.base] →
     v.toNat &&& (2 ^ 32 - 1 - r.mask) = 0 →
     ∃ t, exec (.regWrite (0xF000000000 + 6 * 2 ^ 24 + p) [v]) s = .next t ∧ Accepted s t ∧
       (∀ f ∈ r.fields, f.access = .rw → fieldOf (t.reg 6 p (s.selected 6 r i) r.word) f.lsb f.width = bits v.toNat f.lsb f.width) ∧
       t = { s.endPairs .session 6 0 with regs := t.regs, out := t.out, freeCtr := t.freeCtr,
                                          sec := { s.sec with session := some { x with lastDt := s.deviceTime } } }) ∧
   (∀ (s : State) (x : Session) (off len : Nat), InSession s x 1 →
     ∃ t data, exec (.logRead off len) s = .next t ∧ Replied s t 0x21 data ∧ data.length = len ∧
       (∀ i < len, 0x100000 ≤ off + i →
         nth 0 data i = (Map.get [] s.recorder.logRegion ((off + i) / 256)).getD ((off + i) % 256) 0) ∧
       t = { s with out := t.out, freeCtr := t.freeCtr, sec := { s.sec with session := some { x with lastDt := s.deviceTime } } }))

/-- UPLOAD by an INTEGRATOR writes the slot that the session's first UPLOAD named, never the slot that governs the start, and clears a pending mark
of it at the first write.

COMMIT reads the uploaded slot back; its result marks the slot pending only if every check of R41 passes, and in the holding state a passed
commit ends in a cold start.  An image for the Cosy goes to the mailbox's delivery window, used again every 512 KiB (log entry 63). -/
def Obligations.UploadAndCommitGuardTheSlots : Prop :=
  (∀ (s : State) (x : Session) (slot : Bool) (off : Nat) (data : List Byte), InSession s x 1 →
     (off % 4096 = 0 → data.length % 4096 = 0 → off + data.length ≤ 2 ^ 37 → (s.boot.holding = true ∨ x.slot.getD slot ≠ s.boot.slot) →
       ∃ t, exec (.upload slot off data) s = .next t ∧ Accepted s t ∧
         t.slotBytes (x.slot.getD slot) = mapPut (s.slotBytes (x.slot.getD slot)) off data ∧
         t.slotBytes (!x.slot.getD slot) = s.slotBytes (!x.slot.getD slot) ∧
         t.sec = { s.sec with session := some { x with lastDt := s.deviceTime, slot := some (x.slot.getD slot), wrote := true } } ∧
         t.flash.record = (if x.wrote = false ∧ s.slotRecord.pending = some (x.slot.getD slot) then
           s.flash.record.write ⟨s.slotRecord.active, none⟩ else s.flash.record) ∧
         (x.wrote = false → s.flash.record.seqNo ≠ 0xFFFFFFFF → t.slotRecord.pending ≠ some (x.slot.getD slot)) ∧
         t = { s with regs := t.regs, flash := { s.flash with slotA := t.flash.slotA, slotB := t.flash.slotB, record := t.flash.record,
                                                              writing := t.flash.writing },
                      sec := t.sec, out := t.out, freeCtr := t.freeCtr }) ∧
     (off % 4096 ≠ 0 ∨ data.length % 4096 ≠ 0 ∨ 2 ^ 37 < off + data.length ∨ (s.boot.holding = false ∧ x.slot.getD slot = s.boot.slot) →
       ∃ t, exec (.upload slot off data) s = .next t ∧ Refused s t ∧ t.flash = s.flash ∧ t.mem = s.mem ∧ t.regs = s.regs)) ∧
  ((∀ (s : State) (x : Session) (b : Bool), InSession s x 1 → x.slot = some b → s.boot.commit = none →
     ∃ t, exec .commit s = .next t ∧ t.boot = { s.boot with commit := some b } ∧ t.getF 6 .bootSlot_commit_busy = 1 ∧
       t = { s with regs := t.regs, boot := t.boot, sec := { s.sec with session := some { x with lastDt := s.deviceTime } } }) ∧
   (∀ (s : State) (b readErr : Bool) (c : Nat), s.frz.stopped = false → s.boot.commit = some b →
     c = (if readErr = true then 1 else s.commitCause b) →
     ∃ t, exec (.commitReadbackDone readErr) s = .next t ∧ t.boot = { s.boot with commit := none } ∧ t.getF 6 .bootSlot_commit_busy = 0 ∧
       t.getF 6 .bootSlot_commit_fail = c ∧
       (c = 0 → t.flash.record = s.flash.record.write ⟨s.slotRecord.active, some b⟩ ∧
         (s.flash.record.seqNo ≠ 0xFFFFFFFF → t.slotRecord = ⟨s.slotRecord.active, some b⟩)) ∧
       (c ≠ 0 → t.flash = s.flash) ∧
       (s.sec.session ≠ none → ∃ p, Replied s t 4 p ∧ p.head? = some (if c = 0 then 0 else 1)) ∧
       t.slotBytes false = s.slotBytes false ∧ t.slotBytes true = s.slotBytes true ∧ t.mem = s.mem) ∧
   (∀ s : State, s.frz.stopped = false → s.boot.holding = true → s.slotRecord.pending ≠ none → s.boot.commit = none →
     ∃ t, exec .holdingColdStart s = .next t ∧ ColdStarted s t ∧ t.getF 6 .bootRestart_requested = 1 ∧ t.out = s.out) ∧
   (∀ (s : State) (x : Session) (off : Nat) (data : List Byte), InSession s x 1 → off % 0x80000 + data.length ≤ 0x80000 →
     off + data.length ≤ 2 ^ 27 → ∀ w, w = mailboxBase + 0x80000 + off % 0x80000 →
     ∃ t, exec (.cosyImage off data) s = .next t ∧ Accepted s t ∧
       (s.linkUp .cosy = true → ∀ i (h : i < data.length), t.byteAt (w + i) = data[i]) ∧
       (∀ a, s.linkUp .cosy = false ∨ a < w ∨ w + data.length ≤ a → t.byteAt a = s.byteAt a) ∧
       t.cosy = (if s.cosy.powered = true ∧ s.cosyView.linkUp = true then s.cosy.deliver off data else s.cosy) ∧
       t = { s with mem := t.mem, cosy := t.cosy, out := t.out, freeCtr := t.freeCtr,
                    sec := { s.sec with session := some { x with lastDt := s.deviceTime } } }))

/-- ATTEST samples the report's body, one report at a time, and the report goes out signed with the endorsement behind it; a SCRAPPED module's
signature is zeros (where the endorsement stands is the model's: log entry 38).

What a session may burn, write or unlock: the sealed keys, the integrator's key hash and the MANUFACTURED module's lifecycle, the loader, the debug
scope while out of service, and the SCRAPPED lifecycle. -/
def Obligations.AttestationKeysAndLifecycle : Prop :=
  ((∀ (s : State) (x : Session) (role : Nat) (nonce : Hash), InSession s x role → role ≤ 4 → s.sec.trngOk = true →
     (s.sec.attest = none →
       ∃ t, exec (.attest nonce) s = .next t ∧
         t.sec = { s.sec with session := some { x with lastDt := s.deviceTime }, attest := some (s.attestBody nonce) } ∧
         t = { s with regs := t.regs, sec := t.sec }) ∧
     (s.sec.attest ≠ none →
       ∃ t, exec (.attest nonce) s = .next t ∧ Refused s t ∧ t.sec.attest = s.sec.attest ∧
         t.getF 6 .secAttest_refused = cap 65535 (s.getF 6 .secAttest_refused + 1))) ∧
   (∀ (s : State) (x : Session) (body : List Byte), s.frz.stopped = false → s.sec.attest = some body → s.sec.session = some x →
     ∃ t random, exec .attestSigned s = .next t ∧ random.length = 16 ∧
       Replied s t 0x10 (body ++ (if s.sec.lifecycle = 2 then List.replicate 17088 0 else s.attestSign random body) ++
         mapBytes s.flash.loader Config.endorsementAt 7856) ∧
       t = { s with regs := t.regs, out := t.out, freeCtr := t.freeCtr, evDue := (s.raise 0x0183 0).evDue,
                    sec := { s.sec with attest := none } })) ∧
  ((∀ (s : State) (x : Session) (keys : List Byte), InSession s x 1 →
     ∃ t, exec (.cakSet keys) s = .next t ∧ Accepted s t ∧
       t.flash = { s.flash with sealedKeys := s.flash.sealedKeys.write (s.sealKeys keys), writing := some (3, s.deviceTime) } ∧
       t = { s with flash := t.flash, out := t.out, freeCtr := t.freeCtr,
                    sec := { s.sec with session := some { x with lastDt := s.deviceTime } } }) ∧
   (∀ (s : State) (x : Session), InSession s x 3 →
     ((s.sec.ikey = 0 ∨ s.sec.ikey = sha256 (Hash.bytes x.key)) →
       (∃ t, exec (.provision true) s = .next t ∧ t.sec.ikey = sha256 (Hash.bytes x.key) ∧ t.sec.lifecycle = s.sec.lifecycle ∧
         t.sec.counter = s.sec.counter ∧ t.pwr.good = false) ∧
       ∃ t, exec (.provision false) s = .next t ∧ Accepted s t ∧ t.sec.ikey = sha256 (Hash.bytes x.key) ∧ t.sec.lifecycle = 1 ∧
         t.sec.counter = s.sec.counter ∧ ColdStarted s t) ∧
     (∀ powerLost, s.sec.ikey ≠ 0 → s.sec.ikey ≠ sha256 (Hash.bytes x.key) →
       ∃ t, exec (.provision powerLost) s = .next t ∧ Refused s t ∧
         t.sec = { s.sec with session := some { x with lastDt := s.deviceTime } } ∧ t.flash = s.flash ∧ t.mem = s.mem)) ∧
   (∀ (s : State) (x : Session) (role scope : Nat) (sig token : List Byte), InSession s x role → (role = 1 ∨ role = 2) → scope < 8 →
     token = toLE 4 0x554E4C4B ++ toLE 1 scope ++ List.replicate 11 0 ++ toLE 16 s.sec.serial.toNat ++ Hash.bytes x.nonce →
     s.saf.outOfService = true →
     ∃ t, exec (.unlock token sig) s = .next t ∧
       (slhVerify (Hash.bytes x.key) token sig = true → Accepted s t ∧
         t.sec = { s.sec with session := some { x with lastDt := s.deviceTime }, unlocked := true, scope := scope } ∧
         t = { s with regs := t.regs, sec := t.sec, out := t.out, freeCtr := t.freeCtr,
                      evDue := (s.raise 0x0182 scope 6 x.role).evDue }) ∧
       (slhVerify (Hash.bytes x.key) token sig = false → Refused s t ∧
         t = { s with out := t.out, freeCtr := t.freeCtr,
                      sec := { s.sec with session := some { x with lastDt := s.deviceTime } } })) ∧
   (∀ (s : State) (x : Session) (off : Nat) (data : List Byte), InSession s x 2 →
     ∃ t, exec (.loaderWrite off data) s = .next t ∧ Accepted s t ∧
       t.flash = { s.flash with loader := mapPut s.flash.loader off data } ∧
       t = { s with flash := t.flash, out := t.out, freeCtr := t.freeCtr,
                    sec := { s.sec with session := some { x with lastDt := s.deviceTime } } }) ∧
   (∀ (s : State) (x : Session), InSession s x 2 →
     ∃ t, exec .scrap s = .next t ∧ Accepted s t ∧ t.sec.lifecycle = 2 ∧ t.sec.ikey = s.sec.ikey ∧ t.sec.counter = s.sec.counter ∧
       (∀ d, t.dieUp d = false) ∧ t.pwr.faultN = true ∧ t.flash = s.flash ∧ t.mem = s.mem))

/-- The checks of the security block: a field of OTP that no longer agrees, a failed known-answer test and a failed generator clear their health bit;
each is recorded, and after the first frame start is a SECURITY doubt; a check that passes changes nothing.

The TAP: BYPASS, IDCODE and SAMPLE/PRELOAD always act, EXTEST and the instrument network only under their scopes of an unlock; one that may not
act is inert.  BYPASS shifts out a 0, what the others shift out is free (log entry 34). -/
def Obligations.SecurityChecksAndTapScopes : Prop :=
  (∀ (s : State), s.frz.stopped = false → s.boot.step ≠ 0 →
     (∀ field, exec (.otpReread field true) s = .next s) ∧ (∀ which, exec (.securityKat which true) s = .next s) ∧
     exec (.trngSample true) s = .next s ∧
     (∀ (c : Instr) (sec : Security) (code : Nat),
       (∃ field, c = .otpReread field false ∧ sec = { s.sec with otpOk := false } ∧ code = 0) ∨
         (∃ which, which < 3 ∧ c = .securityKat which false ∧ sec = { s.sec with katOk := false } ∧ code = which + 1) ∨
         (c = .trngSample false ∧ sec = { s.sec with trngOk := false } ∧ code = 4) →
       ∃ t, exec c s = .next t ∧ t.sec = sec ∧
         (s.boot.framed = false → t = { s with regs := t.regs, sec := sec, evDue := (s.raise 0x0184 code).evDue }) ∧
         (s.boot.framed = true →
           t = { s with regs := t.regs, sec := sec, evDue := (s.raise 0x0184 code).evDue,
                        doubtDue := s.doubtDue ++ [⟨dSECURITY, 6, 0, .plain, s.frame⟩] }))) ∧
  (∀ (s : State) (i : TapInstr), s.pwr.good = true →
     ((i = .bypass ∨ i = .idcode ∨ i = .samplePreload ∨ (i = .extest ∧ s.sec.unlocked = true ∧ testBit s.sec.scope 0 = true) ∨
         (∃ n, i = .instrument n ∧ s.sec.unlocked = true ∧ testBit s.sec.scope 1 = true)) →
       ∃ t w, exec (.tapAccess i) s = .next t ∧ (i = .bypass → w = 0) ∧
         t = { s with out := { s.out with reads := s.out.reads ++ [w] }, freeCtr := t.freeCtr }) ∧
     ((i = .extest ∧ (s.sec.unlocked = false ∨ testBit s.sec.scope 0 = false)) ∨
         (∃ n, i = .instrument n ∧ (s.sec.unlocked = false ∨ testBit s.sec.scope 1 = false)) → exec (.tapAccess i) s = .next s))

/-! ### Freeze and the TAP (chapters 22 and 24) -/

/-- A request for a freeze that is honoured, from the pin, a session or the register, marks the freeze as requested with its source, and nothing
else but the session's answer and clock changes.

The clocks stop once every running die's controllers are in self-refresh; the image goes out on the open session and can be read again; DRAM is
read after an image; RESUME runs the clocks again.  What scan chains and check bits hold is free. -/
def Obligations.FreezesAreTakenReadAndResumed : Prop :=
  (∀ s : State, s.mayFreeze = true →
     (s.pinArmed = true → exec .freezePin s = .next { s with frz := { s.frz with requested := true, source := 1 } }) ∧
     (∀ who, who.canAccess = true → s.privileged who = true →
       exec (.frzCtlFreeze who) s = .next { s with frz := { s.frz with requested := true, source := 3 } }) ∧
     (∀ (x : Session) (role : Nat), InSession s x role → (role = 1 ∨ role = 2) →
       ∃ t, exec .freeze s = .next t ∧ Accepted s t ∧
         t = { s with
           frz := { s.frz with requested := true, source := 2 }
           sec := { s.sec with session := some { x with lastDt := s.deviceTime } }
           out := t.out
           freeCtr := t.freeCtr })) ∧
  ((∀ s : State, s.frz.requested = true → s.frz.stopped = false →
     (∀ d < s.nDies, s.dieUp d = true → ∀ k < 8, (s.ctl d k).selfRefresh = true) →
     ∃ t, exec .clockStop s = .next t ∧ t.frz.stopped = true ∧ t.frz.stopDt = s.deviceTime ∧ t.frz.dram = false ∧
       t.frz.image = s.sec.session.isSome ∧ t.mem = s.mem ∧ t.dies = s.dies ∧ t.deviceTime = s.deviceTime ∧
       t.out.replies.length = s.out.replies.length + bit s.sec.session.isSome) ∧
   (∀ (s : State) (x : Session), s.served = true → s.sec.session = some x → (x.role = 1 ∨ x.role = 2) → s.sec.lifecycle ≠ 0 →
     s.sec.lifecycle ≠ 2 → s.frz.stopped = true →
     (∃ t, exec .readState s = .next t ∧ t.frz = { s.frz with image := true, intact := true } ∧
       t.out.replies.length = s.out.replies.length + 1 ∧ t.mem = s.mem ∧ t.dies = s.dies ∧ t.regs = s.regs) ∧
     (∀ d first last, d < s.nDies → first ≤ last → last < 1835008 → s.frz.image = true →
       ∃ t, exec (.readDram d first last) s = .next t ∧ t.frz = { s.frz with dram := true } ∧ t.getF 6 .frzStatus_last_dram = 1 ∧
         t.out.replies.length = s.out.replies.length + 1 ∧ t.mem = s.mem ∧ t.dies = s.dies) ∧
     (s.frz.intact = true →
       ∃ t, exec .resume s = .next t ∧ Accepted s t ∧ t.frz = { s.frz with requested := false, stopped := false, mesh := t.frz.mesh } ∧
         t.deviceTime = s.deviceTime ∧ t.flags = s.flags ∧ (s.ring.up = false → t.mem = s.mem)) ∧
     (∃ t w, exec .freezeStatus s = .next t ∧ Replied s t 0x26 (toLE 4 (BitVec.toNat w)) ∧
       fieldOf w Fld.frzStatus_permitted.lsb Fld.frzStatus_permitted.width = bit s.mayFreeze ∧
       fieldOf w Fld.frzStatus_pin_armed.lsb Fld.frzStatus_pin_armed.width = bit (s.mayFreeze && s.pinArmed) ∧
       fieldOf w Fld.frzStatus_count.lsb Fld.frzStatus_count.width = s.getF 6 .frzStatus_count ∧
       t = { s with out := t.out, freeCtr := t.freeCtr, sec := { s.sec with session := some { x with lastDt := s.deviceTime } } })))

/-- A freeze request that is not honoured, its condition in Table FRZ-1 not met or the module not in a state to freeze, changes nothing: it is counted in
FRZ_REFUSED and raises event 0x0F10, with value 1 for the pin, 2 for a session (which is answered REFUSE) and 3 for a register; one made while frozen
is ignored and not counted. -/
def Obligations.RefusedFreezeRequestsAreOnlyCounted : Prop :=
  ∀ s : State,
    (s.frz.stopped = false → ∀ t, t = (fun source => (s.bumpF 6 .frzRefused_refused).raise 0x0F10 source) →
      (t 1).getF 6 .frzRefused_refused = cap 65535 (s.getF 6 .frzRefused_refused + 1) ∧
      (s.mayFreeze = false ∨ s.pinArmed = false → exec .freezePin s = .next (t 1)) ∧
      (∀ who, who.canAccess = true → s.privileged who = true → s.mayFreeze = false → exec (.frzCtlFreeze who) s = .next (t 3)) ∧
      (∀ (x : Session) (role : Nat), InSession s x role → role ≤ 4 → s.mayFreeze = false ∨ (role ≠ 1 ∧ role ≠ 2) →
        ∃ u, exec .freeze s = .next u ∧ Refused s u ∧
          u = { t 2 with
            sec := { s.sec with session := some { x with lastDt := s.deviceTime } }
            out := u.out
            freeCtr := u.freeCtr })) ∧
    (s.frz.stopped = true →
      exec .freezePin s = .next s ∧
      (∀ who, who.canAccess = true → s.privileged who = true → exec (.frzCtlFreeze who) s = .next s) ∧
      (∀ x : Session, s.served = true → s.sec.session = some x → x.role ≤ 2 →
        ∃ u, exec .freeze s = .next u ∧ Refused s u ∧
          u = { s with
            sec := { s.sec with session := some { x with lastDt := s.deviceTime } }
            out := u.out
            freeCtr := u.freeCtr }))

/-! ### Frames and the frame graph (chapter 03) -/

/-- A frame start that is due, with no C-die in restart and the module in service: the frame root runs on, its next number goes up by one modulo 2^32,
the slot begins where the last one ended, and until wall time has been synchronised the slot has its nominal length.

A frame start message takes effect 32 arithmetic cycles after the start, in order; while an instance of the frame 4 earlier exists it is held,
counted and recorded instead, and takes effect when none does. -/
def Obligations.FrameStartsAdvanceAndTakeEffect : Prop :=
  (∀ s : State, s.startDue = true → (∀ d, (s.die d).restart = none) → s.saf.outOfService = false → s.saf.nextMode = none →
     ∃ t, exec .frameStart s = .next t ∧ t.root.running = true ∧ t.root.next = s.root.next + 1 ∧
       t.root.startDt = (if s.root.running then s.root.startDt + s.root.slotLen else s.deviceTime) ∧
       (s.time.everSynced = false → t.root.slotLen = s.slotNominal) ∧ t.boot.framed = true ∧
       (∃ x, t.root.starts.getLast? = some x ∧ x.frame = s.root.next ∧ x.dt = t.root.startDt) ∧
       ((∀ c < 64, (s.ctxCfg c).enable = false) → ∀ d < s.nDies, d < s.dies.length → s.dieUp d = true → s.coreCount d ≠ 0 →
         s.reach 6 d = true →
         ∃ g, (t.die d).seq.starts = (s.die d).seq.starts ++ [g] ∧ g.start.frame = s.root.next ∧ g.rejoin = false)) ∧
  ((∀ (s : State) (d : Nat) (g : DieFrame) (rest : List DieFrame), (s.die d).seq.starts = g :: rest → d < s.dies.length →
     s.dieUp d = true → g.start.dt + 32 ≤ s.deviceTime →
     (s.mustHold d g.start.frame = false → (s.die d).seq.heldStarts = [] →
       exec (.frameStartEffect d) s = .next ((s.modSeq d (fun q => { q with starts := rest })).startEffect d g)) ∧
     (s.mustHold d g.start.frame = true ∨ (s.die d).seq.heldStarts ≠ [] →
       ∃ t, exec (.frameStartEffect d) s = .next t ∧ (t.die d).seq.starts = rest ∧
         (t.die d).seq.heldStarts = (s.die d).seq.heldStarts ++ [g] ∧ (t.die d).seq.frames = (s.die d).seq.frames ∧
         t.evDue = (s.raise 0x0202 ((s.die d).seq.heldStarts.length + 1) d).evDue ∧
         t.getF d .seqHeldStarts_value = cap 4294967295 (s.getF d .seqHeldStarts_value + 1) ∧
         t = { s with regs := t.regs, dies := t.dies, evDue := t.evDue })) ∧
   (∀ (s : State) (d : Nat) (g : DieFrame) (rest : List DieFrame), (s.die d).seq.heldStarts = g :: rest → s.dieUp d = true →
     s.mustHold d g.start.frame = false →
     exec (.heldStartEffect d) s = .next ((s.modSeq d (fun q => { q with heldStarts := rest })).startEffect d g)))

/-- What moves an instance on, and then settles its die: its trigger offset has elapsed; a completion notice arrives over links that are up; its INGRESS
window opens without a message; its window closes and it falls to the late rule; or the fence has cleared and the new variant's table is
loaded. -/
def Obligations.InstancesMoveOnByTheirEvents : Prop :=
  (∀ (s : State) (d node : Nat) (f : Word) (i : Inst), s.frz.stopped = false → s.inst d node f = some i → i.complete = false →
    i.startDt + (s.node i.variant node).offset ≤ s.deviceTime →
    exec (.frameTriggerOffset d node f) s = .next ((s.modInst d node f (fun x => { x with offsetMet := true })).settle d)) ∧
  (∀ (s : State) (src dst : Nat) (n : Notice), s.notices.find? (fun m => m.src == src && m.dst == dst) = some n →
    (s.dieUp dst = true → s.reach src dst = true →
      exec (.completionNotice src dst) s =
        .next ((({ s with notices := s.notices.erase n } : State).deliverEdge dst n.ev).settle dst)) ∧
    (s.dieUp dst = false ∨ s.reach src dst = false →
      exec (.completionNotice src dst) s = .next { s with notices := s.notices.erase n })) ∧
  (∀ (s : State) (d node : Nat) (f : Word) (i : Inst), s.frz.stopped = false → s.inst d node f = some i → i.complete = false →
    i.ended = none → (s.node i.variant node).kind = .ingress → i.startDt + (s.node i.variant node).winOpen ≤ s.deviceTime →
    exec (.ingressWindowOpen d node f) s = .next ((s.modInst d node f (fun x => { x with
      ended := some (if s.ringHasFrame d (s.ingressRing d (s.node i.variant node)) f then Status.done else Status.skipped) })).settle d)) ∧
  (∀ (s : State) (d node : Nat) (f : Word) (i : Inst), s.frz.stopped = false → s.inst d node f = some i → i.complete = false →
    i.late = false → i.startDt + (s.node i.variant node).winClose ≤ s.deviceTime →
    exec (.winClose d node f) s = .next ((s.lateRule d i).settle d)) ∧
  (∀ (s : State) (d : Nat) (g : DieFrame), s.frz.stopped = false →
    (s.die d).seq.frames.find? (fun g => some g.variant != (s.die d).seq.loaded && (s.die d).seq.live g.start.frame) = some g →
    (s.die d).seq.fence = true → (∀ i ∈ (s.die d).seq.insts, i.complete = true ∨ precedes i.frame g.start.frame = false) →
    (∀ p ∈ (s.die d).seq.toCreate, precedes p.2.start.frame g.start.frame = false) →
    exec (.variantLoad d) s =
      .next (((s.modSeq d (fun q => { q with loaded := some g.variant })).refill d (s.variant g.variant).cores).settle d))

/-! ### Dispatch and hardware queues (chapter 04) -/

/-- The held task that goes first takes the lowest-numbered free slot, one in a cycle, and so does a task that firmware pushes where none is held:
without a wait it is READY in the list its placement
selects, with a wait on another die it is WAITING and a watch is on its way; a push with no slot, or beyond the limit of pushed tasks, is
refused with its cause and counted.

A free unit that the head's arbiter picks takes the head of the list that R119 chooses, one from a list in a cycle: the task is RUNNING on it and
has left the list. -/
def Obligations.TasksTakeSlotsAndAreDispatched : Prop :=
  ((∀ (s : State) (d k : Nat) (h : HeldTask), d < s.dies.length → s.dieUp d = true → (s.die d).seq.grantDt ≠ some s.deviceTime →
     s.nextHeld d = some h → s.freeSlot d = some k → h.desc.placed = true → h.desc.kind ≠ 6 →
     (h.desc.waitEn = false →
       ∃ t x q, exec (.slotGrant d) s = .next t ∧ t.slot d k = some x ∧ x.desc = h.desc ∧ x.state = .ready ∧
         h.desc.list = some q ∧ k ∈ t.readyList d q ∧ t.mem = s.mem ∧ t.flags = s.flags ∧ t.travel = s.travel ∧
         (t.die d).seq.heldTasks.length + 1 = (s.die d).seq.heldTasks.length) ∧
     (h.desc.waitEn = true → h.desc.waitDie ≠ d → h.desc.waitDie < s.nDies →
       ∃ t x, exec (.slotGrant d) s = .next t ∧ t.slot d k = some x ∧ x.desc = h.desc ∧ x.state = .waiting ∧ t.mem = s.mem ∧
         t.flags = s.flags ∧ t.travel = s.travel ++ [⟨.watch, d, h.desc.waitDie, k, h.desc.waitFlag, h.desc.waitValue, false⟩])) ∧
   (∀ (s : State) (who : Init) (d list : Nat), who.canAccess = true → s.privileged who = true → d < s.nDies → d < s.dies.length →
     readyListDefined list = true → s.dieUp d = true →
     let desc := TaskDesc.ofBytes (((List.range 8).map (fun i => toLE 4 (s.getF d .dspPushData_word i))).flatten)
     let used := ((s.die d).seq.slots.filter (fun p => p.2.sw)).length
     (∀ k, s.freeSlot d = some k → used < (s.plan d).swLimit → s.nextHeld d = none → s.cancelWaits d true k = false →
       desc.waitEn = false → desc.kind ≠ 6 →
       ∃ t x, exec (.dspPush who d list) s = .next t ∧ t.slot d k = some x ∧ x.desc = desc ∧ x.sw = true ∧ x.state = .ready ∧
         k ∈ t.readyList d list ∧ t.getF d .dspPushResult_result = 1 ∧ t.getF d .dspPushResult_slot = k % 2048 ∧
         t.mem = s.mem ∧ t.flags = s.flags) ∧
     (s.freeSlot d = none ∨ (s.plan d).swLimit ≤ used →
       ∃ t, exec (.dspPush who d list) s = .next t ∧ t.getF d .dspPushResult_result = 2 ∧
         t.getF d .dspPushResult_cause = bit (s.freeSlot d).isSome ∧ t.dies = s.dies ∧ t = { s with regs := t.regs }))) ∧
  (∀ (s : State) (d u q r k : Nat) (tied rest : List Nat) (x : Slot), d < s.dies.length → s.dieUp d = true → s.unitFree d u = true →
     s.choose d u = some (q, r, tied) → s.readyList d q = k :: rest → s.slot d k = some x →
     arbPick (s.arbiter d (listHeadKey q)) ((s.contenders d q).map (fun v => s.headRank d v r)) = some (s.headRank d u r) →
     Map.get 0 (s.die d).seq.gave q ≠ s.deviceTime + 1 → s.slotClosing d k x = false → s.beginOk d u x.desc = true →
     ∃ t y, exec (.dispatch d u) s = .next t ∧ (t.unit d u).running = some k ∧ (t.unit d u).startDt = s.deviceTime ∧
       t.readyList d q = rest ∧ t.slot d k = some y ∧ y.desc = x.desc ∧ y.state = .running ∧ y.unit = u ∧
       t.flags = s.flags ∧ t.deviceTime = s.deviceTime ∧ t.out = s.out ∧ (72 ≤ u → t.mem = s.mem))

/-- The end of a task: a clean one records DONE (SUBSTITUTED for a substitute), one stopped by the late rule or past its window TIMEOUT, with its unit
free again; a unit that has not reported 2,048 cycles after it was stopped is substituted, and without a spare that is UNRECOVERED.

A completion record that may be written, with its queue not full and no rival of the same cycle, is written and its slot freed; one that an
earlier instance of its node still holds back moves to the withheld-record store; refused producers retry; software's consumer index frees entries
of a completion or ingress queue. -/
def Obligations.TaskEndsReachTheirQueues : Prop :=
  ((∀ (s : State) (d u k : Nat) (y : Slot) (e : TaskEnd), s.dieUp d = true → (s.unit d u).running = some k → s.slot d k = some y →
     (s.unitDone d u = true ∨ y.stopped = true ∨ 86 ≤ u) → ∀ w, w = (if u < 72 then s.portsAll d u else s) →
     endKind (w.unit d u) e = .clean → ∀ oor, oor = (if 86 ≤ u then cap 0xFFFF e.oor else (w.unit d u).oor) →
     exec (.unitEndReport d u e) s = .next
       ((if w.tooLate d y then ((w.closeTracks d u false).freeUnit d u).endTask d k u y .timeout oor
         else (((w.closeTracks d u true).engineDone d u).freeUnit d u).endTask d k u y (if y.substitute then .substituted else .done)
           oor).settle d)) ∧
   (∀ (s : State) (d u k : Nat) (y : Slot), s.dieUp d = true → (s.unit d u).running = some k → s.slot d k = some y →
     y.stopped = true → y.stopDt + 2048 ≤ s.deviceTime →
     ∀ s1, s1 = ((s.closeTracks d u false).freeUnit d u).endTask d k u y .timeout (s.unit d u).oor →
     exec (.hungUnit d u) s = .next
       ((if (s1.substitute d u false).2.isSome then (s1.substitute d u false).1
         else (s1.substitute d u false).1.doubt dUNRECOVERED d y.desc.frame).settle d)) ∧
   (∀ (s : State) (d k u : Nat) (y : Slot) (st : Status) (oor : Nat), d < s.dies.length → s.slot d k = some y →
     ((s.endTask d k u y st oor).slot d k = some { y with state := .withheld }) ∧
     ((s.endTask d k u y st oor).die d).seq.owed = (s.die d).seq.owed ++ [s.endRecord d k u y st oor] ∧
     ((s.unit d u).writes = [] → (s.endTask d k u y st oor).mem = s.mem))) ∧
  ((∀ (s : State) (d k : Nat) (o : Owed), s.dieUp d = true → s.owedIn d k = some o →
     (s.mayWrite d o = true → s.cqFull d o.cq = false →
       ((s.die d).seq.owed.filter (fun p => p.slot.isSome && p.cq == o.cq && p.record.dt == o.record.dt && s.mayWrite d p)) = [o] →
       s.arbiter d (0x10000 + o.cq) = none →
       exec (.completionRecordWrite d k) s = .next ((s.writeOwed d o).settle d)) ∧
     (s.mayWrite d o = false → exec (.completionRecordWrite d k) s = .next ((s.recordOut d k o).settle d))) ∧
   (∀ (s : State) (d q : Nat), s.dieUp d = true → exec (.queueRetry d q) s = .next (s.retryQueue d q)) ∧
   (∀ (s : State) (who : Init) (d q : Nat) (v : Word), who.canAccess = true → s.privileged who = true → d < s.nDies → s.dieUp d = true →
     q = s.getF d .dspQSel_queue → (s.queueKind d q = .cq ∨ s.queueKind d q = .ingress) →
     (Sys2Proof.Machine.Ring.mk (s.ringOf d q).prod (v.toNat % (2 * (s.queue d q).size))).depth (s.queue d q) ≤ (s.ringOf d q).depth (s.queue d q) →
     exec (.dspQHeadWrite who d v) s =
       .next ((s.setRing d q { s.ringOf d q with cons := v.toNat % (2 * (s.queue d q).size) }).retryQueue d q)))

/-- Cancellation by software: of a node's instance, its undispatched tasks or, before its release, all its tasks, with the count in
DSP_CANCEL_RESULT and a doubt while the module is in service; of a slot, one pushed task that waits or is READY.  With nothing to cancel the count is
0 and nothing else changes. -/
def Obligations.SoftwareCancelsWork : Prop :=
  ∀ (s : State) (who : Init) (d : Nat), who.canAccess = true → s.privileged who = true → d < s.nDies → s.dieUp d = true →
    (∀ node, (s.die d).seq.insts.find? (fun i => i.node == node && i.frame == Word.ofNat (s.getF d .dspCancelFrame_frame) && !i.complete) = none →
      exec (.dspCancelNode who d node) s = .next (s.setF d .dspCancelResult_count 0)) ∧
    (∀ node i, (s.die d).seq.insts.find? (fun i => i.node == node && i.frame == Word.ofNat (s.getF d .dspCancelFrame_frame) && !i.complete) = some i →
      (s.node i.variant i.node).kind = .tasks → i.released = false → i.late = false → i.cancelAtRelease = false →
      s.saf.outOfService = false → 0 < (s.node i.variant i.node).tasks →
      exec (.dspCancelNode who d node) s = .next
        ((((s.modInst d node (Word.ofNat (s.getF d .dspCancelFrame_frame)) (fun j => { j with cancelAtRelease := true })).setF d
          .dspCancelResult_count (s.node i.variant i.node).tasks).doubt dCANCEL d (Word.ofNat (s.getF d .dspCancelFrame_frame)) node).settle d)) ∧
    (∀ slot, (∀ x, s.slot d slot = some x → x.sw = false ∨ (x.state ≠ .waiting ∧ x.state ≠ .ready)) →
      exec (.dspCancelSlot who d slot) s = .next (s.setF d .dspCancelResult_count 0)) ∧
    (∀ slot x, s.slot d slot = some x → x.sw = true → (x.state = .waiting ∨ x.state = .ready) →
      ∃ o, o.record.status = .cancelled ∧ o.record.node = x.desc.node ∧ o.record.frame = x.desc.frame ∧ o.cq = x.desc.cq ∧ o.slot = none ∧
        o.post = none ∧ exec (.dspCancelSlot who d slot) s = .next
          ((((((s.leaveList d slot).freeTheSlot d slot).owe d [o]).setF d .dspCancelResult_count 1)).settle d))

/-! ### Hardware flags (chapter 09) -/

/-- An add and a set reach a flag of a die that runs: the flag holds what the cycle's set left, or its value before the cycle, plus the sum of the
cycle's adds modulo 2^32; of two sets of one cycle either value stands; a second update of one initiator starts from the first's value; a read
answers the value before the cycle's updates; no other flag changes.  A held flag discards both and reads zero; a word found uncorrectable is held;
an update to a die that does not run, or over a lost link, has no effect. -/
def Obligations.FlagAddAndSet : Prop :=
  ∀ (s : State) (src : FlagSrc) (d f : Nat) (v : Word), s.frz.stopped = false → d < s.nDies → d < s.dies.length → f < 4096 →
    s.flagMiss src = false →
    (s.dieUp d = true → s.reach src.die d = true → manyWrong (Map.get 0 s.upsets (flagWord d f)) = false → f ∉ (s.die d).flagHeld →
      (src.allowed false = true → (src.travels = true → (⟨.add, src.die, d, 0, f, v, false⟩ : Travel) ∈ s.travel) →
        ∃ t, exec (.flagAdd src d f v false) s = .next t ∧
          (src.key ∉ (s.flagCyc d f).froms →
            t.flagVal d f = (s.flagCyc d f).set.getD (s.flagCyc d f).before + ((s.flagCyc d f).sum + v) ∧
            (t.flagRead d f).1 = (s.flagCyc d f).before ∧
            (∀ e g, g < 4096 → (e, g) ≠ (d, f) → t.flagVal e g = s.flagVal e g) ∧
            t = { s with dies := t.dies, flags := t.flags, upsets := t.upsets, regs := t.regs, tally := t.tally, travel := t.travel }) ∧
          (src.key ∈ (s.flagCyc d f).froms → (∀ p ∈ (s.die d).seq.slots, p.2.state ≠ .waiting) →
            t.flagVal d f = s.flagVal d f + v ∧ (∀ e g, g < 4096 → (e, g) ≠ (d, f) → t.flagVal e g = s.flagVal e g) ∧
            t.mem = s.mem ∧ t.poison = s.poison)) ∧
      (src.allowed true = true →
        ∃ t, exec (.flagSet src d f v false) s = .next t ∧
          (src.key ∉ (s.flagCyc d f).froms →
            ((s.flagCyc d f).set = none → t.flagVal d f = v + (s.flagCyc d f).sum) ∧
            (∀ w, (s.flagCyc d f).set = some w →
              t.flagVal d f = v + (s.flagCyc d f).sum ∨ t.flagVal d f = w + (s.flagCyc d f).sum) ∧
            (t.flagRead d f).1 = (s.flagCyc d f).before ∧
            (∀ e g, g < 4096 → (e, g) ≠ (d, f) → t.flagVal e g = s.flagVal e g) ∧
            t = { s with dies := t.dies, flags := t.flags, upsets := t.upsets, freeCtr := t.freeCtr }) ∧
          (src.key ∈ (s.flagCyc d f).froms → (∀ p ∈ (s.die d).seq.slots, p.2.state ≠ .waiting) →
            t.flagVal d f = v ∧ (∀ e g, g < 4096 → (e, g) ≠ (d, f) → t.flagVal e g = s.flagVal e g) ∧
            t.mem = s.mem ∧ t.poison = s.poison))) ∧
    (src.allowed true = true → s.dieUp d = true → s.reach src.die d = true → f ∈ (s.die d).flagHeld →
      manyWrong (Map.get 0 s.upsets (flagWord d f)) = false →
      exec (.flagSet src d f v false) s = .next s ∧ (s.flagRead d f).1 = 0) ∧
    (src.allowed true = true → s.dieUp d = true → s.reach src.die d = true → f ∉ (s.die d).flagHeld →
      ∀ bad, bad = true ∨ manyWrong (Map.get 0 s.upsets (flagWord d f)) = true →
      exec (.flagSet src d f v bad) s = .next (s.holdFlag d f) ∧ f ∈ ((s.holdFlag d f).die d).flagHeld ∧ (s.holdFlag d f).flagVal d f = 0 ∧
        ⟨dFLAG, d, 0, .plain, s.frame⟩ ∈ (s.holdFlag d f).doubtDue) ∧
    (src.allowed true = true → s.dieUp d = false ∨ s.reach src.die d = false → exec (.flagSet src d f v false) s = .next s) ∧
    (src.allowed false = true → src.travels = false → s.dieUp d = false ∨ s.reach src.die d = false →
      exec (.flagAdd src d f v false) s = .next s)

/-- A watch that reaches the die it watches: met at once if the flag meets its value, refused by a full table or a die that does not run and counted
once, else held; a lost link loses it; a refused watch is sent again; a met notice makes the waiting task of its slot go on; and the watch of a
task that no longer waits is withdrawn. -/
def Obligations.WatchesAreMetHeldOrRefused : Prop :=
  (∀ (s : State) (src dst : Nat) (w : Travel), s.travel.find? (fun t => t.kind == .watch && t.src == src && t.dst == dst) = some w →
    dst < s.dies.length →
    (src < 8 → s.reach src dst = false → exec (.watchArrive src dst) s = .next { s with travel := s.travel.erase w }) ∧
    ((s.reach src dst = true ∨ 8 ≤ src) → s.dieUp dst = true → (s.die dst).watches.length < 1024 →
      manyWrong (Map.get 0 s.upsets (flagWord dst w.flag)) = false → s.flagMeets dst w.flag w.value = true →
      exec (.watchArrive src dst) s = .next { s with
        travel := s.travel.erase w ++ [⟨.met, dst, src, w.slot, w.flag, w.value, w.counted⟩] }) ∧
    ((s.reach src dst = true ∨ 8 ≤ src) → s.dieUp dst = true → (s.die dst).watches.length < 1024 →
      manyWrong (Map.get 0 s.upsets (flagWord dst w.flag)) = false → s.flagMeets dst w.flag w.value = false →
      ∃ t, exec (.watchArrive src dst) s = .next t ∧ t.travel = s.travel.erase w ∧
        (t.die dst).watches = (s.die dst).watches ++ [⟨src, w.slot, w.flag, w.value, w.counted⟩] ∧
        t = { s with regs := t.regs, dies := t.dies, travel := t.travel }) ∧
    ((s.reach src dst = true ∨ 8 ≤ src) → s.dieUp dst = false ∨ 1024 ≤ (s.die dst).watches.length →
      ∃ t, exec (.watchArrive src dst) s = .next t ∧ t.travel = s.travel.erase w ++ [{ w with kind := .refused, counted := true }] ∧
        t = { s with regs := t.regs, travel := t.travel } ∧
        t.getF dst .flgWatch_refused =
          if w.counted then s.getF dst .flgWatch_refused else cap 65535 (s.getF dst .flgWatch_refused + 1))) ∧
  (∀ (s : State) (src dst : Nat) (w : Travel), s.frz.stopped = false →
    s.travel.find? (fun t => t.kind == .refused && t.src == src && t.dst == dst) = some w →
    exec (.watchRetry src dst) s = .next { s with travel := s.travel.erase w ++ [{ w with kind := .watch }] }) ∧
  (∀ (s : State) (src dst slot : Nat), s.frz.stopped = false →
    (∀ x, s.slot src slot = some x → x.state ≠ .waiting ∨ x.desc.waitDie ≠ dst) → dst < s.dies.length →
    ∃ t, exec (.watchWithdraw src dst slot) s = .next t ∧ t = { s with travel := t.travel, dies := t.dies, regs := t.regs } ∧
      (∀ w ∈ (t.die dst).watches, w.src ≠ src ∨ w.slot ≠ slot) ∧
      (∀ w ∈ t.travel, w ∈ s.travel ∧ ((w.kind ≠ .watch ∧ w.kind ≠ .refused) ∨ w.src ≠ src ∨ w.dst ≠ dst ∨ w.slot ≠ slot))) ∧
  (∀ (s : State) (src dst : Nat) (w : Travel) (x : Slot), s.frz.stopped = false →
    s.travel.find? (fun t => t.kind == .met && t.src == src && t.dst == dst) = some w → s.reach src dst = true →
    dst < 8 → w.slot < 4096 → s.slot dst w.slot = some x → x.state = .waiting → x.desc.waitDie = src → x.desc.waitFlag = w.flag →
    x.desc.waitValue = w.value →
    exec (.watchMetNotice src dst) s = .next (({ s with travel := s.travel.erase w } : State).makeReady dst w.slot))

/-! ### Scratchpads and commons (chapter 09) -/

/-- A request to a scratchpad waits at its remote port, which accepts one in a cycle, and the oldest eligible one of those with no older request to
their bank is performed, one in a cycle: a read answers the 64 bytes as stored with the marks of their codewords and changes no memory, a write
changes its bytes alone; a die in restart discards writes and answers reads with poison and a tag.

The patrols of scratchpads and commons: whatever the decoders show, the patrol goes on to its next row and no stored byte changes; a codeword that
cannot be corrected is poisoned; a bank of the commons that corrected a row writes it back in its next turn; and a patrol that is not due does
nothing. -/
def Obligations.RemotePortsAndPatrols : Prop :=
  ((∀ (s : State) (d c : Nat) (req : RemoteReq), d < s.nDies → c < 72 → req.addr < 0x60000 →
     req.addr % 64 + (match req.write with | some l => l.length | none => 64) ≤ 64 →
     s.dieUp d = true → (s.unit d c).underTest = false → (s.core d c).remote.length < 32 → d < s.dies.length →
     ((s.core d c).acceptDt ≠ some s.deviceTime →
       ∃ t, exec (.remoteRequest d c req) s = .next t ∧ t = { s with dies := t.dies } ∧
         (t.core d c).remote = (s.core d c).remote ++ [⟨req.addr, req.write, req.poison, s.deviceTime⟩]) ∧
     ((s.core d c).acceptDt = some s.deviceTime → exec (.remoteRequest d c req) s = .next s)) ∧
   (∀ (s : State) (d c : Nat) (r : RemoteItem), s.dieUp d = true → d < s.nDies → d < s.dies.length → c < 72 → r.addr < 0x60000 →
     (s.core d c).remoteDt ≠ some s.deviceTime → s.nextRemote d c = some r →
     ∃ t, exec (.remoteAccess d c) s = .next t ∧ (t.core d c).remote = (s.core d c).remote.erase r ∧
       (r.write = none → ∃ m : BitVec 4,
         (∀ k < 4, m.getLsbD k = s.poisonAt (spdBase d c + r.addr / 64 * 64 + 16 * k)) ∧
         t = { s with regs := t.regs, dies := t.dies, perFrame := t.perFrame, out := { s.out with
           remote := s.out.remote ++ [(s.bytesAt (spdBase d c + r.addr / 64 * 64) 64, m)] } }) ∧
       (∀ l, r.write = some l → r.addr % 64 + l.length ≤ 64 →
         (∀ i (h : i < l.length), t.byteAt (spdBase d c + r.addr + i) = l[i]) ∧
         (∀ a, a < spdBase d c + r.addr ∨ spdBase d c + r.addr + l.length ≤ a → t.byteAt a = s.byteAt a) ∧
         t = { s with dies := t.dies, perFrame := t.perFrame, mem := t.mem, poison := t.poison, upsets := t.upsets, out := { s.out with
           remote := s.out.remote ++ [([], 0)] } })) ∧
   (∀ (s : State) (d addr : Nat), s.addrDie addr = some d → (s.die d).restart ≠ none →
     exec (.restartTaggedAccess d addr none) s =
         .next { s with out := { s.out with remote := s.out.remote ++ [(s.read addr 64, 0xF)] } } ∧
     ∀ data, exec (.restartTaggedAccess d addr (some data)) s = .next s)) ∧
  ((∀ (s : State) (d c : Nat) (obs : List Ecc), s.dieUp d = true → d < s.dies.length → c < 72 → (s.unit d c).retired = false →
     (s.hyperEntry d c = 255 → (s.core d c).patrolDt ≠ some s.deviceTime →
       ∃ t, exec (.spdPatrol d c obs) s = .next t ∧ (t.core d c).patrolRow = ((s.core d c).patrolRow + 1) % 392 ∧
         t = { s with regs := t.regs, dies := t.dies, poison := t.poison, upsets := t.upsets } ∧
         ((∀ e ∈ obs, e = .clean) → s.upsets = [] → t.poison = s.poison ∧ (t.core d c).repairQueue = (s.core d c).repairQueue) ∧
         (∀ i r, i < 64 → obs.getD i .clean = .uncorrectable → s.tableRules d c = false →
           (s.core d c).patrolFix.find? (fun p => p.1 == i / 4) = none →
           servedRow (Map.get [] (s.core d c).spareRows (i / 4)) 384 (s.core d c).patrolRow = some r →
           Map.get 0 s.upsets ((spdBase d c + r * 1024 + i / 4 * 64 + i % 4 * 16) / 16) = 0 →
           t.poisonAt (spdBase d c + r * 1024 + i / 4 * 64 + i % 4 * 16) = true)) ∧
     (s.hyperEntry d c ≠ 255 ∨ (s.core d c).patrolDt = some s.deviceTime → exec (.spdPatrol d c obs) s = .next s)) ∧
   (∀ (s : State) (d bank : Nat) (obs : List Ecc), s.dieUp d = true → d < s.dies.length → bank < 64 →
     (Map.get 0 (s.die d).cmnDt bank ≤ s.deviceTime →
       ∃ t, exec (.cmnPatrol d bank obs) s = .next t ∧
         Map.get 0 (t.die d).cmnRow bank = (Map.get 0 (s.die d).cmnRow bank + 1) % 8208 ∧
         t = { s with regs := t.regs, dies := t.dies, poison := t.poison, upsets := t.upsets, perFrame := t.perFrame } ∧
         ((s.die d).cmnFix.find? (fun p => p.1 == bank) ≠ none →
           t.poison = s.poison ∧ (t.die d).cmnFix.find? (fun p => p.1 == bank) = none) ∧
         (∀ i r, i < 4 → obs.getD i .clean = .uncorrectable → (s.die d).cmnFix.find? (fun p => p.1 == bank) = none →
           servedRow (Map.get [] (s.die d).cmnRows bank) 8192 (Map.get 0 (s.die d).cmnRow bank) = some r → r < 8188 →
           Map.get 0 s.upsets ((chipBase d + r * 4096 + bank * 64 + i * 16) / 16) = 0 →
           t.poisonAt (chipBase d + r * 4096 + bank * 64 + i * 16) = true)) ∧
     (s.deviceTime < Map.get 0 (s.die d).cmnDt bank → exec (.cmnPatrol d bank obs) s = .next s)))

/-! ### LPDDR5X memory (chapter 15) -/

/-- Whole aligned codewords written to unlocked DRAM of a running die read back as written, clean ones free of poison and poisoned ones poisoned, and
every other byte is unchanged; a clean read of a burst answers its eight codewords as stored and changes no memory; a die in restart answers
them poisoned; at an address that is reserved a request is an error of the host's own making, and beyond the 40 bits of a module address it faults. -/
def Obligations.DramWriteThenRead : Prop :=
  (∀ (s : State) (d addr off : Nat) (data : List Byte) (poison : Bool), s.frz.stopped = false → s.region addr = .dram d off → addr % 16 = 0 →
    data.length % 16 = 0 → 0 < data.length → addr % 128 + data.length ≤ 128 → s.dieUp d = true →
    (s.ctl d (dramCtl off)).selfRefresh = false → (s.ctl d (dramCtl off)).failed = false →
    (∀ a, addr ≤ a → a < addr + data.length → s.lockedAt a = false) →
    ∃ t, exec (.dramWrite d addr data poison) s = .next t ∧
      (∀ i (h : i < data.length), t.byteAt (addr + i) = data[i]) ∧
      (∀ a, a < addr ∨ addr + data.length ≤ a → t.byteAt a = s.byteAt a) ∧
      (∀ i < data.length, t.poisonAt (addr + i) = poison) ∧
      (∀ a, a < addr ∨ addr + data.length ≤ a → t.poisonAt a = s.poisonAt a) ∧
      t = { s with mem := t.mem, poison := t.poison, upsets := t.upsets, perFrame := t.perFrame }) ∧
  (∀ (s : State) (d addr off : Nat), s.region addr = .dram d off →
    (s.dieUp d = true → (s.die d).restart = none → (s.ctl d (dramCtl off)).selfRefresh = false → (s.ctl d (dramCtl off)).failed = false →
      (∀ i < 8, s.poisonAt (addr / 128 * 128 + 16 * i) = false ∧ Map.get 0 s.upsets (addr / 128 * 8 + i) = 0) →
      ∃ t, exec (.dramRead d addr []) s = .next t ∧
        t = { s with perFrame := t.perFrame, out := { s.out with
          remote := s.out.remote ++ [(s.bytesAt (addr / 128 * 128) 64, 0), (s.bytesAt (addr / 128 * 128 + 64) 64, 0)] } }) ∧
    (∀ obs, (s.die d).restart ≠ none →
      exec (.dramRead d addr obs) s = .next { s with out := { s.out with
        remote := s.out.remote ++ [(s.bytesAt (addr / 128 * 128) 64, 0xF), (s.bytesAt (addr / 128 * 128 + 64) 64, 0xF)] } })) ∧
  (∀ (s : State) (d addr : Nat) (c : Instr), s.frz.stopped = false →
    (∃ obs, c = .dramRead d addr obs) ∨ (∃ data poison, c = .dramWrite d addr data poison) ∨ (∃ m, c = .dramMerge d addr m) →
    (s.region addr = .reserved → addr < 2 ^ 40 → exec c s = .next s.unpredictable) ∧
    (2 ^ 40 ≤ addr → exec c s = .fault (.noSuchAddress addr)))

/-- A write of one codeword into a write-locked range is discarded: no byte and no poison mark changes, the discard is counted, and the first
one's address is latched.

A merge changes the bytes it names within one codeword and nothing else in memory; an integer addition is modulo 2^32; a poisoned
codeword stays poisoned; an addition that is not aligned to its element is an error of the host's own making. -/
def Obligations.DramMergesAndLockedWrites : Prop :=
  (∀ (s : State) (d addr off : Nat) (data : List Byte) (poison : Bool), s.frz.stopped = false → s.region addr = .dram d off → addr % 16 = 0 →
     data.length = 16 → s.dieUp d = true → (s.ctl d (dramCtl off)).selfRefresh = false → (s.ctl d (dramCtl off)).failed = false →
     s.lockedAt addr = true →
     ∃ t, exec (.dramWrite d addr data poison) s = .next t ∧ t = { s with regs := t.regs, perFrame := t.perFrame } ∧
       t.getF d .memLocked_discarded (dramCtl off) =
         cap (2 ^ Fld.memLocked_discarded.width - 1) (s.getF d .memLocked_discarded (dramCtl off) + 1) ∧
       (s.getF d .memLockedAddrHi_valid (dramCtl off) = 0 → t.getF d .memLockedAddrHi_valid (dramCtl off) = 1 ∧
         t.getF d .memLockedAddrLo_addr (dramCtl off) = addr % 2 ^ 32 ∧ t.getF d .memLockedAddrHi_addr (dramCtl off) = addr / 2 ^ 32)) ∧
  (∀ (s : State) (d addr off : Nat), s.frz.stopped = false → s.region addr = .dram d off → addr % 16 = 0 → s.dieUp d = true →
     (s.ctl d (dramCtl off)).selfRefresh = false → (s.ctl d (dramCtl off)).failed = false →
     (∀ a, addr ≤ a → a < addr + 16 → s.lockedAt a = false) →
     (∀ (o : Nat) (l : List Byte), 0 < l.length → o + l.length ≤ 16 → ¬ (o = 0 ∧ l.length = 16) →
       ∃ t, exec (.dramMerge d addr (.bytes o l)) s = .next t ∧ (∀ i (h : i < l.length), t.byteAt (addr + o + i) = l[i]) ∧
         (∀ a, a < addr + o ∨ addr + o + l.length ≤ a → t.byteAt a = s.byteAt a) ∧ (∀ a, t.poisonAt a = s.poisonAt a) ∧
         t = { s with regs := t.regs, mem := t.mem, poison := t.poison, upsets := t.upsets, perFrame := t.perFrame }) ∧
     (∀ (o : Nat) (v : Word), o % 4 = 0 → o < 16 →
       (∃ t, exec (.dramMerge d addr (.addI32 o v)) s = .next t ∧ t.memLE (addr + o) 4 = (s.memLE (addr + o) 4 + v.toNat) % 2 ^ 32 ∧
         (∀ a, a < addr + o ∨ addr + o + 4 ≤ a → t.byteAt a = s.byteAt a) ∧ (∀ a, t.poisonAt a = s.poisonAt a)) ∧
       (∃ t, exec (.dramMerge d addr (.addF32 o v)) s = .next t ∧
         t.memLE (addr + o) 4 = f32add (s.memLE (addr + o) 4) v.toNat % 2 ^ 32 ∧
         (∀ a, a < addr + o ∨ addr + o + 4 ≤ a → t.byteAt a = s.byteAt a) ∧ (∀ a, t.poisonAt a = s.poisonAt a))) ∧
     (∀ (o : Nat) (v : Word), o % 4 ≠ 0 → exec (.dramMerge d addr (.addI32 o v)) s = .next s.unpredictable ∧
       exec (.dramMerge d addr (.addF32 o v)) s = .next s.unpredictable))

/-- The DRAM patrol writes back what it corrected, or reads its next burst, and no stored byte changes; a queued slice is retired to the
lowest free slice of the pool with its record, or with none free stays in service under a doubt.

Refresh, temperature, calibration and self-refresh of a controller: memory keeps its bytes through all of them, but that a write that waited in the
mesh lands when self-refresh ends; a calibration is due after 32 ms or a move of more than 10 °C, runs in a quiet window it can finish in or is
forced after 100 ms, and one that fails fails its pair. -/
def Obligations.DramMaintenanceKeepsMemory : Prop :=
  ((∀ (s : State) (d k : Nat) (obs : List Ecc), s.dieUp d = true → d < s.dies.length → k < 8 → (s.ctl d k).selfRefresh = false →
     (s.ctl d k).failed = false →
     ((s.ctl d k).fix ≠ [] →
       ∃ t, exec (.dramPatrol d k obs) s = .next t ∧ (t.ctl d k).fix = [] ∧ (t.ctl d k).patrol = (s.ctl d k).patrol ∧
         t = { s with dies := t.dies, perFrame := t.perFrame, upsets := t.upsets }) ∧
     ((s.ctl d k).fix = [] →
       ∃ t, exec (.dramPatrol d k obs) s = .next t ∧
         (t.ctl d k).patrol = (if (s.ctl d k).patrol + 1 = slicesAll * 64 then 0 else (s.ctl d k).patrol + 1) ∧
         t.mem = s.mem ∧ t.flags = s.flags ∧ t.out = s.out ∧
         ((∀ e ∈ obs, e = .clean) → s.upsets = [] → s.poison = [] →
           t.poison = [] ∧ (t.ctl d k).queue = (s.ctl d k).queue ∧ (t.ctl d k).fix = []))) ∧
   (∀ (s : State) (d k p : Nat) (rest : List Nat), s.dieUp d = true → d < s.dies.length → k < 8 → (s.ctl d k).selfRefresh = false →
     (s.ctl d k).queue = p :: rest →
     (∀ f q, (s.ctl d k).frame p = some f → (s.ctl d k).free = some q →
       ∃ t, exec (.dramRetire d k) s = .next t ∧ (t.ctl d k).queue = rest ∧ (t.ctl d k).remap = Map.put (s.ctl d k).remap f q ∧
         (t.die d).repairDue = (s.die d).repairDue ++ [repairRecord 3 d k f q] ∧
         t = { s with regs := t.regs, dies := t.dies, perFrame := t.perFrame, poison := t.poison, upsets := t.upsets,
                      doubtDue := t.doubtDue }) ∧
     (∀ f, (s.ctl d k).frame p = some f → (s.ctl d k).free = none → s.getF d .memStatus_exhausted k = 0 →
       exec (.dramRetire d k) s = .next ((s.setF d .memStatus_exhausted 1 k).doubt dSPARES d s.frame k)))) ∧
  (∀ (s : State) (d k : Nat), d < s.nDies → d < s.dies.length → k < 8 →
     (s.dieUp d = true → (s.ctl d k).selfRefresh = false →
       ∃ t, exec (.dramRefresh d k) s = .next t ∧ t = { s with dies := t.dies, perFrame := t.perFrame, freeCtr := s.freeCtr + 1 } ∧
         t.ctl d k = { s.ctl d k with refreshDt := s.deviceTime }) ∧
     (s.dieUp d = true → ∀ temp : BitVec 8,
       ∃ t, exec (.dramTempRead d k temp) s = .next t ∧ (t.ctl d k).temp = temp.toInt ∧
         (t.ctl d k).due = ((s.ctl d k).due || decide (10 < (temp.toInt - (s.ctl d k).calTemp).natAbs)) ∧
         t = { s with regs := t.regs, dies := t.dies }) ∧
     (s.dieUp d = true → (s.ctl d k).lastCalDt + 28800000 ≤ s.deviceTime →
       ∃ t, exec (.calibrationDue d k) s = .next t ∧ (t.ctl d k).due = true ∧ t = { s with regs := t.regs, dies := t.dies }) ∧
     (s.dieUp d = true → (s.ctl d k).selfRefresh = false → (s.ctl d k).due = true → ∀ w o c pass, w < 4 → s.quietWindow d w = some (o, c) →
       s.root.startDt + o ≤ s.deviceTime → s.deviceTime + calCycles ≤ s.root.startDt + c →
       ∃ t, exec (.quietWindowOpen d k w pass) s = .next t ∧ (t.ctl d k).due = false ∧ (t.ctl d k).lastCalDt = s.deviceTime ∧
         (t.ctl d k).failed = ((s.ctl d k).failed || !pass) ∧ t.mem = s.mem ∧ t.flags = s.flags) ∧
     (s.dieUp d = true → (s.ctl d k).selfRefresh = false → (s.ctl d k).due = true → (s.ctl d k).dueDt + 90000000 ≤ s.deviceTime →
       ∀ stall pass, ∃ t, exec (.calibrationForced d k stall pass) s = .next t ∧ (t.ctl d k).due = false ∧
         (t.ctl d k).lastCalDt = s.deviceTime ∧ (t.ctl d k).failed = ((s.ctl d k).failed || !pass) ∧
         (∃ e ∈ t.evDue, e.code = 0x0900 ∧ e.value = Word.ofNat (cap 2000 stall) ∧ e.die = d ∧ e.field = k) ∧ t.mem = s.mem ∧ t.flags = s.flags) ∧
     ((s.die d).restart ≠ none ∨ s.frz.requested = true ∨ s.frz.stopped = true →
       ∃ t, exec (.selfRefreshEnter d k) s = .next t ∧ (t.ctl d k).selfRefresh = true ∧ t = { s with regs := t.regs, dies := t.dies }) ∧
     ((s.ctl d k).selfRefresh = true → s.frz.requested = false → ∀ pass,
       ∃ t, exec (.selfRefreshExit d k pass) s = .next t ∧ (t.ctl d k).selfRefresh = false ∧ t.flags = s.flags ∧
         (s.frz.mesh = [] → t.mem = s.mem) ∧ (pass = false → t.mem = s.mem ∧ t.frz = s.frz) ∧
         (∀ a o l p, pass = true → s.frz.mesh = [(a, l, p)] → s.region a = .dram d o → dramCtl o = k → s.dieUp d = true →
           s.lockedAt a = false → t.frz = { s.frz with mesh := [] } ∧ (∀ i (h : i < l.length), t.byteAt (a + i) = l[i]) ∧
             (∀ b, b < a ∨ a + l.length ≤ b → t.byteAt b = s.byteAt b)) ∧
         (pass = true → (t.ctl d k).failed = false) ∧
         (pass = false → (s.ctl d k).failed = false → (t.ctl d k).failed = true) ∧
         (pass = false → (s.ctl d k).failed = true → k ∈ (t.die d).testFaults)))

/-! ### Self-test, repair and spares (chapter 19) -/

/-- At its grid point a group rotates: the unit that has passed its slice takes the position that is next, whose idle holder goes under test; on the hub
a handover of the next pipe is asked for.

Slices and segments end: a pass begins the unit's coverage anew and makes a unit whose targeted slice it was suspect, a failure retires it, and a
core's slice leaves memory outside its scratchpad as it was; a degraded
group's oldest unit takes a segment in a test window, and the seventeenth completes a slice; 1,000 ms without one raise SELFTEST and force a
slice; 10 s clear a suspect mark. -/
def Obligations.RotationSlicesAndSegments : Prop :=
  ((∀ (s : State) (d g u h p : Nat), s.frz.stopped = false → d ≠ 6 → d < s.dies.length → s.dieUp d = true → g < 13 →
     Map.get 0 (s.die d).rotation (g + 100) < gridIndex g s.deviceTime → s.tested d g = some u → u ≠ h →
     (s.alive d g).find? (fun u => (s.unit d u).abandoned && (s.unit d u).position.isSome) = none →
     p = nth 0 (groupPositions (s.variantCores d) g) (Map.get 0 (s.die d).rotation g) → s.holder d p = some h →
     (s.unit d h).running = none → (s.unit d h).forced = false → (s.unit d h).segmentOpen = false →
     ∃ t, exec (.rotationStep d g) s = .next t ∧ (t.unit d u).position = some p ∧ (t.unit d h).position = none ∧
       (t.unit d h).underTest = true ∧ t.flags = s.flags ∧ t.regs = s.regs ∧ (72 ≤ h → t.mem = s.mem)) ∧
   (∀ (s : State) (g k : Nat), s.frz.stopped = false → s.sparePipe = some k → (Map.get PipeTest.fresh s.ingress.tests k).underTest = false →
     s.ingress.rotGrid * 4500000 ≤ s.deviceTime → 9 ≤ s.boot.step →
     exec (.rotationStep 6 g) s = .next ((s.askHandover s.ingress.rotQ false).modIng (fun i =>
       { i with rotQ := (i.rotQ + 1) % 4, rotGrid := i.rotGrid + 1 })))) ∧
  ((∀ (s : State) (d u : Nat) (r : SliceResult), s.frz.stopped = false → d < s.nDies → d < s.dies.length → s.dieUp d = true → u < 85 →
     (s.unit d u).underTest = true → (s.unit d u).testDt + sliceCycles d u ≤ s.deviceTime →
     (r.pass = true → r.kind ≠ 2 → (s.unit d u).uncovered = false →
       ∃ t, exec (.sliceDone d u r) s = .next t ∧
         t = { s with dies := t.dies, mem := t.mem, poison := t.poison, upsets := t.upsets, freeCtr := t.freeCtr } ∧
         (72 ≤ u → t = { s with dies := t.dies }) ∧
         (∀ a, a < spdBase d u ∨ spdBase d u + 0x60000 ≤ a → t.byteAt a = s.byteAt a) ∧ (t.unit d u).underTest = false ∧
         (t.unit d u).fullDt = s.deviceTime ∧ (t.unit d u).suspect = ((s.unit d u).suspect || (s.unit d u).targeted)) ∧
     (r.pass = false → (s.unit d u).retired = false →
       ∃ t, exec (.sliceDone d u r) s = .next t ∧ (t.unit d u).retired = true ∧ t.flags = s.flags)) ∧
   (∀ (s : State) (d u g p : Nat), unitGroup u = some g → (s.unit d u).position = some p → d < s.dies.length → s.dieUp d = true →
     s.degraded d g = true → s.unitFree d u = true → (∀ v ∈ s.alive d g, (s.unit d u).fullDt ≤ (s.unit d v).fullDt) →
     (∀ c ∈ candidateLists p, s.readyList d c.1 = []) → s.inTestWindow d (s.unit d u).segmentCycles = true →
     ∃ t, exec (.segmentStart d u) s = .next t ∧ t = { s with dies := t.dies } ∧
       t.unit d u = { s.unit d u with segmentOpen := true, testDt := s.deviceTime }) ∧
   (∀ (s : State) (d u : Nat) (r : SliceResult), d < s.dies.length → s.dieUp d = true → (s.unit d u).segmentOpen = true →
     (s.unit d u).testDt + (s.unit d u).segmentCycles ≤ s.deviceTime →
     (r.pass = true → (s.unit d u).segments < 16 →
       ∃ t, exec (.segmentDone d u r) s = .next t ∧ t = { s with dies := t.dies } ∧
         t.unit d u = { s.unit d u with segmentOpen := false, segments := (s.unit d u).segments + 1 }) ∧
     (r.pass = true → (s.unit d u).segments = 16 → (s.unit d u).uncovered = false →
       ∃ t, exec (.segmentDone d u r) s = .next t ∧ t = { s with dies := t.dies } ∧ (t.unit d u).segments = 0 ∧
         (t.unit d u).fullDt = s.deviceTime) ∧
     (r.pass = false → (s.unit d u).retired = false →
       ∃ t, exec (.segmentDone d u r) s = .next t ∧ (t.unit d u).retired = true ∧ t.flags = s.flags)) ∧
   (∀ (s : State) (d u : Nat), s.frz.stopped = false → d ≠ 6 → d < s.dies.length → s.dieUp d = true → u < 85 →
     (s.unit d u).retired = false → (s.unit d u).uncovered = false → (s.unit d u).fullDt + 900000000 ≤ s.deviceTime →
     ∃ t, exec (.coverageExpiry d u) s = .next t ∧ (t.unit d u).uncovered = true ∧
       ((s.unit d u).underTest = false → (t.unit d u).forced = true) ∧
       t.doubtDue = s.doubtDue ++ [⟨dSELFTEST, d, u, .coverage, s.frame⟩] ∧
       t = { s with regs := t.regs, dies := t.dies, doubtDue := t.doubtDue }) ∧
   (∀ (s : State) (d u : Nat), s.frz.stopped = false → d < s.dies.length → (s.unit d u).suspect = true → (s.unit d u).failDt + 9000000000 ≤ s.deviceTime →
     ∃ t, exec (.suspectClear d u) s = .next t ∧ t = { s with dies := t.dies } ∧ t.unit d u = { s.unit d u with suspect := false }))

/-- A queued commons row is mapped to the first free spare row of its bank, with its record, and no stored byte changes; with none left that is a
doubt; the record of a repair goes to the repair log in flash with its CRC; a checker's test is counted, and a failed one of a C-die or the hub is
a doubt. -/
def Obligations.RepairsAndCheckerTests : Prop :=
  (∀ (s : State) (d q r : Nat), d < s.dies.length → s.dieUp d = true →
    (s.die d).cmnQueue.find? (fun q => (s.repairCmnRow d (q % 64) (q / 64)).2 || s.getF d .cmnSpare_exhausted 0 (q % 64) == 0) = some q →
    servedRow (Map.get [] (s.die d).cmnRows (q % 64)) 8192 (q / 64) = some r →
    (∀ j, freeSpare (Map.get [] (s.die d).cmnRows (q % 64)) 16 = some j →
      ∃ t, exec (.rowRepair d) s = .next t ∧ (t.die d).cmnQueue = setErase q (s.die d).cmnQueue ∧
        Map.get [] (t.die d).cmnRows (q % 64) = mapSpare (Map.get [] (s.die d).cmnRows (q % 64)) r j ∧
        (t.die d).repairDue = (s.die d).repairDue ++ [repairRecord 2 d 0 (q % 64 + r * 64) j] ∧
        t = { s with regs := t.regs, dies := t.dies, poison := t.poison, upsets := t.upsets }) ∧
    (freeSpare (Map.get [] (s.die d).cmnRows (q % 64)) 16 = none →
      exec (.rowRepair d) s = .next ((s.setF d .cmnSpare_exhausted 1 0 (q % 64)).doubt dSPARES d s.frame))) ∧
  (∀ (s : State) (d : Nat) (r : List Byte) (rest : List (List Byte)), s.frz.stopped = false → d < s.nDies → d < s.dies.length →
    (∀ e < d, (s.die e).repairDue = []) → (s.die d).repairDue = r :: rest →
    ∃ t, exec .repairRecordWrite s = .next t ∧ t.flash = { s.flash with repairs := s.flash.repairs ++ [r ++ toLE 4 (crc32c r).toNat] } ∧
      (t.die d).repairDue = rest ∧ t = { s with regs := t.regs, dies := t.dies, flash := t.flash }) ∧
  (∀ (s : State) (d : Nat) (k : CheckerAt), s.frz.stopped = false → s.dieUp d = true → d ≠ 6 → k.on d = true → (∀ u, k ≠ .ofUnit u) →
    (∃ t, exec (.checkerTest d k true) s = .next t ∧ t = { s with regs := t.regs, tally := t.tally }) ∧
    (∃ t, exec (.checkerTest d k false) s = .next t ∧ t.doubtDue = s.doubtDue ++ [⟨dSELFTEST, d, 0, .checker, s.frame⟩] ∧
      t = { s with regs := t.regs, tally := t.tally, doubtDue := t.doubtDue })) ∧
  (∀ (s : State) (k : CheckerAt), s.frz.stopped = false → 3 ≤ s.boot.step → (k = .golden ∨ k = .diversity ∨ k = .lockstep) → s.saf.hubCheckFailed = false →
    ∃ t, exec (.checkerTest 6 k false) s = .next t ∧ t.saf = { s.saf with hubCheckFailed := true } ∧
      t.doubtDue = s.doubtDue ++ [⟨dSELFTEST, 6, 0, .hubChecker, s.frame⟩])

/-! ### The event recorder (chapter 21) -/

/-- An event reaches the recorder: it adds to the open accumulator of its code, or opens one for its code's interval, or waits for the next interval when
that accumulator's has ended; a lost hub link takes a C-die's.

An accumulator that is due closes into one record with the next sequence number, in the slot that the number selects in native mode; nothing closes
under a hold; and the oldest record that waits is written to the log partition, or its failure counted. -/
def Obligations.EventsAccumulateAndClose : Prop :=
  (∀ (s : State) (e : Event), s.frz.stopped = false → codeDefined e.code = true → s.reach e.die 6 = false →
     exec (.eventArrive e) s = .next { s with evDue := s.evDue.erase e }) ∧
  (∀ (s : State) (e : Event), s.frz.stopped = false → codeDefined e.code = true → s.reach e.die 6 = true →
     (∀ a, s.recorder.accum e.code = some a → e.dt < a.closeDt →
       ∃ t, exec (.eventArrive e) s = .next t ∧ t = { s with evDue := s.evDue.erase e, recorder := t.recorder } ∧
         t.recorder.accum e.code = some (a.add (s.recEntry e.code) e) ∧
         (∀ c, c ≠ e.code → t.recorder.accum c = s.recorder.accum c) ∧ t.recorder.slots = s.recorder.slots) ∧
     (∀ a, s.recorder.accum e.code = some a → a.closeDt ≤ e.dt → s.recorder.freezeFrom = none →
       exec (.eventArrive e) s = .next { s with evDue := s.evDue.erase e, recorder := { s.recorder with later := s.recorder.later ++ [e] } }) ∧
     (s.recorder.accum e.code = none → (s.recorder.accums.filter (fun a => a.code != 0x1100)).length < 1023 →
       ∃ t a, exec (.eventArrive e) s = .next t ∧ t.recorder.accum e.code = some a ∧ a.openDt = e.dt ∧
         a.closeDt = e.dt + (s.recEntry e.code).interval * 900000 ∧ a.count = 1 ∧
         t = { s with evDue := s.evDue.erase e, regs := t.regs, recorder := { s.recorder with accums := s.recorder.accums ++ [a] } })) ∧
  ((∀ (s : State) (code : BitVec 16) (a : Accum), s.frz.stopped = false → s.recorder.accum code.toNat = some a → a.due ≤ s.deviceTime →
     s.recorder.freezeFrom = none → s.ilk1 = false → (∀ e ∈ s.recorder.later, e.code ≠ code.toNat) →
     ∃ t, exec (.accumulatorClose code) s = .next t ∧ t.recorder.nextSeq = s.recorder.nextSeq + 1 ∧ t.recorder.accum code.toNat = none ∧
       Map.get [] t.recorder.slots (if s.recorder.nextSeq < 512 then s.recorder.nextSeq else 512 + (s.recorder.nextSeq - 512) % 4096) =
         s.recordBytes a s.recorder.nextSeq a.closeDt false false ∧
       t.getF 6 .evrSeq_seq = s.recorder.nextSeq % 2 ^ 32 ∧ t = { s with regs := t.regs, recorder := t.recorder }) ∧
   (∀ (s : State) (code : BitVec 16), s.recorder.freezeFrom ≠ none → exec (.accumulatorClose code) s = .next s) ∧
   (∀ (s : State) (slot : Nat) (rest : List Nat), s.frz.stopped = false → s.recorder.unwritten = slot :: rest →
     (∃ t, exec (.logPersist true) s = .next t ∧ t.recorder = { s.recorder with
         unwritten := rest
         logRegion := Map.put s.recorder.logRegion (s.logRegionBase + slot) (Map.get [] s.recorder.slots slot) } ∧
       t = { s with regs := t.regs, recorder := t.recorder }) ∧
     (∃ t, exec (.logPersist false) s = .next t ∧ t.recorder = { s.recorder with unwritten := rest } ∧
       t.getF 6 .evrPersist_failed = cap (2 ^ Fld.evrPersist_failed.width - 1) (s.getF 6 .evrPersist_failed + 1) ∧
       t = { s with regs := t.regs, recorder := t.recorder })))

/-- An event adds to the bin of its value v that its code's entry chooses: with d = v − b, LINEAR takes floor(d ÷ 2^s) and LOG takes 0 below 2^s and
floor(log₂ d) − s + 1 from there, each clamped to 0–31; no other bin changes. -/
def Obligations.EventBinsFollowTheEntry : Prop :=
  ∀ (s : State) (e : Event) (a : Accum) (r : RecEntry) (d : Int), s.frz.stopped = false → s.reach e.die 6 = true →
    codeDefined e.code = true → s.recorder.accum e.code = some a →
    e.dt < a.closeDt → a.bins.length = 32 → r = s.recEntry e.code → d = e.val - r.base →
    ∃ t u b, exec (.eventArrive e) s = .next t ∧ t.recorder.accum e.code = some u ∧ b < 32 ∧
      nth 0 u.bins b = min (2 ^ 32 - 1) (nth 0 a.bins b + 1) ∧ (∀ k, k ≠ b → nth 0 u.bins k = nth 0 a.bins k) ∧
      (r.log = false → (d < 0 → b = 0) ∧ (0 ≤ d → d < 32 * 2 ^ r.shift → (b : Int) * 2 ^ r.shift ≤ d ∧ d < (b + 1 : Int) * 2 ^ r.shift) ∧
        (32 * 2 ^ r.shift ≤ d → b = 31)) ∧
      (r.log = true → (d < 2 ^ r.shift → b = 0) ∧
        ∀ k, 2 ^ (r.shift + k) ≤ d → d < 2 ^ (r.shift + k + 1) → b = min 31 (k + 1))

/-- A write of EVR_RAISE_CODE raises an event with the writer's latched value; a hold begins with a write of freeze = 1, not on an ILK2-M2 and not
twice, and ends with a write of 0 or by itself after 1 s, when expired is set. -/
def Obligations.RaisingAndHoldingEvents : Prop :=
  (∀ (s : State) (who : Init) (code : BitVec 16), s.frz.stopped = false → who.canAccess = true → s.privileged who = true → codeDefined code.toNat = true →
    exec (.evrRaiseCode who true code) s = .next (s.raise code.toNat (Map.get 0 s.recorder.latches who.key).toNat who.die)) ∧
  (∀ (s : State) (who : Init), s.frz.stopped = false → who.canAccess = true → s.privileged who = true →
    (s.m2 = false → s.recorder.freezeFrom = none →
      ∃ t, exec (.evrFreezeSet who) s = .next t ∧ t.recorder = { s.recorder with freezeFrom := some s.deviceTime } ∧
        t.getF 6 .evrFreeze_freeze = 1 ∧ t.getF 6 .evrFreeze_expired = 0 ∧ t = { s with regs := t.regs, recorder := t.recorder }) ∧
    (s.m2 = true ∨ s.recorder.freezeFrom ≠ none → exec (.evrFreezeSet who) s = .next s) ∧
    (∀ f, s.recorder.freezeFrom = some f →
      ∃ t, exec (.evrFreezeClear who) s = .next t ∧ t.getF 6 .evrFreeze_freeze = 0 ∧ t.mem = s.mem ∧ t.flags = s.flags ∧
        ((∀ a ∈ s.recorder.accums, s.deviceTime < a.due) → t.recorder = { s.recorder with freezeFrom := none }))) ∧
  (∀ (s : State) (f : Nat), s.frz.stopped = false → s.recorder.freezeFrom = some f → f + 900000000 ≤ s.deviceTime →
    ∃ t, exec .evrFreezeExpire s = .next t ∧ t.getF 6 .evrFreeze_freeze = 0 ∧ t.getF 6 .evrFreeze_expired = 1 ∧ t.mem = s.mem ∧
      t.flags = s.flags ∧ ((∀ a ∈ s.recorder.accums, s.deviceTime < a.due) → t.recorder = { s.recorder with freezeFrom := none }))

/-! ### DMA (chapter 14) -/

/-- A data descriptor that a channel starts completes: its granules not confirmed yet are moved in order, the descriptor gets its completion
codeword and becomes software-owned, and the channel stands idle at the next index; no other byte of memory, flag or channel changes.  One
that breaks its rules completes as an error of the host's own making, and one that a lost link keeps from moving does not complete.

FLAG, JUMP and POP descriptors: none moves anything but what it names.  A FLAG completes with its flag add; a JUMP moves the channel to the index it
gives; a POP of an empty ingress ring completes as EMPTY, and of a ring with an entry moves the entry and advances the ring's consumer. -/
def Obligations.DmaDescriptorsComplete : Prop :=
  (∀ (s : State) (c : ChanRef), ∀ p ∈ [(1, Instr.copy c), (2, .linear c), (3, .fill c), (4, .gather c), (5, .scatter c), (6, .scatterAdd c)],
     DmaReady s c p.1 →
     (∀ m, (s.withRead c).descMoves (s.headBytes c) = some m → m.moves.all (fun v => (s.withRead c).moveCarried c.die v) = true →
       ∀ g, g = ((s.withRead c).doGranules m (fun k => !(s.dma c).confirmed k)).1 → g.ringOk c →
       ∃ t, exec p.2 s = .next t ∧ WentOn s t c (s.nextIndex c) ∧ DescDone s t (s.headAddr c) 0 m.oor ∧ DescFrame g t (s.headAddr c) ∧
         t.out = s.out ∧ t.travel = s.travel ∧ t.sec = s.sec ∧ t.flash = s.flash) ∧
     (∀ m, (s.withRead c).descMoves (s.headBytes c) = some m → m.moves.all (fun v => (s.withRead c).moveCarried c.die v) = false →
       exec p.2 s = .next (s.withRead c)) ∧
     ((s.withRead c).descMoves (s.headBytes c) = none →
       ∃ t, exec p.2 s = .next t ∧ WentOn s t c (s.nextIndex c) ∧ t.out = s.out ∧ t.travel = s.travel ∧ t.sec = s.sec ∧
         t.flash = s.flash)) ∧
  (∀ (s : State) (c : ChanRef), s.ringOk c →
     (DmaReady s c 7 →
       ∃ t, exec (.dmaFlagOp c) s = .next t ∧ WentOn s t c (s.nextIndex c) ∧ DescDone s t (s.headAddr c) 0 0 ∧ DescFrame s t (s.headAddr c) ∧
         t.out = s.out ∧ t.travel = s.travel) ∧
     (s.canStart c = true → s.owned c = true → (s.head c).op = 7 → c.die < s.dies.length → testBit (s.head c).flags 1 = false →
       testBit (s.head c).flags 2 = true → Map.get [] (s.die c.die).seq.dmaOwners c.ring = [] →
       ∃ t, exec (.dmaFlagOp c) s = .next t ∧ (t.dma c).state = .idle ∧ (t.dma c).index = s.nextIndex c ∧
         ((s.head c).flagDie = c.die → (s.head c).flag ∉ (s.die c.die).flagHeld →
           manyWrong (Map.get 0 s.upsets (flagWord c.die (s.head c).flag)) = false →
           dmaKey c.die ∉ (s.flagCyc c.die (s.head c).flag).froms →
           t.flagVal c.die (s.head c).flag = (s.flagCyc c.die (s.head c).flag).set.getD (s.flagCyc c.die (s.head c).flag).before +
             ((s.flagCyc c.die (s.head c).flag).sum + Word.ofNat (s.head c).flagValue)) ∧
         ((s.head c).flagDie ≠ c.die → t.flags = s.flags ∧ t.travel =
           s.travel ++ [⟨.add, c.die, (s.head c).flagDie, 0, (s.head c).flag, Word.ofNat (s.head c).flagValue, false⟩])) ∧
     (DmaReady s c 8 → s.ringFed c = false → bits (s.head c).aux 0 16 < (s.queue c.die c.ring).size →
       ∃ t, exec (.jump c) s = .next t ∧ WentOn s t c (bits (s.head c).aux 0 16) ∧ DescDone s t (s.headAddr c) 0 0 ∧
         DescFrame s t (s.headAddr c) ∧ t.out = s.out) ∧
     (∀ q, DmaReady s c 9 → q = bits (s.head c).aux 0 14 → s.queueKind c.die q = .ingress → (s.head c).dst % 64 = 0 →
       s.dataAddr (s.head c).dst = true →
       ((s.ringOf c.die q).depth (s.queue c.die q) = 0 →
         ∃ t, exec (.pop c) s = .next t ∧ WentOn s t c (s.nextIndex c) ∧ DescDone s t (s.headAddr c) 3 0 ∧ DescFrame s t (s.headAddr c) ∧
           t.out = s.out ∧ t.ringOf c.die q = s.ringOf c.die q) ∧
       (∀ m : DescMoves, (s.ringOf c.die q).depth (s.queue c.die q) ≠ 0 →
         m = ⟨linearMoves (s.head c).dst (2 ^ (s.queue c.die q).log2b)
           (fun k _ => (some ((s.queue c.die q).addr (s.ringOf c.die q).cons + 64 * k), [])), none, 0, Taint.none⟩ →
         m.moves.all (fun v => (s.withRead c).moveCarried c.die v) = true →
         ∀ g, g = ((s.withRead c).doGranules m (fun k => !(s.dma c).confirmed k)).1 → g.ringOk c →
         ∃ t, exec (.pop c) s = .next t ∧ WentOn s t c (s.nextIndex c) ∧ DescDone s t (s.headAddr c) 0 0 ∧ DescFrame g t (s.headAddr c) ∧
           t.out = s.out ∧ (t.ringOf c.die q).cons = ((s.ringOf c.die q).cons + 1) % (2 * (s.queue c.die q).size) ∧
           (t.ringOf c.die q).prod = (s.ringOf c.die q).prod)))

/-- A channel's doorbell, pause, halt, retry, skip and resume, and a disagreement of its duplicated request path: the channel takes the state and the
exact registers that the command gives, and memory changes only by the granules those registers say have landed. -/
def Obligations.ChannelsStopAndResumeExactly : Prop :=
  ∀ (s : State) (c : ChanRef), c.die < s.nDies → c.die < s.dies.length → s.chanUsed c = true →
    (∀ who, s.frz.stopped = false → who.canAccess = true → s.privileged who = true →
      (exec (.dmaDoorbell who c.die c.eng c.ch) s = .next (s.modDma c (fun y => { y with pending := true }))) ∧
      ((s.dma c).state = .paused → ∃ t, exec (.dmaResume who c) s = .next t ∧ t.dma c = { s.dma c with state := .active } ∧
        t.getF c.die .dmaChCtl_pause c.eng c.ch = 0 ∧ t = { s with regs := t.regs, dies := t.dies }) ∧
      ((s.dma c).state = .halted → exec (.dmaRetry who c) s = .next (s.modDma c (fun y => { y with state := .active, noresp := false }))) ∧
      ((s.dma c).state = .halted → s.ringOk c → testBit (s.head c).flags 1 = false → testBit (s.head c).flags 2 = false →
        Map.get [] (s.die c.die).seq.dmaOwners c.ring = [] →
        ∃ t, exec (.dmaSkip who c) s = .next t ∧ WentOn s t c (s.nextIndex c) ∧ DescDone s t (s.headAddr c) 1 0 ∧
          DescFrame s t (s.headAddr c) ∧ t.out = s.out) ∧
      (∀ off mask, (s.inProgress c = true → off % 64 = 0 →
          ∃ t, exec (.dmaPause who c off mask) s = .next t ∧ (t.dma c).state = .paused ∧ (t.dma c).offset = off ∧ (t.dma c).mask = mask ∧
            t.getF c.die .dmaChCtl_pause c.eng c.ch = 1 ∧ t.out = s.out ∧
            (∀ m g, (s.setF c.die .dmaChCtl_pause 1 c.eng c.ch).descMoves (s.headBytes c) = some m →
              g = ((s.setF c.die .dmaChCtl_pause 1 c.eng c.ch).doGranules m (fun k =>
                ({ s.dma c with offset := off, mask := mask } : DmaChan).confirmed k && !(s.dma c).confirmed k)).1 →
              t.mem = g.mem ∧ t.flags = g.flags)) ∧
        (s.inProgress c = false → (s.dma c).state = .idle →
          ∃ t, exec (.dmaPause who c off mask) s = .next t ∧ t.dma c = { s.dma c with state := .paused } ∧
            t.getF c.die .dmaChCtl_pause c.eng c.ch = 1 ∧ t = { s with regs := t.regs, dies := t.dies }))) ∧
    (∀ who, s.frz.stopped = false → who.canAccess = true → s.privileged who = false →
      exec (.dmaDoorbell who c.die c.eng c.ch) s = .next s.viewMiss ∧ exec (.dmaResume who c) s = .next s.viewMiss ∧
        exec (.dmaRetry who c) s = .next s.viewMiss ∧ exec (.dmaSkip who c) s = .next s.viewMiss) ∧
    (∀ off mask, s.inProgress c = true → off % 64 = 0 → ∀ m g, s.descMoves (s.headBytes c) = some m →
      g = (s.doGranules m (fun k =>
        ({ s.dma c with offset := off, mask := mask } : DmaChan).confirmed k && !(s.dma c).confirmed k)).1 →
      (∀ addr, ∃ t, exec (.dmaNorespTimeout c addr off mask) s = .next t ∧ (t.dma c).state = .halted ∧ (t.dma c).offset = off ∧
        (t.dma c).mask = mask ∧ (t.dma c).noresp = true ∧ (t.dma c).addr = addr % 2 ^ 40 ∧
        (∃ e ∈ t.evDue, e.code = 0x0800 ∧ e.value = Word.ofNat c.ch ∧ e.die = c.die ∧ e.field = c.eng) ∧
        t.mem = g.mem ∧ t.flags = g.flags ∧ t.out = s.out) ∧
      (∃ t, exec (.dmaRequestMismatch c off mask) s = .next t ∧ (t.dma c).state = .active ∧ (t.dma c).offset = off ∧ (t.dma c).mask = mask ∧
        (t.dma c).noresp = (s.dma c).noresp ∧ t.mem = g.mem ∧ t.flags = g.flags ∧ t.out = s.out ∧
        (Map.get 0 (s.die c.die).dmaMismatch c.eng = 0 → t.doubtDue = g.doubtDue)))

/-! ### The relay engines and the ring of parts (chapter 13) -/

/-- A relay task appends its entry and is done, or is held by a full queue; an idle path takes the head that has its credit, stamped with the ring
epoch unless it was forwarded, and discards one made for another ring under a doubt.

A DATA block that arrives where a relay engine may write lands whole; a returned acknowledgement adds to the sender's done flag; and a held
forward is appended as soon as its queue has room. -/
def Obligations.RelayEntriesMoveAndLand : Prop :=
  ((∀ (s : State) (d k : Nat) (y : Slot) (l : List Byte) (e : RelayEntry), (s.unit d 85).running = some k → (s.unit d 85).done = false →
     s.slot d k = some y → s.dieUp d = true → y.stopped = false → y.desc.kind = 7 → d < s.dies.length → (s.die d).relay.appended = 0 →
     l = s.read y.desc.program 64 → (s.taintOf y.desc.program 64).poison = false → e = RelayEntry.ofBytes l →
     s.queueKind d e.queue = .relay → e.kind ≤ 3 → e.dir ≤ 1 →
     ((s.ringOf d e.queue).full (s.queue d e.queue) = false → e.more = false → s.entryAt d (s.nextEntry d e.queue) →
       ∃ t, exec (.relayTask d) s = .next t ∧ (t.unit d 85).done = true ∧ t.flags = s.flags ∧
         Map.get [] (t.die d).relay.marks e.queue = Map.get [] (s.die d).relay.marks e.queue ++ [false] ∧
         t.bytesAt (s.nextEntry d e.queue) 64 = l ∧
         ∀ a, ¬ (s.nextEntry d e.queue ≤ a ∧ a < s.nextEntry d e.queue + 64) → t.byteAt a = s.byteAt a) ∧
     ((s.ringOf d e.queue).full (s.queue d e.queue) = true →
       ∃ t, exec (.relayTask d) s = .next t ∧ (t.unit d 85).done = false ∧ (t.die d).relay.refused = true ∧
         t = { s with regs := t.regs, dies := t.dies, perFrame := t.perFrame })) ∧
   (∀ (s : State) (d : Nat) (dir : Bool), s.dieUp d = true → s.ring.up = true → d < s.dies.length → ((s.die d).relay.path dir).busy = none →
     (∀ h, (s.relayHeads d dir).find? (fun h => (RelayEntry.ofBytes h.2.1).modules != s.ringModules) = some h →
       exec (.relayPathTake d dir) s = .next (((s.relayPop d h.1).bumpF d .rlyDiscard_ring).doubt dRELAY d s.frame)) ∧
     (∀ q l fwd l' e, (s.relayHeads d dir).find? (fun h => (RelayEntry.ofBytes h.2.1).modules != s.ringModules) = none →
       (s.relayHeads d dir).filter (fun h => s.creditMet d h.1 (RelayEntry.ofBytes h.2.1)) = [(q, l, fwd)] →
       l' = (if fwd then l else putEntry l 0x34 (toLE 4 (s.ringEpoch d))) → e = RelayEntry.ofBytes l' → s.entryOk d fwd e = true →
       ∃ t, exec (.relayPathTake d dir) s = .next t ∧ (t.die d).relay.path dir = ⟨some l', s.deviceTime⟩ ∧
         (e.kind ≠ 2 ∨ fwd = true → t.mem = s.mem ∧ t.poison = s.poison ∧ t.flags = s.flags)))) ∧
  ((∀ (s : State) (d r o o' : Nat) (dir : Bool) (l : List Byte) (e : RelayEntry), s.frz.stopped = false →
     ((s.die d).relay.path dir).busy = some l →
     e = RelayEntry.ofBytes l → s.dieUp d = true → d < s.dies.length → e.kind = 0 → s.hop d dir = .die r → s.dieUp r = true →
     s.reach d r = true → s.arrivalHeld r dir = false → e.epoch = Word.ofNat (s.ringEpoch r) → e.hops = 1 → relayFlag e.arrive = none →
     s.region e.dst = .commons d o → s.region e.src = .commons d o' → e.dst % 16 = 0 → e.src % 16 = 0 → e.length % 16 = 0 →
     o + e.length ≤ 0x01FFC000 → o' + e.length ≤ 0x01FFC000 → s.relayDest (s.onDie e.dst r) e.length = true →
     ∃ t, exec (.relayData d dir) s = .next t ∧ t.bytesAt (s.onDie e.dst r) e.length = s.bytesAt e.src e.length) ∧
   (∀ (s : State) (d : Nat) (rest : List (Option Nat)), s.frz.stopped = false → d < s.dies.length →
     ((s.die d).relay.acks = none :: rest → exec (.relayAck d) s = .next (s.modRelay d (fun r => { r with acks := rest }))) ∧
     (∀ f, (s.die d).relay.acks = some f :: rest → s.dieUp d = true → f ∉ (s.die d).flagHeld →
       manyWrong (Map.get 0 s.upsets (flagWord d f)) = false → relayKey d ∉ (s.flagCyc d f).froms →
       ∃ t, exec (.relayAck d) s = .next t ∧ (t.die d).relay.acks = rest ∧
         t.flagVal d f = (s.flagCyc d f).set.getD (s.flagCyc d f).before + ((s.flagCyc d f).sum + 1) ∧
         ∀ e g, g < 4096 → f < 4096 → (e, g) ≠ (d, f) → t.flagVal e g = s.flagVal e g)) ∧
   (∀ (s : State) (d q : Nat) (dir : Bool) (p : Nat × List Byte),
     (s.die d).relay.held.find? (fun (p : Nat × List Byte) => p.1 == bit dir) = some p → q = (RelayEntry.ofBytes p.2).fwdQueue →
     s.dieUp d = true → d < s.dies.length → (s.ringOf d q).full (s.queue d q) = false → p.2.length = 64 → s.entryAt d (s.nextEntry d q) →
     (∀ p < 4, (s.port p).rxq = []) →
     ∃ t, exec (.forwardRetry d dir) s = .next t ∧ t.arrivalHeld d dir = false ∧ t.flags = s.flags ∧
       Map.get [] (t.die d).relay.marks q = Map.get [] (s.die d).relay.marks q ++ [true] ∧
       t.bytesAt (s.nextEntry d q) 64 = p.2 ∧
       ∀ a, ¬ (s.nextEntry d q ≤ a ∧ a < s.nextEntry d q + 64) → t.byteAt a = s.byteAt a))

/-- An entry that a path carries is delivered at the next die, or sent off to the next module: the path is idle again, and the sender's
acknowledgement is on its way; over a lost link, or to a die that does not run, it is lost. -/
def Obligations.PathsDeliverOrSendOff : Prop :=
  ∀ (s : State) (d : Nat) (dir : Bool) (l : List Byte) (e : RelayEntry), s.frz.stopped = false → ((s.die d).relay.path dir).busy = some l →
    e = RelayEntry.ofBytes l → s.dieUp d = true → d < s.dies.length →
    ∀ p ∈ [(0, Instr.relayData d dir), (1, .relayFlagEntry d dir), (2, .relayCommit d dir), (3, .relayResync d dir)], e.kind = p.1 →
      (∀ r, s.hop d dir = .die r → s.arrivalHeld r dir = false → s.dieUp r = true → s.reach d r = true →
        ∃ t, exec p.2 s = .next t ∧ ((t.die d).relay.path dir).busy = none ∧
          (t.die d).relay.acks = (s.die d).relay.acks ++ [relayFlag e.done] ∧
          (e.epoch ≠ Word.ofNat (s.ringEpoch r) → e.kind ≠ 2 → t.mem = s.mem ∧ t.flags = s.flags) ∧
          (e.epoch = Word.ofNat (s.ringEpoch r) → e.kind = 1 → e.hops = 1 → t.mem = s.mem ∧
            (relayFlag e.arrive = none → t.flags = s.flags) ∧
            ∀ f, relayFlag e.arrive = some f → f ∉ (s.die r).flagHeld → manyWrong (Map.get 0 s.upsets (flagWord r f)) = false →
              relayKey r ∉ (s.flagCyc r f).froms →
              t.flagVal r f = (s.flagCyc r f).set.getD (s.flagCyc r f).before + ((s.flagCyc r f).sum + 1)) ∧
          (e.epoch = Word.ofNat (s.ringEpoch r) → e.kind = 2 → e.hops = 1 → relayFlag e.arrive = none →
            t.mem = ((s.pathDone d dir e).applyCommit r e).mem) ∧
          (e.epoch = Word.ofNat (s.ringEpoch r) → e.kind = 0 ∨ e.kind = 3 ∧ e.length = 64 → e.hops = 1 → relayFlag e.arrive = none →
            (s.relayDest (s.onDie e.dst r) e.length = false → t.mem = s.mem ∧ t.flags = s.flags) ∧
            ((∀ i < e.length, ∃ o, s.region (s.onDie e.dst r + i) = .dram r o ∨ s.region (s.onDie e.dst r + i) = .commons r o) →
              t.flags = s.flags ∧ ∀ a, ¬ (s.onDie e.dst r ≤ a ∧ a < s.onDie e.dst r + e.length) → t.byteAt a = s.byteAt a))) ∧
      (∀ r, s.hop d dir = .die r → s.arrivalHeld r dir = false → s.dieUp r = false ∨ s.reach d r = false →
        ∃ t, exec p.2 s = .next t ∧ ((t.die d).relay.path dir).busy = none ∧ (t.die d).relay.acks = (s.die d).relay.acks ∧ t.mem = s.mem ∧
          t.flags = s.flags) ∧
      (∀ k, s.hop d dir = .pair k →
        (s.reach d 6 = true →
          ∃ t, exec p.2 s = .next t ∧ ((t.die d).relay.path dir).busy = none ∧ t.ring.nextTag = (s.ring.nextTag + 1) % 65536 ∧
            t.ring.sent = s.ring.sent ++ [(s.ring.nextTag, d, relayFlag e.done)] ∧ t.mem = s.mem ∧ t.flags = s.flags) ∧
        (s.reach d 6 = false →
          ∃ t, exec p.2 s = .next t ∧ ((t.die d).relay.path dir).busy = none ∧ t.ring = s.ring ∧ t.mem = s.mem ∧ t.flags = s.flags))

/-- A flit that cannot be corrected is discarded with a NAK, whatever it is; a good one in sequence takes its sequence number, and does what its
type says; one out of sequence does nothing; and a port that was not trained answers its first good flit with its IDENT.

The last flit of an entry ends its arrival, and DELIVERED answers it. -/
def Obligations.FlitsTakeTheirEffect : Prop :=
  ((∀ (s : State) (p : Nat) (h : FlitHdr) (e data : List Byte) (m : BitVec 16) (die f ep : Nat) (v : Word) (id : IdentInfo)
       (l : List CensusEntry) (b : Bool),
     s.frz.stopped = false → s.portAllowed p = true → h.ok = false →
     ∀ c ∈ [Instr.flitIdle p h, .flitDelivered p h, .flitWatch p h die f v, .flitMet p h, .flitNak p h, .flitIdent p h id,
         .flitCensus p h l b, .flitBreak p h (Word.ofNat ep), .flitHead p h e, .flitData p h data m],
       exec c s = .next ((s.bumpF 6 .rlyPortFec_uncorrectable p).sendOn p ⟨6, (s.port p).rxSeq, 0, 0, true, []⟩)) ∧
   (∀ (s : State) (p : Nat) (h : FlitHdr), s.frz.stopped = false → s.portAllowed p = true → (s.port p).trained = false → h.ok = true →
     PortQuiet s p →
     ∃ t x, exec (.flitIdle p h) s = .next t ∧ (t.port p).trained = true ∧ t.out = { s.out with flits := s.out.flits ++ [(p, x)] } ∧
       nth 0 x 0 = 7 ∧ t.mem = s.mem) ∧
   (∀ (s : State) (p : Nat) (h : FlitHdr), FlitOk s p h →
     (∃ t, exec (.flitIdle p h) s = .next t ∧ (t.port p).rxSeq = (s.port p).rxSeq ∧ (t.port p).trained = true ∧
       (t.port p).lastDt = s.deviceTime ∧ t = { s with regs := t.regs, tally := t.tally, ports := t.ports }) ∧
     (∀ e, s.rxHeld (pairOf p) = false → h.last = false →
       ∃ t, exec (.flitHead p h e) s = .next t ∧ FlitTaken s t p ∧ t.ring.rx = Map.put s.ring.rx (pairOf p) ⟨h.tag, e.take 64, []⟩ ∧
         t.mem = s.mem) ∧
     (∀ data m x j, s.rxHeld (pairOf p) = false → h.last = false →
       s.ring.rx.find? (fun (e : Nat × RxEntry) => e.1 == pairOf p) = some (j, x) → x.tag = h.tag →
       ∃ t, exec (.flitData p h data m) s = .next t ∧ FlitTaken s t p ∧ t.mem = s.mem ∧
         t.ring.rx = Map.put s.ring.rx (pairOf p) { x with parts := x.parts ++ [(h.off, data, m)] }) ∧
     (∀ d f, s.ring.sent.find? (fun (e : Nat × Nat × Option Nat) => e.1 == h.tag) = some (h.tag, d, f) → d < s.dies.length →
       ∃ t, exec (.flitDelivered p h) s = .next t ∧ FlitTaken s t p ∧ (t.die d).relay.acks = (s.die d).relay.acks ++ [f] ∧
         t.ring.sent = s.ring.sent.filter (fun (e : Nat × Nat × Option Nat) => e.1 != h.tag) ∧ t.mem = s.mem ∧ t.flags = s.flags) ∧
     (∀ die f v, die < s.nDies → f < 4096 →
       ∃ t, exec (.flitWatch p h die f v) s = .next t ∧ FlitTaken s t p ∧
         t = { s with regs := t.regs, tally := t.tally, ports := t.ports, ring := { s.ring with rxTurn := t.ring.rxTurn },
                      travel := s.travel ++ [⟨.watch, 8 + pairOf p, die, h.tag, f, v, false⟩] }) ∧
     (∀ d q a, s.ring.watches.find? (fun (e : Nat × Nat × Nat) => e.1 == h.tag) = some (h.tag, d, q) → d < s.dies.length →
       (s.die d).relay.asked.find? (fun (x : Nat × Nat) => x.1 == q) = some a →
       ∃ t, exec (.flitMet p h) s = .next t ∧ FlitTaken s t p ∧ q ∈ (t.die d).relay.met ∧
         t.ring.watches = s.ring.watches.filter (fun (e : Nat × Nat × Nat) => e.1 != h.tag) ∧ t.mem = s.mem ∧ t.flags = s.flags) ∧
     (∃ t, exec (.flitNak p h) s = .next t ∧ FlitTaken s t p ∧ t.mem = s.mem ∧ t.flags = s.flags ∧
       t.out = { s.out with flits := s.out.flits ++ (((s.port p).replay.filter (fun r =>
         decide ((r.1 + 65536 - h.ack) % 65536 ≠ 0 ∧ (r.1 + 65536 - h.ack) % 65536 < 32768))).filter (fun r =>
         decide ((r.1 + 65536 - h.tag) % 65536 < 32768))).map (fun r => (p, r.2.2)) }) ∧
     (∀ id : IdentInfo, ∃ t, exec (.flitIdent p h id) s = .next t ∧ FlitTaken s t p ∧ (t.port p).ident = true ∧
       t.getF 6 .rlyPortPeerLo_serial p = id.serial.toNat % 2 ^ 32 ∧ t.getF 6 .rlyPortPeerHi_serial p = id.serial.toNat / 2 ^ 32 ∧
       t.mem = s.mem ∧ t.flags = s.flags)) ∧
   (∀ (s : State) (p : Nat) (h g : FlitHdr) (e : List Byte), FlitOk s p h → g.ok = true → g.seq ≠ (s.port p).rxSeq →
     ∃ t, exec (.flitHead p g e) s = .next t ∧ (t.port p).rxSeq = (s.port p).rxSeq ∧
       t = { s with regs := t.regs, tally := t.tally, ports := t.ports })) ∧
  (∀ (s : State) (p : Nat) (h : FlitHdr) (c : Instr) (x : RxEntry), FlitOk s p h → s.rxHeld (pairOf p) = false → h.last = true →
     ((∃ e, c = .flitHead p h e ∧ x.entry = e.take 64) ∨ ∃ data m j, c = .flitData p h data m ∧
       s.ring.rx.find? (fun (e : Nat × RxEntry) => e.1 == pairOf p) = some (j, x) ∧ x.tag = h.tag) →
     ∃ t, exec c s = .next t ∧ FlitTaken s t p ∧ t.ring.rx = Map.erase s.ring.rx (pairOf p) ∧
       (s.dieUp (s.rxEnd (pairOf p)).1 = true → s.reach 6 (s.rxEnd (pairOf p)).1 = true → (RelayEntry.ofBytes x.entry).hops = 1 →
         (∃ q l, t.out = { s.out with flits := s.out.flits ++ [(q, l)] } ∧ nth 0 l 0 = 3) ∨
         ⟨3, h.tag, 0, 0, true, []⟩ ∈ Map.get [] t.ring.txq (pairOf p)))

/-- The ring forms when its census comes round whole and agrees, and not otherwise; a census that comes while a die of the module does not run
waits; it breaks with a new epoch, here or elsewhere, and every engine of the module is told.

A port's lanes and silences: the first failed lane is spared, the second halves the port, the sixth loses it; a silent port retrains, and one that
does not train in time is lost. -/
def Obligations.RingsFormBreakAndRetrain : Prop :=
  ((∀ (s : State) (p : Nat) (h : FlitHdr) (l : List CensusEntry), FlitOk s p h →
     (s.ringPos = 0 → s.censusOk l = true → ∃ t, exec (.flitCensus p h l false) s = .next t ∧ FlitTaken s t p ∧ t.ring.up = true ∧
       t.ring.censusDt = none ∧ (∀ d < s.nDies, t.ringEpoch d = h.off % 2 ^ 32) ∧ t.mem = s.mem) ∧
     (s.ringPos = 0 → s.censusOk l = false → ∃ t, exec (.flitCensus p h l false) s = .next t ∧ FlitTaken s t p ∧ t.ring.up = s.ring.up ∧
       t.getF 6 .rlyRing_mismatch = 1 ∧ (∃ x ∈ t.doubtDue, x.cls = dRELAY ∧ x.die = 6) ∧ t.mem = s.mem) ∧
     (s.ringPos ≠ 0 → ∃ t, exec (.flitCensus p h l true) s = .next t ∧ FlitTaken s t p ∧ t.ring.up = true ∧
       (∀ d < s.nDies, t.ringEpoch d = h.off % 2 ^ 32) ∧ t.mem = s.mem) ∧
     (s.ringPos ≠ 0 → s.ringModules ≠ 1 → ∃ t, exec (.flitCensus p h l false) s = .next t ∧ FlitTaken s t p ∧ t.ring.up = s.ring.up ∧
       t.mem = s.mem ∧ (s.ring.up = false → s.membersUp = false → t.ring.census = some (l, h.off)) ∧
       (s.ring.up = false → s.membersUp = true → t.ring.census = none)) ∧
     (∀ e : Word, s.ring.up = true → s.ringModules ≠ 1 → s.nDies ≤ s.dies.length →
       ∃ t, exec (.flitBreak p h e) s = .next t ∧ FlitTaken s t p ∧ t.ring.up = false ∧
       t.ring.broken = true ∧ (∀ d < s.nDies, t.ringEpoch d = e.toNat) ∧ t.flags = s.flags) ∧
     (∀ e : Word, s.ring.up = false → ∃ t, exec (.flitBreak p h e) s = .next t ∧ FlitTaken s t p ∧
       t.ring = { s.ring with rxTurn := t.ring.rxTurn } ∧ t.mem = s.mem)) ∧
   (∀ s : State, s.frz.stopped = false → s.ring.breakDue = true → s.nDies ≤ s.dies.length →
     (s.ring.up = false → exec .ringBreak s = .next { s with ring := { s.ring with breakDue := false } }) ∧
     (s.ring.up = true → s.ringModules ≠ 1 → ∃ t, exec .ringBreak s = .next t ∧ t.ring.up = false ∧ t.ring.broken = true ∧
       (∀ d < s.nDies, t.ringEpoch d = (s.ringEpoch 0 + 1) % 2 ^ 32) ∧ t.flags = s.flags)) ∧
   (∀ (s : State) (dt : Nat), s.frz.stopped = false → s.ring.censusDt = some dt → dt + 9000000 ≤ s.deviceTime →
     ∃ t, exec .censusTimeout s = .next t ∧ t.ring = { s.ring with censusDt := none } ∧ t.getF 6 .rlyRing_census_fail = 1 ∧
       (∃ x ∈ t.doubtDue, x.cls = dRELAY ∧ x.die = 6) ∧ t.mem = s.mem ∧ t.flags = s.flags)) ∧
  (∀ (s : State) (p : Nat), s.frz.stopped = false → s.portAllowed p = true →
     (∀ lane < 9, lane ∉ (s.port p).lanesFailed →
       ∃ t, exec (.relayLaneFail p lane) s = .next t ∧ lane ∈ (t.port p).lanesFailed ∧ t.mem = s.mem ∧ t.flags = s.flags ∧
         ((setInsert lane (s.port p).lanesFailed).length = 1 → (t.port p).spare = true ∧ (t.port p).lost = false) ∧
         ((setInsert lane (s.port p).lanesFailed).length = 2 → (t.port p).half = true ∧ (t.port p).lost = false) ∧
         (5 < (setInsert lane (s.port p).lanesFailed).length → (t.port p).lost = true ∧ (t.port p).trained = false)) ∧
     ((s.port p).trained = true → (s.port p).lastDt + 9000 ≤ s.deviceTime →
       ∃ t, exec (.relayPortSilent p) s = .next t ∧ t.port p =
         { s.port p with trained := false, silentFrom := some s.deviceTime, ident := false } ∧
         t = { s with regs := t.regs, ports := t.ports }) ∧
     (∀ dt, (s.port p).silentFrom = some dt → dt + 900000 ≤ s.deviceTime →
       ∃ t, exec (.relayPortTrainTimeout p) s = .next t ∧ (t.port p).lost = true ∧ (t.port p).trained = false ∧
         ((s.port (p + 1 - 2 * (p % 2))).lost = true → t.ring.breakDue = true ∧ ∃ x ∈ t.doubtDue, x.cls = dRELAY ∧ x.die = 6) ∧
         t.mem = s.mem ∧ t.flags = s.flags))

/-! ### Camera ingress (chapter 05) -/

/-- A trigger opens its context's window for its frame; a window that runs out without an FS drops its frame as missing; an FS in the window is accepted
and sets the frame's strip flags to zero, one outside it is unassigned, one that no context takes is discarded and counted; and an FE before
the last line drops the frame as short.

A sensor link trains or is lost, whole or its back-channel alone; a sensor transaction goes out on its link when the register is written, and its
end gives its result and the data of a read. -/
def Obligations.CameraFramesAndSensorLinks : Prop :=
  ((∀ (s : State) (c off : Nat) (x : FrameStart), s.frz.stopped = false → s.triggerOffset c = some off → (s.ctxCfg c).enable = true →
     s.triggered c = true →
     (∀ k < 64, (s.ctxCfg k).enable = true → s.triggered k = true → (s.ctxCfg k).link = (s.ctxCfg c).link →
       (s.ctxCfg k).gpio % 4 = (s.ctxCfg c).gpio % 4 → s.triggerOffset k = some off) →
     s.root.starts.find? (fun (x : FrameStart) => (match (s.ctx c).trig with | none => true | some n => precedes n x.frame) &&
       decide (triggerDt x.dt off ≤ s.deviceTime)) = some x →
     ∃ t, exec (.cameraTrigger c) s = .next t ∧ (t.ctx c).window = some (x.frame, triggerDt x.dt off, false) ∧ (t.ctx c).trig = some x.frame ∧
       ((s.ctx c).frames = [] → (∀ n u, (s.ctx c).window ≠ some (n, u, false)) → Map.get 0 s.ingress.gear (s.ctxCfg c).link ≠ 0 →
         (s.ctxCfg c).link ∉ s.ingress.backDown → ((s.ctxCfg c).link * 4 + (s.ctxCfg c).gpio % 4, x.frame) ∉ s.ingress.edges →
         t = { s with
           ingress := t.ingress
           out := { s.out with triggers := s.out.triggers ++
             [((s.ctxCfg c).link * 4 + (s.ctxCfg c).gpio % 4, (s.linkCfg (s.ctxCfg c).link).trigWidth)] } })) ∧
   (∀ (s : State) (c u : Nat) (f : Word) (got : Bool), s.frz.stopped = false → (s.ctx c).window = some (f, u, got) →
     u + (s.ctxCfg c).firstLine * 900 < s.deviceTime →
     ∃ t, exec (.acceptWindowClose c) s = .next t ∧ (t.ctx c).window = none ∧ (got = true → t = { s with ingress := t.ingress }) ∧
       (got = false → (∃ e ∈ t.evDue, e.code = 0x0400 ∧ e.value = 0 ∧ e.die = 6 ∧ e.field = c) ∧
         (t.ctx c).dropRun = (s.ctx c).dropRun + 1 ∧ (t.ctx c).goodRun = 0)) ∧
   (∀ (s : State) (link vc : Nat) (st : PktState), s.frz.stopped = false → link < 16 → vc < 4 → Map.get 0 s.ingress.gear link ≠ 0 →
     s.channelCtxs link vc = [] →
     exec (.csi2Fs link vc st) s = .next ((s.countHeader link st).discardPacket link) ∧
       exec (.csi2Fe link vc st) s = .next ((s.countHeader link st).discardPacket link)) ∧
   (∀ (s : State) (link vc c : Nat) (st : PktState), s.frz.stopped = false → link < 16 → vc < 4 → Map.get 0 s.ingress.gear link ≠ 0 →
     st.bad = false → s.channelCtxs link vc = [c] → (s.ctxCfg c).ok = true → (s.pos (s.ctxCfg c).position).pipe ≠ none →
     (s.ctx c).cur = none → (s.ctx c).frames = [] →
     (∀ f u, (s.ctx c).window = some (f, u, false) → u ≤ s.deviceTime → s.deviceTime ≤ u + (s.ctxCfg c).firstLine * 900 →
       ∃ t, exec (.csi2Fs link vc st) s = .next t ∧ (t.ctx c).window = some (f, u, true) ∧ (t.ctx c).cur = some f ∧
         (t.ctx c).frames = [⟨f, s.deviceTime, s.wall, s.epoch, 0, [], 0, 0, 0, false, false, false, []⟩] ∧
         ∀ d ∈ s.ctxDies c, s.takesFrame d f = true → s.stripFlag c f ∉ (s.die d).flagHeld →
           manyWrong (Map.get 0 s.upsets (flagWord d (s.stripFlag c f))) = false →
           (s.die d).flagCyc.find? (fun (p : Nat × FlagCyc) => p.1 == s.stripFlag c f) = none → t.flagVal d (s.stripFlag c f) = 0) ∧
     ((s.ctx c).window = none →
       ∃ t, exec (.csi2Fs link vc st) s = .next t ∧ t.getF 6 .ingCtxLong_unassigned 0 c =
         cap (2 ^ Fld.ingCtxLong_unassigned.width - 1) (s.getF 6 .ingCtxLong_unassigned 0 c + 1) ∧ t.flags = s.flags ∧ t.mem = s.mem)) ∧
   (∀ (s : State) (link vc c : Nat) (f : Word) (x : SFrame), s.frz.stopped = false → link < 16 → vc < 4 → Map.get 0 s.ingress.gear link ≠ 0 →
     s.channelCtxs link vc = [c] → (s.ctx c).cur = some f → s.sframe c f = some x → x.delivered = false →
     ∃ t, exec (.csi2Fe link vc .good) s = .next t ∧ (t.ctx c).cur = none ∧
       (x.received < (s.ctxCfg c).height → (∃ e ∈ t.evDue, e.code = 0x0400 ∧ e.value = 1 ∧ e.die = 6 ∧ e.field = c) ∧ t.sframe c f = none ∧
         (t.ctx c).dropRun = (s.ctx c).dropRun + 1) ∧
       ((s.ctxCfg c).height ≤ x.received → x.done < (s.ctxCfg c).height →
         t.sframe c f = some { x with ended := true } ∧ t = { s with ingress := t.ingress }))) ∧
  (∀ s : State, s.frz.stopped = false →
     (∀ link gear latency, link < 16 → gear ≤ 5 → gear ≤ (s.linkCfg link).gear → (s.linkCfg link).used = true →
       5 + link / 4 ∉ s.pwr.hubOff →
       ∃ t, exec (.aphyLinkTrain link gear latency) s = .next t ∧ t = { s with regs := t.regs, ingress := t.ingress } ∧
         t.ingress.gear = Map.set 0 s.ingress.gear link gear ∧ t.ingress.trained = setInsert link s.ingress.trained ∧
         link ∉ t.ingress.backDown ∧ t.getF 6 .ingLinkStatus_gear 0 link = gear ∧
         (gear ≠ 0 → t.getF 6 .ingLinkLat_latency 0 link = cap 65535 latency)) ∧
     (∀ link < 16, Map.get 0 s.ingress.gear link ≠ 0 →
       (∃ t, exec (.aphyLinkLost link false) s = .next t ∧ t = { s with regs := t.regs, ingress := t.ingress } ∧
         t.ingress = { s.ingress with gear := Map.set 0 s.ingress.gear link 0, backDown := setErase link s.ingress.backDown } ∧
         t.getF 6 .ingLinkStatus_locked 0 link = 0) ∧
       (∃ t, exec (.aphyLinkLost link true) s = .next t ∧ t = { s with regs := t.regs, ingress := t.ingress } ∧
         t.ingress = { s.ingress with backDown := setInsert link s.ingress.backDown } ∧
         t.getF 6 .ingLinkStatus_locked 0 link = 1 ∧ t.getF 6 .ingLinkStatus_bc_up 0 link = 0)) ∧
     (∀ who (v : Word), who.canAccess = true → s.privileged who = true → s.getF 6 .ingI2cResult_result ≠ 1 → bits v.toNat 12 2 ≠ 3 →
       ∃ t m, exec (.ingI2cCmd who v) s = .next t ∧ t.ingress = { s.ingress with i2c := some v } ∧ t.getF 6 .ingI2cResult_result = 1 ∧
         t = { s with
           regs := t.regs
           ingress := t.ingress
           out := { s.out with i2c := s.out.i2c ++ [(bits v.toNat 8 4, (s.linkCfg (bits v.toNat 8 4)).rate, m)] } } ∧
         m.take 3 = toLE 1 (v.toNat % 256) ++ toLE 2 (bits v.toNat 16 16)) ∧
     (∀ v data, s.ingress.i2c = some v →
       (∃ t, exec (.i2cComplete true data) s = .next t ∧ t.ingress = { s.ingress with i2c := none } ∧ t.getF 6 .ingI2cResult_result = 2 ∧
         (testBit v.toNat 7 = true → bits v.toNat 12 2 ≠ 3 →
           t.getF 6 .ingI2cData_data = data.toNat % 256 ^ (bits v.toNat 12 2 + 1)) ∧
         t = { s with regs := t.regs, ingress := t.ingress }) ∧
       (∃ t, exec (.i2cComplete false data) s = .next t ∧ t.ingress = { s.ingress with i2c := none } ∧ t.getF 6 .ingI2cResult_result = 3 ∧
         t = { s with regs := t.regs, ingress := t.ingress })))

/-- A long packet is discarded and counted, or is a line, an extra line or an embedded line of its context's frame; a line changes no memory but its
place in the context's buffer, an extra line none, an embedded line its place in the frame's buffer; and a packet that cannot be used drops the
frame. -/
def Obligations.PacketsBecomeLines : Prop :=
  ∀ (s u : State) (link vc dt c : Nat) (payload : List Byte) (x : SFrame) (rest : List Nat), s.frz.stopped = false → link < 16 → vc < 4 →
    Map.get 0 s.ingress.gear link ≠ 0 →
    (imageType dt = false → dt ≠ 0x12 → (s.matchCtx link vc dt).length ≤ 1 →
      exec (.csi2LongPacket link vc dt payload .good) s = .next (s.bumpF 6 .ingLinkErr_discarded 0 link)) ∧
    (s.matchCtx link vc dt = [] → exec (.csi2LongPacket link vc dt payload .good) s = .next (s.bumpF 6 .ingLinkErr_discarded 0 link)) ∧
    (s.matchCtx link vc dt = c :: rest → (dt = 0x12 ∨ imageType dt = true ∧ rest = []) → u = s.pipeTake (s.ctxCfg c).position →
      ((u.ctx c).cur = none → exec (.csi2LongPacket link vc dt payload .good) s = .next u) ∧
      ((u.ctx c).cur = some x.frame → u.sframe c x.frame = some x →
        (dt ≠ 0x12 → x.received < (s.ctxCfg c).height → u.held c < 15 →
          ∃ t, exec (.csi2LongPacket link vc dt payload .good) s = .next t ∧ t.flags = s.flags ∧
            t.sframe c x.frame = some { x with received := x.received + 1, rows := Map.put x.rows x.received payload } ∧
            t.bytesAt (bufferLine c (s.ctx c).slot) (payload.take 12288).length = payload.take 12288 ∧
            OnlyAt s t (bufferLine c (s.ctx c).slot) (payload.take 12288).length) ∧
        (dt ≠ 0x12 → (s.ctxCfg c).height ≤ x.received → (s.ctxCfg c).long ≠ 2 ∨ x.delivered = true →
          ∃ t, exec (.csi2LongPacket link vc dt payload .good) s = .next t ∧ t = { s with regs := t.regs, ingress := t.ingress } ∧
            t.sframe c x.frame = some { x with received := x.received + 1, long := true }) ∧
        (dt = 0x12 → x.embedded < (s.ctxCfg c).embedded →
          ∃ t, exec (.csi2LongPacket link vc dt payload .good) s = .next t ∧
            t.sframe c x.frame = some { x with embedded := x.embedded + 1 } ∧
            ((∀ d ∈ s.ctxDies c, s.takesFrame d x.frame = false) → t = { s with ingress := t.ingress }) ∧
            (∀ d a, s.ctxDies c = [d] → s.takesFrame d x.frame = true → a = s.bufferAt c d x.frame + 0x40 + x.embedded * 12288 →
              s.landsAt d a (payload.take 12288).length →
              t.flags = s.flags ∧ t.bytesAt a (payload.take 12288).length = payload.take 12288 ∧
                OnlyAt s t a (payload.take 12288).length)) ∧
        (x.delivered = false → ∀ st, st = .headerBad ∨ st = .crcBad →
          ∃ t, exec (.csi2LongPacket link vc dt payload st) s = .next t ∧ t.sframe c x.frame = none ∧
            ∃ e ∈ t.evDue, e.code = 0x0400 ∧ e.value = 3 ∧ e.die = 6 ∧ e.field = c)))

/-- A line that leaves its pipe counts towards its frame, and the last one that the frame waits for delivers it; a golden line starts only where no
real line is, and its run goes on, passes or fails.

A strip that has left its pipe is posted with its flag, a dropped frame's flag is raised to its full count, and the spare pipe takes a position
over at a handover point, or by force at a line boundary. -/
def Obligations.PipesFinishLinesAndStripsPost : Prop :=
  (∀ (s u : State) (p : Nat), s.frz.stopped = false → p < 4 → p < s.ingress.positions.length → u = s.pipeTake p →
     ((u.pos p).startDt + u.inPipeCycles p ≤ s.deviceTime →
       (∀ l x errs, (u.pos p).line = some l → u.sframe l.ctx l.frame = some x →
         ∃ t y, exec (.pipeLineDone p errs) s = .next t ∧ t.sframe l.ctx l.frame = some y ∧ y.done = x.done + 1 ∧ y.received = x.received ∧
           t.flags = s.flags ∧ (x.done + 1 < (s.ctxCfg l.ctx).height → t.mem = s.mem) ∧
           ((s.ctxCfg l.ctx).height ≤ x.done + 1 → x.delivered = false → (s.ctxCfg l.ctx).long = 1 ∨ x.ended = true →
             y.delivered = true)) ∧
       (∀ r rest errs, (u.pos p).line = none → (u.pos p).gold = true → (u.pos p).golds = r :: rest →
         ∃ t, exec (.pipeLineDone p errs) s = .next t ∧ t.mem = s.mem ∧ t.flags = s.flags ∧
           (r.line + 1 < (s.goldCfg ((s.ctxCfg r.ctx).golden - 1)).lines → (t.pos p).gold = false ∧
             (t.pos p).golds = { r with line := r.line + 1 } :: rest) ∧
           ((s.goldCfg ((s.ctxCfg r.ctx).golden - 1)).lines ≤ r.line + 1 →
             (s.goldBeyond (s.ctxCfg r.ctx) (s.goldCfg ((s.ctxCfg r.ctx).golden - 1)) errs ≤
                 (s.goldCfg ((s.ctxCfg r.ctx).golden - 1)).countLimit →
               (t.pos p).golds = rest ∧ (t.ctx r.ctx).goldRun = 0 ∧ (t.ctx r.ctx).goldDoubted = false) ∧
             ((s.goldCfg ((s.ctxCfg r.ctx).golden - 1)).countLimit <
                 s.goldBeyond (s.ctxCfg r.ctx) (s.goldCfg ((s.ctxCfg r.ctx).golden - 1)) errs →
               ∃ d ∈ t.doubtDue, d.cls = dGOLDEN_FAIL ∧ d.die = 6)))) ∧
     ((u.pos p).line = none → (u.pos p).ready = [] → (u.pos p).gold = false → (u.pos p).golds ≠ [] → (u.pos p).pipe ≠ none →
       (u.pos p).copyEnd ≤ s.deviceTime → (u.pos p).startDt ≤ s.deviceTime →
       exec (.goldenLineStart p) s = .next (u.modPos p (fun q => { q with gold := true, startDt := s.deviceTime })))) ∧
  ((∀ (s : State) (c d : Nat) (x : SFrame), s.frz.stopped = false → d ∈ s.ctxDies c → (s.ctx c).frames = [x] →
     Map.get 0 x.posted d + 1 < (s.ctxCfg c).strips →
     (Map.get 0 x.posted d + 1) * (s.ctxCfg c).strip ≤ (s.ctxCfg c).height →
     (Map.get 0 x.posted d + 1) * (s.ctxCfg c).strip ≤ (s.ctxCfg c).rowsOut x.done →
     (s.takesFrame d x.frame = false →
       ∃ t, exec (.stripPost c d) s = .next t ∧ t = { s with ingress := t.ingress } ∧
         (t.ctx c).frames = [{ x with posted := Map.put x.posted d (Map.get 0 x.posted d + 1) }]) ∧
     (s.takesFrame d x.frame = true → s.stripFlag c x.frame ∉ (s.die d).flagHeld → 0 < Map.get 0 x.posted d →
       manyWrong (Map.get 0 s.upsets (flagWord d (s.stripFlag c x.frame))) = false →
       ingressKey ∉ (s.flagCyc d (s.stripFlag c x.frame)).froms →
       (∀ q ∈ s.stripLines c x (Map.get 0 x.posted d), s.landsAt d (s.bufferAt c d x.frame + q.1) q.2.length) →
       ∃ t, exec (.stripPost c d) s = .next t ∧
         t.flagVal d (s.stripFlag c x.frame) = (s.flagCyc d (s.stripFlag c x.frame)).set.getD (s.flagCyc d (s.stripFlag c x.frame)).before +
           ((s.flagCyc d (s.stripFlag c x.frame)).sum + 1) ∧
         (∀ e g, g < 4096 → (e, g) ≠ (d, s.stripFlag c x.frame) → t.flagVal e g = s.flagVal e g) ∧
         (t.ctx c).frames = [{ x with posted := Map.put x.posted d (Map.get 0 x.posted d + 1) }])) ∧
   (∀ (s : State) (c d : Nat) (f : Word), (s.ctx c).raise.find? (fun (r : Nat × Word) => r.1 == d) = some (d, f) → s.dieUp d = true →
     s.reach 6 d = true → s.stripFlag c f ∉ (s.die d).flagHeld →
     manyWrong (Map.get 0 s.upsets (flagWord d (s.stripFlag c f))) = false →
     (s.die d).flagCyc.find? (fun (p : Nat × FlagCyc) => p.1 == s.stripFlag c f) = none →
     ∃ t, exec (.dropFlagRaise c d) s = .next t ∧ t.flagVal d (s.stripFlag c f) = Word.ofNat (s.ctxCfg c).strips ∧
       (∀ e g, g < 4096 → (e, g) ≠ (d, s.stripFlag c f) → t.flagVal e g = s.flagVal e g) ∧
       (t.ctx c).raise = (s.ctx c).raise.erase (d, f)) ∧
   (∀ (s u : State) (p old new since : Nat), s.frz.stopped = false → p < 4 → p < s.ingress.positions.length → u.sparePipe = some new →
     (u.pos p).pipe = some old → (u.pos p).handover = some since →
     (u = s.pipeTake p → (u.pos p).ready = [] → (u.pos p).line = none → (u.pos p).gold = false →
       ∃ t, exec (.pipeHandover p) s = .next t ∧ (t.pos p).pipe = some new ∧ (t.pos p).handover = none ∧
         (t.pos p).copyEnd = s.deviceTime + 3072 ∧ t.mem = s.mem ∧ t.flags = s.flags ∧ (t.pos p).retire = false ∧
         ((u.pos p).retire = true → old ∈ t.ingress.retired) ∧
         ((u.pos p).retire = false → (Map.get PipeTest.fresh t.ingress.tests old).underTest = true)) ∧
     (u = s → since + s.slotNominal ≤ s.deviceTime → (s.pos p).line = none →
       ∃ t, exec (.handoverForced p) s = .next t ∧ (t.pos p).pipe = some new ∧ (t.pos p).handover = none ∧
         (t.pos p).ready = (s.pos p).ready ∧ t.mem = s.mem ∧ t.flags = s.flags)))

/-! ### The Strainer and its inputs (chapter 17) -/

/-- What reaches the Strainer: an accepted output is held or discarded as late and its instance ends; a Cosy message is counted and held for its
streams; a deadline expires the verdicts due; a diversity check gives one verdict per frame; a mode request is accepted or dropped. -/
def Obligations.StrainerTakesItsInputs : Prop :=
  (∀ (s : State) (d node : Nat) (f : Word) (payload : List Byte) (poisoned : Bool) (i : Inst) (k : Nat), s.inst d node f = some i →
    (s.node i.variant node).kind = .output → (s.node i.variant node).stream = k → i.released = true → i.ended = none →
    i.complete = false → s.dieUp d = true → s.reach 6 d = true → (s.outCfg k).enable = true → (s.outCfg k).ranged = true →
    payload.length ≤ (s.outCfg k).maxPayload →
    ∃ t m, exec (.outputAccept d node f payload poisoned) s = .next t ∧ m.frame = f ∧ m.tombstone = (i.skipped || i.marked) ∧
      m.payload = (if i.skipped || i.marked then [] else payload) ∧ m.dt = s.deviceTime ∧
      t = ((s.acceptMain k m).modInst d node f (fun i =>
        { i with ended := some (if m.tombstone then .skipped else .done) })).settle d ∧
      (((s.strain k).isDecided k f = true → m.poisoned = false →
        s.acceptMain k m = (s.strain k).bumpF 6 .strLate_main_late 0 k))) ∧
  (∀ (s : State) (k : Nat), s.frz.stopped = false → (s.outCfg k).enable = true → (s.outCfg k).ranged = true →
    ∃ t, exec (.streamDeadline k) s = .next t ∧ t.mem = s.mem ∧ t.flags = s.flags ∧
      (∀ x ∈ s.root.starts, s.deadlineOf k x ≤ s.deviceTime → ∀ q ∈ s.pairsOf k, s.verdict q x.frame = none →
        (∀ y ∈ s.root.starts, (y.frame - x.frame).toNat < 128 ∨ (x.frame - y.frame).toNat < 128) → t.verdict q x.frame = some .inconclusive)) ∧
  (∀ (s : State) (m : CosyMsg), s.frz.stopped = false → s.cosyView.linkUp = true → s.cosy.running = true →
    ∃ t, exec (.cosyMessage m) s = .next t ∧ t.mem = s.mem ∧ t.flags = s.flags ∧
      (m.crcOk = true → t.cosyView.lastMsgDt = some s.deviceTime ∧ t.cosyView.unavailable = testBit m.envelope.toNat 15 ∧
        t.getF 6 .cosyFrame_frame = m.frame.toNat) ∧
      (m.absent = false → ∀ k ∈ s.streamsOn, (s.outCfg k).cosy = m.stream → m.frame ∈ (t.stream k).stamps)) ∧
  (∀ (s : State) (q : Nat) (f : Word) (a b : Status), s.frz.stopped = false → (s.divCfg q).kind ≠ 0 → (s.divCfg q).kind ≤ 2 → q < 32 →
    (s.divCfg q).die < s.nDies → s.reach (s.divCfg q).die 6 = true →
    s.verdict q f = none → s.endedStatus (s.divCfg q).die (s.divCfg q).classicalNode f = some a →
    s.endedStatus (s.divCfg q).die (s.divCfg q).neuralNode f = some b →
    (∀ y ∈ s.root.starts, (y.frame - f).toNat < 128 ∨ (f - y.frame).toNat < 128) →
    ∃ t, exec (.diversityVerdict q f) s = .next t ∧ t.mem = s.mem ∧ t.flags = s.flags ∧
      t.verdict q f = some (if a.checkable && b.checkable then (s.divCheck q f).1 else .inconclusive)) ∧
  (∀ (s : State) (stream : Nat) (p : List Byte), s.frz.stopped = false → stream < 32 → s.tsn (0x1280 + 32 * stream) 1 = 1 → s.tsn (0x1280 + 32 * stream + 1) 1 = 1 →
    (∀ m seq : Byte, p = [1, m, 0, 0] ++ [0, 0, 0, seq] ++ List.replicate 8 0 → (m = 1 ∨ m = 2) → ¬ (s.sec.unlocked = true ∧ m = 1) →
      ∃ t, exec (.modeRequest stream p) s = .next t ∧ t.saf = { s.saf with nextMode := some (m == 2) } ∧
        t.getF 6 .safMode_request = seq.toNat ∧ t = { s with regs := t.regs, saf := t.saf }) ∧
    (p.length ≠ 16 → exec (.modeRequest stream p) s = .next (s.bumpF 6 .tsnIngCount_dropped 0 stream)))

/-! ### The host ports (chapter 16) -/

/-- A port's link, gate cycle and time: a link comes up at its entry's speed or goes down; a gate list starts at a grid point; a Sync steps or slews wall
time; and 375 ms without one is holdover.

A read of TSN_WALL_LO answers the lower half of wall time and captures its upper half and the epoch for the reader; the reader's next read of
TSN_TIME shows that epoch and uses it up. -/
def Obligations.PortsGatesAndTimeReads : Prop :=
  ((∀ (s : State) (p : Nat), s.frz.stopped = false → p < 3 → s.portsReady = true →
     (s.ethUp p = false → (s.portCfg p).enable = true → 13 + p ∉ s.pwr.hubOff →
       (p < 2 → (s.portCfg p).macsec = 0 ∨ s.sec.sealedOk = true) →
       ∃ t, exec (.hostPortLink p true) s = .next t ∧ t.ethUp p = true ∧ t.getF 6 .ethStatus_speed p = speedCode p (s.portCfg p).speed % 8 ∧
         t = { s with regs := t.regs, streams := t.streams }) ∧
     (s.ethUp p = true → ∃ t, exec (.hostPortLink p false) s = .next t ∧ t.ethUp p = false ∧ Map.get 0 t.time.gateStart p = 0 ∧
       t.getF 6 .ethOverrun_retrains p = cap (2 ^ Fld.ethOverrun_retrains.width - 1) (s.getF 6 .ethOverrun_retrains p + 1) ∧
       t = { s with regs := t.regs, time := t.time })) ∧
   (∀ (s : State) (p w : Nat), s.frz.stopped = false → p < 2 → (s.portCfg p).gcl ≠ 0 → s.ethUp p = true → s.gridPoint s.wall = some w →
     Map.get 0 s.time.gateStart p ≠ w + 1 →
     ∃ t, exec (.gateCycleStart p) s = .next t ∧ Map.get 0 t.time.gateStart p = w + 1 ∧ t.getF 6 .ethStatus_gate_on p = 1 ∧
       t = { s with regs := t.regs, time := t.time }) ∧
   (∀ (s : State) (p : Nat) (off : Int), s.frz.stopped = false → p < 2 → s.ethUp p = true → s.portsReady = true →
     ∃ t, exec (.gptpSync p off) s = .next t ∧ t.time.everSynced = true ∧ t.time.holdover = false ∧ t.time.port = p ∧
       t.time.lastSyncDt = s.deviceTime ∧ t.time.prevSeg = s.time.seg ∧ t.time.seg.dt = s.deviceTime ∧ t.time.seg.synced = true ∧
       (s.time.everSynced = false ∨ stepsWall off = true → t.time.seg.wall = ((s.wall : Int) + off).toNat ∧
         t.time.seg.ppb = s.time.seg.ppb ∧ t.time.seg.epoch = (s.time.seg.epoch + 1) % 65536) ∧
       (s.time.everSynced = true → stepsWall off = false → t.time.seg.wall = s.wall ∧ t.time.seg.epoch = s.time.seg.epoch ∧
         -200000 ≤ t.time.seg.ppb ∧ t.time.seg.ppb ≤ 200000) ∧
       t.mem = s.mem ∧ t.flags = s.flags ∧ t.dies = s.dies) ∧
   (∀ s : State, s.frz.stopped = false → s.time.everSynced = true → s.time.holdover = false → s.time.lastSyncDt + 337500000 ≤ s.deviceTime →
     ∃ t, exec .syncTimeout s = .next t ∧ t.time = { s.time with holdover := true, seg := { s.time.seg with synced := false } } ∧
       t.getF 6 .tsnTime_holdover = 1 ∧ t.getF 6 .tsnTime_synced = 0 ∧ (∃ e ∈ t.evDue, e.code = 0x0201 ∧ e.value = 0 ∧ e.die = 6) ∧
       t = { s with regs := t.regs, time := t.time, evDue := t.evDue })) ∧
  (∀ (s : State) (who : Init), s.frz.stopped = false → who.canAccess = true →
     (∃ t, exec (.tsnWallLoRead who) s = .next t ∧
       t = { s with
         captures := t.captures
         out := { s.out with reads := s.out.reads ++ [Word.ofNat s.wall] } } ∧
       t.captures.find? (fun (p : Nat × Word) => p.1 == captureKey who 0) = some (captureKey who 0, Word.ofNat (s.wall / 2 ^ 32)) ∧
       t.captures.find? (fun (p : Nat × Word) => p.1 == captureKey who 1) = some (captureKey who 1, Word.ofNat (s.epoch % 65536))) ∧
     (∀ e, s.captures.find? (fun (p : Nat × Word) => p.1 == captureKey who 1) = some (captureKey who 1, e) →
       ∃ t, exec (.tsnTimeRead who) s = .next t ∧ t = { s with
           captures := Map.erase s.captures (captureKey who 1)
           out := { s.out with reads := s.out.reads ++ [s.tsnTime e.toNat] } } ∧
         t.captures.find? (fun (p : Nat × Word) => p.1 == captureKey who 1) = none) ∧
     (s.captures.find? (fun (p : Nat × Word) => p.1 == captureKey who 1) = none →
       exec (.tsnTimeRead who) s = .next { s with out := { s.out with reads := s.out.reads ++ [s.tsnTime s.epoch] } }))

/-- The next fragment of a stream's first message goes out with one R-TAG on every host port that is up and whose gate allows it; with both ports down
it is discarded and recorded; and a stopped framing sends nothing.

A frame from a host is counted, checked, filtered, metered and freed of duplicates before its fragment joins its message; an incomplete message is
discarded after 2 ms, a held entry enters its ring when there is room, and elimination forgets its history after 100 ms. -/
def Obligations.HostFramesGoOutAndComeIn : Prop :=
  (∀ (s : State) (k : Nat) (m : OutMsg) (rest : List OutMsg), s.frz.stopped = false → (s.stream k).queue = m :: rest →
     (s.saf.framingStopped = true → exec (.fragmentSend k) s = .next s) ∧
     (s.saf.framingStopped = false → s.hostUp ≠ [] → m.given = [] → (∀ p ∈ s.hostUp, s.gateAllows p (s.outCfg k).pcp
         (lineNs (s.portCfg p).speed (frameBytes ((s.portCfg p).macsec != 0) (m.frag m.sent).length)) = true) →
       ∃ t, exec (.fragmentSend k) s = .next t ∧
         t.out = { s.out with frames := s.out.frames ++ s.hostUp.map (fun p =>
           ⟨p, (s.outCfg k).dest, (s.portCfg p).mac, (s.outCfg k).pcp, (s.outCfg k).vlan, (s.outCfg k).streamId, (s.outCfg k).acf, k,
             (s.stream k).rtag, (s.stream k).seqNum, Word.ofNat m.wall, m.seq, m.sent, m.frags, m.frag m.sent,
             (s.portCfg p).macsec != 0⟩) } ∧
         (t.stream k).rtag = (s.stream k).rtag + 1 ∧ (t.stream k).seqNum = (s.stream k).seqNum + 1 ∧
         (m.sent + 1 < m.frags → (t.stream k).queue = { m with sent := m.sent + 1, given := [], deferred := [] } :: rest) ∧
         (m.frags ≤ m.sent + 1 → (t.stream k).queue = rest) ∧ (∀ j, j ≠ k → t.stream j = s.stream j) ∧ t.mem = s.mem ∧ t.flags = s.flags) ∧
     (s.saf.framingStopped = false → s.hostUp = [] →
       ∃ t, exec (.fragmentSend k) s = .next t ∧ t.out = s.out ∧ (t.stream k).rtag = (s.stream k).rtag + 1 ∧
         (∃ e ∈ t.evDue, e.code = 0x0B00 ∧ e.value = 1) ∧ (m.frags ≤ m.sent + 1 → (t.stream k).queue = rest) ∧ t.mem = s.mem)) ∧
  ((∀ (s : State) (p : Nat) (f : IngFrame), s.frz.stopped = false → p < 2 → s.ethUp p = true →
     (f.fcsOk = false → exec (.ingressFrame p f) s = .next ((s.bumpF 6 .ethRx_frames p).bumpF 6 .ethRxDrop_fcs p)) ∧
     (f.fcsOk = true → ((s.portCfg p).macsec = 0 ∨ f.icvOk = true ∧ f.replayOk = true) →
       ((∀ k < 32, (s.ingCfg k).enable = true → (s.ingCfg k).streamId ≠ f.streamId.toNat) →
         exec (.ingressFrame p f) s = .next ((s.bumpF 6 .ethRx_frames p).bumpF 6 .ethRxDrop_filter p)) ∧
       (∀ (k : Nat) (x y : IngStream), (List.range 32).find? (fun k => (s.ingCfg k).enable && (s.ingCfg k).streamId == f.streamId.toNat) = some k →
         f.size ≤ 1536 → f.size ≤ (s.ingCfg k).maxSdu → (s.ingStream k).meter (s.ingCfg k) s.deviceTime f.size = (x, true) →
         (∀ n, x.recover s.deviceTime (f.rtag % 65536) = (y, false, true, n) →
           ∃ t, exec (.ingressFrame p f) s = .next t ∧ t.ingStream k = y ∧
             t.getF 6 .tsnCb_eliminated = cap (2 ^ Fld.tsnCb_eliminated.width - 1) (s.getF 6 .tsnCb_eliminated + 1) ∧
             t = { s with regs := t.regs, ingStreams := t.ingStreams }) ∧
         (∀ n, x.recover s.deviceTime (f.rtag % 65536) = (y, true, false, n) → f.fragIndex < f.fragCount →
           (∀ a ∈ y.parts, a.seq ≠ f.msgSeq) → 1 < f.fragCount →
           ∃ t, exec (.ingressFrame p f) s = .next t ∧ t = { s with regs := t.regs, ingStreams := t.ingStreams } ∧
             t.ingStream k = { y with parts := y.parts ++
               [⟨f.msgSeq, s.deviceTime, 2 ^ p, f.fragCount, Map.set [] [] f.fragIndex f.data⟩] }) ∧
         (∀ n msg, x.recover s.deviceTime (f.rtag % 65536) = (y, true, false, n) → f.fragIndex = 0 → f.fragCount = 1 → f.data ≠ [] →
           y.parts = [] → messageOf f.data = some msg →
           ∃ u : State, exec (.ingressFrame p f) s = .next (u.ingMessage k (2 ^ p) msg) ∧ u = { s with regs := u.regs, ingStreams := u.ingStreams } ∧
             u.ingStream k = y)))) ∧
   (∀ (s : State) (k : Nat) (a : Partial), s.frz.stopped = false → a ∈ (s.ingStream k).parts → a.firstDt + 1800000 ≤ s.deviceTime →
     ∃ t, exec (.reassemblyTimeout k) s = .next t ∧ (∀ b, b ∈ (t.ingStream k).parts ↔ b ∈ (s.ingStream k).parts ∧ s.deviceTime < b.firstDt + 1800000) ∧
       t = { s with regs := t.regs, ingStreams := t.ingStreams }) ∧
   (∀ (s : State) (d q : Nat) (l : List Byte) (rest : List (List Byte)), s.frz.stopped = false → Map.get [] s.ringHold (holdKey d q) = l :: rest →
     s.dieUp d = true → s.reach 6 d = true →
     ((s.ringOf d q).full (s.queue d q) = true → exec (.ingressHoldRetry d q) s = .next s) ∧
     ((s.ringOf d q).full (s.queue d q) = false → exec (.ingressHoldRetry d q) s =
       .next ({ s with ringHold := Map.set [] s.ringHold (holdKey d q) rest }.ringEntry d q l))) ∧
   (∀ (s : State) (k : Nat), s.frz.stopped = false → (s.ingStream k).rtagLast ≠ none → (s.ingStream k).lastDt + 90000000 ≤ s.deviceTime →
     ∃ t, exec (.cbReset k) s = .next t ∧ t.ingStream k = { s.ingStream k with rtagLast := none, rtagSeen := [], span := 0 } ∧
       t = { s with ingStreams := t.ingStreams }))

/-- SHADOW_REFRESH: the die's shadow copies take what its registers hold, and no other die's copies change. -/
def Obligations.ShadowsTakeTheRegisters : Prop :=
  ∀ (s : State) (d : Nat), (s.dieUp d = true ∨ (d = 6 ∧ s.pwr.good = true ∧ s.pwr.resetN = true)) →
    s.shadow.Pairwise (fun (a b : Nat × Word) => a.1 < b.1) →
    ∃ t, exec (.shadowRefresh d) s = .next t ∧ t.mem = s.mem ∧ t.flags = s.flags ∧ t.out = s.out ∧
      ∀ (k : Nat) (w : Word), (k / 2 ^ 40 = d → Map.get w t.shadow k = Map.get w t.regs k) ∧
        (k / 2 ^ 40 ≠ d → Map.get w t.shadow k = Map.get w s.shadow k)

/-! ### Power, clocks and hot-plug (chapter 23) -/

/-- Insertion, reset and the presence pin: contact ends a cut by heat if no sensor is at 85 °C, inrush starts when the input has settled, a low
MOD_RESET_N holds dies 0 to 6 in reset, and its release begins a cold start; it is ignored while a removal is latched, and where a removal
request of its own cycle waits (log entry 3: the commands of one queue share a cycle).

Power loss: an input outside its limits takes the rails of dies 0 to 6, or the Cosy's, down; the former keeps nothing but OTP, the Cosy's
part, and flash but for a record whose write the loss cuts; the latter leaves the Cosy its OTP and NOR, and its link is lost.  An input in its
limits changes nothing, and between 34 V and 36 V an event comes once per second. -/
def Obligations.InsertionResetAndPowerLoss : Prop :=
  (∀ s : State,
     (s.pwr.good = false → ∃ t, exec .bladeContact s = .next t ∧ t = { s with pwr := { s.pwr with
       contact := true, cut := s.pwr.cut && !s.pwr.hot.isEmpty } }) ∧
     (s.pwr.contact = true → s.pwr.inrush = false → s.pwr.cut = false → s.pwr.safeToRemove = false →
       ∃ t, exec .inrushStart s = .next t ∧ t = { s with pwr := { s.pwr with inrush := true } }) ∧
     (s.pwr.removal = none →
       (s.pwr.resetN = true → Instr.removalRequest ∈ s.pending → exec (.modResetN false) s = .next s) ∧
       (s.pwr.resetN = true → s.pwr.good = true → Instr.removalRequest ∉ s.pending →
         ∃ t, exec (.modResetN false) s = .next t ∧ t.pwr.resetN = false ∧ t.pwr.good = true ∧
         (∀ d, t.dieUp d = false) ∧ t.flash = { s.flash with writing := none } ∧ t.cosy = s.cosy ∧ t.sec.session = none ∧ OtpForward s t ∧
         ∀ a, t.byteAt a = (match s.region a with | .mailbox _ => s.byteAt a | _ => 0)) ∧
       (s.pwr.resetN = false → s.pwr.good = true → ∃ t, exec (.modResetN true) s = .next t ∧ t.pwr.resetN = true ∧ ColdStarted s t) ∧
       (s.pwr.resetN = false → s.pwr.good = false → ∃ t, exec (.modResetN true) s = .next t ∧
         t = { s with pwr := { s.pwr with
           resetN := true, cut := s.pwr.cut && !s.pwr.hot.isEmpty, contact := s.pwr.contact || s.pwr.safeToRemove, safeToRemove := false } })) ∧
     (s.pwr.removal ≠ none → ∀ level, exec (.modResetN level) s = .next s) ∧
     (s.pwr.safeToRemove = true → exec .presentNMake s =
       .next { s with pwr := { s.pwr with present := true, contact := true, safeToRemove := false } })) ∧
  (∀ (s : State) (mv : Nat),
     (mv < 34000 ∨ 62000 < mv → ∃ t, exec (.inputOutOfRange false mv) s = .next t ∧ t.pwr.good = false ∧ t.pwr.inrush = false ∧
       (∀ d, t.dieUp d = false) ∧ t.flash = s.flash.powerLost s.deviceTime ∧ t.cosy = s.cosy ∧ OtpForward s t ∧ t.sec.session = none ∧
       ∀ a, t.byteAt a = (match s.region a with | .mailbox _ => s.byteAt a | _ => 0)) ∧
     (mv < 30000 ∨ 62000 < mv → ∃ t, exec (.inputOutOfRange true mv) s = .next t ∧ t.cosy = s.cosy.unpowered ∧
       (s.cosyView.linkUp = true → t.cosyView.linkUp = false) ∧ t.mem = s.mem ∧ t.dies = s.dies ∧ t.flags = s.flags) ∧
     (34000 ≤ mv → mv ≤ 62000 → ∀ b, exec (.inputOutOfRange b mv) s = .next s) ∧
     (∀ d, s.pwr.good = true → d < s.nDies ∨ d = 6 → ∃ t, exec (.thermalCut d) s = .next t ∧ t.pwr.good = false ∧ t.pwr.cut = true ∧
       t.pwr.faultN = true ∧ t.pwr.hot = setInsert d s.pwr.hot ∧ (∀ e, t.dieUp e = false) ∧ t.flash = s.flash.powerLost s.deviceTime ∧ t.cosy = s.cosy ∧ OtpForward s t) ∧
     (s.frz.stopped = false → s.pwr.good = true → 34000 ≤ mv → mv < 36000 →
       (s.pwr.lowDt = none ∨ (∃ u, s.pwr.lowDt = some u ∧ u + 900000000 ≤ s.deviceTime) →
         ∃ t, exec (.lowInputTick mv) s = .next t ∧ t.pwr = { s.pwr with lowDt := some s.deviceTime } ∧ t.getF 6 .pwrIn_volts = mv / 10 ∧
           (∃ e ∈ t.evDue, e.code = 0x0F07 ∧ e.value = Word.ofNat mv ∧ e.die = 6) ∧
           t = { s with regs := t.regs, pwr := t.pwr, evDue := t.evDue }) ∧
       (∀ u, s.pwr.lowDt = some u → s.deviceTime < u + 900000000 →
         ∃ t, exec (.lowInputTick mv) s = .next t ∧ t.getF 6 .pwrIn_volts = mv / 10 ∧ t = { s with regs := t.regs })))

/-- Monitors and regulators: a reading above a limit is an event and a MONITOR doubt of its die, a failed test of a monitor a SELFTEST doubt, a lost phase
an event; a domain of dies 0 to 6 is switched only to the state the rules give it, and the Cosy switches its own.  Cut off by heat, the junction
sensors are read on (log entry 102).

Clocks and removal: a disagreement that names the root PLL or the active reference is met by its spare, holdover ends with the doubt's clearing, and
a removal request ends a freeze and stops frames. -/
def Obligations.MonitorsPhasesAndClocks : Prop :=
  (∀ (s : State), s.frz.stopped = false → s.pwr.good = true →
     (∀ w, ∃ t, exec (.powerWindow w) s = .next t ∧ t.getF 6 .pwrInPower_avg = cap 65535 w ∧
       t = { s with regs := t.regs, pwr := t.pwr, evDue := t.evDue, doubtDue := t.doubtDue } ∧
       ((if s.m2 then 360 else 600) < w → (∃ e ∈ t.evDue, e.code = 0x0F01 ∧ e.value = 4 ∧ e.die = 6) ∧
         ⟨dMONITOR, 6, 0, .plain, s.frame⟩ ∈ t.doubtDue) ∧
       (w ≤ (if s.m2 then 360 else 600) → t.doubtDue = s.doubtDue)) ∧
     (∀ d, d < s.nDies ∨ d = 6 →
       (∀ sensor r, sensor < 64 → ∃ t, exec (.monitorTrip d .rail sensor r) s = .next t ∧ t.getF d .pwrRail_window 0 sensor = 1 ∧
         (∃ e ∈ t.evDue, e.code = 0x0F01 ∧ e.value = 1 ∧ e.die = d ∧ e.field = sensor) ∧ ⟨dMONITOR, d, 0, .plain, s.frame⟩ ∈ t.doubtDue ∧
         t = { s with regs := t.regs, evDue := t.evDue, doubtDue := t.doubtDue }) ∧
       (∀ sensor r, ∃ t, exec (.monitorTrip d .junction sensor r) s = .next t ∧
         t = { s with regs := t.regs, pwr := s.pwr.felt d r, evDue := t.evDue, doubtDue := t.doubtDue } ∧
         (105 ≤ r → ⟨dMONITOR, d, 0, .plain, s.frame⟩ ∈ t.doubtDue ∧ ∃ e ∈ t.evDue, e.code = 0x0F01 ∧ e.value = 2 ∧ e.die = d) ∧
         (95 ≤ r → s.getF d .pwrTemp_warn = 0 → ∃ e ∈ t.evDue, e.code = 0x0F03 ∧ e.die = d ∧ e.field = 0) ∧
         (r < 105 → t.doubtDue = s.doubtDue)) ∧
       (∀ m sensor r, m = .clock ∨ m = .power → ∃ t, exec (.monitorTrip d m sensor r) s = .next t ∧ (∃ x ∈ t.doubtDue, x.cls = dMONITOR) ∧
         t = { s with regs := t.regs, evDue := t.evDue, doubtDue := t.doubtDue }) ∧
       (∀ sensor r, ∃ t, exec (.monitorTrip d .inlet sensor r) s = .next t ∧
         t = { s with regs := t.regs, evDue := t.evDue, doubtDue := t.doubtDue } ∧
         (65 ≤ r → ⟨dMONITOR, 6, 0, .plain, s.frame⟩ ∈ t.doubtDue ∧ ∃ e ∈ t.evDue, e.code = 0x0F01 ∧ e.value = 3 ∧ e.die = 6) ∧
         (r < 65 → t.doubtDue = s.doubtDue))) ∧
     (∀ d m, exec (.monitorTest d m true) s = .next s ∧
       (d < s.nDies → d ≠ 6 → m ≠ .inlet → m ≠ .power → exec (.monitorTest d m false) s = .next (s.doubt dSELFTEST d s.frame 0 .checker))) ∧
     (∀ d g, (d < s.nDies ∧ g < 6) ∨ (d = 6 ∧ g < 5) →
       ∃ t, exec (.phaseFail d g) s = .next t ∧ t.getF d .pwrRail_spare_used 0 g = 1 ∧
         Map.get 0 t.pwr.phases (d * 8 + g) = Map.get 0 s.pwr.phases (d * 8 + g) + 1 ∧
         t.getF d .pwrRail_second_loss 0 g = bit (decide (2 ≤ Map.get 0 s.pwr.phases (d * 8 + g) + 1)) ∧
         (∃ e ∈ t.evDue, e.code = 0x0F02 ∧ e.value = Word.ofNat (Map.get 0 s.pwr.phases (d * 8 + g) + 1) ∧ e.die = d ∧ e.field = g) ∧
         t = { s with regs := t.regs, pwr := t.pwr, evDue := t.evDue, freeCtr := t.freeCtr }) ∧
     (∀ d n on, s.hasDomain d n = true → d ≠ 7 →
       (s.domainWanted d n = on → ∃ t, exec (.domainSwitch d n on) s = .next t ∧ Map.get false t.pwr.domains (d * 128 + n) = on ∧
         t.getF d .pwrDom_state 0 n = bit on ∧ t = { s with regs := t.regs, pwr := t.pwr }) ∧
       (s.domainWanted d n ≠ on → exec (.domainSwitch d n on) s = .next s)) ∧
     (∀ n < 8, s.cosy.powered = true → ∀ on, exec (.domainSwitch 7 n on) s = .next { s with cosy := { s.cosy with
       domains := if on then setInsert n s.cosy.domains else setErase n s.cosy.domains } })) ∧
  (∀ s : State, s.pwr.good = false → s.pwr.cut = true → ∀ d, d < s.nDies ∨ d = 6 → ∀ sensor r,
     exec (.monitorTrip d .junction sensor r) s = .next { s with pwr := s.pwr.felt d r }) ∧
  ((∀ (s : State) (a b c : Bool), s.frz.stopped = false → s.pwr.good = true → 2 ≤ s.boot.step →
     ((if s.pwr.ref = 0 then a else b) = true → (if s.pwr.ref = 0 then b else a) = true → c = false → s.pwr.root = 0 →
       ∃ t, exec (.clockCompare a b c false) s = .next t ∧ t.pwr = { s.pwr with root := 1, rootFailed := setInsert 0 s.pwr.rootFailed } ∧
         (∃ e ∈ t.evDue, e.code = 0x0F00 ∧ e.value = 0) ∧ t.getF 6 .clkStatus_root = 1 ∧ t.mem = s.mem ∧ t.flags = s.flags) ∧
     ((if s.pwr.ref = 0 then a else b) = true → (if s.pwr.ref = 0 then b else a) = false → c = true → s.pwr.refFailed = [] → s.pwr.ref < 2 →
       ∃ t, exec (.clockCompare a b c false) s = .next t ∧ t.pwr = { s.pwr with
           refFailed := [s.pwr.ref], ref := 1 - s.pwr.ref, holdover := some s.deviceTime } ∧
         (∃ e ∈ t.evDue, e.code = 0x0F00 ∧ e.value = 1) ∧ t.getF 6 .clkStatus_holdover = 1 ∧ t.mem = s.mem ∧ t.flags = s.flags) ∧
     (a = false → b = false → c = false →
       ∃ t, exec (.clockCompare a b c false) s = .next t ∧ t = { s with regs := t.regs, freeCtr := s.freeCtr + 3 })) ∧
   (∀ (s : State) (h : Nat), s.pwr.holdover = some h →
     ∃ t, exec .holdoverEnd s = .next t ∧ t.pwr = { s.pwr with holdover := none } ∧
       (∀ x ∈ t.saf.doubts, x.recovery ≠ .clockSpare) ∧ t.mem = s.mem ∧ t.flags = s.flags) ∧
   (∀ s : State, s.pwr.good = true → s.pwr.removal = none →
     (s.pwr.resetN = false → ∃ t, exec .removalRequest s = .next t ∧ t.pwr.good = false ∧ t.pwr.safeToRemove = true ∧ t.pwr.contact = false ∧
       t.flash = s.flash.powerLost s.deviceTime) ∧
     (s.pwr.resetN = true → ∃ t, exec .removalRequest s = .next t ∧ t.pwr.removal = some s.deviceTime ∧ t.root.running = false ∧
       t.frz.requested = false ∧ t.getF 6 .hswStatus_removing = 1 ∧ (∃ e ∈ t.evDue, e.code = 0x0F06) ∧ t.flags = s.flags ∧ t.sec = s.sec)))

/-! ### The vision engines (chapters 06 to 08) -/

/-- A pyramid, warp, flow or stereo task that breaks no rule is done, and what it holds for writing lies in the rows of its outputs that its
parameters name; one whose sources lie behind a lost link waits; and one that breaks a rule is an error of the host's own making (log entry 42).

A stereo task in mode TEST_FILL holds the TEST word 0xC000 for every pixel of its rows, whatever its sources hold (R226): so the pixels read once its
writes have been made. -/
def Obligations.ImageEnginesCompleteTheirTasks : Prop :=
  (∀ (s : State) (d i : Nat) (j : Job), d < s.dies.length →
     (s.job d 1 i = some j → (s.pyrError j = none → s.spansReach d (allSpans (j.arg 0)) = true →
         ∃ t, exec (.pyrTask d i) s = .next t ∧ EngineDone s t d j (pyrSpans j)) ∧
       (s.pyrError j = none → s.spansReach d (allSpans (j.arg 0)) = false → exec (.pyrTask d i) s = .next s) ∧
       (∀ r, s.pyrError j = some r → exec (.pyrTask d i) s = .next s.unpredictable)) ∧
     (s.job d 2 i = some j → j.p 0 1 ≠ 1 →
       (s.meshError d i j = none → s.spansReach d (meshReads j (s.mesh d i j)) = true →
         ∃ t, exec (.wrpMeshTask d i) s = .next t ∧ EngineDone s t d j (meshSpans j)) ∧
       (s.meshError d i j = none → s.spansReach d (meshReads j (s.mesh d i j)) = false → exec (.wrpMeshTask d i) s = .next s) ∧
       (∀ r, s.meshError d i j = some r → exec (.wrpMeshTask d i) s = .next s.unpredictable)) ∧
     (s.job d 2 i = some j → j.p 0 1 ≠ 0 →
       (s.samplerError j = none → s.spansReach d (samplerReads j) = true →
         ∃ t, exec (.wrpSamplerTask d i) s = .next t ∧ EngineDone s t d j (samplerSpans j)) ∧
       (s.samplerError j = none → s.spansReach d (samplerReads j) = false → exec (.wrpSamplerTask d i) s = .next s) ∧
       (∀ r, s.samplerError j = some r → exec (.wrpSamplerTask d i) s = .next s.unpredictable)) ∧
     (s.job d 4 i = some j → (s.flowError j = none → s.spansReach d (flowReads j) = true →
         ∃ t, exec (.flwTask d i) s = .next t ∧ EngineDone s t d j (flowSpans j)) ∧
       (s.flowError j = none → s.spansReach d (flowReads j) = false → exec (.flwTask d i) s = .next s) ∧
       (∀ r, s.flowError j = some r → exec (.flwTask d i) s = .next s.unpredictable)) ∧
     (s.job d 5 i = some j → j.p 0 1 ≠ 1 →
       (s.steError j 0 = none → s.spansReach d (steReads j) = true →
         ∃ t, exec (.steSgm d i) s = .next t ∧ EngineDone s t d j (steSpans j)) ∧
       (s.steError j 0 = none → s.spansReach d (steReads j) = false → exec (.steSgm d i) s = .next s) ∧
       (∀ r, s.steError j 0 = some r → exec (.steSgm d i) s = .next s.unpredictable)) ∧
     (s.job d 5 i = some j → j.p 0 1 ≠ 0 →
       (s.steError j 1 = none →
         ∃ t, exec (.steTestFill d i) s = .next t ∧ EngineDone s t d j (steSpans j)) ∧
       (∀ r, s.steError j 1 = some r → exec (.steTestFill d i) s = .next s.unpredictable))) ∧
  (∀ (s : State) (d i : Nat) (j : Job) (rows : List Nat), d < s.dies.length → s.job d 5 i = some j → j.p 0 1 = 1 → s.steError j 1 = none →
     steConf j = none → steRows j = some rows →
     (∀ y ∈ rows, s.inStretch (pixAddr (j.arg 2) 0 y) (64 * (j.arg 2).runGranules) = false ∧
       ∀ k < 64 * (j.arg 2).runGranules, ∃ o, s.region (pixAddr (j.arg 2) 0 y + k) = .commons d o) →
     ∃ t, exec (.steTestFill d i) s = .next t ∧ ∀ y ∈ rows, ∀ x < (j.arg 2).ext 0,
       (t.makeWrites d (t.unit d j.unit).writes).memLE (pixAddr (j.arg 2) x y) 2 = 0xC000)

/-- The feature engine: a detection whose sources can be read, and whose list lies apart from them, holds its list for writing, matching or not,
with the updates of its partition only in the journal; one that breaks a rule is an error of the host's own making (log entry 42); a reset
frees the partition in the journal; a dump copies it out; and the tracks are read one word at a time through a holding buffer. -/
def Obligations.FeatureEngineCompletesItsTasks : Prop :=
  (∀ (s : State) (d i : Nat) (j : Job), d < s.dies.length → s.job d 3 i = some j →
    (∀ matching : Bool, j.p 0 1 = (if matching then 0 else 1) → ∀ r, s.featureError d j matching = some r → ∀ errs,
      exec (if matching then .ftrDetectMatch d i errs else .ftrDetect d i) s = .next s.unpredictable) ∧
    (s.spansReach d ((featureSrcs j).map allSpans).flatten = true →
      spansMeet (runSpans (j.arg (j.p 2 1))) ((featureSrcs j).map allSpans).flatten = false →
      (∀ errs, j.p 0 1 = 0 → s.featureError d j true = none →
        ∃ t, exec (.ftrDetectMatch d i errs) s = .next t ∧ EngineDone s t d j (runSpans (j.arg (j.p 2 1))) ∧
          (t.die d).tracks = (s.die d).tracks ∧ (t.die d).trackCtr = (s.die d).trackCtr) ∧
      (j.p 0 1 = 1 → s.featureError d j false = none →
        ∃ t, exec (.ftrDetect d i) s = .next t ∧ EngineDone s t d j (runSpans (j.arg (j.p 2 1))) ∧
          (t.die d).tracks = (s.die d).tracks ∧ (t.die d).journal = [])) ∧
    (j.p 0 1 = 2 → partitionOk j = true →
      ∃ t, exec (.ftrReset d i) s = .next t ∧ EngineDone s t d j [] ∧ (t.die d).tracks = (s.die d).tracks ∧
        (t.die d).journal = (List.range (j.p 0x18 2)).map (fun k =>
          (j.p 0x16 2 + k, (0 : Byte) :: (s.trackBytes d (j.p 0x16 2 + k)).drop 1))) ∧
    (j.p 0 1 = 3 → partitionOk j = true → s.dumpOk j = true →
      ∃ t, exec (.ftrDump d i) s = .next t ∧ EngineDone s t d j (runSpans (j.arg 0)) ∧
        (t.die d).tracks = (s.die d).tracks ∧ (t.die d).journal = (s.die d).journal)) ∧
  (∀ (s : State) (who : Init) (d i : Nat), who.canAccess = true → d < s.nDies → d < s.dies.length → i < 2 → s.privileged who = true →
    s.dieUp d = true →
    (∀ v : Word, ∃ t, exec (.ftrTrackSelWrite who d i v) s = .next t ∧ t = { s with regs := t.regs, dies := t.dies } ∧
      t.getF d .ftrTrackSel_entry i = v.toNat % 32768 ∧ Map.get [] (t.die d).trackHold i = s.trackBytes d (v.toNat % 32768) ∧
      Map.get 0 (t.die d).trackPtr i = 0 ∧ (t.die d).tracks = (s.die d).tracks) ∧
    (∃ t, exec (.ftrTrackDataRead who d i) s = .next t ∧ t = { s with
        dies := t.dies
        out := { s.out with reads := s.out.reads ++ [Word.ofNat (leNat (((Map.get [] (s.die d).trackHold i).drop
          (4 * Map.get 0 (s.die d).trackPtr i)).take 4))] } } ∧
      Map.get 0 (t.die d).trackPtr i = (Map.get 0 (s.die d).trackPtr i + 1) % 16 ∧ (t.die d).tracks = (s.die d).tracks))

/-! ### The neural core (chapters 09 and 11) -/

/-- The address slot and the sequencer of a core, brought to a command's cycle: GSET sets its generator, ST sends its granules as the next of its
channel (into memory, each in its place in the channel's tensor, for a plain store), LOOP starts its loop, and END ends the program. -/
def Obligations.AddressSlotAndSequencer : Prop :=
  ∀ (s t : State) (c : CoreRef), s.atCycle c = .here t → c.die < t.dies.length →
    (bits (t.slotWord c 3) 0 2 = 1 → (Gen.ofWord (t.slotWord c 3)).ok = true →
      ∃ u, exec (.gset c) s = .next u ∧ u.gen c.die c.core (bits (t.slotWord c 3) 2 3) = Gen.ofWord (t.slotWord c 3) ∧
        (∀ g, g ≠ bits (t.slotWord c 3) 2 3 → u.gen c.die c.core g = t.gen c.die c.core g) ∧ u = { t with dies := u.dies }) ∧
    (∀ ls, bits (t.slotWord c 0) 0 2 = 1 → startLoop (t.core c.die c.core).pc (t.slotWord c 0) (t.core c.die c.core).loops = some ls →
      ∃ u, exec (.loop c) s = .next u ∧ u.core c.die c.core = { t.core c.die c.core with loops := ls } ∧ u = { t with dies := u.dies }) ∧
    (bits (t.slotWord c 0) 0 2 = 2 →
      ∃ u, exec (.endBundle c) s = .next u ∧ u.core c.die c.core = { t.core c.die c.core with issuing := false, endDt := t.deviceTime } ∧
        (u.unit c.die c.core).done = true ∧ u = { t with regs := u.regs, dies := u.dies }) ∧
    (∀ (i n gi : Nat) (ch : Chan) (e : TDesc) (q : Nat → Option (Nat × Nat × List Byte)), i = bits (t.slotWord c 3) 5 3 →
      n = bits (t.slotWord c 3) 18 4 + 1 → gi = bits (t.slotWord c 3) 2 3 → bits (t.slotWord c 3) 0 2 = 2 →
      (t.core c.die c.core).chans[i]? = some ch → e = TDesc.ofBytes ch.desc → ch.sent + n ≤ ch.size → ch.ok c.die c.core = true → ch.kind = 0 →
      ({ t.gen c.die c.core gi with width := n - 1 } : Gen).inLine 1 = true → (t.core c.die c.core).portFree 0x8 c.cyc = true →
      (∀ k, q k = chanGranule e (unrank e.storeOuter ((ch.sent + k) / e.storeRun)) ((ch.sent + k) % e.storeRun)) →
      (∀ k < n, ∀ p, q k = some p → ∀ j < 64, t.dataAddr (p.1 + j) = true ∧ ∀ o, t.region (p.1 + j) ≠ .mailbox o) →
      ∃ u, exec (.st c) s = .next u ∧ (u.core c.die c.core).chans[i]?.map (·.sent) = some (ch.sent + n) ∧
        u.gen c.die c.core gi = { t.gen c.die c.core gi with m := (t.gen c.die c.core gi).m + 1 } ∧ u.flags = t.flags ∧ u.out = t.out ∧
        ∀ a, (∀ k < n, ∀ p, q k = some p → ¬ (p.1 ≤ a ∧ a < p.1 + 64)) → u.byteAt a = t.byteAt a)

/-- The matrix engine, brought to a command's cycle: LDA and LDB load a group that is ready 9 or 10 cycles later, RUN begins a product of two ready
groups, and memory is only read.

A block without a fault closes and its products are added to its accumulator; a single wrong cell is found at its row and column, and it and a
disagreement of a duplicate or of a store stop the core as a check failure; ACCIN loads an accumulator, and STORE writes one out. -/
def Obligations.MatrixEngineLoadsRunsAndStores : Prop :=
  (∀ (s t : State) (c : CoreRef), s.atCycle c = .here t → c.die < t.dies.length →
     (∀ i gi fmt : Nat, i = bits (t.slotWord c 1) 1 1 → gi = bits (t.slotWord c 1) 2 3 → fmt = bits (t.slotWord c 1) 15 4 →
       testBit (t.slotWord c 1) 0 = true → (t.gen c.die c.core gi).skew = false →
       (t.core c.die c.core).bufferFree c.cyc true i = true → (t.core c.die c.core).portFree 0x1 c.cyc = true →
       ∃ u q, exec (.lda c) s = .next u ∧ (u.core c.die c.core).bufA.find? (fun p => p.1 == i) = some (i, q) ∧
         (∀ k, k ≠ i → (u.core c.die c.core).bufA.find? (fun p => p.1 == k) = (t.core c.die c.core).bufA.find? (fun p => p.1 == k)) ∧
         q.ready = c.cyc + (if fmt = 2 then 9 else 10) ∧ q.granules.length = groupGranules fmt ∧
         (u.gen c.die c.core gi).m = (t.gen c.die c.core gi).m + 1 ∧ u = { t with regs := u.regs, dies := u.dies }) ∧
     (∀ i gi fmt : Nat, i = bits (t.slotWord c 1) 6 1 → gi = bits (t.slotWord c 1) 7 3 → fmt = bits (t.slotWord c 1) 19 4 →
       testBit (t.slotWord c 1) 5 = true → (t.gen c.die c.core gi).skew = false →
       (t.core c.die c.core).bufferFree c.cyc false i = true → (t.core c.die c.core).portFree 0x2 c.cyc = true →
       ∃ u q, exec (.ldb c) s = .next u ∧ (u.core c.die c.core).bufB.find? (fun p => p.1 == i) = some (i, q) ∧
         (∀ k, k ≠ i → (u.core c.die c.core).bufB.find? (fun p => p.1 == k) = (t.core c.die c.core).bufB.find? (fun p => p.1 == k)) ∧
         q.ready = c.cyc + (if fmt = 2 then 9 else 10) ∧ q.granules.length = groupGranules fmt ∧
         (u.gen c.die c.core gi).m = (t.gen c.die c.core gi).m + 1 ∧ u = { t with regs := u.regs, dies := u.dies }) ∧
     (∀ (fa fb acc : Nat) (a b : Group) (ia ib : Nat), testBit (t.slotWord c 1) 10 = true → fa = bits (t.slotWord c 1) 15 4 →
       fb = bits (t.slotWord c 1) 19 4 → acc = bits (t.slotWord c 1) 13 1 → pairOk fa fb = true →
       (t.core c.die c.core).bufA.find? (fun p => p.1 == bits (t.slotWord c 1) 11 1) = some (ia, a) →
       (t.core c.die c.core).bufB.find? (fun p => p.1 == bits (t.slotWord c 1) 12 1) = some (ib, b) → a.ready ≤ c.cyc → b.ready ≤ c.cyc →
       a.granules.length = groupGranules fa → b.granules.length = groupGranules fb →
       (∀ r ∈ (t.core c.die c.core).runs, r.start + r.cycles ≤ c.cyc) → Map.get 0 (t.core c.die c.core).accBusy acc ≤ c.cyc →
       ∃ u, exec (.run c) s = .next u ∧ u.core c.die c.core = { t.core c.die c.core with runs := (t.core c.die c.core).runs ++
           [⟨c.cyc, if fa = 2 then 128 else 64, acc, testBit (t.slotWord c 1) 14, fa, fb, bits (t.slotWord c 1) 11 1,
             bits (t.slotWord c 1) 12 1, a, b, 0⟩] } ∧
         u = { t with regs := u.regs, dies := u.dies, perFrame := u.perFrame })) ∧
  ((∀ (s : State) (c : CoreRef) (r : RunState), (s.core c.die c.core).runs.find? (fun r => decide (r.block < runBlocks r.aFmt)) = some r →
     s.dieUp c.die = true → c.die < s.dies.length → (s.unit c.die c.core).failed = false → (s.unit c.die c.core).running ≠ none →
     r.start + (r.block + 1) * (r.cycles / runBlocks r.aFmt) ≤ c.cyc → pairOk r.aFmt r.bFmt = true →
     r.a.granules.length = groupGranules r.aFmt → r.b.granules.length = groupGranules r.bFmt →
     (∀ g ∈ r.a.granules ++ r.b.granules, g.length = 64) →
     (∃ u, exec (.blockClose c [] none) s = .next u ∧ u = { s with regs := u.regs, dies := u.dies, tally := u.tally } ∧
       (∀ m < 4096, Map.get 0 (u.core c.die c.core).acc (r.acc * 4096 + m) = Word.ofNat (scaleStage
         (if r.init = true ∧ r.block = 0 then 0 else (Map.get 0 (s.core c.die c.core).acc (r.acc * 4096 + m)).toNat)
         (dotInt (r.a.block r.aFmt (m / 64) r.block).1 (r.b.block r.bFmt (m % 64) r.block).1)
         ((r.a.block r.aFmt (m / 64) r.block).2.1 + (r.b.block r.bFmt (m % 64) r.block).2.1)
         ((r.a.block r.aFmt (m / 64) r.block).2.2 || (r.b.block r.bFmt (m % 64) r.block).2.2))) ∧
       (∀ k, k / 4096 ≠ r.acc → Map.get 0 (u.core c.die c.core).acc k = Map.get 0 (s.core c.die c.core).acc k)) ∧
     (∀ (i j : Nat) (n : Int), i < 64 → j < 64 → n % (2 ^ checkBits r.aFmt r.bFmt : Int) ≠ 0 →
       ∃ u, exec (.blockClose c [(i, j, n)] none) s = .next u ∧ (u.unit c.die c.core).failed = true ∧ (u.unit c.die c.core).done = true ∧
         (u.core c.die c.core).issuing = false ∧ (u.core c.die c.core).acc = (s.core c.die c.core).acc ∧
         (s.getF c.die .mxFailLast_valid c.core = 0 → u.getF c.die .mxFailLast_row c.core = i ∧ u.getF c.die .mxFailLast_col c.core = j ∧
           u.getF c.die .mxFailLast_located c.core = 1 ∧ u.getF c.die .mxFailLast_valid c.core = 1) ∧
         u = { s with regs := u.regs, dies := u.dies, tally := u.tally }) ∧
     (∀ f : MxFault, ∃ u, exec (.blockClose c [] (some f)) s = .next u ∧ (u.unit c.die c.core).failed = true ∧
       (u.unit c.die c.core).done = true ∧ (u.core c.die c.core).issuing = false ∧
       (u.core c.die c.core).acc = (s.core c.die c.core).acc ∧ u = { s with regs := u.regs, dies := u.dies, tally := u.tally })) ∧
   (∀ (s t : State) (c : CoreRef) (a gi : Nat), s.atCycle c = .here t → c.die < t.dies.length →
     (testBit (t.slotWord c 1) 35 = true → a = bits (t.slotWord c 1) 36 1 → gi = bits (t.slotWord c 1) 37 3 →
       (t.gen c.die c.core gi).lanes.length % 4 = 0 → (t.core c.die c.core).accRest a 8 ≤ c.cyc →
       Map.get 0 (t.core c.die c.core).accBusy a ≤ c.cyc → (t.core c.die c.core).portFree 0x3 c.cyc = true →
       (t.gen c.die c.core gi).inLine ((256 + (t.gen c.die c.core gi).lanes.length - 1) / (t.gen c.die c.core gi).lanes.length) = true →
       ∃ u, exec (.accin c) s = .next u ∧ u = { t with regs := u.regs, dies := u.dies } ∧
         (∀ k, k / 4096 ≠ a → Map.get 0 (u.core c.die c.core).acc k = Map.get 0 (t.core c.die c.core).acc k) ∧
         (∀ r ∈ (u.core c.die c.core).runs, r.acc ≠ a) ∧ (u.core c.die c.core).chk = []) ∧
     (∀ fmt : Nat, testBit (t.slotWord c 1) 23 = true → a = bits (t.slotWord c 1) 24 1 → gi = bits (t.slotWord c 1) 29 3 →
       fmt = bits (t.slotWord c 1) 25 4 → (fmt = 0xB ∨ fmt = 2 ∨ fmt = 0xA ∨ fmt = 4 ∨ fmt = 5 ∨ fmt = 9) →
       (t.gen c.die c.core gi).lanes.length % storePer fmt = 0 →
       (t.core c.die c.core).accRest a (if fmt = 4 ∨ fmt = 5 ∨ fmt = 9 then 12 else 8) ≤ c.cyc →
       (t.core c.die c.core).portFree 0x4 c.cyc = true →
       (t.gen c.die c.core gi).inLine ((64 * storePer fmt + (t.gen c.die c.core gi).lanes.length - 1) /
         (t.gen c.die c.core gi).lanes.length) = true →
       (∃ u, exec (.store c none) s = .next u ∧ (u.core c.die c.core).acc = (t.core c.die c.core).acc ∧ u.flags = t.flags ∧ u.out = t.out ∧
         (∀ b, ¬ (spdBase c.die c.core ≤ b ∧ b < spdBase c.die c.core + 0x60000) → u.byteAt b = t.byteAt b)) ∧
       (∀ f, ∃ u, exec (.store c (some f)) s = .next u ∧ (u.unit c.die c.core).failed = true ∧
         u = { t with regs := u.regs, dies := u.dies }))))

/-- Vector loads and stores, and a check failure of the checker lane: a load's lanes reach their register six cycles later, a store writes only through its
port, and a disagreement in the lane checked stops the core. -/
def Obligations.VectorLoadsStoresAndChecks : Prop :=
  ∀ (s t : State) (c : CoreRef), s.atCycle c = .here t → c.die < t.dies.length →
    (∀ port reg gi : Nat, port = 0 ∧ testBit (t.slotWord c 2) 23 = true ∧ reg = bits (t.slotWord c 2) 24 4 ∧ gi = bits (t.slotWord c 2) 28 3 ∨
        port = 1 ∧ testBit (t.slotWord c 2) 31 = true ∧ reg = bits (t.slotWord c 2) 32 4 ∧ gi = bits (t.slotWord c 2) 36 3 →
      (t.gen c.die c.core gi).width ≤ 3 → (t.gen c.die c.core gi).inLine 1 = true → (t.core c.die c.core).portFree (5 + port) c.cyc = true →
      (∀ q ∈ (t.core c.die c.core).vPend, ¬ (q.due = c.cyc + 6 ∧ q.reg = reg)) →
      ∃ u w, exec (.vectorLoad c port) s = .next u ∧ (u.core c.die c.core).vPend = (t.core c.die c.core).vPend ++ [w] ∧
        w.due = c.cyc + 6 ∧ w.reg = reg ∧ w.lanes.length = 16 * (t.gen c.die c.core gi).lanes.length ∧
        (u.gen c.die c.core gi).m = (t.gen c.die c.core gi).m + 1 ∧ u = { t with regs := u.regs, dies := u.dies }) ∧
    (∀ gi : Nat, testBit (t.slotWord c 2) 39 = true → gi = bits (t.slotWord c 2) 44 3 → (t.gen c.die c.core gi).width ≤ 3 →
      (t.gen c.die c.core gi).inLine 1 = true → (t.core c.die c.core).portFree 0x7 c.cyc = true →
      ∃ u, exec (.vectorStore c) s = .next u ∧ (u.gen c.die c.core gi).m = (t.gen c.die c.core gi).m + 1 ∧
        (u.core c.die c.core).v = (t.core c.die c.core).v ∧ u.flags = t.flags ∧ u.out = t.out ∧
        ∀ a, (∀ p ∈ (t.gen c.die c.core gi).lanes, ¬ (t.lineAddr c.die c.core (t.core c.die c.core).program p ≤ a ∧
          a < t.lineAddr c.die c.core (t.core c.die c.core).program p + 64)) → u.byteAt a = t.byteAt a) ∧
    (bits (t.slotWord c 2) 0 6 = 1 →
      ∃ u, exec (.add ⟨c, some (c.cyc % 64)⟩) s = .next u ∧ (u.unit c.die c.core).failed = true ∧ (u.core c.die c.core).issuing = false ∧
        (u.core c.die c.core).vPend = (t.core c.die c.core).vPend ∧ u = { t with regs := u.regs, dies := u.dies, perFrame := u.perFrame })

/-- The INT32 operations of Table NCO-9: each sends, lane by lane, the result of its two sources, modulo 2^32, at its latency. -/
def Obligations.IntegerLanesFollowTheTable : Prop :=
  ∀ (s t : State) (v : VOp), ∀ p ∈ ([(.iadd v, 0x20, 2, fun x y => x + y), (.isub v, 0x21, 2, fun x y => x - y),
      (.imul v, 0x22, 4, fun x y => x * y), (.shl v, 0x23, 2, fun x y => x <<< (y.toNat % 32)),
      (.shra v, 0x24, 2, fun x y => x.sshiftRight (y.toNat % 32)), (.shrl v, 0x25, 2, fun x y => x >>> (y.toNat % 32)),
      (.vand v, 0x26, 2, fun x y => x &&& y), (.vor v, 0x27, 2, fun x y => x ||| y), (.vxor v, 0x28, 2, fun x y => x ^^^ y),
      (.imin v, 0x29, 2, fun x y => if x.toInt ≤ y.toInt then x else y), (.imax v, 0x2A, 2, fun x y => if x.toInt ≤ y.toInt then y else x),
      (.icmplt v, 0x2B, 2, fun x y => if x.toInt < y.toInt then 0xFFFFFFFF#32 else 0#32)] : List (Instr × Nat × Nat × (Word → Word → Word))),
    VectorReady s t v p.2.1 p.2.2.1 →
    ∃ u, exec p.1 s = .next u ∧ VectorSent t u v.core p.2.2.1 (fun l => p.2.2.2 (t.vsrc v.core 10 l) (t.vsrc v.core 14 l))

/-- The floating-point operations of Table NCO-9 on two or three sources, in FP32 lanes or, with half set, in the two BF16 halves of each lane: the exact
result of the decoded operands, encoded once. -/
def Obligations.FloatLanesAreRoundedOnce : Prop :=
  ∀ (s t : State) (v : VOp),
    (∀ p ∈ ([(.add v, 1, 2, FVal.add), (.sub v, 2, 2, fun x y => x.add y.negate), (.mul v, 3, 4, FVal.mul), (.max v, 5, 2, FVal.max),
        (.min v, 6, 2, FVal.min)] : List (Instr × Nat × Nat × (FVal → FVal → FVal))),
      VectorReady s t v p.2.1 p.2.2.1 →
      (testBit (t.slotWord v.core 2) 22 = false → ∃ u, exec p.1 s = .next u ∧ VectorSent t u v.core p.2.2.1 (fun l =>
        Word.ofNat (FFmt.fp32.encode (p.2.2.2 (FFmt.fp32.decode (t.vsrc v.core 10 l).toNat) (FFmt.fp32.decode (t.vsrc v.core 14 l).toNat))))) ∧
      (testBit (t.slotWord v.core 2) 22 = true → ∃ u, exec p.1 s = .next u ∧ VectorSent t u v.core p.2.2.1 (fun l =>
        Word.ofNat (halves2 (fun x y => FFmt.bf16.encode (p.2.2.2 (FFmt.bf16.decode x) (FFmt.bf16.decode y)))
          (t.vsrc v.core 10 l).toNat (t.vsrc v.core 14 l).toNat)))) ∧
    (VectorReady s t v 4 4 → testBit (t.slotWord v.core 2) 22 = false →
      ∃ u, exec (.fma v) s = .next u ∧ VectorSent t u v.core 4 (fun l => Word.ofNat (FFmt.fp32.encode
        (((FFmt.fp32.decode (t.vsrc v.core 10 l).toNat).mul (FFmt.fp32.decode (t.vsrc v.core 14 l).toNat)).add
          (FFmt.fp32.decode (t.vsrc v.core 18 l).toNat))))) ∧
    (VectorReady s t v 4 4 → testBit (t.slotWord v.core 2) 22 = true →
      ∃ u, exec (.fma v) s = .next u ∧ VectorSent t u v.core 4 (fun l => Word.ofNat (halves3 (fun x y z => FFmt.bf16.encode
        (((FFmt.bf16.decode x).mul (FFmt.bf16.decode y)).add (FFmt.bf16.decode z)))
          (t.vsrc v.core 10 l).toNat (t.vsrc v.core 14 l).toNat (t.vsrc v.core 18 l).toNat))) ∧
    (∀ p ∈ ([(.cmplt v, 9, FVal.lt), (.cmpeq v, 0xA, FVal.eqv)] : List (Instr × Nat × (FVal → FVal → Bool))),
      VectorReady s t v p.2.1 2 →
      (testBit (t.slotWord v.core 2) 22 = false → ∃ u, exec p.1 s = .next u ∧ VectorSent t u v.core 2 (fun l =>
        if p.2.2 (FFmt.fp32.decode (t.vsrc v.core 10 l).toNat) (FFmt.fp32.decode (t.vsrc v.core 14 l).toNat) then 0xFFFFFFFF#32 else 0#32)) ∧
      (testBit (t.slotWord v.core 2) 22 = true → ∃ u, exec p.1 s = .next u ∧ VectorSent t u v.core 2 (fun l =>
        Word.ofNat (halves2 (fun x y => if p.2.2 (FFmt.bf16.decode x) (FFmt.bf16.decode y) then 0xFFFF else 0)
          (t.vsrc v.core 10 l).toNat (t.vsrc v.core 14 l).toNat)))) ∧
    (VectorReady s t v 0xB 2 → testBit (t.slotWord v.core 2) 22 = false →
      ∃ u, exec (.sel v) s = .next u ∧ VectorSent t u v.core 2 (fun l =>
        if t.vsrc v.core 18 l ≠ 0 then t.vsrc v.core 10 l else t.vsrc v.core 14 l)) ∧
    (VectorReady s t v 0xB 2 → testBit (t.slotWord v.core 2) 22 = true →
      ∃ u, exec (.sel v) s = .next u ∧ VectorSent t u v.core 2 (fun l => Word.ofNat (halves3 (fun x y z => if z ≠ 0 then x else y)
        (t.vsrc v.core 10 l).toNat (t.vsrc v.core 14 l).toNat (t.vsrc v.core 18 l).toNat)))

/-- The operations of Table NCO-9 on one source, lane by lane: signs, the approximated functions, and the conversions between INT32 and FP32 and between FP32
and the 16-bit elements of a lane.

The operations of Table NCO-9 across lanes: reductions by their fixed tree, broadcasts, permutations, immediates, and MX blocks with their scales; a
format that CVTMX reserves is an error of the host's own making (log entry 42). -/
def Obligations.LanesConvertReduceAndMove : Prop :=
  (∀ (s t : State) (v : VOp),
     (∀ p ∈ ([(.abs v, 7, 2, withSign .fp32 (fun _ => false)), (.neg v, 8, 2, withSign .fp32 not), (.rcp v, 0xC, 6, f32rcp),
         (.rsqrt v, 0xD, 6, f32rsqrt), (.sqrt v, 0xE, 6, f32sqrt), (.exp2 v, 0xF, 8, f32exp2), (.log2 v, 0x10, 8, f32log2),
         (.tanh v, 0x11, 8, f32tanh), (.sigmoid v, 0x12, 8, f32sigmoid)] : List (Instr × Nat × Nat × (Nat → Nat))),
       VectorReady s t v p.2.1 p.2.2.1 → testBit (t.slotWord v.core 2) 22 = false →
       ∃ u, exec p.1 s = .next u ∧ VectorSent t u v.core p.2.2.1 (fun l => Word.ofNat (p.2.2.2 (t.vsrc v.core 10 l).toNat))) ∧
     (∀ p ∈ ([(.abs v, 7, 2, withSign .bf16 (fun _ => false)), (.neg v, 8, 2, withSign .bf16 not),
         (.rcp v, 0xC, 6, fun x => FFmt.fp32.convert .bf16 (f32rcp (FFmt.bf16.convert .fp32 x))),
         (.rsqrt v, 0xD, 6, fun x => FFmt.fp32.convert .bf16 (f32rsqrt (FFmt.bf16.convert .fp32 x))),
         (.sqrt v, 0xE, 6, fun x => FFmt.fp32.convert .bf16 (f32sqrt (FFmt.bf16.convert .fp32 x))),
         (.exp2 v, 0xF, 8, fun x => FFmt.fp32.convert .bf16 (f32exp2 (FFmt.bf16.convert .fp32 x))),
         (.log2 v, 0x10, 8, fun x => FFmt.fp32.convert .bf16 (f32log2 (FFmt.bf16.convert .fp32 x))),
         (.tanh v, 0x11, 8, fun x => FFmt.fp32.convert .bf16 (f32tanh (FFmt.bf16.convert .fp32 x))),
         (.sigmoid v, 0x12, 8, fun x => FFmt.fp32.convert .bf16 (f32sigmoid (FFmt.bf16.convert .fp32 x)))] :
           List (Instr × Nat × Nat × (Nat → Nat))),
       VectorReady s t v p.2.1 p.2.2.1 → testBit (t.slotWord v.core 2) 22 = true →
       ∃ u, exec p.1 s = .next u ∧ VectorSent t u v.core p.2.2.1 (fun l => Word.ofNat (halves1 p.2.2.2 (t.vsrc v.core 10 l).toNat))) ∧
     (∀ p ∈ ([(.cvtif v, 0x2C, fun x => f32ofInt (signed 32 x)), (.cvtfi v, 0x2D, f32toInt32),
         (.unpkbf v, 0x19, fun x => FFmt.bf16.convert .fp32 (if testBit (t.slotWord v.core 2) 48 then x / 2 ^ 16 else x % 2 ^ 16)),
         (.unpkh v, 0x1B, fun x => FFmt.fp16.convert .fp32 (if testBit (t.slotWord v.core 2) 48 then x / 2 ^ 16 else x % 2 ^ 16))] :
           List (Instr × Nat × (Nat → Nat))),
       VectorReady s t v p.2.1 4 →
       ∃ u, exec p.1 s = .next u ∧ VectorSent t u v.core 4 (fun l => Word.ofNat (p.2.2 (t.vsrc v.core 10 l).toNat))) ∧
     (∀ p ∈ ([(.packbf v, 0x18, FFmt.bf16), (.packh v, 0x1A, FFmt.fp16)] : List (Instr × Nat × FFmt)), VectorReady s t v p.2.1 4 →
       ∃ u, exec p.1 s = .next u ∧ VectorSent t u v.core 4 (fun l => Word.ofNat (FFmt.fp32.convert p.2.2 (t.vsrc v.core 10 l).toNat +
         FFmt.fp32.convert p.2.2 (t.vsrc v.core 14 l).toNat * 2 ^ 16)))) ∧
  (∀ (s t : State) (v : VOp), ∀ (imm : Nat) (a b c : List Nat), imm = bits (t.slotWord v.core 2) 48 16 →
     a = (List.range 64).map (fun l => (t.vsrc v.core 10 l).toNat) → b = (List.range 64).map (fun l => (t.vsrc v.core 14 l).toNat) →
     c = (List.range 64).map (fun l => (t.vsrc v.core 18 l).toNat) →
     (VectorReady s t v 0x13 6 → ∃ u, exec (.rsum v) s = .next u ∧
       VectorSent t u v.core 6 (fun l => if l = 0 then Word.ofNat (tree6 f32add a) else 0)) ∧
     (VectorReady s t v 0x14 6 → ∃ u, exec (.rmax v) s = .next u ∧ VectorSent t u v.core 6 (fun l => if l = 0 then Word.ofNat (tree6
       (fun x y => FFmt.fp32.encode (FVal.max (FFmt.fp32.decode x) (FFmt.fp32.decode y))) a) else 0)) ∧
     (VectorReady s t v 0x15 2 → ∃ u, exec (.bcast v) s = .next u ∧ VectorSent t u v.core 2 (fun _ => t.vsrc v.core 10 (imm % 64))) ∧
     (VectorReady s t v 0x16 2 → ∃ u, exec (.perm v) s = .next u ∧
       VectorSent t u v.core 2 (fun l => t.vsrc v.core 10 ((t.vsrc v.core 14 l).toNat % 64))) ∧
     (VectorReady s t v 0x17 2 → ∃ u, exec (.movi v) s = .next u ∧ VectorSent t u v.core 2 (fun _ => Word.ofNat (imm * 2 ^ 16))) ∧
     (VectorReady s t v 0x2E 2 → ∃ u, exec (.iota v) s = .next u ∧ VectorSent t u v.core 2 (fun l => Word.ofNat (l + imm))) ∧
     (VectorReady s t v 0x1C 6 → (imm % 16 = 4 ∨ imm % 16 = 5 ∨ imm % 16 = 9) → ∃ u, exec (.cvtmx v) s = .next u ∧
       VectorSent t u v.core 6 (fun l => Word.ofNat ((bytesToLanes ((mxQuantise (imm % 16) (a.take 32)).2 ++
         (mxQuantise (imm % 16) (a.drop 32)).2 ++ [(mxQuantise (imm % 16) (a.take 32)).1, (mxQuantise (imm % 16) (a.drop 32)).1])).getD l 0))) ∧
     (VectorReady s t v 0x1C 6 → ¬ (imm % 16 = 4 ∨ imm % 16 = 5 ∨ imm % 16 = 9) → exec (.cvtmx v) s = t.coreErr v.core 316) ∧
     (VectorReady s t v 0x1D 2 → ∃ u, exec (.scins v) s = .next u ∧ VectorSent t u v.core 2 (fun l => Word.ofNat ((bytesToLanes
       (((lanesToBytes c).set (if testBit imm 6 then 2 * (imm % 64) else imm % 64) ((lanesToBytes a).getD 64 0)).set
         (if testBit imm 6 then 2 * (imm % 64) + 1 else 64 + imm % 64) ((lanesToBytes a).getD 65 0))).getD l 0))))
end

