-- ==== Sys2Proof/Laws/KeptBase.lean ====
section
/-! SUPPORT. What commands never change: the queue, the part and OTP; the notions and the lemmas that the other Kept files use. -/

namespace Sys2Proof.Machine

open Sys2Proof

set_option linter.unusedSimpArgs false
set_option linter.unusedVariables false

/-- What no command changes but the three that burn OTP (ROLLBACK_BURN_STEP, PROVISION, SCRAP): the queue, the fitted part, and OTP. -/
def State.kept (s : State) : List Instr × Bool × BitVec 128 × Hash × Hash × Nat × Nat :=
  (s.pending, s.m2, s.sec.serial, s.sec.vkey, s.sec.ikey, s.sec.lifecycle, s.sec.counter)
/-- A command's answer, where it is a next state, keeps those. -/
structure Keeps (r : Result State) (k : List Instr × Bool × BitVec 128 × Hash × Hash × Nat × Nat) : Prop where
  keeps : ∀ t, r = .next t → t.kept = k
theorem keeps_next (t k) : Keeps (.next t) k ↔ t.kept = k := by
  constructor
  · intro h; exact h.1 t rfl
  · intro h; exact ⟨fun u hu => by cases hu; exact h⟩
theorem keeps_fault (e k) : Keeps (.fault e) k := ⟨fun t h => by cases h⟩
theorem keeps_refused (e k) : Keeps (.refused e) k := ⟨fun t h => by cases h⟩
theorem keeps_andThen {r : Result State} {f : State → Result State} {k} (hr : Keeps r k) (hf : ∀ t, t.kept = k → Keeps (f t) k) : Keeps (andThen r f) k := by
  unfold andThen; cases r with
  | next t => exact hf t (hr.1 t rfl)
  | fault e => exact keeps_fault _ _
  | refused e => exact keeps_refused _ _
theorem keeps_if {c : Prop} [Decidable c] {a b : Result State} {k} (ha : Keeps a k) (hb : Keeps b k) : Keeps (if c then a else b) k := by split <;> assumption
/-- The same of an operation that answers a state or nothing. -/
structure KeepsO (r : Option State) (k : List Instr × Bool × BitVec 128 × Hash × Hash × Nat × Nat) : Prop where
  keeps : ∀ t, r = some t → t.kept = k
theorem keepsO_some (t k) : KeepsO (some t) k ↔ t.kept = k := by
  constructor
  · intro h; exact h.1 t rfl
  · intro h; exact ⟨fun u hu => by cases hu; exact h⟩
theorem keepsO_none (k) : KeepsO none k := ⟨fun t h => by cases h⟩
theorem kept_eta (s : State) : (s.pending, s.m2, s.sec.serial, s.sec.vkey, s.sec.ikey, s.sec.lifecycle, s.sec.counter) = s.kept := id rfl
theorem foldl_kept {α} (f : State → α → State) (hf : ∀ s a, (f s a).kept = s.kept) (l : List α) (s : State) : (l.foldl f s).kept = s.kept := by
  induction l generalizing s with
  | nil => rfl
  | cons a l ih => rw [List.foldl_cons, ih, hf]
theorem foldl_kept1 {α β} (f : State × β → α → State × β) (hf : ∀ s a, (f s a).1.kept = s.1.kept) (l : List α) (s) : (l.foldl f s).1.kept = s.1.kept := by
  induction l generalizing s with
  | nil => rfl
  | cons a l ih => rw [List.foldl_cons, ih, hf]
theorem foldl_kept2 {α β} (f : β × State → α → β × State) (hf : ∀ s a, (f s a).2.kept = s.2.kept) (l : List α) (s) : (l.foldl f s).2.kept = s.2.kept := by
  induction l generalizing s with
  | nil => rfl
  | cons a l ih => rw [List.foldl_cons, ih, hf]
theorem kept_mk a0 a1 a2 a3 a4 a5 a6 a7 a8 a9 a10 a11 a12 a13 a14 a15 a16 a17 a18 a19 a20 a21 a22 a23 a24 a25 a26 a27 a28 a29 a30 a31 a32 a33 a34 a35 a36 a37 a38 a39 a40 : (State.mk a0 a1 a2 a3 a4 a5 a6 a7 a8 a9 a10 a11 a12 a13 a14 a15 a16 a17 a18 a19 a20 a21 a22 a23 a24 a25 a26 a27 a28 a29 a30 a31 a32 a33 a34 a35 a36 a37 a38 a39 a40).kept = (a0, a1, a34.serial, a34.vkey, a34.ikey, a34.lifecycle, a34.counter) := id rfl
theorem kept_fst {s t : State} {β} {x : β} {p : State × β} (h : p = (s, x)) (hp : p.1.kept = t.kept) : s.kept = t.kept := by subst h; exact hp
theorem kept_snd {s t : State} {β} {x : β} {p : β × State} (h : p = (x, s)) (hp : p.2.kept = t.kept) : s.kept = t.kept := by subst h; exact hp
theorem ite_kept (c : Prop) [Decidable c] (s t : State) : (if c then s else t).kept = if c then s.kept else t.kept := by split <;> rfl
theorem keeps_ite (c : Prop) [Decidable c] (s t : Result State) (k) : Keeps (if c then s else t) k ↔ if c then Keeps s k else Keeps t k := by split <;> rfl

end Sys2Proof.Machine
end

