-- ==== Sys2Proof/Laws/KeptDie.lean ====
section
/-! SUPPORT. No operation or command here changes the queue, the part or OTP: the shared operations, dies, units, flags, dispatch, neural cores, engines and the recorder. -/

namespace Sys2Proof.Machine

open Sys2Proof

set_option linter.unusedSimpArgs false
set_option linter.unusedVariables false

/-! ### Ops -/

theorem State_setReg_kept (x0 : State) (x1 : Nat) (x2 : Nat) (x3 : Nat) (x4 : Nat) (x5 : Word) :
    (State.setReg x0 x1 x2 x3 x4 x5).kept = x0.kept := by
  unfold State.setReg; simp only [kept_mk, kept_eta]

theorem State_setF_kept (x0 : State) (x1 : Nat) (x2 : Fld) (x3 : Nat) (x4 : Nat) (x5 : Nat) :
    (State.setF x0 x1 x2 x3 x4 x5).kept = x0.kept := by
  unfold State.setF; simp only [State_setReg_kept]

theorem State_bumpF_kept (x0 : State) (x1 : Nat) (x2 : Fld) (x3 : Nat) (x4 : Nat) (x5 : Nat) :
    (State.bumpF x0 x1 x2 x3 x4 x5).kept = x0.kept := by
  unfold State.bumpF; simp only [State_setF_kept]

theorem State_peakF_kept (x0 : State) (x1 : Nat) (x2 : Fld) (x3 : Nat) (x4 : Nat) (x5 : Nat) :
    (State.peakF x0 x1 x2 x3 x4 x5).kept = x0.kept := by
  unfold State.peakF; simp only [State_setF_kept]

theorem State_bumpUnits_kept (x0 : State) (x1 : Nat) (x2 : Fld) (x3 : Nat) (x4 : Nat) (x5 : Nat) (x6 : Nat) :
    (State.bumpUnits x0 x1 x2 x3 x4 x5 x6).kept = x0.kept := by
  unfold State.bumpUnits; simp only [State_bumpF_kept, kept_mk, kept_eta]

theorem State_putAcc_kept (x0 : State) (x1 : FrameAcc) :
    (State.putAcc x0 x1).kept = x0.kept := by
  unfold State.putAcc; simp only [kept_mk, kept_eta]

theorem State_addFrame_kept (x0 : State) (x1 : Nat) (x2 : Fld) (x3 : Nat) (x4 : Nat) (x5 : Nat) (x6 : Nat) :
    (State.addFrame x0 x1 x2 x3 x4 x5 x6).kept = x0.kept := by
  unfold State.addFrame; simp only [State_putAcc_kept]

theorem State_maxFrame_kept (x0 : State) (x1 : Nat) (x2 : Fld) (x3 : Nat) (x4 : Nat) (x5 : Nat) (x6 : Nat) :
    (State.maxFrame x0 x1 x2 x3 x4 x5 x6).kept = x0.kept := by
  unfold State.maxFrame; simp only [State_putAcc_kept]

theorem State_meanFrame_kept (x0 : State) (x1 : Nat) (x2 : Fld) (x3 : Nat) (x4 : Nat) (x5 : Nat) (x6 : Nat) :
    (State.meanFrame x0 x1 x2 x3 x4 x5 x6).kept = x0.kept := by
  unfold State.meanFrame; simp only [State_putAcc_kept]

theorem State_levelFrame_kept (x0 : State) (x1 : Nat) (x2 : Fld) (x3 : Nat) (x4 : Nat) (x5 : Nat) :
    (State.levelFrame x0 x1 x2 x3 x4 x5).kept = x0.kept := by
  unfold State.levelFrame; simp only [State_putAcc_kept]

theorem State_publishFrame_kept (x0 : State) (x1 : Nat) :
    (State.publishFrame x0 x1).kept = x0.kept := by
  unfold State.publishFrame
  repeat'
    first
    | with_reducible rfl
    | assumption
    | (simp only [kept_mk, kept_eta, State_setReg_kept, *]; done)
    | intro _
    | (with_reducible refine (foldl_kept _ ?_ _ _).trans ?_)
    | split
    | (simp only [kept_mk, kept_eta, State_setReg_kept, *])

theorem State_setPair_kept (x0 : State) (x1 : Nat) (x2 : Fld) (x3 : Fld) (x4 : Nat) (x5 : Nat) (x6 : Nat) :
    (State.setPair x0 x1 x2 x3 x4 x5 x6).kept = x0.kept := by
  unfold State.setPair; simp only [State_setF_kept]

theorem State_modDie_kept (x0 : State) (x1 : Nat) (x2 : Die → Die) :
    (State.modDie x0 x1 x2).kept = x0.kept := by
  unfold State.modDie; simp only [kept_mk, kept_eta]

theorem State_modSeq_kept (x0 : State) (x1 : Nat) (x2 : Sequencer → Sequencer) :
    (State.modSeq x0 x1 x2).kept = x0.kept := by
  unfold State.modSeq; simp only [State_modDie_kept]

theorem State_free_kept (x0 : State) :
    (State.free x0).2.kept = x0.kept := by
  unfold State.free; simp only [kept_mk, kept_eta]

theorem State_setLink_kept (x0 : State) (x1 : DieLink) (x2 : LinkWidth) :
    (State.setLink x0 x1 x2).kept = x0.kept := by
  unfold State.setLink; simp only [kept_mk, kept_eta]

theorem State_putBytes_kept (x0 : State) (x1 : Nat) (x2 : List Byte) :
    (State.putBytes x0 x1 x2).kept = x0.kept := by
  unfold State.putBytes; simp only [kept_mk, kept_eta]

theorem State_setPoison_kept (x0 : State) (x1 : Nat) (x2 : Bool) :
    (State.setPoison x0 x1 x2).kept = x0.kept := by
  unfold State.setPoison; simp only [kept_mk, kept_eta]

theorem State_latchSpd_kept (x0 : State) (x1 : Nat) (x2 : Nat) (x3 : Nat) (x4 : Nat) (x5 : Nat) (x6 : Nat) (x7 : Nat) :
    (State.latchSpd x0 x1 x2 x3 x4 x5 x6 x7).kept = x0.kept := by
  unfold State.latchSpd; simp only [ite_kept, State_setF_kept, ite_self]

theorem State_latchCmn_kept (x0 : State) (x1 : Nat) (x2 : Nat) (x3 : Nat) (x4 : Nat) (x5 : Nat) (x6 : Nat) :
    (State.latchCmn x0 x1 x2 x3 x4 x5 x6).kept = x0.kept := by
  unfold State.latchCmn; simp only [ite_kept, State_setF_kept, ite_self]

theorem State_spoilByte_kept (x0 : State) (x1 : Nat) (x2 : Byte) (x3 : Bool) :
    (State.spoilByte x0 x1 x2 x3).kept = x0.kept := by
  unfold State.spoilByte
  repeat'
    first
    | with_reducible rfl
    | assumption
    | (simp only [ite_kept, State_setPoison_kept, State_putBytes_kept, ite_self, kept_mk, kept_eta, *]; done)
    | intro _
    | split
    | (simp only [ite_kept, State_setPoison_kept, State_putBytes_kept, ite_self, kept_mk, kept_eta, *])

theorem State_spoilMessages_kept (x0 : State) :
    (State.spoilMessages x0).kept = x0.kept := by
  unfold State.spoilMessages; simp only [kept_mk, kept_eta]

theorem State_unpredictable_kept (x0 : State) :
    (State.unpredictable x0).kept = x0.kept := by
  unfold State.unpredictable
  repeat'
    first
    | with_reducible rfl
    | assumption
    | (simp only [State_spoilMessages_kept, State_spoilByte_kept, kept_mk, kept_eta, *]; done)
    | intro _
    | (with_reducible refine (foldl_kept _ ?_ _ _).trans ?_)
    | split
    | (simp only [State_spoilMessages_kept, State_spoilByte_kept, kept_mk, kept_eta, *])

theorem hostErr_kept (x0 : State) (x1 : Nat) {kk} (hk : x0.kept = kk) : Keeps (hostErr x0 x1) kk := by
  subst hk; unfold hostErr; exact (keeps_next _ _).mpr (State_unpredictable_kept _)

theorem State_modCtl_kept (x0 : State) (x1 : Nat) (x2 : Nat) (x3 : MemCtl → MemCtl) :
    (State.modCtl x0 x1 x2 x3).kept = x0.kept := by
  unfold State.modCtl; simp only [State_modDie_kept]

theorem State_countLocked_kept (x0 : State) (x1 : Nat) (x2 : Nat) (x3 : Nat) :
    (State.countLocked x0 x1 x2 x3).kept = x0.kept := by
  unfold State.countLocked; simp only [ite_kept, State_bumpF_kept, State_setF_kept, ite_self]

theorem State_writeCode_kept (x0 : State) (x1 : Nat) (x2 : List Byte) (x3 : Bool) :
    (State.writeCode x0 x1 x2 x3).kept = x0.kept := by
  unfold State.writeCode
  repeat'
    first
    | with_reducible rfl
    | assumption
    | (simp only [ite_kept, kept_mk, kept_eta, State_countLocked_kept, State_setPoison_kept, State_putBytes_kept,
        State_bumpF_kept, ite_self, State_unpredictable_kept, *]; done)
    | intro _
    | split
    | (simp only [ite_kept, kept_mk, kept_eta, State_countLocked_kept, State_setPoison_kept, State_putBytes_kept,
        State_bumpF_kept, ite_self, State_unpredictable_kept, *])

theorem State_writeFuel_kept (n : Nat) (s : State) (a : Nat) (l : List Byte) (p : Bool) : (State.writeFuel n s a l p).kept = s.kept := by
  induction n generalizing s a l with
  | zero => rfl
  | succ n ih =>
      unfold State.writeFuel
      repeat'
        first
        | with_reducible rfl
        | assumption
        | (simp only [ite_kept, State_writeCode_kept, ite_self, *]; done)
        | intro _
        | split
        | (simp only [ite_kept, State_writeCode_kept, ite_self, *])

theorem State_countSlots_kept (x0 : State) (x1 : Nat) (x2 : Nat) (x3 : Bool) :
    (State.countSlots x0 x1 x2 x3).kept = x0.kept := by
  unfold State.countSlots
  repeat'
    first
    | with_reducible rfl
    | assumption
    | (simp only [ite_kept, State_addFrame_kept, ite_self, *]; done)
    | intro _
    | (with_reducible refine (foldl_kept _ ?_ _ _).trans ?_)
    | split
    | (simp only [ite_kept, State_addFrame_kept, ite_self, *])

theorem State_countBanks_kept (x0 : State) (x1 : Nat) (x2 : Nat) (x3 : Bool) :
    (State.countBanks x0 x1 x2 x3).kept = x0.kept := by
  unfold State.countBanks
  repeat'
    first
    | with_reducible rfl
    | assumption
    | (simp only [ite_kept, State_addFrame_kept, ite_self, *]; done)
    | intro _
    | split
    | (simp only [ite_kept, State_addFrame_kept, ite_self, *])

theorem State_write_kept (x0 : State) (x1 : Nat) (x2 : List Byte) (x3 : Bool) :
    (State.write x0 x1 x2 x3).kept = x0.kept := by
  unfold State.write; simp only [State_countBanks_kept, State_countSlots_kept, State_writeFuel_kept]

theorem State_writeOver_kept (n : Nat) (s : State) (d a : Nat) (l : List Byte) (p : Bool) : (State.writeOver n s d a l p).kept = s.kept := by
  induction n generalizing s a l with
  | zero => rfl
  | succ n ih =>
    unfold State.writeOver
    split
    · rfl
    · refine (ih _ _ _).trans ?_
      split
      · simp only [State_write_kept]
      · rfl

theorem State_writeFrom_kept (x0 : State) (x1 : Nat) (x2 : Nat) (x3 : List Byte) (x4 : Bool) :
    (State.writeFrom x0 x1 x2 x3 x4).kept = x0.kept := by
  unfold State.writeFrom; simp only [State_writeOver_kept]

theorem State_writeMarked_kept (x0 : State) (x1 : Nat) (x2 : List (List Byte × Bool)) :
    (State.writeMarked x0 x1 x2).kept = x0.kept := by
  unfold State.writeMarked
  repeat'
    first
    | with_reducible rfl
    | assumption
    | (simp only [State_write_kept, *]; done)
    | intro _
    | (with_reducible refine (foldl_kept1 _ ?_ _ _).trans ?_)
    | split
    | (simp only [State_write_kept, *])

theorem State_clearMem_kept (x0 : State) (x1 : Nat) (x2 : Nat) :
    (State.clearMem x0 x1 x2).kept = x0.kept := by
  unfold State.clearMem; simp only [kept_mk, kept_eta]

theorem State_syncRegs_kept (x0 : State) :
    (State.syncRegs x0).kept = x0.kept := by
  unfold State.syncRegs; simp only [State_setF_kept]

theorem State_raise_kept (x0 : State) (x1 : Nat) (x2 : Nat) (x3 : Nat) (x4 : Nat) :
    (State.raise x0 x1 x2 x3 x4).kept = x0.kept := by
  unfold State.raise; simp only [kept_mk, kept_eta]

theorem State_doubt_kept (x0 : State) (x1 : Nat) (x2 : Nat) (x3 : Word) (x4 : Nat) (x5 : DoubtWhy) :
    (State.doubt x0 x1 x2 x3 x4 x5).kept = x0.kept := by
  unfold State.doubt; simp only [kept_mk, kept_eta]

theorem State_ctlRegs_kept (x0 : State) (x1 : Nat) (x2 : Nat) :
    (State.ctlRegs x0 x1 x2).kept = x0.kept := by
  unfold State.ctlRegs; simp only [State_setF_kept]

theorem State_pairFailed_kept (x0 : State) (x1 : Nat) (x2 : Nat) :
    (State.pairFailed x0 x1 x2).kept = x0.kept := by
  unfold State.pairFailed; simp only [ite_kept, State_doubt_kept, State_ctlRegs_kept, State_modCtl_kept, ite_self]

theorem State_latchMem_kept (x0 : State) (x1 : Nat) (x2 : Nat) (x3 : Nat) (x4 : Nat) (x5 : Nat) (x6 : Nat) (x7 : Nat) :
    (State.latchMem x0 x1 x2 x3 x4 x5 x6 x7).kept = x0.kept := by
  unfold State.latchMem; simp only [ite_kept, State_setF_kept, ite_self]

theorem State_lockedError_kept (x0 : State) (x1 : Nat) (x2 : Nat) :
    (State.lockedError x0 x1 x2).kept = x0.kept := by
  unfold State.lockedError; simp only [ite_kept, State_doubt_kept, State_setPoison_kept, ite_self]

theorem State_countPair_kept (x0 : State) (x1 : Nat) (x2 : Nat) (x3 : Nat) :
    (State.countPair x0 x1 x2 x3).kept = x0.kept := by
  unfold State.countPair; simp only [ite_kept, State_pairFailed_kept, State_modCtl_kept, ite_self]

theorem State_dramCorrected_kept (x0 : State) (x1 : Nat) (x2 : Nat) (x3 : Nat) (x4 : Nat) (x5 : Bool) :
    (State.dramCorrected x0 x1 x2 x3 x4 x5).kept = x0.kept := by
  unfold State.dramCorrected; simp only [State_latchMem_kept, State_bumpF_kept]

theorem State_dramLost_kept (x0 : State) (x1 : Nat) (x2 : Nat) (x3 : Nat) :
    (State.dramLost x0 x1 x2 x3).kept = x0.kept := by
  unfold State.dramLost; simp only [State_countPair_kept, State_lockedError_kept, State_latchMem_kept, State_bumpF_kept]

theorem State_dramPoison_kept (x0 : State) (x1 : Nat) (x2 : Nat) (x3 : Nat) :
    (State.dramPoison x0 x1 x2 x3).kept = x0.kept := by
  unfold State.dramPoison; simp only [State_lockedError_kept, State_latchMem_kept]

theorem State_countUpset_kept (x0 : State) (x1 : Nat) (x2 : Nat) :
    (State.countUpset x0 x1 x2).kept = x0.kept := by
  unfold State.countUpset
  repeat'
    first
    | with_reducible rfl
    | assumption
    | (simp only [ite_kept, State_dramLost_kept, State_dramCorrected_kept, ite_self, State_latchSpd_kept,
        State_bumpF_kept, State_latchCmn_kept, *]; done)
    | intro _
    | split
    | (simp only [ite_kept, State_dramLost_kept, State_dramCorrected_kept, ite_self, State_latchSpd_kept,
        State_bumpF_kept, State_latchCmn_kept, *])

theorem State_countUpsets_kept (x0 : State) (x1 : Nat) (x2 : Nat) :
    (State.countUpsets x0 x1 x2).kept = x0.kept := by
  unfold State.countUpsets
  repeat'
    first
    | with_reducible rfl
    | assumption
    | (simp only [State_countUpset_kept, *]; done)
    | intro _
    | (with_reducible refine (foldl_kept _ ?_ _ _).trans ?_)
    | split
    | (simp only [State_countUpset_kept, *])

theorem State_countPoison_kept (x0 : State) (x1 : Nat) (x2 : Nat) :
    (State.countPoison x0 x1 x2).kept = x0.kept := by
  unfold State.countPoison
  repeat'
    first
    | with_reducible rfl
    | assumption
    | (simp only [State_dramPoison_kept, *]; done)
    | intro _
    | (with_reducible refine (foldl_kept _ ?_ _ _).trans ?_)
    | split
    | (simp only [State_dramPoison_kept, *])

theorem State_countFailedReads_kept (x0 : State) (x1 : Nat) (x2 : Nat) :
    (State.countFailedReads x0 x1 x2).kept = x0.kept := by
  unfold State.countFailedReads
  repeat'
    first
    | with_reducible rfl
    | assumption
    | (simp only [State_bumpF_kept, *]; done)
    | intro _
    | split
    | (simp only [State_bumpF_kept, *])

theorem State_countReads_kept (x0 : State) (x1 : Nat) (x2 : Nat) :
    (State.countReads x0 x1 x2).kept = x0.kept := by
  unfold State.countReads
  repeat'
    first
    | with_reducible rfl
    | assumption
    | (simp only [ite_kept, State_countFailedReads_kept, State_countUpsets_kept, State_countPoison_kept,
        State_countSlots_kept, ite_self, State_countBanks_kept, *]; done)
    | intro _
    | split
    | (simp only [ite_kept, State_countFailedReads_kept, State_countUpsets_kept, State_countPoison_kept,
        State_countSlots_kept, ite_self, State_countBanks_kept, *])

theorem State_upset_kept (s : State) : s.upset.kept = s.kept := by
  unfold State.upset
  split
  rename_i v t h
  have ht : t.kept = s.kept := kept_snd h (State_free_kept s)
  clear h
  extract_lets code key
  clear_value key
  split
  · split
    · exact ht
    · exact ht
  · exact ht

theorem State_tick_kept (x0 : State) :
    (State.tick x0).kept = x0.kept := by
  unfold State.tick; simp only [ite_kept, kept_mk, kept_eta, State_upset_kept, ite_self]

theorem State_fault_kept (x0 : State) (x1 : Bool) :
    (State.fault x0 x1).kept = x0.kept := by
  unfold State.fault; simp only [State_setF_kept, kept_mk, kept_eta]

theorem State_flashWrite_kept (x0 : State) (x1 : Nat) (x2 : Flash → Flash) :
    (State.flashWrite x0 x1 x2).kept = x0.kept := by
  unfold State.flashWrite; simp only [kept_mk, kept_eta]

theorem State_answer_kept (x0 : State) (x1 : Word) :
    (State.answer x0 x1).kept = x0.kept := by
  unfold State.answer; simp only [kept_mk, kept_eta]

theorem State_readErr_kept (x0 : State) (x1 : Nat) {kk} (hk : x0.kept = kk) :
    Keeps (State.readErr x0 x1) kk := by
  subst hk; unfold State.readErr; simp only [hostErr_kept, State_answer_kept, State_free_kept]

theorem State_noPlace_kept {s : State} {a : Nat} {g : State → Nat → Result State} (hg : ∀ n, Keeps (g s n) s.kept) :
    Keeps (s.noPlace a g) s.kept := by
  unfold State.noPlace
  split
  · exact hg _
  · simp only [keeps_fault]

/-! ### Graph -/

theorem State_setRing_kept (x0 : State) (x1 : Nat) (x2 : Nat) (x3 : Ring) :
    (State.setRing x0 x1 x2 x3).kept = x0.kept := by
  unfold State.setRing; simp only [State_levelFrame_kept, State_setF_kept, State_modSeq_kept]

theorem State_pushRing_kept (x0 : State) (x1 : Nat) (x2 : Nat) :
    (State.pushRing x0 x1 x2).kept = x0.kept := by
  unfold State.pushRing; simp only [State_setRing_kept]

theorem State_popRing_kept (x0 : State) (x1 : Nat) (x2 : Nat) :
    (State.popRing x0 x1 x2).kept = x0.kept := by
  unfold State.popRing; simp only [State_setRing_kept]

theorem State_appendRing_kept (x0 : State) (x1 : Nat) (x2 : Nat) (x3 : List Byte) (x4 : Bool) :
    (State.appendRing x0 x1 x2 x3 x4).kept = x0.kept := by
  unfold State.appendRing; simp only [State_pushRing_kept, State_write_kept]

/-! ### Operands -/

theorem State_doMove_kept (x0 : State) (x1 : Move) :
    (State.doMove x0 x1).1.kept = x0.kept := by
  unfold State.doMove
  repeat'
    first
    | with_reducible rfl
    | assumption
    | (simp only [State_write_kept, State_countReads_kept, State_writeMarked_kept, *]; done)
    | intro _
    | (with_reducible refine (foldl_kept _ ?_ _ _).trans ?_)
    | split
    | (with_reducible refine kept_fst (by assumption) ?_)
    | (simp only [State_write_kept, State_countReads_kept, State_writeMarked_kept, *])

theorem State_countRemote_kept (x0 : State) (x1 : Nat) (x2 : Nat) :
    (State.countRemote x0 x1 x2).kept = x0.kept := by
  unfold State.countRemote
  repeat'
    first
    | with_reducible rfl
    | assumption
    | (simp only [ite_kept, State_addFrame_kept, ite_self, *]; done)
    | intro _
    | split
    | (simp only [ite_kept, State_addFrame_kept, ite_self, *])

theorem State_countSource_kept (x0 : State) (x1 : Move) :
    (State.countSource x0 x1).kept = x0.kept := by
  unfold State.countSource
  repeat'
    first
    | with_reducible rfl
    | assumption
    | (simp only [State_countRemote_kept, *]; done)
    | intro _
    | split
    | (simp only [State_countRemote_kept, *])

theorem State_doMoves_kept (x0 : State) (x1 : List Move) :
    (State.doMoves x0 x1).1.kept = x0.kept := by
  unfold State.doMoves
  repeat'
    first
    | with_reducible rfl
    | assumption
    | (simp only [State_countSource_kept, State_doMove_kept, *]; done)
    | intro _
    | (with_reducible refine (foldl_kept1 _ ?_ _ _).trans ?_)
    | split
    | (simp only [State_countSource_kept, State_doMove_kept, *])

theorem State_addCode_kept (x0 : State) (x1 : Nat) (x2 : Nat) (x3 : List Byte) (x4 : Bool) :
    (State.addCode x0 x1 x2 x3 x4).kept = x0.kept := by
  unfold State.addCode; simp only [State_write_kept]

theorem State_addWords_kept (x0 : State) (x1 : Nat) (x2 : Nat) (x3 : Nat) (x4 : Nat) :
    (State.addWords x0 x1 x2 x3 x4).kept = x0.kept := by
  unfold State.addWords
  repeat'
    first
    | with_reducible rfl
    | assumption
    | (simp only [State_addCode_kept, *]; done)
    | intro _
    | (with_reducible refine (foldl_kept _ ?_ _ _).trans ?_)
    | split
    | (simp only [State_addCode_kept, *])

theorem State_addMove_kept (x0 : State) (x1 : Nat) (x2 : Move) :
    (State.addMove x0 x1 x2).1.kept = x0.kept := by
  unfold State.addMove
  repeat'
    first
    | with_reducible rfl
    | assumption
    | (simp only [State_addWords_kept, State_countReads_kept, *]; done)
    | intro _
    | split
    | (simp only [State_addWords_kept, State_countReads_kept, *])

/-! ### Units -/

theorem State_modUnit_kept (x0 : State) (x1 : Nat) (x2 : Nat) (x3 : UnitState → UnitState) :
    (State.modUnit x0 x1 x2 x3).kept = x0.kept := by
  unfold State.modUnit; simp only [State_modDie_kept]

theorem State_viewMiss_kept (x0 : State) :
    (State.viewMiss x0).kept = x0.kept := by
  unfold State.viewMiss; simp only [State_bumpF_kept]

theorem State_abortSegments_kept (x0 : State) (x1 : Nat) (x2 : Nat) :
    (State.abortSegments x0 x1 x2).kept = x0.kept := by
  unfold State.abortSegments
  repeat'
    first
    | with_reducible rfl
    | assumption
    | (simp only [ite_kept, State_bumpF_kept, State_modUnit_kept, ite_self, *]; done)
    | intro _
    | (with_reducible refine (foldl_kept _ ?_ _ _).trans ?_)
    | split
    | (simp only [ite_kept, State_bumpF_kept, State_modUnit_kept, ite_self, *])

theorem State_copyRange_kept (x0 : State) (x1 : Nat) (x2 : Nat) (x3 : Nat) :
    (State.copyRange x0 x1 x2 x3).kept = x0.kept := by
  unfold State.copyRange; simp only [kept_mk, kept_eta]

theorem State_migrate_kept (x0 : State) (x1 : Nat) (x2 : Nat) (x3 : Nat) :
    (State.migrate x0 x1 x2 x3).kept = x0.kept := by
  unfold State.migrate; simp only [State_modUnit_kept, State_copyRange_kept]

theorem State_owesRecord_kept (x0 : State) (x1 : Nat) (x2 : List Byte) :
    (State.owesRecord x0 x1 x2).kept = x0.kept := by
  unfold State.owesRecord; simp only [State_modDie_kept]

theorem State_retiredBit_kept (x0 : State) (x1 : Nat) (x2 : Nat) :
    (State.retiredBit x0 x1 x2).kept = x0.kept := by
  unfold State.retiredBit; simp only [ite_kept, State_setF_kept, ite_self]

theorem State_retire_kept (x0 : State) (x1 : Nat) (x2 : Nat) :
    (State.retire x0 x1 x2).kept = x0.kept := by
  unfold State.retire; simp only [ite_kept, State_doubt_kept, State_owesRecord_kept, State_retiredBit_kept,
      State_modUnit_kept, ite_self]

theorem State_underTest_kept (x0 : State) (x1 : Nat) (x2 : Nat) (x3 : Bool) :
    (State.underTest x0 x1 x2 x3).kept = x0.kept := by
  unfold State.underTest; simp only [ite_kept, State_retire_kept, State_modUnit_kept, ite_self]

theorem State_substitute_kept (x0 : State) (x1 : Nat) (x2 : Nat) (x3 : Bool) :
    (State.substitute x0 x1 x2 x3).1.kept = x0.kept := by
  unfold State.substitute
  repeat'
    first
    | with_reducible rfl
    | assumption
    | (simp only [State_bumpF_kept, State_modUnit_kept, State_retire_kept, State_underTest_kept, ite_kept,
        State_migrate_kept, ite_self, *]; done)
    | intro _
    | split
    | (simp only [State_bumpF_kept, State_modUnit_kept, State_retire_kept, State_underTest_kept, ite_kept,
        State_migrate_kept, ite_self, *])

theorem State_fill_kept (x0 : State) (x1 : Nat) (x2 : Nat) (x3 : Nat) (x4 : Nat) :
    (State.fill x0 x1 x2 x3 x4).kept = x0.kept := by
  unfold State.fill
  repeat'
    first
    | with_reducible rfl
    | assumption
    | (simp only [State_modUnit_kept, State_migrate_kept, *]; done)
    | intro _
    | split
    | (simp only [State_modUnit_kept, State_migrate_kept, *])

theorem State_refill_kept (x0 : State) (x1 : Nat) (x2 : Nat) :
    (State.refill x0 x1 x2).kept = x0.kept := by
  unfold State.refill
  repeat'
    first
    | with_reducible rfl
    | assumption
    | (simp only [ite_kept, State_modUnit_kept, ite_self, State_fill_kept, *]; done)
    | intro _
    | (with_reducible refine (foldl_kept _ ?_ _ _).trans ?_)
    | split
    | (simp only [ite_kept, State_modUnit_kept, ite_self, State_fill_kept, *])

theorem State_startUnits_kept (x0 : State) (x1 : Nat) (x2 : List Nat) :
    (State.startUnits x0 x1 x2).kept = x0.kept := by
  unfold State.startUnits
  repeat'
    first
    | with_reducible rfl
    | assumption
    | (simp only [ite_kept, State_modUnit_kept, ite_self, State_refill_kept, State_modDie_kept, *]; done)
    | intro _
    | (with_reducible refine (foldl_kept _ ?_ _ _).trans ?_)
    | split
    | (simp only [ite_kept, State_modUnit_kept, ite_self, State_refill_kept, State_modDie_kept, *])

theorem State_unitRegs_kept (x0 : State) (x1 : Nat) :
    (State.unitRegs x0 x1).kept = x0.kept := by
  unfold State.unitRegs
  repeat'
    first
    | with_reducible rfl
    | assumption
    | (simp only [State_setF_kept, *]; done)
    | intro _
    | (with_reducible refine (foldl_kept _ ?_ _ _).trans ?_)
    | split
    | (simp only [State_setF_kept, *])

/-! ### Flags -/

theorem State_modSlot_kept (x0 : State) (x1 : Nat) (x2 : Nat) (x3 : Slot → Slot) :
    (State.modSlot x0 x1 x2 x3).kept = x0.kept := by
  unfold State.modSlot; simp only [State_modSeq_kept]

theorem State_dspStatus_kept (x0 : State) (x1 : Nat) :
    (State.dspStatus x0 x1).kept = x0.kept := by
  unfold State.dspStatus; simp only [State_setF_kept, State_levelFrame_kept]

theorem State_freeTheSlot_kept (x0 : State) (x1 : Nat) (x2 : Nat) :
    (State.freeTheSlot x0 x1 x2).kept = x0.kept := by
  unfold State.freeTheSlot; simp only [State_dspStatus_kept, State_modSeq_kept]

theorem State_setReadyList_kept (x0 : State) (x1 : Nat) (x2 : Nat) (x3 : List Nat) :
    (State.setReadyList x0 x1 x2 x3).kept = x0.kept := by
  unfold State.setReadyList; simp only [State_levelFrame_kept, State_setF_kept, State_modSeq_kept]

theorem State_enterList_kept (x0 : State) (x1 : Nat) (x2 : Nat) (x3 : Nat) :
    (State.enterList x0 x1 x2 x3).kept = x0.kept := by
  unfold State.enterList
  repeat'
    first
    | with_reducible rfl
    | assumption
    | (simp only [ite_kept, State_abortSegments_kept, State_modSlot_kept, State_setReadyList_kept, ite_self, *]; done)
    | intro _
    | split
    | (simp only [ite_kept, State_abortSegments_kept, State_modSlot_kept, State_setReadyList_kept, ite_self, *])

theorem State_leaveList_kept (x0 : State) (x1 : Nat) (x2 : Nat) :
    (State.leaveList x0 x1 x2).kept = x0.kept := by
  unfold State.leaveList
  repeat'
    first
    | with_reducible rfl
    | assumption
    | (simp only [ite_kept, State_setReadyList_kept, ite_self, *]; done)
    | intro _
    | split
    | (simp only [ite_kept, State_setReadyList_kept, ite_self, *])

theorem State_modChan_kept (x0 : State) (x1 : Nat) (x2 : Nat) (x3 : DmaChan → DmaChan) :
    (State.modChan x0 x1 x2 x3).kept = x0.kept := by
  unfold State.modChan; simp only [State_modDie_kept]

theorem State_appendDesc_kept (x0 : State) (x1 : Nat) (x2 : Nat) (x3 : List Byte) (x4 : Nat) :
    (State.appendDesc x0 x1 x2 x3 x4).kept = x0.kept := by
  unfold State.appendDesc; simp only [State_modChan_kept, State_modSeq_kept, State_pushRing_kept, State_write_kept]

theorem State_dmaAppend_kept (n : Nat) (s : State) (d k : Nat) : (State.dmaAppend n s d k).kept = s.kept := by
  induction n generalizing s with
  | zero => rfl
  | succ n ih =>
      unfold State.dmaAppend
      repeat'
        first
        | with_reducible rfl
        | assumption
        | (simp only [ite_kept, State_modSlot_kept, State_bumpF_kept, ite_self, State_appendDesc_kept, *]; done)
        | intro _
        | split
        | (simp only [ite_kept, State_modSlot_kept, State_bumpF_kept, ite_self, State_appendDesc_kept, *])

theorem State_startDma_kept (x0 : State) (x1 : Nat) (x2 : Nat) (x3 : Slot) :
    (State.startDma x0 x1 x2 x3).kept = x0.kept := by
  unfold State.startDma; simp only [ite_kept, State_dmaAppend_kept, State_modSlot_kept, State_unpredictable_kept, ite_self]

theorem State_makeReady_kept (x0 : State) (x1 : Nat) (x2 : Nat) :
    (State.makeReady x0 x1 x2).kept = x0.kept := by
  unfold State.makeReady
  repeat'
    first
    | with_reducible rfl
    | assumption
    | (simp only [State_enterList_kept, State_startDma_kept, *]; done)
    | intro _
    | split
    | (simp only [State_enterList_kept, State_startDma_kept, *])

theorem State_holdFlag_kept (x0 : State) (x1 : Nat) (x2 : Nat) :
    (State.holdFlag x0 x1 x2).kept = x0.kept := by
  unfold State.holdFlag; simp only [ite_kept, State_doubt_kept, kept_mk, kept_eta, State_bumpF_kept, State_modDie_kept,
      State_setF_kept, ite_self]

theorem State_flagCheck_kept (x0 : State) (x1 : Nat) (x2 : Nat) :
    (State.flagCheck x0 x1 x2).kept = x0.kept := by
  unfold State.flagCheck; simp only [ite_kept, State_holdFlag_kept, ite_self]

theorem State_flagRegs_kept (x0 : State) (x1 : Nat) (x2 : Nat) :
    (State.flagRegs x0 x1 x2).kept = x0.kept := by
  unfold State.flagRegs; simp only [State_setF_kept]

theorem State_flagWake_kept (x0 : State) (x1 : Nat) (x2 : Nat) :
    (State.flagWake x0 x1 x2).kept = x0.kept := by
  unfold State.flagWake
  repeat'
    first
    | with_reducible rfl
    | assumption
    | (simp only [State_flagRegs_kept, kept_mk, kept_eta, State_modDie_kept, State_makeReady_kept, State_flagCheck_kept,
        *]; done)
    | intro _
    | (with_reducible refine (foldl_kept _ ?_ _ _).trans ?_)
    | split
    | (simp only [State_flagRegs_kept, kept_mk, kept_eta, State_modDie_kept, State_makeReady_kept, State_flagCheck_kept, *])

theorem State_flagsEnd_kept (x0 : State) (x1 : Nat) :
    (State.flagsEnd x0 x1).kept = x0.kept := by
  unfold State.flagsEnd
  repeat'
    first
    | with_reducible rfl
    | assumption
    | (simp only [State_modDie_kept, State_flagWake_kept, *]; done)
    | intro _
    | (with_reducible refine (foldl_kept _ ?_ _ _).trans ?_)
    | split
    | (simp only [State_modDie_kept, State_flagWake_kept, *])

theorem State_flagRead_kept (x0 : State) (x1 : Nat) (x2 : Nat) :
    (State.flagRead x0 x1 x2).2.kept = x0.kept := by
  unfold State.flagRead; simp only [State_flagCheck_kept]

theorem State_flagUpdate_kept (x0 : State) (x1 : Nat) (x2 : Nat) (x3 : Nat) (x4 : Bool) (x5 : Word) :
    (State.flagUpdate x0 x1 x2 x3 x4 x5).kept = x0.kept := by
  unfold State.flagUpdate; simp only [ite_kept, State_flagCheck_kept, kept_mk, kept_eta, State_modDie_kept,
      State_free_kept, State_flagWake_kept, ite_self, State_bumpUnits_kept]

theorem State_flagPost_kept (x0 : State) (x1 : Nat) (x2 : Nat) (x3 : Nat) (x4 : Nat) (x5 : Word) :
    (State.flagPost x0 x1 x2 x3 x4 x5).kept = x0.kept := by
  unfold State.flagPost; simp only [ite_kept, State_flagUpdate_kept, kept_mk, kept_eta, ite_self]

theorem State_takeTravel_kept {s : State} {k a b t s1} (h : s.takeTravel k a b = some (t, s1)) : s1.kept = s.kept := by
  unfold State.takeTravel at h; split at h
  · cases h; simp only [kept_mk, kept_eta]
  · cases h

theorem State_flagArrive_kept (x0 : State) (x1 : FlagSrc) (x2 : Nat) (x3 : Nat) (x4 : Bool) (x5 : Word) (x6 : Bool) :
    (State.flagArrive x0 x1 x2 x3 x4 x5 x6).kept = x0.kept := by
  unfold State.flagArrive; simp only [ite_kept, State_flagUpdate_kept, State_holdFlag_kept, ite_self]

theorem execFlagAdd_kept (x0 : FlagSrc) (x1 : Nat) (x2 : Nat) (x3 : Word) (x4 : Bool) (x5 : State) {kk} (hk : x5.kept = kk) :
    Keeps (execFlagAdd x0 x1 x2 x3 x4 x5) kk := by
  subst hk; unfold execFlagAdd; simp only [keeps_ite, keeps_next, hostErr_kept, State_viewMiss_kept,
      State_flagArrive_kept, kept_mk, kept_eta, ite_self]

theorem execFlagSet_kept (x0 : FlagSrc) (x1 : Nat) (x2 : Nat) (x3 : Word) (x4 : Bool) (x5 : State) {kk} (hk : x5.kept = kk) :
    Keeps (execFlagSet x0 x1 x2 x3 x4 x5) kk := by
  subst hk; unfold execFlagSet; simp only [keeps_ite, keeps_next, hostErr_kept, State_viewMiss_kept,
      State_flagArrive_kept, ite_self]

theorem execWatchArrive_kept (x0 : Nat) (x1 : Nat) (x2 : State) {kk} (hk : x2.kept = kk) :
    Keeps (execWatchArrive x0 x1 x2) kk := by
  subst hk; unfold execWatchArrive
  repeat'
    first
    | with_reducible rfl
    | assumption
    | (simp only [keeps_next, keeps_ite, kept_mk, kept_eta, State_flagCheck_kept, State_flagRegs_kept,
        State_modDie_kept, ite_self, State_bumpF_kept, *]; done)
    | intro _
    | split
    | (with_reducible exact State_takeTravel_kept (by assumption))
    | (simp only [keeps_next, keeps_ite, kept_mk, kept_eta, State_flagCheck_kept, State_flagRegs_kept,
        State_modDie_kept, ite_self, State_bumpF_kept, *])

theorem execWatchRetry_kept (x0 : Nat) (x1 : Nat) (x2 : State) {kk} (hk : x2.kept = kk) :
    Keeps (execWatchRetry x0 x1 x2) kk := by
  subst hk; unfold execWatchRetry
  repeat'
    first
    | with_reducible rfl
    | assumption
    | (simp only [keeps_next, kept_mk, kept_eta, *]; done)
    | intro _
    | split
    | (with_reducible exact State_takeTravel_kept (by assumption))
    | (simp only [keeps_next, kept_mk, kept_eta, *])

theorem State_withdrawWatch_kept (x0 : State) (x1 : Nat) (x2 : Nat) (x3 : Nat) :
    (State.withdrawWatch x0 x1 x2 x3).kept = x0.kept := by
  unfold State.withdrawWatch
  repeat'
    first
    | with_reducible rfl
    | assumption
    | (simp only [State_flagRegs_kept, State_modDie_kept, kept_mk, kept_eta, *]; done)
    | intro _
    | (with_reducible refine (foldl_kept _ ?_ _ _).trans ?_)
    | split
    | (simp only [State_flagRegs_kept, State_modDie_kept, kept_mk, kept_eta, *])

theorem execWatchWithdraw_kept (x0 : Nat) (x1 : Nat) (x2 : Nat) (x3 : State) {kk} (hk : x3.kept = kk) :
    Keeps (execWatchWithdraw x0 x1 x2 x3) kk := by
  subst hk; unfold execWatchWithdraw
  repeat'
    first
    | with_reducible rfl
    | assumption
    | (simp only [keeps_ite, keeps_next, State_withdrawWatch_kept, ite_self, *]; done)
    | intro _
    | split
    | (simp only [keeps_ite, keeps_next, State_withdrawWatch_kept, ite_self, *])

/-! ### Sequencer -/

theorem State_modInst_kept (x0 : State) (x1 : Nat) (x2 : Nat) (x3 : Word) (x4 : Inst → Inst) :
    (State.modInst x0 x1 x2 x3 x4).kept = x0.kept := by
  unfold State.modInst; simp only [State_modSeq_kept]

theorem State_deliverEdge_kept (x0 : State) (x1 : Nat) (x2 : EdgeEvent) :
    (State.deliverEdge x0 x1 x2).kept = x0.kept := by
  unfold State.deliverEdge
  repeat'
    first
    | with_reducible rfl
    | assumption
    | (simp only [ite_kept, State_modInst_kept, ite_self, State_modSeq_kept, *]; done)
    | intro _
    | split
    | (simp only [ite_kept, State_modInst_kept, ite_self, State_modSeq_kept, *])

theorem State_createInst_kept (x0 : State) (x1 : Nat) (x2 : Nat) (x3 : DieFrame) :
    (State.createInst x0 x1 x2 x3).kept = x0.kept := by
  unfold State.createInst; simp only [State_modSeq_kept]

theorem State_owe_kept (x0 : State) (x1 : Nat) (x2 : List Owed) :
    (State.owe x0 x1 x2).kept = x0.kept := by
  unfold State.owe; simp only [State_modSeq_kept]

theorem State_writeOwed_kept (x0 : State) (x1 : Nat) (x2 : Owed) :
    (State.writeOwed x0 x1 x2).kept = x0.kept := by
  unfold State.writeOwed
  repeat'
    first
    | with_reducible rfl
    | assumption
    | (simp only [ite_kept, State_flagPost_kept, State_modInst_kept, State_freeTheSlot_kept, State_appendRing_kept,
        State_modSeq_kept, ite_self, *]; done)
    | intro _
    | split
    | (simp only [ite_kept, State_flagPost_kept, State_modInst_kept, State_freeTheSlot_kept, State_appendRing_kept,
        State_modSeq_kept, ite_self, *])

theorem State_refuseOwed_kept (x0 : State) (x1 : Nat) (x2 : Owed) :
    (State.refuseOwed x0 x1 x2).kept = x0.kept := by
  unfold State.refuseOwed; simp only [ite_kept, State_modSeq_kept, State_bumpF_kept, ite_self]

theorem State_releaseTasks_kept (x0 : State) (x1 : Nat) (x2 : Inst) (x3 : NodeDesc) (x4 : Bool) :
    (State.releaseTasks x0 x1 x2 x3 x4).kept = x0.kept := by
  unfold State.releaseTasks; simp only [State_dspStatus_kept, State_modInst_kept, State_modSeq_kept]

theorem State_oweAll_kept (x0 : State) (x1 : Nat) (x2 : Inst) (x3 : NodeDesc) (x4 : Status) :
    (State.oweAll x0 x1 x2 x3 x4).kept = x0.kept := by
  unfold State.oweAll; simp only [State_owe_kept]

theorem State_release_kept (x0 : State) (x1 : Nat) (x2 : Inst) :
    (State.release x0 x1 x2).kept = x0.kept := by
  unfold State.release
  repeat'
    first
    | with_reducible rfl
    | assumption
    | (simp only [State_releaseTasks_kept, State_modInst_kept, ite_kept, ite_self, State_oweAll_kept, *]; done)
    | intro _
    | split
    | (simp only [State_releaseTasks_kept, State_modInst_kept, ite_kept, ite_self, State_oweAll_kept, *])

theorem State_trip_kept (x0 : State) (x1 : Nat) (x2 : Nat) (x3 : Word) (x4 : Bool) :
    (State.trip x0 x1 x2 x3 x4).kept = x0.kept := by
  unfold State.trip; simp only [State_doubt_kept, ite_kept, State_bumpF_kept, State_setF_kept, ite_self]

theorem State_sendEdge_kept (x0 : State) (x1 : Nat) (x2 : Nat) (x3 : EdgeEvent) :
    (State.sendEdge x0 x1 x2 x3).kept = x0.kept := by
  unfold State.sendEdge; simp only [ite_kept, State_deliverEdge_kept, kept_mk, kept_eta, ite_self]

theorem State_sendEdges_kept (x0 : State) (x1 : Nat) (x2 : Inst) (x3 : Status) :
    (State.sendEdges x0 x1 x2 x3).kept = x0.kept := by
  unfold State.sendEdges
  repeat'
    first
    | with_reducible rfl
    | assumption
    | (simp only [State_sendEdge_kept, *]; done)
    | intro _
    | (with_reducible refine (foldl_kept _ ?_ _ _).trans ?_)
    | split
    | (simp only [State_sendEdge_kept, *])

theorem State_markStream_kept (x0 : State) (x1 : Nat) (x2 : Inst) :
    (State.markStream x0 x1 x2).kept = x0.kept := by
  unfold State.markStream
  repeat'
    first
    | with_reducible rfl
    | assumption
    | (simp only [ite_kept, State_modSeq_kept, State_modInst_kept, ite_self, *]; done)
    | intro _
    | (with_reducible refine (foldl_kept _ ?_ _ _).trans ?_)
    | split
    | (simp only [ite_kept, State_modSeq_kept, State_modInst_kept, ite_self, *])

theorem State_seqRegs_kept (x0 : State) (x1 : Nat) :
    (State.seqRegs x0 x1).kept = x0.kept := by
  unfold State.seqRegs
  repeat'
    first
    | with_reducible rfl
    | assumption
    | (simp only [State_setF_kept, State_modSeq_kept, *]; done)
    | intro _
    | split
    | (simp only [State_setF_kept, State_modSeq_kept, *])

theorem State_complete_kept (x0 : State) (x1 : Nat) (x2 : Inst) :
    (State.complete x0 x1 x2).kept = x0.kept := by
  unfold State.complete; simp only [State_seqRegs_kept, State_sendEdges_kept, ite_kept, State_markStream_kept,
      State_trip_kept, State_flagPost_kept, State_bumpF_kept, State_modSeq_kept, State_modInst_kept, ite_self]

theorem State_settleStep_kept {s : State} {d s1} (h : s.settleStep d = some s1) : s1.kept = s.kept := by
  unfold State.settleStep at h; dsimp only at h
  repeat' (split at h)
  all_goals cases h
  all_goals simp only [State_createInst_kept, State_release_kept, State_complete_kept, State_writeOwed_kept,
      State_refuseOwed_kept]

theorem State_settleFuel_kept (n : Nat) (s : State) (d : Nat) : (State.settleFuel n s d).kept = s.kept := by
  induction n generalizing s with
  | zero => rfl
  | succ n ih =>
    unfold State.settleFuel; split
    · rw [ih, State_settleStep_kept (by assumption)]
    · rfl

theorem State_settle_kept (x0 : State) (x1 : Nat) :
    (State.settle x0 x1).kept = x0.kept := by
  unfold State.settle; simp only [State_dspStatus_kept, State_seqRegs_kept, State_settleFuel_kept]

theorem State_streamEvent_kept (x0 : State) (x1 : Nat) (x2 : Nat) (x3 : Word) (x4 : Bool) :
    (State.streamEvent x0 x1 x2 x3 x4).kept = x0.kept := by
  unfold State.streamEvent
  repeat'
    first
    | with_reducible rfl
    | assumption
    | (simp only [State_settle_kept, ite_kept, State_deliverEdge_kept, ite_self, *]; done)
    | intro _
    | (with_reducible refine (foldl_kept _ ?_ _ _).trans ?_)
    | split
    | (simp only [State_settle_kept, ite_kept, State_deliverEdge_kept, ite_self, *])

theorem State_endSource_kept (x0 : State) (x1 : Nat) (x2 : Nat) (x3 : Word) (x4 : Status) :
    (State.endSource x0 x1 x2 x3 x4).kept = x0.kept := by
  unfold State.endSource
  repeat'
    first
    | with_reducible rfl
    | assumption
    | (simp only [State_settle_kept, State_modInst_kept, State_modSeq_kept, *]; done)
    | intro _
    | split
    | (simp only [State_settle_kept, State_modInst_kept, State_modSeq_kept, *])

theorem State_cancelTasks_kept (x0 : State) (x1 : Nat) (x2 : Inst) (x3 : NodeDesc) :
    (State.cancelTasks x0 x1 x2 x3).1.kept = x0.kept := by
  unfold State.cancelTasks
  repeat'
    first
    | with_reducible rfl
    | assumption
    | (simp only [State_dspStatus_kept, State_owe_kept, State_modSeq_kept, State_freeTheSlot_kept, State_leaveList_kept,
        *]; done)
    | intro _
    | (with_reducible refine (foldl_kept _ ?_ _ _).trans ?_)
    | split
    | (simp only [State_dspStatus_kept, State_owe_kept, State_modSeq_kept, State_freeTheSlot_kept, State_leaveList_kept, *])

theorem State_disown_kept (x0 : State) (x1 : Nat) :
    (State.disown x0 x1).kept = x0.kept := by
  unfold State.disown; simp only [State_write_kept]

theorem State_stopDesc_kept (x0 : State) (x1 : Nat) :
    (State.stopDesc x0 x1).kept = x0.kept := by
  unfold State.stopDesc; simp only [State_disown_kept, State_write_kept]

theorem State_passStopped_kept (x0 : State) (x1 : Nat) (x2 : Nat) :
    (State.passStopped x0 x1 x2).kept = x0.kept := by
  unfold State.passStopped
  repeat'
    first
    | with_reducible rfl
    | assumption
    | (simp only [ite_kept, State_modChan_kept, State_modSeq_kept, State_popRing_kept, *]; done)
    | intro _
    | (with_reducible refine (foldl_kept _ ?_ _ _).trans ?_)
    | split
    | (simp only [ite_kept, State_modChan_kept, State_modSeq_kept, State_popRing_kept, *])

theorem State_stopDmaTask_kept (x0 : State) (x1 : Nat) (x2 : Nat) (x3 : Slot) (x4 : Inst) (x5 : NodeDesc) :
    (State.stopDmaTask x0 x1 x2 x3 x4 x5).kept = x0.kept := by
  unfold State.stopDmaTask
  repeat'
    first
    | with_reducible rfl
    | assumption
    | (simp only [State_owe_kept, State_modSlot_kept, State_passStopped_kept, State_modSeq_kept, ite_kept,
        State_modChan_kept, ite_self, State_stopDesc_kept, *]; done)
    | intro _
    | (with_reducible refine (foldl_kept _ ?_ _ _).trans ?_)
    | split
    | (simp only [State_owe_kept, State_modSlot_kept, State_passStopped_kept, State_modSeq_kept, ite_kept,
        State_modChan_kept, ite_self, State_stopDesc_kept, *])

theorem State_lateRule_kept (x0 : State) (x1 : Nat) (x2 : Inst) :
    (State.lateRule x0 x1 x2).kept = x0.kept := by
  unfold State.lateRule
  repeat'
    first
    | with_reducible rfl
    | assumption
    | (simp only [State_trip_kept, ite_kept, State_stopDmaTask_kept, State_modSlot_kept, ite_self,
        State_cancelTasks_kept, State_oweAll_kept, State_modInst_kept, *]; done)
    | intro _
    | (with_reducible refine (foldl_kept _ ?_ _ _).trans ?_)
    | split
    | (simp only [State_trip_kept, ite_kept, State_stopDmaTask_kept, State_modSlot_kept, ite_self,
        State_cancelTasks_kept, State_oweAll_kept, State_modInst_kept, *])

theorem State_frameEdge_kept (x0 : State) (x1 : Nat) :
    (State.frameEdge x0 x1).kept = x0.kept := by
  unfold State.frameEdge; simp only [State_modSeq_kept, State_publishFrame_kept]

theorem State_startEffect_kept (x0 : State) (x1 : Nat) (x2 : DieFrame) :
    (State.startEffect x0 x1 x2).kept = x0.kept := by
  unfold State.startEffect; simp only [State_settle_kept, State_seqRegs_kept, State_modSeq_kept, State_frameEdge_kept]

theorem execFrameStartEffect_kept (x0 : Nat) (x1 : State) {kk} (hk : x1.kept = kk) :
    Keeps (execFrameStartEffect x0 x1) kk := by
  subst hk; unfold execFrameStartEffect
  repeat'
    first
    | with_reducible rfl
    | assumption
    | (simp only [keeps_next, keeps_ite, State_seqRegs_kept, State_raise_kept, State_bumpF_kept, State_modSeq_kept,
        State_startEffect_kept, ite_self, *]; done)
    | intro _
    | split
    | (simp only [keeps_next, keeps_ite, State_seqRegs_kept, State_raise_kept, State_bumpF_kept, State_modSeq_kept,
        State_startEffect_kept, ite_self, *])

theorem execHeldStartEffect_kept (x0 : Nat) (x1 : State) {kk} (hk : x1.kept = kk) :
    Keeps (execHeldStartEffect x0 x1) kk := by
  subst hk; unfold execHeldStartEffect
  repeat'
    first
    | with_reducible rfl
    | assumption
    | (simp only [keeps_next, keeps_ite, State_startEffect_kept, State_modSeq_kept, ite_self, *]; done)
    | intro _
    | split
    | (simp only [keeps_next, keeps_ite, State_startEffect_kept, State_modSeq_kept, ite_self, *])

theorem execFrameTriggerOffset_kept (x0 : Nat) (x1 : Nat) (x2 : Word) (x3 : State) {kk} (hk : x3.kept = kk) :
    Keeps (execFrameTriggerOffset x0 x1 x2 x3) kk := by
  subst hk; unfold execFrameTriggerOffset
  repeat'
    first
    | with_reducible rfl
    | assumption
    | (simp only [keeps_ite, keeps_next, State_settle_kept, State_modInst_kept, ite_self, *]; done)
    | intro _
    | split
    | (simp only [keeps_ite, keeps_next, State_settle_kept, State_modInst_kept, ite_self, *])

theorem execCompletionNotice_kept (x0 : Nat) (x1 : Nat) (x2 : State) {kk} (hk : x2.kept = kk) :
    Keeps (execCompletionNotice x0 x1 x2) kk := by
  subst hk; unfold execCompletionNotice
  repeat'
    first
    | with_reducible rfl
    | assumption
    | (simp only [keeps_next, keeps_ite, State_settle_kept, State_deliverEdge_kept, kept_mk, kept_eta, ite_self, *]; done)
    | intro _
    | split
    | (simp only [keeps_next, keeps_ite, State_settle_kept, State_deliverEdge_kept, kept_mk, kept_eta, ite_self, *])

theorem execIngressWindowOpen_kept (x0 : Nat) (x1 : Nat) (x2 : Word) (x3 : State) {kk} (hk : x3.kept = kk) :
    Keeps (execIngressWindowOpen x0 x1 x2 x3) kk := by
  subst hk; unfold execIngressWindowOpen
  repeat'
    first
    | with_reducible rfl
    | assumption
    | (simp only [keeps_ite, keeps_next, State_settle_kept, State_modInst_kept, ite_self, *]; done)
    | intro _
    | split
    | (simp only [keeps_ite, keeps_next, State_settle_kept, State_modInst_kept, ite_self, *])

theorem execWinClose_kept (x0 : Nat) (x1 : Nat) (x2 : Word) (x3 : State) {kk} (hk : x3.kept = kk) :
    Keeps (execWinClose x0 x1 x2 x3) kk := by
  subst hk; unfold execWinClose
  repeat'
    first
    | with_reducible rfl
    | assumption
    | (simp only [keeps_ite, keeps_next, State_settle_kept, State_lateRule_kept, ite_self, *]; done)
    | intro _
    | split
    | (simp only [keeps_ite, keeps_next, State_settle_kept, State_lateRule_kept, ite_self, *])

theorem execVariantLoad_kept (x0 : Nat) (x1 : State) {kk} (hk : x1.kept = kk) :
    Keeps (execVariantLoad x0 x1) kk := by
  subst hk; unfold execVariantLoad
  repeat'
    first
    | with_reducible rfl
    | assumption
    | (simp only [keeps_next, keeps_ite, State_settle_kept, State_refill_kept, State_modSeq_kept, ite_self, *]; done)
    | intro _
    | split
    | (simp only [keeps_next, keeps_ite, State_settle_kept, State_refill_kept, State_modSeq_kept, ite_self, *])

/-! ### NeuralCore -/

theorem State_modCore_kept (x0 : State) (x1 : Nat) (x2 : Nat) (x3 : Core → Core) :
    (State.modCore x0 x1 x2 x3).kept = x0.kept := by
  unfold State.modCore; simp only [State_modDie_kept]

theorem State_pull_kept (x0 : State) (x1 : Nat) (x2 : Nat) (x3 : Nat) (x4 : Pull) :
    (State.pull x0 x1 x2 x3 x4).kept = x0.kept := by
  unfold State.pull; simp only [ite_kept, State_modUnit_kept, State_modCore_kept, State_doMoves_kept, ite_self]

theorem State_startCore_kept (x0 : State) (x1 : Nat) (x2 : Nat) (x3 : TaskDesc) :
    (State.startCore x0 x1 x2 x3).kept = x0.kept := by
  unfold State.startCore
  repeat'
    first
    | with_reducible rfl
    | assumption
    | (simp only [State_setF_kept, ite_kept, State_modCore_kept, State_pull_kept, *]; done)
    | intro _
    | (with_reducible refine (foldl_kept _ ?_ _ _).trans ?_)
    | split
    | (simp only [State_setF_kept, ite_kept, State_modCore_kept, State_pull_kept, *])

theorem State_checkFail_kept (x0 : State) (x1 : Nat) (x2 : Nat) :
    (State.checkFail x0 x1 x2).kept = x0.kept := by
  unfold State.checkFail; simp only [State_setF_kept, State_modUnit_kept, State_modCore_kept]

theorem State_stepGen_kept (x0 : State) (x1 : Nat) (x2 : Nat) (x3 : Nat) :
    (State.stepGen x0 x1 x2 x3).kept = x0.kept := by
  unfold State.stepGen; simp only [State_modCore_kept]

theorem State_notePoison_kept (x0 : State) (x1 : Nat) (x2 : Nat) (x3 : Nat) (x4 : List Nat) :
    (State.notePoison x0 x1 x2 x3 x4).kept = x0.kept := by
  unfold State.notePoison; simp only [ite_kept, State_modUnit_kept, ite_self]

theorem State_portRead_kept (x0 : State) (x1 : Nat) (x2 : Nat) (x3 : Nat) (x4 : Nat) (x5 : Nat × Nat) :
    (State.portRead x0 x1 x2 x3 x4 x5).2.kept = x0.kept := by
  unfold State.portRead
  repeat'
    first
    | with_reducible rfl
    | assumption
    | (simp only [State_countUpsets_kept, State_notePoison_kept, *]; done)
    | intro _
    | split
    | (simp only [State_countUpsets_kept, State_notePoison_kept, *])

theorem State_portWrite_kept (x0 : State) (x1 : Nat) (x2 : Nat) (x3 : Nat) (x4 : Nat) (x5 : Nat × Nat) (x6 : Granule) :
    (State.portWrite x0 x1 x2 x3 x4 x5 x6).kept = x0.kept := by
  unfold State.portWrite
  repeat'
    first
    | with_reducible rfl
    | assumption
    | (simp only [State_writeCode_kept, *]; done)
    | intro _
    | (with_reducible refine (foldl_kept _ ?_ _ _).trans ?_)
    | split
    | (simp only [State_writeCode_kept, *])

theorem State_genRead_kept (x0 : State) (x1 : Nat) (x2 : Nat) (x3 : Nat) (x4 : Nat) (x5 : Gen) :
    (State.genRead x0 x1 x2 x3 x4 x5).2.kept = x0.kept := by
  unfold State.genRead
  repeat'
    first
    | with_reducible rfl
    | assumption
    | (simp only [State_portRead_kept, *]; done)
    | intro _
    | (with_reducible refine (foldl_kept2 _ ?_ _ _).trans ?_)
    | split
    | (simp only [State_portRead_kept, *])

theorem State_occupy_kept (x0 : State) (x1 : Nat) (x2 : Nat) (x3 : Nat) (x4 : Nat) :
    (State.occupy x0 x1 x2 x3 x4).kept = x0.kept := by
  unfold State.occupy; simp only [State_modCore_kept]

theorem State_portDo_kept (x0 : State) (x1 : Nat) (x2 : Nat) (x3 : PortOp) :
    (State.portDo x0 x1 x2 x3).kept = x0.kept := by
  unfold State.portDo
  repeat'
    first
    | with_reducible rfl
    | assumption
    | (simp only [State_portWrite_kept, State_modCore_kept, State_portRead_kept, *]; done)
    | intro _
    | split
    | (simp only [State_portWrite_kept, State_modCore_kept, State_portRead_kept, *])

theorem State_portsTo_kept (x0 : State) (x1 : Nat) (x2 : Nat) (x3 : Nat) :
    (State.portsTo x0 x1 x2 x3).kept = x0.kept := by
  unfold State.portsTo
  repeat'
    first
    | with_reducible rfl
    | assumption
    | (simp only [State_portDo_kept, State_modCore_kept, *]; done)
    | intro _
    | (with_reducible refine (foldl_kept _ ?_ _ _).trans ?_)
    | split
    | (simp only [State_portDo_kept, State_modCore_kept, *])

theorem State_portsAll_kept (x0 : State) (x1 : Nat) (x2 : Nat) :
    (State.portsAll x0 x1 x2).kept = x0.kept := by
  unfold State.portsAll
  repeat'
    first
    | with_reducible rfl
    | assumption
    | (simp only [State_portDo_kept, State_modCore_kept, *]; done)
    | intro _
    | (with_reducible refine (foldl_kept _ ?_ _ _).trans ?_)
    | split
    | (simp only [State_portDo_kept, State_modCore_kept, *])

theorem State_issuePorts_kept (x0 : State) (x1 : CoreRef) (x2 : List PortOp) :
    (State.issuePorts x0 x1 x2).kept = x0.kept := by
  unfold State.issuePorts; simp only [State_portsTo_kept, State_modCore_kept]

theorem State_firstBundle_kept (x0 : State) (x1 : CoreRef) :
    (State.firstBundle x0 x1).kept = x0.kept := by
  unfold State.firstBundle; simp only [State_setF_kept, State_modCore_kept]

theorem State_coreErr_kept (x0 : State) (x1 : CoreRef) (x2 : Nat) {kk} (hk : x0.kept = kk) :
    Keeps (State.coreErr x0 x1 x2) kk := by
  subst hk; unfold State.coreErr; simp only [hostErr_kept, State_modCore_kept, kept_mk, kept_eta]

theorem State_inBundle_kept {s : State} {c : CoreRef} {f : State → Result State} (hf : ∀ t, t.kept = s.kept → Keeps (f t) s.kept) : Keeps (s.inBundle c f) s.kept := by
  have hA : ∀ t, s.atCycle c = .here t → t.kept = s.kept := by
    intro t h; unfold State.atCycle at h; dsimp only at h
    repeat' (split at h)
    all_goals cases h
    all_goals simp only [State_firstBundle_kept, State_portsTo_kept, State_modCore_kept, keeps_next, State_coreErr_kept,
        State_modUnit_kept]
  unfold State.inBundle; split
  · exact hf _ (hA _ (by assumption))
  · simp only [State_firstBundle_kept, State_portsTo_kept, State_modCore_kept, keeps_next, State_coreErr_kept,
      State_modUnit_kept]
  · simp only [State_firstBundle_kept, State_portsTo_kept, State_modCore_kept, keeps_next, State_coreErr_kept,
      State_modUnit_kept]

theorem execGset_kept (x0 : CoreRef) (x1 : State) {kk} (hk : x1.kept = kk) :
    Keeps (execGset x0 x1) kk := by
  subst hk; unfold execGset
  repeat'
    first
    | with_reducible rfl
    | assumption
    | (simp only [keeps_ite, keeps_next, State_modCore_kept, State_coreErr_kept, ite_self, *]; done)
    | intro _
    | split
    | (with_reducible refine State_inBundle_kept ?_)
    | (simp only [keeps_ite, keeps_next, State_modCore_kept, State_coreErr_kept, ite_self, *])

theorem State_landGranule_kept (x0 : State) (x1 : Nat) (x2 : Nat) (x3 : Nat) (x4 : Option Nat) (x5 : List Byte) (x6 : List Bool) :
    (State.landGranule x0 x1 x2 x3 x4 x5 x6).kept = x0.kept := by
  unfold State.landGranule
  repeat'
    first
    | with_reducible rfl
    | assumption
    | (simp only [State_countRemote_kept, State_addCode_kept, State_writeCode_kept, State_modCore_kept, *]; done)
    | intro _
    | (with_reducible refine (foldl_kept _ ?_ _ _).trans ?_)
    | split
    | (simp only [State_countRemote_kept, State_addCode_kept, State_writeCode_kept, State_modCore_kept, *])

theorem State_sendGranule_kept (x0 : State) (x1 : Nat) (x2 : Nat) (x3 : Nat) (x4 : Granule) :
    (State.sendGranule x0 x1 x2 x3 x4).kept = x0.kept := by
  unfold State.sendGranule
  repeat'
    first
    | with_reducible rfl
    | assumption
    | (simp only [ite_kept, State_modUnit_kept, State_modCore_kept, ite_self, State_landGranule_kept, *]; done)
    | intro _
    | split
    | (simp only [ite_kept, State_modUnit_kept, State_modCore_kept, ite_self, State_landGranule_kept, *])

theorem execSt_kept (x0 : CoreRef) (x1 : State) {kk} (hk : x1.kept = kk) :
    Keeps (execSt x0 x1) kk := by
  subst hk; unfold execSt
  repeat'
    first
    | with_reducible rfl
    | assumption
    | (simp only [keeps_ite, keeps_next, State_coreErr_kept, State_occupy_kept, State_addFrame_kept, State_stepGen_kept,
        State_sendGranule_kept, State_genRead_kept, *]; done)
    | intro _
    | (with_reducible refine (foldl_kept _ ?_ _ _).trans ?_)
    | split
    | (with_reducible refine State_inBundle_kept ?_)
    | (simp only [keeps_ite, keeps_next, State_coreErr_kept, State_occupy_kept, State_addFrame_kept, State_stepGen_kept,
        State_sendGranule_kept, State_genRead_kept, *])

theorem State_loadGroup_kept (x0 : State) (x1 : CoreRef) (x2 : Nat) (x3 : Nat) (x4 : Nat) (x5 : PortDst) :
    (State.loadGroup x0 x1 x2 x3 x4 x5).kept = x0.kept := by
  unfold State.loadGroup; simp only [State_stepGen_kept, State_occupy_kept, State_issuePorts_kept, State_modCore_kept]

theorem execLda_kept (x0 : CoreRef) (x1 : State) {kk} (hk : x1.kept = kk) :
    Keeps (execLda x0 x1) kk := by
  subst hk; unfold execLda
  repeat'
    first
    | with_reducible rfl
    | assumption
    | (simp only [keeps_ite, keeps_next, State_coreErr_kept, State_loadGroup_kept, ite_self, *]; done)
    | intro _
    | split
    | (with_reducible refine State_inBundle_kept ?_)
    | (simp only [keeps_ite, keeps_next, State_coreErr_kept, State_loadGroup_kept, ite_self, *])

theorem execLdb_kept (x0 : CoreRef) (x1 : State) {kk} (hk : x1.kept = kk) :
    Keeps (execLdb x0 x1) kk := by
  subst hk; unfold execLdb
  repeat'
    first
    | with_reducible rfl
    | assumption
    | (simp only [keeps_ite, keeps_next, State_coreErr_kept, State_loadGroup_kept, ite_self, *]; done)
    | intro _
    | split
    | (with_reducible refine State_inBundle_kept ?_)
    | (simp only [keeps_ite, keeps_next, State_coreErr_kept, State_loadGroup_kept, ite_self, *])

theorem execRun_kept (x0 : CoreRef) (x1 : State) {kk} (hk : x1.kept = kk) :
    Keeps (execRun x0 x1) kk := by
  subst hk; unfold execRun
  repeat'
    first
    | with_reducible rfl
    | assumption
    | (simp only [keeps_ite, keeps_next, State_coreErr_kept, State_addFrame_kept, State_setF_kept, State_modCore_kept,
        ite_self, *]; done)
    | intro _
    | split
    | (with_reducible refine State_inBundle_kept ?_)
    | (simp only [keeps_ite, keeps_next, State_coreErr_kept, State_addFrame_kept, State_setF_kept, State_modCore_kept,
        ite_self, *])

theorem State_matrixFail_kept (x0 : State) (x1 : CoreRef) (x2 : MxFault) (x3 : Nat) :
    (State.matrixFail x0 x1 x2 x3).kept = x0.kept := by
  unfold State.matrixFail; simp only [ite_kept, State_checkFail_kept, State_bumpF_kept, State_setF_kept, ite_self]

theorem execBlockClose_kept (x0 : CoreRef) (x1 : List (Nat × Nat × Int)) (x2 : Option MxFault) (x3 : State) {kk} (hk : x3.kept = kk) :
    Keeps (execBlockClose x0 x1 x2 x3) kk := by
  subst hk; unfold execBlockClose
  repeat'
    first
    | with_reducible rfl
    | assumption
    | (simp only [keeps_next, State_matrixFail_kept, State_bumpUnits_kept, ite_kept, State_setF_kept, State_bumpF_kept,
        State_modCore_kept, ite_self, *]; done)
    | intro _
    | split
    | (simp only [keeps_next, State_matrixFail_kept, State_bumpUnits_kept, ite_kept, State_setF_kept, State_bumpF_kept,
        State_modCore_kept, ite_self, *])

theorem State_issueGen_kept (x0 : State) (x1 : CoreRef) (x2 : Nat) (x3 : Nat) (x4 : Nat) (x5 : Nat) (x6 : Option (List Granule)) (x7 : PortDst) :
    (State.issueGen x0 x1 x2 x3 x4 x5 x6 x7).kept = x0.kept := by
  unfold State.issueGen; simp only [State_modCore_kept, State_occupy_kept, State_issuePorts_kept]

theorem execStore_kept (x0 : CoreRef) (x1 : Option MxFault) (x2 : State) {kk} (hk : x2.kept = kk) :
    Keeps (execStore x0 x1 x2) kk := by
  subst hk; unfold execStore
  repeat'
    first
    | with_reducible rfl
    | assumption
    | (simp only [keeps_ite, keeps_next, State_coreErr_kept, State_matrixFail_kept, ite_self, State_modCore_kept,
        ite_kept, State_issueGen_kept, *]; done)
    | intro _
    | split
    | (with_reducible refine State_inBundle_kept ?_)
    | (simp only [keeps_ite, keeps_next, State_coreErr_kept, State_matrixFail_kept, ite_self, State_modCore_kept,
        ite_kept, State_issueGen_kept, *])

theorem execAccin_kept (x0 : CoreRef) (x1 : State) {kk} (hk : x1.kept = kk) :
    Keeps (execAccin x0 x1) kk := by
  subst hk; unfold execAccin
  repeat'
    first
    | with_reducible rfl
    | assumption
    | (simp only [keeps_ite, keeps_next, State_coreErr_kept, State_issueGen_kept, State_modCore_kept, ite_self, *]; done)
    | intro _
    | split
    | (with_reducible refine State_inBundle_kept ?_)
    | (simp only [keeps_ite, keeps_next, State_coreErr_kept, State_issueGen_kept, State_modCore_kept, ite_self, *])

theorem execLoop_kept (x0 : CoreRef) (x1 : State) {kk} (hk : x1.kept = kk) :
    Keeps (execLoop x0 x1) kk := by
  subst hk; unfold execLoop
  repeat'
    first
    | with_reducible rfl
    | assumption
    | (simp only [keeps_next, State_modCore_kept, State_coreErr_kept, *]; done)
    | intro _
    | split
    | (with_reducible refine State_inBundle_kept ?_)
    | (simp only [keeps_next, State_modCore_kept, State_coreErr_kept, *])

theorem execEndBundle_kept (x0 : CoreRef) (x1 : State) {kk} (hk : x1.kept = kk) :
    Keeps (execEndBundle x0 x1) kk := by
  subst hk; unfold execEndBundle
  repeat'
    first
    | with_reducible rfl
    | assumption
    | (simp only [keeps_ite, keeps_next, State_setF_kept, State_modUnit_kept, State_modCore_kept, ite_self, *]; done)
    | intro _
    | split
    | (with_reducible refine State_inBundle_kept ?_)
    | (simp only [keeps_ite, keeps_next, State_setF_kept, State_modUnit_kept, State_modCore_kept, ite_self, *])

/-! ### Recorder -/

theorem State_modRec_kept (x0 : State) (x1 : Recorder → Recorder) :
    (State.modRec x0 x1).kept = x0.kept := by
  unfold State.modRec; simp only [kept_mk, kept_eta]

theorem State_evrCount_kept (x0 : State) :
    (State.evrCount x0).kept = x0.kept := by
  unfold State.evrCount; simp only [State_setF_kept]

theorem State_intoAccum_kept (x0 : State) (x1 : Event) :
    (State.intoAccum x0 x1).kept = x0.kept := by
  unfold State.intoAccum
  repeat'
    first
    | with_reducible rfl
    | assumption
    | (simp only [ite_kept, State_modRec_kept, State_bumpF_kept, ite_self, State_raise_kept, State_evrCount_kept, *]; done)
    | intro _
    | split
    | (simp only [ite_kept, State_modRec_kept, State_bumpF_kept, ite_self, State_raise_kept, State_evrCount_kept, *])

theorem State_persistRegs_kept (x0 : State) :
    (State.persistRegs x0).kept = x0.kept := by
  unfold State.persistRegs; simp only [State_setF_kept]

theorem State_writeRecord_kept (x0 : State) (x1 : Accum) (x2 : Nat) (x3 : Bool) (x4 : Bool) :
    (State.writeRecord x0 x1 x2 x3 x4).kept = x0.kept := by
  unfold State.writeRecord
  repeat'
    first
    | with_reducible rfl
    | assumption
    | (simp only [State_evrCount_kept, State_bumpF_kept, State_modRec_kept, State_persistRegs_kept, State_setF_kept,
        *]; done)
    | intro _
    | split
    | (simp only [State_evrCount_kept, State_bumpF_kept, State_modRec_kept, State_persistRegs_kept, State_setF_kept, *])

theorem State_replay_kept (x0 : State) (x1 : Nat) :
    (State.replay x0 x1).kept = x0.kept := by
  unfold State.replay
  repeat'
    first
    | with_reducible rfl
    | assumption
    | (simp only [State_intoAccum_kept, State_modRec_kept, *]; done)
    | intro _
    | (with_reducible refine (foldl_kept _ ?_ _ _).trans ?_)
    | split
    | (simp only [State_intoAccum_kept, State_modRec_kept, *])

theorem State_closeAccum_kept (x0 : State) (x1 : Accum) (x2 : Bool) :
    (State.closeAccum x0 x1 x2).kept = x0.kept := by
  unfold State.closeAccum; simp only [State_replay_kept, State_writeRecord_kept]

theorem State_endHold_kept (x0 : State) (x1 : Bool) :
    (State.endHold x0 x1).kept = x0.kept := by
  unfold State.endHold
  repeat'
    first
    | with_reducible rfl
    | assumption
    | (simp only [State_setF_kept, State_closeAccum_kept, State_modRec_kept, *]; done)
    | intro _
    | (with_reducible refine (foldl_kept _ ?_ _ _).trans ?_)
    | split
    | (simp only [State_setF_kept, State_closeAccum_kept, State_modRec_kept, *])

theorem State_closeAll_kept (x0 : State) :
    (State.closeAll x0).kept = x0.kept := by
  unfold State.closeAll
  repeat'
    first
    | with_reducible rfl
    | assumption
    | (simp only [State_writeRecord_kept, *]; done)
    | intro _
    | (with_reducible refine (foldl_kept _ ?_ _ _).trans ?_)
    | split
    | (simp only [State_writeRecord_kept, *])

theorem State_flushRecorder_kept (x0 : State) :
    (State.flushRecorder x0).kept = x0.kept := by
  unfold State.flushRecorder
  repeat'
    first
    | with_reducible rfl
    | assumption
    | (simp only [State_closeAll_kept, State_intoAccum_kept, State_modRec_kept, State_endHold_kept, *]; done)
    | intro _
    | (with_reducible refine (foldl_kept _ ?_ _ _).trans ?_)
    | split
    | (simp only [State_closeAll_kept, State_intoAccum_kept, State_modRec_kept, State_endHold_kept, *])

theorem execEventArrive_kept (x0 : Event) (x1 : State) {kk} (hk : x1.kept = kk) :
    Keeps (execEventArrive x0 x1) kk := by
  subst hk; unfold execEventArrive; simp only [keeps_ite, keeps_next, ite_kept, State_intoAccum_kept, kept_mk, kept_eta,
      ite_self, hostErr_kept]

theorem execAccumulatorClose_kept (x0 : BitVec 16) (x1 : State) {kk} (hk : x1.kept = kk) :
    Keeps (execAccumulatorClose x0 x1) kk := by
  subst hk; unfold execAccumulatorClose
  repeat'
    first
    | with_reducible rfl
    | assumption
    | (simp only [keeps_ite, keeps_next, State_closeAccum_kept, ite_self, *]; done)
    | intro _
    | split
    | (simp only [keeps_ite, keeps_next, State_closeAccum_kept, ite_self, *])

theorem execEvrRaiseCode_kept (x0 : Init) (x1 : Bool) (x2 : BitVec 16) (x3 : State) {kk} (hk : x3.kept = kk) :
    Keeps (execEvrRaiseCode x0 x1 x2 x3) kk := by
  subst hk; unfold execEvrRaiseCode; simp only [keeps_ite, keeps_next, hostErr_kept, ite_kept, State_bumpF_kept,
      State_viewMiss_kept, State_raise_kept, ite_self]

theorem execEvrFreezeSet_kept (x0 : Init) (x1 : State) {kk} (hk : x1.kept = kk) :
    Keeps (execEvrFreezeSet x0 x1) kk := by
  subst hk; unfold execEvrFreezeSet; simp only [keeps_ite, keeps_next, hostErr_kept, State_viewMiss_kept,
      State_setF_kept, State_modRec_kept, ite_self]

theorem execEvrFreezeClear_kept (x0 : Init) (x1 : State) {kk} (hk : x1.kept = kk) :
    Keeps (execEvrFreezeClear x0 x1) kk := by
  subst hk; unfold execEvrFreezeClear; simp only [keeps_ite, keeps_next, hostErr_kept, State_viewMiss_kept,
      State_endHold_kept, ite_self]

theorem execEvrFreezeExpire_kept (x0 : State) {kk} (hk : x0.kept = kk) :
    Keeps (execEvrFreezeExpire x0) kk := by
  subst hk; unfold execEvrFreezeExpire
  repeat'
    first
    | with_reducible rfl
    | assumption
    | (simp only [keeps_ite, keeps_next, State_endHold_kept, ite_self, *]; done)
    | intro _
    | split
    | (simp only [keeps_ite, keeps_next, State_endHold_kept, ite_self, *])

theorem execLogPersist_kept (x0 : Bool) (x1 : State) {kk} (hk : x1.kept = kk) :
    Keeps (execLogPersist x0 x1) kk := by
  subst hk; unfold execLogPersist
  repeat'
    first
    | with_reducible rfl
    | assumption
    | (simp only [keeps_next, ite_kept, State_persistRegs_kept, State_modRec_kept, State_bumpF_kept, ite_self, *]; done)
    | intro _
    | split
    | (simp only [keeps_next, ite_kept, State_persistRegs_kept, State_modRec_kept, State_bumpF_kept, ite_self, *])

/-! ### Imaging -/

theorem State_readSpans_kept (x0 : State) (x1 : List (Nat × Nat)) :
    (State.readSpans x0 x1).kept = x0.kept := by
  unfold State.readSpans
  repeat'
    first
    | with_reducible rfl
    | assumption
    | (simp only [State_countRemote_kept, State_countReads_kept, *]; done)
    | intro _
    | (with_reducible refine (foldl_kept _ ?_ _ _).trans ?_)
    | split
    | (simp only [State_countRemote_kept, State_countReads_kept, *])

theorem State_startEngine_kept (x0 : State) (x1 : Nat) (x2 : Nat) (x3 : TaskDesc) :
    (State.startEngine x0 x1 x2 x3).kept = x0.kept := by
  unfold State.startEngine; simp only [ite_kept, State_modUnit_kept, State_readSpans_kept, ite_self]

theorem State_workDone_kept (x0 : State) (x1 : Nat) (x2 : Job) (x3 : List (Nat × Nat)) (x4 : Work) :
    (State.workDone x0 x1 x2 x3 x4).kept = x0.kept := by
  unfold State.workDone; simp only [State_modUnit_kept, State_readSpans_kept]

theorem State_makeWrites_kept (x0 : State) (x1 : Nat) (x2 : List HeldWrite) :
    (State.makeWrites x0 x1 x2).kept = x0.kept := by
  unfold State.makeWrites
  repeat'
    first
    | with_reducible rfl
    | assumption
    | (simp only [ite_kept, State_unpredictable_kept, State_writeFrom_kept, ite_self, *]; done)
    | intro _
    | (with_reducible refine (foldl_kept _ ?_ _ _).trans ?_)
    | split
    | (simp only [ite_kept, State_unpredictable_kept, State_writeFrom_kept, ite_self, *])

theorem State_showWrites_kept (x0 : State) (x1 : Nat) (x2 : Nat) :
    (State.showWrites x0 x1 x2).kept = x0.kept := by
  unfold State.showWrites
  repeat'
    first
    | with_reducible rfl
    | assumption
    | (simp only [State_makeWrites_kept, State_modUnit_kept, *]; done)
    | intro _
    | split
    | (simp only [State_makeWrites_kept, State_modUnit_kept, *])

theorem State_engineCycle_kept (x0 : State) (x1 : Nat) (x2 : Nat) :
    (State.engineCycle x0 x1 x2).kept = x0.kept := by
  unfold State.engineCycle; simp only [State_addFrame_kept]

theorem State_engineDone_kept (x0 : State) (x1 : Nat) (x2 : Nat) :
    (State.engineDone x0 x1 x2).kept = x0.kept := by
  unfold State.engineDone; simp only [ite_kept, State_addFrame_kept, ite_self]

/-! ### Tasks -/

theorem State_arbMove_kept (x0 : State) (x1 : Nat) (x2 : Nat) (x3 : List Nat) (x4 : Nat) :
    (State.arbMove x0 x1 x2 x3 x4).kept = x0.kept := by
  unfold State.arbMove; simp only [ite_kept, State_modSeq_kept, ite_self]

theorem State_takeSlot_kept (x0 : State) (x1 : Nat) (x2 : Nat) (x3 : Slot) :
    (State.takeSlot x0 x1 x2 x3).kept = x0.kept := by
  unfold State.takeSlot; simp only [ite_kept, State_makeReady_kept, State_dspStatus_kept, State_modSeq_kept,
      State_flagCheck_kept, State_flagRegs_kept, ite_self, kept_mk, kept_eta]

theorem State_countHeld_kept (x0 : State) (x1 : Nat) (x2 : HeldTask → Bool) :
    (State.countHeld x0 x1 x2).kept = x0.kept := by
  unfold State.countHeld; simp only [State_bumpF_kept, State_modSeq_kept]

theorem State_refuseHeld_kept (x0 : State) (x1 : Nat) :
    (State.refuseHeld x0 x1).kept = x0.kept := by
  unfold State.refuseHeld
  repeat'
    first
    | with_reducible rfl
    | assumption
    | (simp only [State_modSeq_kept, ite_kept, State_bumpF_kept, ite_self, State_countHeld_kept, *]; done)
    | intro _
    | (with_reducible refine (foldl_kept _ ?_ _ _).trans ?_)
    | split
    | (simp only [State_modSeq_kept, ite_kept, State_bumpF_kept, ite_self, State_countHeld_kept, *])

theorem State_grant_kept (x0 : State) (x1 : Nat) (x2 : Nat) (x3 : HeldTask) :
    (State.grant x0 x1 x2 x3).kept = x0.kept := by
  unfold State.grant; simp only [ite_kept, State_dspStatus_kept, State_takeSlot_kept, State_countHeld_kept,
      State_modSeq_kept, State_unpredictable_kept, ite_self]

theorem execSlotGrant_kept (x0 : Nat) (x1 : State) {kk} (hk : x1.kept = kk) :
    Keeps (execSlotGrant x0 x1) kk := by
  subst hk; unfold execSlotGrant
  repeat'
    first
    | with_reducible rfl
    | assumption
    | (simp only [keeps_next, State_dspStatus_kept, State_refuseHeld_kept, State_grant_kept, *]; done)
    | intro _
    | split
    | (simp only [keeps_next, State_dspStatus_kept, State_refuseHeld_kept, State_grant_kept, *])

theorem State_grantsBefore_kept (n : Nat) (s : State) (d : Nat) (b : Bool) : (State.grantsBefore n s d b).kept = s.kept := by
  induction n generalizing s with
  | zero => rfl
  | succ n ih =>
    unfold State.grantsBefore
    split
    · split
      · exact State_countHeld_kept _ _ _
      · split
        · exact (ih _).trans (State_grant_kept _ _ _ _)
        · split
          · exact (ih _).trans ((State_grant_kept _ _ _ _).trans (State_arbMove_kept _ _ _ _ _))
          · exact (State_countHeld_kept _ _ _).trans (State_arbMove_kept _ _ _ _ _)
    · rfl

theorem State_pushRefused_kept (x0 : State) (x1 : Nat) (x2 : Nat) (x3 : Nat) :
    (State.pushRefused x0 x1 x2 x3).kept = x0.kept := by
  unfold State.pushRefused; simp only [State_setF_kept, State_bumpF_kept]

theorem execDspPush_kept (w : Init) (d l : Nat) (s : State) {kk} (hk : s.kept = kk) : Keeps (execDspPush w d l s) kk := by
  subst hk; unfold execDspPush
  refine keeps_if (hostErr_kept _ _ rfl) (keeps_if ?_ (keeps_if (hostErr_kept _ _ rfl) (keeps_if ((keeps_next _ _).mpr rfl) ?_)))
  · exact (keeps_next _ _).mpr (State_viewMiss_kept _)
  · extract_lets t used s1
    refine keeps_if ?_ (keeps_if ?_ ?_)
    · exact (keeps_next _ _).mpr (State_pushRefused_kept _ _ _ _)
    · exact (keeps_next _ _).mpr (State_pushRefused_kept _ _ _ _)
    · have h1 : s1.kept = s.kept := State_grantsBefore_kept _ _ _ _
      clear_value s1
      split
      · exact (keeps_next _ _).mpr ((State_pushRefused_kept _ _ _ _).trans h1)
      · rename_i k _
        extract_lets s2
        have h2 : s2.kept = s.kept := by simp only [s2, State_setF_kept, State_takeSlot_kept, h1]
        clear_value s2
        refine (keeps_next _ _).mpr ?_
        split
        · exact h2
        · exact (State_unpredictable_kept _).trans h2

theorem State_begin_kept (x0 : State) (x1 : Nat) (x2 : Nat) (x3 : TaskDesc) :
    (State.begin x0 x1 x2 x3).kept = x0.kept := by
  unfold State.begin; simp only [ite_kept, State_startCore_kept, State_startEngine_kept, State_modDie_kept, ite_self]

theorem State_startUnit_kept (x0 : State) (x1 : Nat) (x2 : Nat) (x3 : Nat) (x4 : Nat) :
    (State.startUnit x0 x1 x2 x3 x4).kept = x0.kept := by
  unfold State.startUnit
  repeat'
    first
    | with_reducible rfl
    | assumption
    | (simp only [State_begin_kept, State_maxFrame_kept, State_addFrame_kept, State_meanFrame_kept, State_modUnit_kept,
        State_modSlot_kept, State_setReadyList_kept, *]; done)
    | intro _
    | split
    | (simp only [State_begin_kept, State_maxFrame_kept, State_addFrame_kept, State_meanFrame_kept, State_modUnit_kept,
        State_modSlot_kept, State_setReadyList_kept, *])

theorem execDispatch_kept (x0 : Nat) (x1 : Nat) (x2 : State) {kk} (hk : x2.kept = kk) :
    Keeps (execDispatch x0 x1 x2) kk := by
  subst hk; unfold execDispatch
  repeat'
    first
    | with_reducible rfl
    | assumption
    | (simp only [keeps_next, keeps_ite, ite_self, ite_kept, State_unpredictable_kept, State_dspStatus_kept,
        State_startUnit_kept, State_modSeq_kept, State_arbMove_kept, *]; done)
    | intro _
    | split
    | (simp only [keeps_next, keeps_ite, ite_self, ite_kept, State_unpredictable_kept, State_dspStatus_kept,
        State_startUnit_kept, State_modSeq_kept, State_arbMove_kept, *])

theorem State_freeUnit_kept (x0 : State) (x1 : Nat) (x2 : Nat) :
    (State.freeUnit x0 x1 x2).kept = x0.kept := by
  unfold State.freeUnit; simp only [ite_kept, State_setF_kept, State_modUnit_kept, ite_self]

theorem State_unitCycle_kept (x0 : State) (x1 : Nat) (x2 : Nat) (x3 : UnitState) :
    (State.unitCycle x0 x1 x2 x3).kept = x0.kept := by
  unfold State.unitCycle
  repeat'
    first
    | with_reducible rfl
    | assumption
    | (simp only [ite_kept, State_engineCycle_kept, State_addFrame_kept, ite_self, *]; done)
    | intro _
    | split
    | (simp only [ite_kept, State_engineCycle_kept, State_addFrame_kept, ite_self, *])

theorem State_relayCycle_kept (x0 : State) (x1 : Nat) :
    (State.relayCycle x0 x1).kept = x0.kept := by
  unfold State.relayCycle; simp only [ite_kept, State_addFrame_kept, ite_self]

theorem State_cycleEnd_kept (x0 : State) (x1 : Nat) :
    (State.cycleEnd x0 x1).kept = x0.kept := by
  unfold State.cycleEnd
  repeat'
    first
    | with_reducible rfl
    | assumption
    | (simp only [State_flagsEnd_kept, State_relayCycle_kept, State_unitCycle_kept, *]; done)
    | intro _
    | (with_reducible refine (foldl_kept _ ?_ _ _).trans ?_)
    | split
    | (simp only [State_flagsEnd_kept, State_relayCycle_kept, State_unitCycle_kept, *])

theorem State_endTask_kept (x0 : State) (x1 : Nat) (x2 : Nat) (x3 : Nat) (x4 : Slot) (x5 : Status) (x6 : Nat) :
    (State.endTask x0 x1 x2 x3 x4 x5 x6).kept = x0.kept := by
  unfold State.endTask; simp only [State_dspStatus_kept, State_owe_kept, State_modSlot_kept, State_showWrites_kept]

theorem State_reexecute_kept (x0 : State) (x1 : Nat) (x2 : Nat) (x3 : Nat) :
    (State.reexecute x0 x1 x2 x3).kept = x0.kept := by
  unfold State.reexecute
  repeat'
    first
    | with_reducible rfl
    | assumption
    | (simp only [State_begin_kept, State_modUnit_kept, State_modSlot_kept, *]; done)
    | intro _
    | split
    | (simp only [State_begin_kept, State_modUnit_kept, State_modSlot_kept, *])

theorem State_unrecovered_kept (x0 : State) (x1 : Nat) (x2 : Nat) (x3 : Nat) (x4 : Slot) (x5 : Nat) :
    (State.unrecovered x0 x1 x2 x3 x4 x5).kept = x0.kept := by
  unfold State.unrecovered; simp only [State_doubt_kept, State_endTask_kept]

theorem State_failedEnd_kept (x0 : State) (x1 : Nat) (x2 : Nat) (x3 : Nat) (x4 : Slot) (x5 : Nat) (x6 : Bool) :
    (State.failedEnd x0 x1 x2 x3 x4 x5 x6).kept = x0.kept := by
  unfold State.failedEnd
  repeat'
    first
    | with_reducible rfl
    | assumption
    | (simp only [State_unrecovered_kept, State_freeUnit_kept, State_retire_kept, State_reexecute_kept,
        State_substitute_kept, *]; done)
    | intro _
    | split
    | (simp only [State_unrecovered_kept, State_freeUnit_kept, State_retire_kept, State_reexecute_kept,
        State_substitute_kept, *])

theorem State_closeTracks_kept (x0 : State) (x1 : Nat) (x2 : Nat) (x3 : Bool) :
    (State.closeTracks x0 x1 x2 x3).kept = x0.kept := by
  unfold State.closeTracks; simp only [ite_kept, State_modDie_kept, ite_self]

theorem State_unitEnd_kept (x0 : State) (x1 : Nat) (x2 : Nat) (x3 : Nat) (x4 : Slot) (x5 : TaskEnd) :
    (State.unitEnd x0 x1 x2 x3 x4 x5).kept = x0.kept := by
  unfold State.unitEnd
  repeat'
    first
    | with_reducible rfl
    | assumption
    | (simp only [ite_kept, State_settle_kept, State_substitute_kept, State_endTask_kept, State_freeUnit_kept,
        State_closeTracks_kept, ite_self, State_engineDone_kept, State_failedEnd_kept, State_portsAll_kept, *]; done)
    | intro _
    | split
    | (simp only [ite_kept, State_settle_kept, State_substitute_kept, State_endTask_kept, State_freeUnit_kept,
        State_closeTracks_kept, ite_self, State_engineDone_kept, State_failedEnd_kept, State_portsAll_kept, *])

theorem execUnitEndReport_kept (x0 : Nat) (x1 : Nat) (x2 : TaskEnd) (x3 : State) {kk} (hk : x3.kept = kk) :
    Keeps (execUnitEndReport x0 x1 x2 x3) kk := by
  subst hk; unfold execUnitEndReport
  repeat'
    first
    | with_reducible rfl
    | assumption
    | (simp only [keeps_next, keeps_ite, State_unitEnd_kept, ite_self, *]; done)
    | intro _
    | split
    | (simp only [keeps_next, keeps_ite, State_unitEnd_kept, ite_self, *])

theorem execHungUnit_kept (x0 : Nat) (x1 : Nat) (x2 : State) {kk} (hk : x2.kept = kk) :
    Keeps (execHungUnit x0 x1 x2) kk := by
  subst hk; unfold execHungUnit
  repeat'
    first
    | with_reducible rfl
    | assumption
    | (simp only [keeps_next, State_settle_kept, State_substitute_kept, State_endTask_kept, State_freeUnit_kept,
        State_closeTracks_kept, State_doubt_kept, *]; done)
    | intro _
    | split
    | (simp only [keeps_next, State_settle_kept, State_substitute_kept, State_endTask_kept, State_freeUnit_kept,
        State_closeTracks_kept, State_doubt_kept, *])

theorem State_recordOut_kept (x0 : State) (x1 : Nat) (x2 : Nat) (x3 : Owed) :
    (State.recordOut x0 x1 x2 x3).kept = x0.kept := by
  unfold State.recordOut; simp only [ite_kept, State_refuseOwed_kept, State_writeOwed_kept, ite_self,
      State_freeTheSlot_kept, State_modSeq_kept]

theorem execCompletionRecordWrite_kept (x0 : Nat) (x1 : Nat) (x2 : State) {kk} (hk : x2.kept = kk) :
    Keeps (execCompletionRecordWrite x0 x1 x2) kk := by
  subst hk; unfold execCompletionRecordWrite
  repeat'
    first
    | with_reducible rfl
    | assumption
    | (simp only [keeps_next, keeps_ite, State_settle_kept, State_recordOut_kept, State_arbMove_kept, ite_self, *]; done)
    | intro _
    | split
    | (simp only [keeps_next, keeps_ite, State_settle_kept, State_recordOut_kept, State_arbMove_kept, ite_self, *])

theorem execDspCancelNode_kept (x0 : Init) (x1 : Nat) (x2 : Nat) (x3 : State) {kk} (hk : x3.kept = kk) :
    Keeps (execDspCancelNode x0 x1 x2 x3) kk := by
  subst hk; unfold execDspCancelNode
  repeat'
    first
    | with_reducible rfl
    | assumption
    | (simp only [keeps_next, State_setF_kept, State_settle_kept, ite_kept, State_doubt_kept, State_modInst_kept,
        ite_self, State_cancelTasks_kept, State_viewMiss_kept, hostErr_kept, *]; done)
    | intro _
    | split
    | (with_reducible refine hostErr_kept ?_)
    | (simp only [keeps_next, State_setF_kept, State_settle_kept, ite_kept, State_doubt_kept, State_modInst_kept,
        ite_self, State_cancelTasks_kept, State_viewMiss_kept, hostErr_kept, *])

theorem execDspCancelSlot_kept (x0 : Init) (x1 : Nat) (x2 : Nat) (x3 : State) {kk} (hk : x3.kept = kk) :
    Keeps (execDspCancelSlot x0 x1 x2 x3) kk := by
  subst hk; unfold execDspCancelSlot
  repeat'
    first
    | with_reducible rfl
    | assumption
    | (simp only [keeps_ite, keeps_next, State_settle_kept, State_setF_kept, State_owe_kept, State_freeTheSlot_kept,
        State_leaveList_kept, ite_self, State_viewMiss_kept, hostErr_kept, *]; done)
    | intro _
    | split
    | (with_reducible refine hostErr_kept ?_)
    | (simp only [keeps_ite, keeps_next, State_settle_kept, State_setF_kept, State_owe_kept, State_freeTheSlot_kept,
        State_leaveList_kept, ite_self, State_viewMiss_kept, hostErr_kept, *])

end Sys2Proof.Machine
end

