-- ==== Sys2Proof/Laws/KeptMemory.lean ====
section
/-! SUPPORT. No operation or command here changes the queue, the part or OTP: streams, ingress, memory and the relay. -/

namespace Sys2Proof.Machine

open Sys2Proof

set_option linter.unusedSimpArgs false
set_option linter.unusedVariables false

/-! ### Streams -/

theorem State_modStream_kept (x0 : State) (x1 : Nat) (x2 : Stream → Stream) :
    (State.modStream x0 x1 x2).kept = x0.kept := by
  unfold State.modStream; simp only [kept_mk, kept_eta]

theorem State_modPair_kept (x0 : State) (x1 : Nat) (x2 : DivPair → DivPair) :
    (State.modPair x0 x1 x2).kept = x0.kept := by
  unfold State.modPair; simp only [kept_mk, kept_eta]

theorem State_safRegs_kept (x0 : State) :
    (State.safRegs x0).kept = x0.kept := by
  unfold State.safRegs; simp only [State_setF_kept]

theorem State_backlogReg_kept (x0 : State) (x1 : Nat) :
    (State.backlogReg x0 x1).kept = x0.kept := by
  unfold State.backlogReg; simp only [State_putAcc_kept]

theorem State_enqueue_kept (x0 : State) (x1 : Nat) (x2 : FrameStart) (x3 : MsgKind) (x4 : Nat) (x5 : Nat) (x6 : List Byte) :
    (State.enqueue x0 x1 x2 x3 x4 x5 x6).kept = x0.kept := by
  unfold State.enqueue; simp only [State_backlogReg_kept, ite_kept, State_bumpF_kept, State_modStream_kept, ite_self]

theorem State_giveVerdict_kept (x0 : State) (x1 : Nat) (x2 : Word) (x3 : Verdict) (x4 : Nat) (x5 : Nat) :
    (State.giveVerdict x0 x1 x2 x3 x4 x5).kept = x0.kept := by
  unfold State.giveVerdict
  repeat'
    first
    | with_reducible rfl
    | assumption
    | (simp only [State_setF_kept, State_modPair_kept, State_bumpF_kept, *]; done)
    | intro _
    | split
    | (simp only [State_setF_kept, State_modPair_kept, State_bumpF_kept, *])

theorem State_expirePairs_kept (x0 : State) (x1 : Nat) (x2 : Word) :
    (State.expirePairs x0 x1 x2).kept = x0.kept := by
  unfold State.expirePairs
  repeat'
    first
    | with_reducible rfl
    | assumption
    | (simp only [ite_kept, State_giveVerdict_kept, ite_self, *]; done)
    | intro _
    | (with_reducible refine (foldl_kept _ ?_ _ _).trans ?_)
    | split
    | (simp only [ite_kept, State_giveVerdict_kept, ite_self, *])

theorem State_closeFrame_kept (x0 : State) (x1 : Nat) (x2 : FrameStart) (x3 : Bool) :
    (State.closeFrame x0 x1 x2 x3).kept = x0.kept := by
  unfold State.closeFrame; simp only [ite_kept, State_bumpF_kept, State_setF_kept, State_modStream_kept, ite_self]

theorem State_decideOne_keepsO (s : State) (k) : KeepsO (s.decideOne k) s.kept := by
  unfold State.decideOne
  split
  · simp only [keepsO_none, State_expirePairs_kept, keepsO_some, State_closeFrame_kept, State_enqueue_kept, State_bumpF_kept]
  · extract_lets late s1 y g vs m c doubt agree passes kind calm inTime clean
    have h1 : s1.kept = s.kept := by
      show State.kept (ite _ _ _) = _
      split
      · simp only [keepsO_none, State_expirePairs_kept, keepsO_some, State_closeFrame_kept, State_enqueue_kept,
          State_bumpF_kept]
      · rfl
    clear_value clean passes doubt kind agree vs m c g calm inTime
    clear_value y
    clear_value s1
    repeat' split
    all_goals simp only [keepsO_none, State_expirePairs_kept, keepsO_some, State_closeFrame_kept, State_enqueue_kept,
        State_bumpF_kept, h1]
theorem State_decideOne_kept {s : State} {k s1} (h : s.decideOne k = some s1) : s1.kept = s.kept := (State_decideOne_keepsO s k).1 _ h

theorem State_decideFuel_kept (n : Nat) (s : State) (d : Nat) : (State.decideFuel n s d).kept = s.kept := by
  induction n generalizing s with
  | zero => rfl
  | succ n ih =>
      unfold State.decideFuel
      repeat'
        first
        | with_reducible rfl
        | assumption
        | (simp only [*]; done)
        | intro _
        | split
        | (with_reducible exact State_decideOne_kept (by assumption))
        | (simp only [*])

theorem State_strain_kept (x0 : State) (x1 : Nat) :
    (State.strain x0 x1).kept = x0.kept := by
  unfold State.strain; simp only [ite_kept, State_decideFuel_kept, ite_self]

theorem State_strainMask_kept (x0 : State) (x1 : Nat) :
    (State.strainMask x0 x1).kept = x0.kept := by
  unfold State.strainMask
  repeat'
    first
    | with_reducible rfl
    | assumption
    | (simp only [ite_kept, State_strain_kept, ite_self, *]; done)
    | intro _
    | (with_reducible refine (foldl_kept _ ?_ _ _).trans ?_)
    | split
    | (simp only [ite_kept, State_strain_kept, ite_self, *])

theorem State_switchStreams_kept (x0 : State) (x1 : Nat) :
    (State.switchStreams x0 x1).kept = x0.kept := by
  unfold State.switchStreams
  repeat'
    first
    | with_reducible rfl
    | assumption
    | (simp only [State_strainMask_kept, ite_kept, State_bumpF_kept, State_modStream_kept, ite_self, *]; done)
    | intro _
    | (with_reducible refine (foldl_kept _ ?_ _ _).trans ?_)
    | split
    | (simp only [State_strainMask_kept, ite_kept, State_bumpF_kept, State_modStream_kept, ite_self, *])

theorem State_latch_kept (x0 : State) (x1 : DoubtCause) :
    (State.latch x0 x1).kept = x0.kept := by
  unfold State.latch; simp only [ite_kept, State_setF_kept, ite_self, State_switchStreams_kept, State_safRegs_kept,
      State_raise_kept, State_bumpF_kept, kept_mk, kept_eta]

theorem State_clearDoubts_kept (x0 : State) (x1 : Doubt → Bool) :
    (State.clearDoubts x0 x1).kept = x0.kept := by
  unfold State.clearDoubts
  repeat'
    first
    | with_reducible rfl
    | assumption
    | (simp only [ite_kept, State_safRegs_kept, State_modStream_kept, ite_self, kept_mk, kept_eta, *]; done)
    | intro _
    | (with_reducible refine (foldl_kept _ ?_ _ _).trans ?_)
    | split
    | (simp only [ite_kept, State_safRegs_kept, State_modStream_kept, ite_self, kept_mk, kept_eta, *])

theorem State_recovered_kept (x0 : State) (x1 : Recovery) :
    (State.recovered x0 x1).kept = x0.kept := by
  unfold State.recovered; simp only [State_clearDoubts_kept]

theorem State_markStreams_kept (x0 : State) (x1 : Nat) :
    (State.markStreams x0 x1).kept = x0.kept := by
  unfold State.markStreams
  repeat'
    first
    | with_reducible rfl
    | assumption
    | (simp only [ite_kept, State_modStream_kept, ite_self, *]; done)
    | intro _
    | (with_reducible refine (foldl_kept _ ?_ _ _).trans ?_)
    | split
    | (simp only [ite_kept, State_modStream_kept, ite_self, *])

theorem State_strRegs_kept (x0 : State) :
    (State.strRegs x0).kept = x0.kept := by
  unfold State.strRegs
  repeat'
    first
    | with_reducible rfl
    | assumption
    | (simp only [State_setF_kept, *]; done)
    | intro _
    | (with_reducible refine (foldl_kept _ ?_ _ _).trans ?_)
    | split
    | (simp only [State_setF_kept, *])

/-! ### Ingress -/

theorem State_modIng_kept (x0 : State) (x1 : Ingress → Ingress) :
    (State.modIng x0 x1).kept = x0.kept := by
  unfold State.modIng; simp only [kept_mk, kept_eta]

theorem State_modCtx_kept (x0 : State) (x1 : Nat) (x2 : Ctx → Ctx) :
    (State.modCtx x0 x1 x2).kept = x0.kept := by
  unfold State.modCtx; simp only [State_modIng_kept]

theorem State_modPos_kept (x0 : State) (x1 : Nat) (x2 : PipePos → PipePos) :
    (State.modPos x0 x1 x2).kept = x0.kept := by
  unfold State.modPos; simp only [State_modIng_kept]

theorem State_modFrame_kept (x0 : State) (x1 : Nat) (x2 : Word) (x3 : SFrame → SFrame) :
    (State.modFrame x0 x1 x2 x3).kept = x0.kept := by
  unfold State.modFrame; simp only [State_modCtx_kept]

theorem State_countDrop_kept (x0 : State) (x1 : Nat) (x2 : DropCause) :
    (State.countDrop x0 x1 x2).kept = x0.kept := by
  unfold State.countDrop
  repeat'
    first
    | with_reducible rfl
    | assumption
    | (simp only [State_bumpF_kept, *]; done)
    | intro _
    | split
    | (simp only [State_bumpF_kept, *])

theorem State_dropRun_kept (x0 : State) (x1 : Nat) (x2 : Word) :
    (State.dropRun x0 x1 x2).kept = x0.kept := by
  unfold State.dropRun; simp only [ite_kept, State_doubt_kept, State_modCtx_kept, ite_self]

theorem State_dropOn_kept (x0 : State) (x1 : Nat) (x2 : Word) (x3 : Nat) (x4 : List Byte) (x5 : Nat) :
    (State.dropOn x0 x1 x2 x3 x4 x5).kept = x0.kept := by
  unfold State.dropOn; simp only [ite_kept, State_modCtx_kept, State_endSource_kept, State_write_kept,
      State_streamEvent_kept, ite_self]

theorem State_discardLines_kept (x0 : State) (x1 : Nat) (x2 : Line → Bool) :
    (State.discardLines x0 x1 x2).kept = x0.kept := by
  unfold State.discardLines; simp only [State_modPos_kept]

theorem State_zeroFlag_kept (x0 : State) (x1 : Nat) (x2 : Word) (x3 : Nat) :
    (State.zeroFlag x0 x1 x2 x3).kept = x0.kept := by
  unfold State.zeroFlag; simp only [ite_kept, State_flagUpdate_kept, ite_self]

theorem State_dropFrame_kept (s : State) (c : Nat) (f : Word) (w : DropCause) : (s.dropFrame c f w).kept = s.kept := by
  unfold State.dropFrame
  extract_lets g untrig
  split
  rename_i a b t h
  replace h := congrArg (fun (q : List Byte × Map Nat × State) => q.2.2.kept) h
  have ht : t.kept = s.kept := by
    rw [← show _ = t.kept from h]
    split
    · rfl
    · refine (foldl_kept _ ?_ _ _).trans ?_
      · intro s d; exact State_zeroFlag_kept _ _ _ _
      · exact (State_free_kept _).trans ((State_free_kept _).trans (State_free_kept _))
  clear h
  extract_lets s1 s2
  have h1 : s1.kept = s.kept := by simp only [s1, State_modPos_kept, State_discardLines_kept, State_modCtx_kept, ht]
  clear_value s1
  have h2 : s2.kept = s.kept := (foldl_kept _ (fun _ _ => State_dropOn_kept _ _ _ _ _ _) _ _).trans h1
  clear_value s2
  simp only [State_dropRun_kept, State_raise_kept, State_countDrop_kept, h2]

theorem State_tidy_kept (x0 : State) (x1 : Nat) :
    (State.tidy x0 x1).kept = x0.kept := by
  unfold State.tidy; simp only [State_modCtx_kept]

theorem State_deliverFrame_kept (s : State) (c : Nat) (f : Word) : (s.deliverFrame c f).kept = s.kept := by
  unfold State.deliverFrame
  extract_lets g
  split
  rename_i t s0 h
  have h0 : s0.kept = s.kept := kept_snd h (State_free_kept s)
  clear h
  extract_lets s1 s2
  have h1 : s1.kept = s.kept := (State_modCtx_kept _ _ _).trans h0
  clear_value s1
  have h2 : s2.kept = s.kept := by simp only [s2, State_bumpF_kept, State_modFrame_kept, h1]
  clear_value s2
  split
  · split
    · exact h2
    · exact (State_putBytes_kept _ _ _).trans h2
  · exact h2

theorem State_tryDeliver_kept (x0 : State) (x1 : Nat) (x2 : Word) :
    (State.tryDeliver x0 x1 x2).kept = x0.kept := by
  unfold State.tryDeliver
  repeat'
    first
    | with_reducible rfl
    | assumption
    | (simp only [ite_kept, State_deliverFrame_kept, ite_self, *]; done)
    | intro _
    | split
    | (simp only [ite_kept, State_deliverFrame_kept, ite_self, *])

theorem State_endWait_kept (x0 : State) (x1 : Nat) :
    (State.endWait x0 x1).kept = x0.kept := by
  unfold State.endWait
  repeat'
    first
    | with_reducible rfl
    | assumption
    | (simp only [State_tidy_kept, State_tryDeliver_kept, State_modFrame_kept, *]; done)
    | intro _
    | (with_reducible refine (foldl_kept _ ?_ _ _).trans ?_)
    | split
    | (simp only [State_tidy_kept, State_tryDeliver_kept, State_modFrame_kept, *])

theorem State_openWindow_kept (x0 : State) (x1 : Nat) (x2 : Word) (x3 : Nat) :
    (State.openWindow x0 x1 x2 x3).kept = x0.kept := by
  unfold State.openWindow
  repeat'
    first
    | with_reducible rfl
    | assumption
    | (simp only [State_modCtx_kept, State_dropFrame_kept, State_endWait_kept, *]; done)
    | intro _
    | (with_reducible refine (foldl_kept _ ?_ _ _).trans ?_)
    | split
    | (simp only [State_modCtx_kept, State_dropFrame_kept, State_endWait_kept, *])

theorem execCameraTrigger_kept (x0 : Nat) (x1 : State) {kk} (hk : x1.kept = kk) :
    Keeps (execCameraTrigger x0 x1) kk := by
  subst hk; unfold execCameraTrigger
  repeat'
    first
    | with_reducible rfl
    | assumption
    | (simp only [keeps_next, keeps_ite, hostErr_kept, ite_self, State_openWindow_kept, ite_kept, kept_mk, kept_eta,
        State_modIng_kept, *]; done)
    | intro _
    | split
    | (with_reducible refine hostErr_kept ?_)
    | (simp only [keeps_next, keeps_ite, hostErr_kept, ite_self, State_openWindow_kept, ite_kept, kept_mk, kept_eta,
        State_modIng_kept, *])

theorem execAcceptWindowClose_kept (x0 : Nat) (x1 : State) {kk} (hk : x1.kept = kk) :
    Keeps (execAcceptWindowClose x0 x1) kk := by
  subst hk; unfold execAcceptWindowClose
  repeat'
    first
    | with_reducible rfl
    | assumption
    | (simp only [keeps_ite, keeps_next, ite_kept, State_modCtx_kept, State_dropFrame_kept, ite_self, *]; done)
    | intro _
    | split
    | (simp only [keeps_ite, keeps_next, ite_kept, State_modCtx_kept, State_dropFrame_kept, ite_self, *])

theorem State_discardPacket_kept (x0 : State) (x1 : Nat) :
    (State.discardPacket x0 x1).kept = x0.kept := by
  unfold State.discardPacket; simp only [State_bumpF_kept]

theorem State_countHeader_kept (x0 : State) (x1 : Nat) (x2 : PktState) :
    (State.countHeader x0 x1 x2).kept = x0.kept := by
  unfold State.countHeader; simp only [ite_kept, State_bumpF_kept, ite_self]

theorem State_spoilFrame_kept (x0 : State) (x1 : Nat) :
    (State.spoilFrame x0 x1).kept = x0.kept := by
  unfold State.spoilFrame
  repeat'
    first
    | with_reducible rfl
    | assumption
    | (simp only [ite_kept, State_dropFrame_kept, ite_self, *]; done)
    | intro _
    | split
    | (simp only [ite_kept, State_dropFrame_kept, ite_self, *])

theorem State_spoilStart_kept (x0 : State) (x1 : Nat) :
    (State.spoilStart x0 x1).kept = x0.kept := by
  unfold State.spoilStart
  repeat'
    first
    | with_reducible rfl
    | assumption
    | (simp only [ite_kept, State_dropFrame_kept, State_modCtx_kept, ite_self, *]; done)
    | intro _
    | split
    | (simp only [ite_kept, State_dropFrame_kept, State_modCtx_kept, ite_self, *])

theorem State_frameStart_kept (s : State) (c : Nat) : (s.frameStart c).kept = s.kept := by
  unfold State.frameStart
  extract_lets g s1 s2
  have h1 : s1.kept = s.kept := by
    simp only [s1]; split
    · split
      · split
        · exact State_dropFrame_kept _ _ _ _
        · rfl
      · rfl
    · rfl
  clear_value s1
  have h2 : s2.kept = s.kept := by simp only [s2, State_tidy_kept, State_modCtx_kept, State_endWait_kept, h1]
  clear_value s2
  split
  · rfl
  · split
    · extract_lets x s3
      have h3 : s3.kept = s.kept := by simp only [s3, State_modCtx_kept, h2]
      clear_value s3
      split
      · exact (foldl_kept _ (fun _ _ => State_zeroFlag_kept _ _ _ _) _ _).trans h3
      · exact (State_bumpF_kept _ _ _ _ _ _).trans h2
    · exact (State_bumpF_kept _ _ _ _ _ _).trans h2

theorem execCsi2Fs_kept (l v : Nat) (st : PktState) (s : State) {kk} (hk : s.kept = kk) : Keeps (execCsi2Fs l v st s) kk := by
  subst hk; unfold execCsi2Fs
  extract_lets s1 cs
  have h1 : s1.kept = s.kept := State_countHeader_kept _ _ _
  clear_value s1
  refine keeps_if ((keeps_next _ _).mpr rfl) (keeps_if (hostErr_kept _ _ rfl) (keeps_if ((keeps_next _ _).mpr rfl) (keeps_if ?_ (keeps_if ?_ (keeps_if ?_ ?_)))))
  · exact (keeps_next _ _).mpr ((foldl_kept _ (fun _ _ => State_spoilStart_kept _ _) _ _).trans ((State_discardPacket_kept _ _).trans h1))
  · exact (keeps_next _ _).mpr ((State_discardPacket_kept _ _).trans h1)
  · exact hostErr_kept _ _ h1
  · exact (keeps_next _ _).mpr ((foldl_kept _ (fun _ _ => State_frameStart_kept _ _) _ _).trans h1)

theorem State_frameEnd_kept (x0 : State) (x1 : Nat) :
    (State.frameEnd x0 x1).kept = x0.kept := by
  unfold State.frameEnd
  repeat'
    first
    | with_reducible rfl
    | assumption
    | (simp only [State_tidy_kept, State_modCtx_kept, ite_kept, State_dropFrame_kept, State_tryDeliver_kept,
        State_modFrame_kept, ite_self, *]; done)
    | intro _
    | split
    | (simp only [State_tidy_kept, State_modCtx_kept, ite_kept, State_dropFrame_kept, State_tryDeliver_kept,
        State_modFrame_kept, ite_self, *])

theorem execCsi2Fe_kept (x0 : Nat) (x1 : Nat) (x2 : PktState) (x3 : State) {kk} (hk : x3.kept = kk) :
    Keeps (execCsi2Fe x0 x1 x2 x3) kk := by
  subst hk; unfold execCsi2Fe
  repeat'
    first
    | with_reducible rfl
    | assumption
    | (simp only [keeps_ite, keeps_next, State_discardPacket_kept, State_countHeader_kept, State_frameEnd_kept,
        State_spoilFrame_kept, hostErr_kept, *]; done)
    | intro _
    | (with_reducible refine (foldl_kept _ ?_ _ _).trans ?_)
    | split
    | (with_reducible refine hostErr_kept ?_)
    | (simp only [keeps_ite, keeps_next, State_discardPacket_kept, State_countHeader_kept, State_frameEnd_kept,
        State_spoilFrame_kept, hostErr_kept, *])

theorem State_pipeTake_kept (x0 : State) (x1 : Nat) :
    (State.pipeTake x0 x1).kept = x0.kept := by
  unfold State.pipeTake
  repeat'
    first
    | with_reducible rfl
    | assumption
    | (simp only [ite_kept, State_modPos_kept, *]; done)
    | intro _
    | split
    | (simp only [ite_kept, State_modPos_kept, *])

theorem State_overload_kept (x0 : State) (x1 : Nat) :
    (State.overload x0 x1).kept = x0.kept := by
  unfold State.overload
  repeat'
    first
    | with_reducible rfl
    | assumption
    | (simp only [State_discardLines_kept, State_dropFrame_kept, *]; done)
    | intro _
    | split
    | (simp only [State_discardLines_kept, State_dropFrame_kept, *])

theorem State_goldMissed_kept (x0 : State) (x1 : Nat) :
    (State.goldMissed x0 x1).kept = x0.kept := by
  unfold State.goldMissed; simp only [ite_kept, State_doubt_kept, State_modCtx_kept, ite_self]

theorem State_abandonGold_kept (x0 : State) (x1 : Nat) (x2 : Nat) :
    (State.abandonGold x0 x1 x2).kept = x0.kept := by
  unfold State.abandonGold; simp only [ite_kept, State_goldMissed_kept, State_bumpF_kept, State_modPos_kept, ite_self]

theorem State_lineReady_kept (x0 : State) (x1 : Nat) (x2 : Word) (x3 : List Byte) (x4 : SFrame) :
    (State.lineReady x0 x1 x2 x3 x4).kept = x0.kept := by
  unfold State.lineReady
  repeat'
    first
    | with_reducible rfl
    | assumption
    | (simp only [ite_kept, State_dropFrame_kept, State_modFrame_kept, State_abandonGold_kept, ite_self,
        State_overload_kept, State_maxFrame_kept, State_modPos_kept, State_modCtx_kept, State_putBytes_kept, *]; done)
    | intro _
    | split
    | (simp only [ite_kept, State_dropFrame_kept, State_modFrame_kept, State_abandonGold_kept, ite_self,
        State_overload_kept, State_maxFrame_kept, State_modPos_kept, State_modCtx_kept, State_putBytes_kept, *])

theorem State_extraLine_kept (x0 : State) (x1 : Nat) (x2 : Word) :
    (State.extraLine x0 x1 x2).kept = x0.kept := by
  unfold State.extraLine
  repeat'
    first
    | with_reducible rfl
    | assumption
    | (simp only [ite_kept, State_dropFrame_kept, State_modFrame_kept, State_bumpF_kept, ite_self, *]; done)
    | intro _
    | split
    | (simp only [ite_kept, State_dropFrame_kept, State_modFrame_kept, State_bumpF_kept, ite_self, *])

theorem State_embedded_kept (x0 : State) (x1 : Nat) (x2 : Word) (x3 : SFrame) (x4 : List Byte) :
    (State.embedded x0 x1 x2 x3 x4).kept = x0.kept := by
  unfold State.embedded
  repeat'
    first
    | with_reducible rfl
    | assumption
    | (simp only [State_modFrame_kept, ite_kept, State_write_kept, ite_self, *]; done)
    | intro _
    | (with_reducible refine (foldl_kept _ ?_ _ _).trans ?_)
    | split
    | (simp only [State_modFrame_kept, ite_kept, State_write_kept, ite_self, *])

theorem execCsi2LongPacket_kept (x0 : Nat) (x1 : Nat) (x2 : Nat) (x3 : List Byte) (x4 : PktState) (x5 : State) {kk} (hk : x5.kept = kk) :
    Keeps (execCsi2LongPacket x0 x1 x2 x3 x4 x5) kk := by
  subst hk; unfold execCsi2LongPacket
  repeat'
    first
    | with_reducible rfl
    | assumption
    | (simp only [keeps_ite, hostErr_kept, State_countHeader_kept, keeps_next, State_discardPacket_kept,
        State_pipeTake_kept, State_lineReady_kept, State_extraLine_kept, ite_self, State_embedded_kept,
        State_spoilFrame_kept, *]; done)
    | intro _
    | split
    | (with_reducible refine hostErr_kept ?_)
    | (simp only [keeps_ite, hostErr_kept, State_countHeader_kept, keeps_next, State_discardPacket_kept,
        State_pipeTake_kept, State_lineReady_kept, State_extraLine_kept, ite_self, State_embedded_kept,
        State_spoilFrame_kept, *])

theorem State_modTest_kept (x0 : State) (x1 : Nat) (x2 : PipeTest → PipeTest) :
    (State.modTest x0 x1 x2).kept = x0.kept := by
  unfold State.modTest; simp only [State_modIng_kept]

theorem State_retirePipe_kept (x0 : State) (x1 : Nat) :
    (State.retirePipe x0 x1).kept = x0.kept := by
  unfold State.retirePipe; simp only [ite_kept, State_setF_kept, State_modTest_kept, State_modIng_kept, ite_self]

theorem State_noHandover_kept (x0 : State) (x1 : Nat) (x2 : Nat) (x3 : Bool) :
    (State.noHandover x0 x1 x2 x3).kept = x0.kept := by
  unfold State.noHandover; simp only [ite_kept, State_doubt_kept, State_retirePipe_kept, State_modPos_kept, ite_self]

theorem State_askHandover_kept (x0 : State) (x1 : Nat) (x2 : Bool) :
    (State.askHandover x0 x1 x2).kept = x0.kept := by
  unfold State.askHandover
  repeat'
    first
    | with_reducible rfl
    | assumption
    | (simp only [ite_kept, State_noHandover_kept, State_modPos_kept, ite_self, *]; done)
    | intro _
    | split
    | (simp only [ite_kept, State_noHandover_kept, State_modPos_kept, ite_self, *])

theorem State_exchange_kept (x0 : State) (x1 : Nat) :
    (State.exchange x0 x1).kept = x0.kept := by
  unfold State.exchange
  repeat'
    first
    | with_reducible rfl
    | assumption
    | (simp only [State_recovered_kept, ite_kept, State_retirePipe_kept, State_modTest_kept, State_modPos_kept,
        ite_self, State_noHandover_kept, *]; done)
    | intro _
    | split
    | (simp only [State_recovered_kept, ite_kept, State_retirePipe_kept, State_modTest_kept, State_modPos_kept,
        ite_self, State_noHandover_kept, *])

theorem execPipeHandover_kept (x0 : Nat) (x1 : State) {kk} (hk : x1.kept = kk) :
    Keeps (execPipeHandover x0 x1) kk := by
  subst hk; unfold execPipeHandover; simp only [keeps_ite, keeps_next, hostErr_kept, State_exchange_kept,
      State_pipeTake_kept, ite_self]

theorem execHandoverForced_kept (x0 : Nat) (x1 : State) {kk} (hk : x1.kept = kk) :
    Keeps (execHandoverForced x0 x1) kk := by
  subst hk; unfold execHandoverForced; simp only [keeps_ite, keeps_next, hostErr_kept, State_exchange_kept, ite_self]

theorem State_judgeGold_kept (x0 : State) (x1 : Nat) (x2 : Nat) (x3 : List (Nat × Nat)) :
    (State.judgeGold x0 x1 x2 x3).kept = x0.kept := by
  unfold State.judgeGold; simp only [ite_kept, State_bumpF_kept, State_modCtx_kept, State_askHandover_kept,
      State_doubt_kept, ite_self]

theorem State_askGold_kept (x0 : State) (x1 : Nat) (x2 : Nat) (x3 : Word) :
    (State.askGold x0 x1 x2 x3).kept = x0.kept := by
  unfold State.askGold; simp only [ite_kept, State_modPos_kept, ite_self]

theorem State_finishLine_kept (x0 : State) (x1 : Nat) (x2 : Line) :
    (State.finishLine x0 x1 x2).kept = x0.kept := by
  unfold State.finishLine
  repeat'
    first
    | with_reducible rfl
    | assumption
    | (simp only [State_pipeTake_kept, State_tryDeliver_kept, ite_kept, State_askGold_kept, State_modFrame_kept,
        State_addFrame_kept, State_modPos_kept, ite_self, *]; done)
    | intro _
    | split
    | (simp only [State_pipeTake_kept, State_tryDeliver_kept, ite_kept, State_askGold_kept, State_modFrame_kept,
        State_addFrame_kept, State_modPos_kept, ite_self, *])

theorem State_finishGold_kept (x0 : State) (x1 : Nat) (x2 : GoldRun) (x3 : List (Nat × Nat)) :
    (State.finishGold x0 x1 x2 x3).kept = x0.kept := by
  unfold State.finishGold
  repeat'
    first
    | with_reducible rfl
    | assumption
    | (simp only [ite_kept, State_modPos_kept, State_addFrame_kept, State_judgeGold_kept, ite_self, *]; done)
    | intro _
    | split
    | (simp only [ite_kept, State_modPos_kept, State_addFrame_kept, State_judgeGold_kept, ite_self, *])

theorem execPipeLineDone_kept (x0 : Nat) (x1 : List (Nat × Nat)) (x2 : State) {kk} (hk : x2.kept = kk) :
    Keeps (execPipeLineDone x0 x1 x2) kk := by
  subst hk; unfold execPipeLineDone
  repeat'
    first
    | with_reducible rfl
    | assumption
    | (simp only [keeps_ite, keeps_next, State_pipeTake_kept, State_finishLine_kept, State_finishGold_kept,
        hostErr_kept, *]; done)
    | intro _
    | split
    | (with_reducible refine hostErr_kept ?_)
    | (simp only [keeps_ite, keeps_next, State_pipeTake_kept, State_finishLine_kept, State_finishGold_kept, hostErr_kept, *])

theorem execGoldenLineStart_kept (x0 : Nat) (x1 : State) {kk} (hk : x1.kept = kk) :
    Keeps (execGoldenLineStart x0 x1) kk := by
  subst hk; unfold execGoldenLineStart; simp only [keeps_ite, keeps_next, hostErr_kept, State_modPos_kept,
      State_pipeTake_kept, ite_self]

theorem State_stageLines_kept (x0 : State) (x1 : Nat) (x2 : Nat) (x3 : List (Nat × List Byte)) :
    (State.stageLines x0 x1 x2 x3).kept = x0.kept := by
  unfold State.stageLines
  repeat'
    first
    | with_reducible rfl
    | assumption
    | (simp only [State_putBytes_kept, *]; done)
    | intro _
    | (with_reducible refine (foldl_kept1 _ ?_ _ _).trans ?_)
    | split
    | (simp only [State_putBytes_kept, *])

theorem State_writeStrip_kept (x0 : State) (x1 : Nat) (x2 : Nat) (x3 : SFrame) (x4 : Nat) :
    (State.writeStrip x0 x1 x2 x3 x4).kept = x0.kept := by
  unfold State.writeStrip
  repeat'
    first
    | with_reducible rfl
    | assumption
    | (simp only [State_writeFrom_kept, State_stageLines_kept, *]; done)
    | intro _
    | (with_reducible refine (foldl_kept _ ?_ _ _).trans ?_)
    | split
    | (simp only [State_writeFrom_kept, State_stageLines_kept, *])

theorem State_writeRecords_kept (x0 : State) (x1 : Nat) (x2 : Nat) (x3 : SFrame) :
    (State.writeRecords x0 x1 x2 x3).kept = x0.kept := by
  unfold State.writeRecords; simp only [State_write_kept, ite_kept, ite_self]

theorem State_postStrip_kept (x0 : State) (x1 : Nat) (x2 : Nat) (x3 : SFrame) (x4 : Nat) :
    (State.postStrip x0 x1 x2 x3 x4).kept = x0.kept := by
  unfold State.postStrip; simp only [ite_kept, State_modCtx_kept, State_modFrame_kept, State_endSource_kept,
      State_streamEvent_kept, State_flagUpdate_kept, State_writeRecords_kept, State_writeStrip_kept, ite_self]

theorem execStripPost_kept (x0 : Nat) (x1 : Nat) (x2 : State) {kk} (hk : x2.kept = kk) :
    Keeps (execStripPost x0 x1 x2) kk := by
  subst hk; unfold execStripPost
  repeat'
    first
    | with_reducible rfl
    | assumption
    | (simp only [keeps_next, State_tidy_kept, State_postStrip_kept, *]; done)
    | intro _
    | split
    | (simp only [keeps_next, State_tidy_kept, State_postStrip_kept, *])

theorem execDropFlagRaise_kept (x0 : Nat) (x1 : Nat) (x2 : State) {kk} (hk : x2.kept = kk) :
    Keeps (execDropFlagRaise x0 x1 x2) kk := by
  subst hk; unfold execDropFlagRaise
  repeat'
    first
    | with_reducible rfl
    | assumption
    | (simp only [keeps_next, ite_kept, State_flagUpdate_kept, State_modCtx_kept, ite_self, *]; done)
    | intro _
    | split
    | (simp only [keeps_next, ite_kept, State_flagUpdate_kept, State_modCtx_kept, ite_self, *])

theorem State_linkRegs_kept (x0 : State) (x1 : Nat) :
    (State.linkRegs x0 x1).kept = x0.kept := by
  unfold State.linkRegs; simp only [State_setF_kept]

theorem execAphyLinkTrain_kept (x0 : Nat) (x1 : Nat) (x2 : Nat) (x3 : State) {kk} (hk : x3.kept = kk) :
    Keeps (execAphyLinkTrain x0 x1 x2 x3) kk := by
  subst hk; unfold execAphyLinkTrain; simp only [keeps_ite, keeps_next, hostErr_kept, State_linkRegs_kept, ite_kept,
      State_bumpF_kept, State_modIng_kept, ite_self, State_setF_kept]

theorem execAphyLinkLost_kept (x0 : Nat) (x1 : Bool) (x2 : State) {kk} (hk : x2.kept = kk) :
    Keeps (execAphyLinkLost x0 x1 x2) kk := by
  subst hk; unfold execAphyLinkLost; simp only [keeps_ite, keeps_next, hostErr_kept, State_linkRegs_kept,
      State_modIng_kept, ite_self]

theorem execIngI2cCmd_kept (x0 : Init) (x1 : Word) (x2 : State) {kk} (hk : x2.kept = kk) :
    Keeps (execIngI2cCmd x0 x1 x2) kk := by
  subst hk; unfold execIngI2cCmd; simp only [keeps_ite, keeps_next, hostErr_kept, State_viewMiss_kept, kept_mk,
      kept_eta, State_setF_kept, State_modIng_kept, ite_self]

theorem execI2cComplete_kept (x0 : Bool) (x1 : BitVec 24) (x2 : State) {kk} (hk : x2.kept = kk) :
    Keeps (execI2cComplete x0 x1 x2) kk := by
  subst hk; unfold execI2cComplete
  repeat'
    first
    | with_reducible rfl
    | assumption
    | (simp only [keeps_next, keeps_ite, State_setF_kept, State_modIng_kept, ite_kept, ite_self, *]; done)
    | intro _
    | split
    | (simp only [keeps_next, keeps_ite, State_setF_kept, State_modIng_kept, ite_kept, ite_self, *])

theorem State_ingRegs_kept (x0 : State) (x1 : Nat) :
    (State.ingRegs x0 x1).kept = x0.kept := by
  unfold State.ingRegs; simp only [State_setF_kept]

theorem State_ispRegs_kept (x0 : State) :
    (State.ispRegs x0).kept = x0.kept := by
  unfold State.ispRegs
  repeat'
    first
    | with_reducible rfl
    | assumption
    | (simp only [State_setF_kept, *]; done)
    | intro _
    | (with_reducible refine (foldl_kept _ ?_ _ _).trans ?_)
    | split
    | (simp only [State_setF_kept, *])

/-! ### Dram -/

theorem State_queueSlice_kept (x0 : State) (x1 : Nat) (x2 : Nat) (x3 : Nat) :
    (State.queueSlice x0 x1 x2 x3).kept = x0.kept := by
  unfold State.queueSlice; simp only [ite_kept, State_modCtl_kept, ite_self]

theorem State_readWord_kept (x0 : State) (x1 : Nat) (x2 : Nat) (x3 : Nat) (x4 : Ecc) :
    (State.readWord x0 x1 x2 x3 x4).1.kept = x0.kept := by
  unfold State.readWord
  repeat'
    first
    | with_reducible rfl
    | assumption
    | (simp only [State_dramCorrected_kept, State_dramLost_kept, State_dramPoison_kept, State_bumpF_kept, *]; done)
    | intro _
    | split
    | (simp only [State_dramCorrected_kept, State_dramLost_kept, State_dramPoison_kept, State_bumpF_kept, *])

theorem State_dramAt_kept {s : State} {d a} {f : Nat → Result State} (hf : ∀ k, Keeps (f k) s.kept) : Keeps (s.dramAt d a f) s.kept := by
  unfold State.dramAt; repeat' split
  all_goals first | exact hf _ | exact State_noPlace_kept (fun n => hostErr_kept s n rfl) | simp only [keeps_next]

theorem execDramRead_kept (x0 : Nat) (x1 : Nat) (x2 : List Ecc) (x3 : State) {kk} (hk : x3.kept = kk) :
    Keeps (execDramRead x0 x1 x2 x3) kk := by
  subst hk; unfold execDramRead
  repeat'
    first
    | with_reducible rfl
    | assumption
    | (simp only [keeps_next, kept_mk, kept_eta, State_readWord_kept, State_countSlots_kept, *]; done)
    | intro _
    | (with_reducible refine (foldl_kept1 _ ?_ _ _).trans ?_)
    | split
    | (with_reducible refine State_dramAt_kept ?_)
    | (simp only [keeps_next, kept_mk, kept_eta, State_readWord_kept, State_countSlots_kept, *])

theorem execDramWrite_kept (x0 : Nat) (x1 : Nat) (x2 : List Byte) (x3 : Bool) (x4 : State) {kk} (hk : x4.kept = kk) :
    Keeps (execDramWrite x0 x1 x2 x3 x4) kk := by
  subst hk; unfold execDramWrite
  repeat'
    first
    | with_reducible rfl
    | assumption
    | (simp only [keeps_next, State_write_kept, *]; done)
    | intro _
    | split
    | (with_reducible refine State_dramAt_kept ?_)
    | (simp only [keeps_next, State_write_kept, *])

theorem execDramMerge_kept (x0 : Nat) (x1 : Nat) (x2 : MergeOp) (x3 : State) {kk} (hk : x3.kept = kk) :
    Keeps (execDramMerge x0 x1 x2 x3) kk := by
  subst hk; unfold execDramMerge
  repeat'
    first
    | with_reducible rfl
    | assumption
    | (simp only [keeps_next, State_write_kept, hostErr_kept, *]; done)
    | intro _
    | split
    | (with_reducible refine hostErr_kept ?_)
    | (with_reducible refine State_dramAt_kept ?_)
    | (simp only [keeps_next, State_write_kept, hostErr_kept, *])

theorem State_pinFailed_kept (x0 : State) (x1 : Nat) (x2 : Nat) (x3 : Nat) :
    (State.pinFailed x0 x1 x2 x3).kept = x0.kept := by
  unfold State.pinFailed; simp only [ite_kept, State_raise_kept, State_setF_kept, ite_self]

theorem State_dramPatrolWord_go_kept (s : State) (d k slice j : Nat) (e : Ecc) (a key m : Nat) : (State.dramPatrolWord.go s d k slice j e a key m).kept = s.kept := by
  unfold State.dramPatrolWord.go
  repeat'
    first
    | with_reducible rfl
    | assumption
    | (simp only [State_modCtl_kept, ite_kept, State_pinFailed_kept, State_latchMem_kept, State_bumpF_kept, ite_self,
        State_queueSlice_kept, State_setPoison_kept, State_dramLost_kept, State_countPair_kept, *]; done)
    | intro _
    | split
    | (simp only [State_modCtl_kept, ite_kept, State_pinFailed_kept, State_latchMem_kept, State_bumpF_kept, ite_self,
        State_queueSlice_kept, State_setPoison_kept, State_dramLost_kept, State_countPair_kept, *])
theorem State_dramPatrolWord_kept (s : State) (d k slice n j : Nat) (e : Ecc) : (State.dramPatrolWord s d k slice n j e).kept = s.kept := by
  unfold State.dramPatrolWord
  extract_lets key m addr look
  clear_value look addr
  split
  · split
    · exact State_dramPoison_kept _ _ _ _
    · exact State_dramPatrolWord_go_kept _ _ _ _ _ _ _ _ _
  · exact State_dramPatrolWord_go_kept _ _ _ _ _ _ _ _ _


theorem execDramPatrol_kept (x0 : Nat) (x1 : Nat) (x2 : List Ecc) (x3 : State) {kk} (hk : x3.kept = kk) :
    Keeps (execDramPatrol x0 x1 x2 x3) kk := by
  subst hk; unfold execDramPatrol
  repeat'
    first
    | with_reducible rfl
    | assumption
    | (simp only [keeps_ite, keeps_next, kept_mk, kept_eta, State_modCtl_kept, State_addFrame_kept, State_ctlRegs_kept,
        ite_kept, State_bumpF_kept, ite_self, State_dramPatrolWord_kept, *]; done)
    | intro _
    | (with_reducible refine (foldl_kept _ ?_ _ _).trans ?_)
    | split
    | (simp only [keeps_ite, keeps_next, kept_mk, kept_eta, State_modCtl_kept, State_addFrame_kept, State_ctlRegs_kept,
        ite_kept, State_bumpF_kept, ite_self, State_dramPatrolWord_kept, *])

theorem State_copied_kept (x0 : State) (x1 : Nat) (x2 : Nat) (x3 : Nat) :
    (State.copied x0 x1 x2 x3).kept = x0.kept := by
  unfold State.copied
  repeat'
    first
    | with_reducible rfl
    | assumption
    | (simp only [State_setPoison_kept, State_countUpset_kept, *]; done)
    | intro _
    | (with_reducible refine (foldl_kept _ ?_ _ _).trans ?_)
    | split
    | (simp only [State_setPoison_kept, State_countUpset_kept, *])

theorem execDramRetire_kept (x0 : Nat) (x1 : Nat) (x2 : State) {kk} (hk : x2.kept = kk) :
    Keeps (execDramRetire x0 x1 x2) kk := by
  subst hk; unfold execDramRetire
  repeat'
    first
    | with_reducible rfl
    | assumption
    | (simp only [keeps_next, State_ctlRegs_kept, State_modCtl_kept, State_doubt_kept, State_setF_kept,
        State_owesRecord_kept, State_addFrame_kept, State_bumpF_kept, State_copied_kept, *]; done)
    | intro _
    | split
    | (simp only [keeps_next, State_ctlRegs_kept, State_modCtl_kept, State_doubt_kept, State_setF_kept,
        State_owesRecord_kept, State_addFrame_kept, State_bumpF_kept, State_copied_kept, *])

theorem execDramRefresh_kept (x0 : Nat) (x1 : Nat) (x2 : State) {kk} (hk : x2.kept = kk) :
    Keeps (execDramRefresh x0 x1 x2) kk := by
  subst hk; unfold execDramRefresh; simp only [keeps_ite, keeps_next, State_modCtl_kept, State_addFrame_kept,
      State_free_kept, ite_self]

theorem State_calDue_kept (x0 : State) (x1 : Nat) (x2 : Nat) :
    (State.calDue x0 x1 x2).kept = x0.kept := by
  unfold State.calDue; simp only [ite_kept, State_ctlRegs_kept, State_modCtl_kept, ite_self]

theorem execDramTempRead_kept (x0 : Nat) (x1 : Nat) (x2 : BitVec 8) (x3 : State) {kk} (hk : x3.kept = kk) :
    Keeps (execDramTempRead x0 x1 x2 x3) kk := by
  subst hk; unfold execDramTempRead; simp only [keeps_ite, keeps_next, ite_kept, State_calDue_kept, State_ctlRegs_kept,
      State_modCtl_kept, ite_self]

theorem execCalibrationDue_kept (x0 : Nat) (x1 : Nat) (x2 : State) {kk} (hk : x2.kept = kk) :
    Keeps (execCalibrationDue x0 x1 x2) kk := by
  subst hk; unfold execCalibrationDue; simp only [keeps_ite, keeps_next, State_calDue_kept, ite_self]

theorem State_calibrated_kept (x0 : State) (x1 : Nat) (x2 : Nat) (x3 : Nat) (x4 : Bool) :
    (State.calibrated x0 x1 x2 x3 x4).kept = x0.kept := by
  unfold State.calibrated; simp only [State_ctlRegs_kept, ite_kept, State_addFrame_kept, State_peakF_kept,
      State_modCtl_kept, State_pairFailed_kept, ite_self]

theorem execQuietWindowOpen_kept (x0 : Nat) (x1 : Nat) (x2 : Nat) (x3 : Bool) (x4 : State) {kk} (hk : x4.kept = kk) :
    Keeps (execQuietWindowOpen x0 x1 x2 x3 x4) kk := by
  subst hk; unfold execQuietWindowOpen
  repeat'
    first
    | with_reducible rfl
    | assumption
    | (simp only [keeps_next, keeps_ite, State_calibrated_kept, State_free_kept, ite_self, *]; done)
    | intro _
    | split
    | (simp only [keeps_next, keeps_ite, State_calibrated_kept, State_free_kept, ite_self, *])

theorem execCalibrationForced_kept (x0 : Nat) (x1 : Nat) (x2 : Nat) (x3 : Bool) (x4 : State) {kk} (hk : x4.kept = kk) :
    Keeps (execCalibrationForced x0 x1 x2 x3 x4) kk := by
  subst hk; unfold execCalibrationForced; simp only [keeps_ite, keeps_next, State_raise_kept, State_bumpF_kept,
      State_calibrated_kept, ite_self]

theorem execSelfRefreshEnter_kept (x0 : Nat) (x1 : Nat) (x2 : State) {kk} (hk : x2.kept = kk) :
    Keeps (execSelfRefreshEnter x0 x1 x2) kk := by
  subst hk; unfold execSelfRefreshEnter; simp only [keeps_ite, keeps_next, State_ctlRegs_kept, State_modCtl_kept, ite_self]

theorem State_fromMesh_kept (x0 : State) (x1 : Nat) (x2 : Nat) :
    (State.fromMesh x0 x1 x2).kept = x0.kept := by
  unfold State.fromMesh
  repeat'
    first
    | with_reducible rfl
    | assumption
    | (simp only [State_writeCode_kept, kept_mk, kept_eta, *]; done)
    | intro _
    | (with_reducible refine (foldl_kept _ ?_ _ _).trans ?_)
    | split
    | (simp only [State_writeCode_kept, kept_mk, kept_eta, *])

theorem execSelfRefreshExit_kept (x0 : Nat) (x1 : Nat) (x2 : Bool) (x3 : State) {kk} (hk : x3.kept = kk) :
    Keeps (execSelfRefreshExit x0 x1 x2 x3) kk := by
  subst hk; unfold execSelfRefreshExit; simp only [keeps_ite, keeps_next, State_ctlRegs_kept, State_fromMesh_kept,
      State_modCtl_kept, State_modDie_kept, State_pairFailed_kept, ite_self]

/-! ### Relay -/

theorem State_modRelay_kept (x0 : State) (x1 : Nat) (x2 : Relay → Relay) :
    (State.modRelay x0 x1 x2).kept = x0.kept := by
  unfold State.modRelay; simp only [State_modDie_kept]

theorem State_modPort_kept (x0 : State) (x1 : Nat) (x2 : RelayPort → RelayPort) :
    (State.modPort x0 x1 x2).kept = x0.kept := by
  unfold State.modPort; simp only [kept_mk, kept_eta]

theorem State_sendOn_kept (x0 : State) (x1 : Nat) (x2 : TxFlit) :
    (State.sendOn x0 x1 x2).kept = x0.kept := by
  unfold State.sendOn; simp only [kept_mk, kept_eta, State_bumpUnits_kept, State_modPort_kept]

theorem State_pump_kept (n : Nat) (s : State) (p : Nat) : (State.pump n s p).kept = s.kept := by
  induction n generalizing s with
  | zero => rfl
  | succ n ih =>
    unfold State.pump
    split
    · rfl
    · extract_lets q
      split
      · rw [ih, State_sendOn_kept]; simp only [State_sendOn_kept, kept_mk, kept_eta]
      · rfl

theorem State_pumpPair_kept (x0 : State) (x1 : Nat) :
    (State.pumpPair x0 x1).kept = x0.kept := by
  unfold State.pumpPair; simp only [State_pump_kept]

theorem State_sendFlits_kept (x0 : State) (x1 : Nat) (x2 : List TxFlit) :
    (State.sendFlits x0 x1 x2).kept = x0.kept := by
  unfold State.sendFlits; simp only [ite_kept, State_pumpPair_kept, kept_mk, kept_eta, ite_self]

theorem State_sendFlit_kept (x0 : State) (x1 : Nat) (x2 : Nat) (x3 : Nat) (x4 : Nat) (x5 : List Byte) (x6 : Bool) :
    (State.sendFlit x0 x1 x2 x3 x4 x5 x6).kept = x0.kept := by
  unfold State.sendFlit; simp only [State_sendFlits_kept]

theorem State_askCredit_kept (x0 : State) (x1 : Nat) (x2 : Nat) :
    (State.askCredit x0 x1 x2).kept = x0.kept := by
  unfold State.askCredit
  repeat'
    first
    | with_reducible rfl
    | assumption
    | (simp only [kept_mk, kept_eta, State_addFrame_kept, State_modRelay_kept, State_sendFlit_kept, *]; done)
    | intro _
    | split
    | (simp only [kept_mk, kept_eta, State_addFrame_kept, State_modRelay_kept, State_sendFlit_kept, *])

theorem State_relayAppend_kept (x0 : State) (x1 : Nat) (x2 : Nat) (x3 : List Byte) (x4 : Bool) :
    (State.relayAppend x0 x1 x2 x3 x4).kept = x0.kept := by
  unfold State.relayAppend; simp only [State_askCredit_kept, State_modRelay_kept, State_appendRing_kept]

theorem State_relayPop_kept (x0 : State) (x1 : Nat) (x2 : Nat) :
    (State.relayPop x0 x1 x2).kept = x0.kept := by
  unfold State.relayPop; simp only [State_askCredit_kept, State_modRelay_kept, State_popRing_kept]

theorem State_creditCame_kept (x0 : State) (x1 : Nat) (x2 : Nat) :
    (State.creditCame x0 x1 x2).kept = x0.kept := by
  unfold State.creditCame
  repeat'
    first
    | with_reducible rfl
    | assumption
    | (simp only [State_maxFrame_kept, State_modRelay_kept, *]; done)
    | intro _
    | split
    | (simp only [State_maxFrame_kept, State_modRelay_kept, *])

theorem execWatchMetNotice_kept (x0 : Nat) (x1 : Nat) (x2 : State) {kk} (hk : x2.kept = kk) :
    Keeps (execWatchMetNotice x0 x1 x2) kk := by
  subst hk; unfold execWatchMetNotice
  repeat'
    first
    | with_reducible rfl
    | assumption
    | (simp only [keeps_next, State_makeReady_kept, State_creditCame_kept, State_sendFlit_kept, *]; done)
    | intro _
    | split
    | (with_reducible exact State_takeTravel_kept (by assumption))
    | (simp only [keeps_next, State_makeReady_kept, State_creditCame_kept, State_sendFlit_kept, *])

theorem State_relayList_kept {d b n : Nat} {s s1 : State} (h : State.relayList d b n s = some s1) : s1.kept = s.kept := by
  induction n generalizing s with
  | zero => cases h
  | succ n ih =>
    unfold State.relayList at h; dsimp only at h
    repeat' (split at h)
    all_goals first | (cases h; simp only [State_modUnit_kept, State_modRelay_kept, State_relayAppend_kept,
        State_countReads_kept, State_bumpF_kept]; done) | (cases h; done) | (rw [ih h]; simp only [State_modUnit_kept,
        State_modRelay_kept, State_relayAppend_kept, State_countReads_kept, State_bumpF_kept])

theorem execRelayTask_kept (x0 : Nat) (x1 : State) {kk} (hk : x1.kept = kk) :
    Keeps (execRelayTask x0 x1) kk := by
  subst hk; unfold execRelayTask
  repeat'
    first
    | with_reducible rfl
    | assumption
    | (simp only [keeps_next, hostErr_kept, *]; done)
    | intro _
    | split
    | (with_reducible refine hostErr_kept ?_)
    | (with_reducible exact State_relayList_kept (by assumption))
    | (simp only [keeps_next, hostErr_kept, *])

theorem State_applyCommit_kept (x0 : State) (x1 : Nat) (x2 : RelayEntry) :
    (State.applyCommit x0 x1 x2).kept = x0.kept := by
  unfold State.applyCommit; simp only [ite_kept, State_doubt_kept, State_bumpF_kept, State_write_kept, ite_self]

theorem execRelayPathTake_kept (x0 : Nat) (x1 : Bool) (x2 : State) {kk} (hk : x2.kept = kk) :
    Keeps (execRelayPathTake x0 x1 x2) kk := by
  subst hk; unfold execRelayPathTake
  repeat'
    first
    | with_reducible rfl
    | assumption
    | (simp only [keeps_next, State_doubt_kept, State_bumpF_kept, State_relayPop_kept, keeps_ite, hostErr_kept,
        ite_kept, State_applyCommit_kept, State_setF_kept, State_modRelay_kept, State_modSeq_kept, ite_self, *]; done)
    | intro _
    | split
    | (with_reducible refine hostErr_kept ?_)
    | (simp only [keeps_next, State_doubt_kept, State_bumpF_kept, State_relayPop_kept, keeps_ite, hostErr_kept,
        ite_kept, State_applyCommit_kept, State_setF_kept, State_modRelay_kept, State_modSeq_kept, ite_self, *])

theorem State_forward_kept (x0 : State) (x1 : Nat) (x2 : Bool) (x3 : List Byte) :
    (State.forward x0 x1 x2 x3).kept = x0.kept := by
  unfold State.forward; simp only [ite_kept, State_unpredictable_kept, State_modRelay_kept, State_bumpF_kept,
      State_relayAppend_kept, ite_self]

theorem State_arrive_kept (x0 : State) (x1 : Nat) (x2 : Bool) (x3 : List Byte) (x4 : List (List Byte × Bool)) :
    (State.arrive x0 x1 x2 x3 x4).kept = x0.kept := by
  unfold State.arrive
  repeat'
    first
    | with_reducible rfl
    | assumption
    | (simp only [ite_kept, State_bumpF_kept, State_applyCommit_kept, ite_self, State_forward_kept,
        State_flagUpdate_kept, State_writeMarked_kept, State_write_kept, *]; done)
    | intro _
    | split
    | (simp only [ite_kept, State_bumpF_kept, State_applyCommit_kept, ite_self, State_forward_kept,
        State_flagUpdate_kept, State_writeMarked_kept, State_write_kept, *])

theorem State_pathDone_kept (x0 : State) (x1 : Nat) (x2 : Bool) (x3 : RelayEntry) :
    (State.pathDone x0 x1 x2 x3).kept = x0.kept := by
  unfold State.pathDone; simp only [State_bumpUnits_kept, State_setF_kept, State_modRelay_kept]

theorem State_deliver_kept (x0 : State) (x1 : Nat) (x2 : Bool) (x3 : Nat) {kk} (hk : x0.kept = kk) :
    Keeps (State.deliver x0 x1 x2 x3) kk := by
  subst hk; unfold State.deliver
  repeat'
    first
    | with_reducible rfl
    | assumption
    | (simp only [keeps_next, keeps_ite, ite_kept, State_countReads_kept, State_pathDone_kept, State_modRelay_kept,
        State_bumpF_kept, State_arrive_kept, ite_self, State_sendFlits_kept, kept_mk, kept_eta, *]; done)
    | intro _
    | split
    | (simp only [keeps_next, keeps_ite, ite_kept, State_countReads_kept, State_pathDone_kept, State_modRelay_kept,
        State_bumpF_kept, State_arrive_kept, ite_self, State_sendFlits_kept, kept_mk, kept_eta, *])

theorem execRelayData_kept (x0 : Nat) (x1 : Bool) (x2 : State) {kk} (hk : x2.kept = kk) :
    Keeps (execRelayData x0 x1 x2) kk := by
  subst hk; unfold execRelayData; simp only [keeps_ite, keeps_next, State_deliver_kept, ite_self]

theorem execRelayFlagEntry_kept (x0 : Nat) (x1 : Bool) (x2 : State) {kk} (hk : x2.kept = kk) :
    Keeps (execRelayFlagEntry x0 x1 x2) kk := by
  subst hk; unfold execRelayFlagEntry; simp only [keeps_ite, keeps_next, State_deliver_kept, ite_self]

theorem execRelayCommit_kept (x0 : Nat) (x1 : Bool) (x2 : State) {kk} (hk : x2.kept = kk) :
    Keeps (execRelayCommit x0 x1 x2) kk := by
  subst hk; unfold execRelayCommit; simp only [keeps_ite, keeps_next, State_deliver_kept, ite_self]

theorem execRelayResync_kept (x0 : Nat) (x1 : Bool) (x2 : State) {kk} (hk : x2.kept = kk) :
    Keeps (execRelayResync x0 x1 x2) kk := by
  subst hk; unfold execRelayResync; simp only [keeps_ite, keeps_next, State_deliver_kept, ite_self]

theorem execRelayAck_kept (x0 : Nat) (x1 : State) {kk} (hk : x1.kept = kk) :
    Keeps (execRelayAck x0 x1) kk := by
  subst hk; unfold execRelayAck
  repeat'
    first
    | with_reducible rfl
    | assumption
    | (simp only [keeps_next, State_flagUpdate_kept, State_modRelay_kept, *]; done)
    | intro _
    | split
    | (simp only [keeps_next, State_flagUpdate_kept, State_modRelay_kept, *])

theorem State_ringRegs_kept (x0 : State) :
    (State.ringRegs x0).kept = x0.kept := by
  unfold State.ringRegs
  repeat'
    first
    | with_reducible rfl
    | assumption
    | (simp only [State_setF_kept, *]; done)
    | intro _
    | (with_reducible refine (foldl_kept _ ?_ _ _).trans ?_)
    | split
    | (simp only [State_setF_kept, *])

theorem State_ringForm_kept (x0 : State) (x1 : Nat) :
    (State.ringForm x0 x1).kept = x0.kept := by
  unfold State.ringForm
  repeat'
    first
    | with_reducible rfl
    | assumption
    | (simp only [State_recovered_kept, State_ringRegs_kept, kept_mk, kept_eta, State_setF_kept, *]; done)
    | intro _
    | (with_reducible refine (foldl_kept _ ?_ _ _).trans ?_)
    | split
    | (simp only [State_recovered_kept, State_ringRegs_kept, kept_mk, kept_eta, State_setF_kept, *])

theorem State_ringTry_kept (x0 : State) :
    (State.ringTry x0).kept = x0.kept := by
  unfold State.ringTry
  repeat'
    first
    | with_reducible rfl
    | assumption
    | (simp only [State_sendFlit_kept, kept_mk, kept_eta, ite_kept, ite_self, State_ringForm_kept, *]; done)
    | intro _
    | split
    | (simp only [State_sendFlit_kept, kept_mk, kept_eta, ite_kept, ite_self, State_ringForm_kept, *])

theorem State_breakDie_kept (s : State) (d e : Nat) : (s.breakDie d e).kept = s.kept := by
  unfold State.breakDie
  extract_lets r inPath s1 s2 s3 s4
  have h1 : s1.kept = s.kept := by
    refine (foldl_kept _ ?_ _ _)
    intro s a; simp only [State_bumpF_kept, State_setRing_kept, State_modRelay_kept, kept_mk, kept_eta, ite_kept,
        State_countLocked_kept, State_putBytes_kept, ite_self, State_setF_kept]
  clear_value s1
  have h2 : s2.kept = s.kept := by simp only [s2, State_bumpF_kept, State_setRing_kept, State_modRelay_kept, kept_mk,
      kept_eta, ite_kept, State_countLocked_kept, State_putBytes_kept, ite_self, State_setF_kept, h1]
  clear_value s2
  have h3 : s3.kept = s.kept := by simp only [s3, State_bumpF_kept, State_setRing_kept, State_modRelay_kept, kept_mk,
      kept_eta, ite_kept, State_countLocked_kept, State_putBytes_kept, ite_self, State_setF_kept, h2]
  clear_value s3
  have h4 : s4.kept = s.kept := by
    show State.kept (ite _ _ _) = _
    split
    · exact h3
    · refine (foldl_kept _ ?_ _ _).trans h3
      intro s a
      repeat'
        first
        | with_reducible rfl
        | assumption
        | (simp only [State_bumpF_kept, State_setRing_kept, State_modRelay_kept, kept_mk, kept_eta, ite_kept,
            State_countLocked_kept, State_putBytes_kept, ite_self, State_setF_kept, *]; done)
        | intro _
        | (with_reducible refine (foldl_kept _ ?_ _ _).trans ?_)
        | split
        | (simp only [State_bumpF_kept, State_setRing_kept, State_modRelay_kept, kept_mk, kept_eta, ite_kept,
            State_countLocked_kept, State_putBytes_kept, ite_self, State_setF_kept, *])
  clear_value s4
  simp only [State_bumpF_kept, State_setRing_kept, State_modRelay_kept, kept_mk, kept_eta, ite_kept,
      State_countLocked_kept, State_putBytes_kept, ite_self, State_setF_kept, h4]

theorem State_breakRing_kept (x0 : State) (x1 : Nat) :
    (State.breakRing x0 x1).kept = x0.kept := by
  unfold State.breakRing
  repeat'
    first
    | with_reducible rfl
    | assumption
    | (simp only [State_ringRegs_kept, kept_mk, kept_eta, State_breakDie_kept, *]; done)
    | intro _
    | (with_reducible refine (foldl_kept _ ?_ _ _).trans ?_)
    | split
    | (simp only [State_ringRegs_kept, kept_mk, kept_eta, State_breakDie_kept, *])

theorem execRingBreak_kept (x0 : State) {kk} (hk : x0.kept = kk) :
    Keeps (execRingBreak x0) kk := by
  subst hk; unfold execRingBreak; simp only [keeps_ite, keeps_next, kept_mk, kept_eta, State_ringTry_kept,
      State_breakRing_kept, State_sendFlit_kept, ite_self]

theorem State_portRegs_kept (x0 : State) (x1 : Nat) :
    (State.portRegs x0 x1).kept = x0.kept := by
  unfold State.portRegs; simp only [State_setF_kept]

theorem State_rxDone_kept (x0 : State) (x1 : Nat) (x2 : RxEntry) :
    (State.rxDone x0 x1 x2).kept = x0.kept := by
  unfold State.rxDone; simp only [ite_kept, State_sendFlit_kept, State_arrive_kept, kept_mk, kept_eta, ite_self]

theorem State_rxHead_kept (x0 : State) (x1 : Nat) (x2 : FlitHdr) (x3 : List Byte) :
    (State.rxHead x0 x1 x2 x3).kept = x0.kept := by
  unfold State.rxHead; simp only [ite_kept, State_rxDone_kept, kept_mk, kept_eta, ite_self]

theorem State_rxData_kept (x0 : State) (x1 : Nat) (x2 : FlitHdr) (x3 : List Byte) (x4 : BitVec 16) :
    (State.rxData x0 x1 x2 x3 x4).kept = x0.kept := by
  unfold State.rxData
  repeat'
    first
    | with_reducible rfl
    | assumption
    | (simp only [ite_kept, State_rxDone_kept, kept_mk, kept_eta, ite_self, *]; done)
    | intro _
    | split
    | (simp only [ite_kept, State_rxDone_kept, kept_mk, kept_eta, ite_self, *])

theorem State_rxDelivered_kept (x0 : State) (x1 : Nat) :
    (State.rxDelivered x0 x1).kept = x0.kept := by
  unfold State.rxDelivered
  repeat'
    first
    | with_reducible rfl
    | assumption
    | (simp only [State_modRelay_kept, State_bumpF_kept, kept_mk, kept_eta, *]; done)
    | intro _
    | split
    | (simp only [State_modRelay_kept, State_bumpF_kept, kept_mk, kept_eta, *])

theorem State_rxWatch_kept (x0 : State) (x1 : Nat) (x2 : Nat) (x3 : Nat) (x4 : Nat) (x5 : Word) :
    (State.rxWatch x0 x1 x2 x3 x4 x5).kept = x0.kept := by
  unfold State.rxWatch; simp only [ite_kept, kept_mk, kept_eta, ite_self]

theorem State_rxMet_kept (x0 : State) (x1 : Nat) :
    (State.rxMet x0 x1).kept = x0.kept := by
  unfold State.rxMet
  repeat'
    first
    | with_reducible rfl
    | assumption
    | (simp only [State_creditCame_kept, kept_mk, kept_eta, *]; done)
    | intro _
    | split
    | (simp only [State_creditCame_kept, kept_mk, kept_eta, *])

theorem State_rxIdent_kept (x0 : State) (x1 : Nat) (x2 : IdentInfo) :
    (State.rxIdent x0 x1 x2).kept = x0.kept := by
  unfold State.rxIdent; simp only [State_ringTry_kept, State_modPort_kept, State_setF_kept]

theorem State_ringBit_kept (x0 : State) (x1 : Fld) (x2 : Nat) :
    (State.ringBit x0 x1 x2).kept = x0.kept := by
  unfold State.ringBit
  repeat'
    first
    | with_reducible rfl
    | assumption
    | (simp only [State_setF_kept, *]; done)
    | intro _
    | (with_reducible refine (foldl_kept _ ?_ _ _).trans ?_)
    | split
    | (simp only [State_setF_kept, *])

theorem State_rxCensus_kept (x0 : State) (x1 : List CensusEntry) (x2 : Bool) (x3 : Nat) :
    (State.rxCensus x0 x1 x2 x3).kept = x0.kept := by
  unfold State.rxCensus; simp only [ite_kept, State_sendFlit_kept, State_ringForm_kept, State_ringBit_kept, kept_mk,
      kept_eta, State_doubt_kept, ite_self, State_ringTry_kept]

theorem State_rxBreak_kept (x0 : State) (x1 : Nat) (x2 : Word) :
    (State.rxBreak x0 x1 x2).kept = x0.kept := by
  unfold State.rxBreak; simp only [ite_kept, State_ringTry_kept, State_breakRing_kept, State_sendFlit_kept, ite_self]

theorem State_rxTake_kept (x0 : State) (x1 : Instr) :
    (State.rxTake x0 x1).kept = x0.kept := by
  unfold State.rxTake
  repeat'
    first
    | with_reducible rfl
    | assumption
    | (simp only [State_rxHead_kept, State_rxData_kept, State_rxDelivered_kept, State_rxWatch_kept, State_rxMet_kept,
        State_rxCensus_kept, State_rxBreak_kept, *]; done)
    | intro _
    | split
    | (simp only [State_rxHead_kept, State_rxData_kept, State_rxDelivered_kept, State_rxWatch_kept, State_rxMet_kept,
        State_rxCensus_kept, State_rxBreak_kept, *])

theorem State_drain_kept (n : Nat) (s : State) (p : Nat) : (State.drain n s p).kept = s.kept := by
  induction n generalizing s with
  | zero => rfl
  | succ n ih =>
    unfold State.drain
    extract_lets q
    split
    · rfl
    · split
      · rfl
      · rw [ih, State_rxTake_kept]; simp only [State_rxTake_kept, kept_mk, kept_eta, State_modPort_kept]

theorem State_serve_kept (x0 : State) (x1 : Nat) :
    (State.serve x0 x1).kept = x0.kept := by
  unfold State.serve; simp only [State_pumpPair_kept, State_drain_kept]

theorem State_sendIdent_kept (x0 : State) (x1 : Nat) :
    (State.sendIdent x0 x1).kept = x0.kept := by
  unfold State.sendIdent; simp only [State_sendOn_kept]

theorem State_rxFlit_kept {s : State} {p h b} {f : State → State} (hf : ∀ t, (f t).kept = t.kept) : Keeps (s.rxFlit p h b f) s.kept := by
  unfold State.rxFlit
  repeat'
    first
    | with_reducible rfl
    | assumption
    | (simp only [keeps_next, State_serve_kept, State_modPort_kept, ite_kept, State_bumpUnits_kept,
        State_sendIdent_kept, State_portRegs_kept, ite_self, State_sendOn_kept, State_bumpF_kept, *]; done)
    | intro _
    | split
    | (simp only [keeps_next, State_serve_kept, State_modPort_kept, ite_kept, State_bumpUnits_kept,
        State_sendIdent_kept, State_portRegs_kept, ite_self, State_sendOn_kept, State_bumpF_kept, *])

theorem State_rxStore_kept (x0 : State) (x1 : Nat) (x2 : FlitHdr) (x3 : Instr) {kk} (hk : x0.kept = kk) :
    Keeps (State.rxStore x0 x1 x2 x3) kk := by
  subst hk; unfold State.rxStore
  repeat'
    first
    | with_reducible rfl
    | assumption
    | (simp only [State_modPort_kept, *]; done)
    | intro _
    | split
    | (with_reducible refine State_rxFlit_kept ?_)
    | (simp only [State_modPort_kept, *])

theorem State_rxOwn_kept {s : State} {p h} {f : State → State} (hf : ∀ t, (f t).kept = t.kept) : Keeps (s.rxOwn p h f) s.kept := by
  unfold State.rxOwn; exact State_rxFlit_kept (fun t => (hf _).trans (by simp only [State_modPort_kept]))

theorem execFlitIdle_kept (x0 : Nat) (x1 : FlitHdr) (x2 : State) {kk} (hk : x2.kept = kk) :
    Keeps (execFlitIdle x0 x1 x2) kk := by
  subst hk; unfold execFlitIdle
  repeat'
    first
    | with_reducible rfl
    | assumption
    | (simp only [keeps_next, *]; done)
    | intro _
    | split
    | (with_reducible refine State_rxFlit_kept ?_)
    | (simp only [keeps_next, *])

theorem execFlitHead_kept (x0 : Nat) (x1 : FlitHdr) (x2 : List Byte) (x3 : State) {kk} (hk : x3.kept = kk) :
    Keeps (execFlitHead x0 x1 x2 x3) kk := by
  subst hk; unfold execFlitHead; simp only [keeps_ite, keeps_next, State_rxStore_kept, ite_self]

theorem execFlitData_kept (x0 : Nat) (x1 : FlitHdr) (x2 : List Byte) (x3 : BitVec 16) (x4 : State) {kk} (hk : x4.kept = kk) :
    Keeps (execFlitData x0 x1 x2 x3 x4) kk := by
  subst hk; unfold execFlitData; simp only [keeps_ite, keeps_next, State_rxStore_kept, ite_self]

theorem execFlitDelivered_kept (x0 : Nat) (x1 : FlitHdr) (x2 : State) {kk} (hk : x2.kept = kk) :
    Keeps (execFlitDelivered x0 x1 x2) kk := by
  subst hk; unfold execFlitDelivered; simp only [keeps_ite, keeps_next, State_rxStore_kept, ite_self]

theorem execFlitWatch_kept (x0 : Nat) (x1 : FlitHdr) (x2 : Nat) (x3 : Nat) (x4 : Word) (x5 : State) {kk} (hk : x5.kept = kk) :
    Keeps (execFlitWatch x0 x1 x2 x3 x4 x5) kk := by
  subst hk; unfold execFlitWatch; simp only [keeps_ite, keeps_next, State_rxStore_kept, ite_self]

theorem execFlitMet_kept (x0 : Nat) (x1 : FlitHdr) (x2 : State) {kk} (hk : x2.kept = kk) :
    Keeps (execFlitMet x0 x1 x2) kk := by
  subst hk; unfold execFlitMet; simp only [keeps_ite, keeps_next, State_rxStore_kept, ite_self]

theorem execFlitNak_kept (x0 : Nat) (x1 : FlitHdr) (x2 : State) {kk} (hk : x2.kept = kk) : Keeps (execFlitNak x0 x1 x2) kk := by
  subst hk; unfold execFlitNak
  exact keeps_if ((keeps_next _ _).mpr rfl) (State_rxOwn_kept fun t => by simp only [keeps_next, kept_mk, kept_eta,
      State_bumpUnits_kept, State_bumpF_kept])

theorem execFlitIdent_kept (x0 : Nat) (x1 : FlitHdr) (x2 : IdentInfo) (x3 : State) {kk} (hk : x3.kept = kk) : Keeps (execFlitIdent x0 x1 x2 x3) kk := by
  subst hk; unfold execFlitIdent
  exact keeps_if ((keeps_next _ _).mpr rfl) (State_rxOwn_kept fun t => State_rxIdent_kept _ _ _)

theorem execFlitCensus_kept (x0 : Nat) (x1 : FlitHdr) (x2 : List CensusEntry) (x3 : Bool) (x4 : State) {kk} (hk : x4.kept = kk) :
    Keeps (execFlitCensus x0 x1 x2 x3 x4) kk := by
  subst hk; unfold execFlitCensus; simp only [keeps_ite, keeps_next, State_rxStore_kept, ite_self]

theorem execFlitBreak_kept (x0 : Nat) (x1 : FlitHdr) (x2 : Word) (x3 : State) {kk} (hk : x3.kept = kk) :
    Keeps (execFlitBreak x0 x1 x2 x3) kk := by
  subst hk; unfold execFlitBreak; simp only [keeps_ite, keeps_next, State_rxStore_kept, ite_self]

theorem execForwardRetry_kept (x0 : Nat) (x1 : Bool) (x2 : State) {kk} (hk : x2.kept = kk) :
    Keeps (execForwardRetry x0 x1 x2) kk := by
  subst hk; unfold execForwardRetry
  repeat'
    first
    | with_reducible rfl
    | assumption
    | (simp only [keeps_next, keeps_ite, State_serve_kept, State_relayAppend_kept, State_modRelay_kept, ite_self, *]; done)
    | intro _
    | split
    | (simp only [keeps_next, keeps_ite, State_serve_kept, State_relayAppend_kept, State_modRelay_kept, ite_self, *])

theorem execCensusTimeout_kept (x0 : State) {kk} (hk : x0.kept = kk) :
    Keeps (execCensusTimeout x0) kk := by
  subst hk; unfold execCensusTimeout
  repeat'
    first
    | with_reducible rfl
    | assumption
    | (simp only [keeps_next, keeps_ite, State_doubt_kept, State_ringBit_kept, kept_mk, kept_eta, ite_self, *]; done)
    | intro _
    | split
    | (simp only [keeps_next, keeps_ite, State_doubt_kept, State_ringBit_kept, kept_mk, kept_eta, ite_self, *])

theorem State_portLost_kept (x0 : State) (x1 : Nat) :
    (State.portLost x0 x1).kept = x0.kept := by
  unfold State.portLost; simp only [ite_kept, State_doubt_kept, kept_mk, kept_eta, State_pumpPair_kept,
      State_raise_kept, State_portRegs_kept, State_modPort_kept, ite_self]

theorem execRelayLaneFail_kept (x0 : Nat) (x1 : Nat) (x2 : State) {kk} (hk : x2.kept = kk) :
    Keeps (execRelayLaneFail x0 x1 x2) kk := by
  subst hk; unfold execRelayLaneFail; simp only [keeps_ite, keeps_next, State_portLost_kept, State_bumpF_kept,
      State_modPort_kept, State_raise_kept, State_portRegs_kept, ite_self]

theorem execRelayPortSilent_kept (x0 : Nat) (x1 : State) {kk} (hk : x1.kept = kk) :
    Keeps (execRelayPortSilent x0 x1) kk := by
  subst hk; unfold execRelayPortSilent; simp only [keeps_ite, keeps_next, State_portRegs_kept, State_bumpF_kept,
      State_modPort_kept, ite_self]

theorem execRelayPortTrainTimeout_kept (x0 : Nat) (x1 : State) {kk} (hk : x1.kept = kk) :
    Keeps (execRelayPortTrainTimeout x0 x1) kk := by
  subst hk; unfold execRelayPortTrainTimeout
  repeat'
    first
    | with_reducible rfl
    | assumption
    | (simp only [keeps_next, keeps_ite, State_portLost_kept, ite_self, *]; done)
    | intro _
    | split
    | (simp only [keeps_next, keeps_ite, State_portLost_kept, ite_self, *])

/-! ### Scratchpad -/

theorem execRemoteRequest_kept (x0 : Nat) (x1 : Nat) (x2 : RemoteReq) (x3 : State) {kk} (hk : x3.kept = kk) :
    Keeps (execRemoteRequest x0 x1 x2 x3) kk := by
  subst hk; unfold execRemoteRequest; simp only [keeps_ite, hostErr_kept, keeps_next, State_modCore_kept, ite_self]

theorem State_remoteDo_kept (x0 : State) (x1 : Nat) (x2 : Nat) (x3 : RemoteItem) :
    (State.remoteDo x0 x1 x2 x3).kept = x0.kept := by
  unfold State.remoteDo
  repeat'
    first
    | with_reducible rfl
    | assumption
    | (simp only [kept_mk, kept_eta, State_write_kept, State_countUpsets_kept, *]; done)
    | intro _
    | (with_reducible refine (foldl_kept _ ?_ _ _).trans ?_)
    | split
    | (simp only [kept_mk, kept_eta, State_write_kept, State_countUpsets_kept, *])

theorem execRemoteAccess_kept (x0 : Nat) (x1 : Nat) (x2 : State) {kk} (hk : x2.kept = kk) :
    Keeps (execRemoteAccess x0 x1 x2) kk := by
  subst hk; unfold execRemoteAccess
  repeat'
    first
    | with_reducible rfl
    | assumption
    | (simp only [keeps_next, State_maxFrame_kept, State_addFrame_kept, State_modCore_kept, State_remoteDo_kept, *]; done)
    | intro _
    | split
    | (simp only [keeps_next, State_maxFrame_kept, State_addFrame_kept, State_modCore_kept, State_remoteDo_kept, *])

theorem State_spdPatrolWord_kept (x0 : State) (x1 : Nat) (x2 : Nat) (x3 : Nat) (x4 : Nat) (x5 : Nat) (x6 : Ecc) :
    (State.spdPatrolWord x0 x1 x2 x3 x4 x5 x6).kept = x0.kept := by
  unfold State.spdPatrolWord
  repeat'
    first
    | with_reducible rfl
    | assumption
    | (simp only [State_modCore_kept, State_latchSpd_kept, State_bumpF_kept, State_setPoison_kept, *]; done)
    | intro _
    | split
    | (simp only [State_modCore_kept, State_latchSpd_kept, State_bumpF_kept, State_setPoison_kept, *])

theorem State_scrubRow_kept (x0 : State) (x1 : Nat) :
    (State.scrubRow x0 x1).kept = x0.kept := by
  unfold State.scrubRow
  repeat'
    first
    | with_reducible rfl
    | assumption
    | (simp only [ite_kept, kept_mk, kept_eta, ite_self, *]; done)
    | intro _
    | (with_reducible refine (foldl_kept _ ?_ _ _).trans ?_)
    | split
    | (simp only [ite_kept, kept_mk, kept_eta, ite_self, *])

theorem State_spdPatrolBank_kept (x0 : State) (x1 : Nat) (x2 : Nat) (x3 : Nat) (x4 : Nat) (x5 : Option Nat) (x6 : List Ecc) :
    (State.spdPatrolBank x0 x1 x2 x3 x4 x5 x6).kept = x0.kept := by
  unfold State.spdPatrolBank
  repeat'
    first
    | with_reducible rfl
    | assumption
    | (simp only [State_scrubRow_kept, State_modCore_kept, State_spdPatrolWord_kept, *]; done)
    | intro _
    | (with_reducible refine (foldl_kept _ ?_ _ _).trans ?_)
    | split
    | (simp only [State_scrubRow_kept, State_modCore_kept, State_spdPatrolWord_kept, *])

theorem State_storePatrol_kept (x0 : State) (x1 : Nat) (x2 : Nat) (x3 : List Ecc) :
    (State.storePatrol x0 x1 x2 x3).kept = x0.kept := by
  unfold State.storePatrol
  repeat'
    first
    | with_reducible rfl
    | assumption
    | (simp only [State_bumpF_kept, *]; done)
    | intro _
    | (with_reducible refine (foldl_kept _ ?_ _ _).trans ?_)
    | split
    | (simp only [State_bumpF_kept, *])

theorem execSpdPatrol_kept (x0 : Nat) (x1 : Nat) (x2 : List Ecc) (x3 : State) {kk} (hk : x3.kept = kk) :
    Keeps (execSpdPatrol x0 x1 x2 x3) kk := by
  subst hk; unfold execSpdPatrol
  repeat'
    first
    | with_reducible rfl
    | assumption
    | (simp only [keeps_ite, keeps_next, ite_kept, State_bumpF_kept, State_setF_kept, State_storePatrol_kept, ite_self,
        State_spdPatrolBank_kept, State_modCore_kept, *]; done)
    | intro _
    | (with_reducible refine (foldl_kept _ ?_ _ _).trans ?_)
    | split
    | (simp only [keeps_ite, keeps_next, ite_kept, State_bumpF_kept, State_setF_kept, State_storePatrol_kept, ite_self,
        State_spdPatrolBank_kept, State_modCore_kept, *])

theorem State_cmnPatrolWord_kept (x0 : State) (x1 : Nat) (x2 : Nat) (x3 : Nat) (x4 : Nat) (x5 : Ecc) :
    (State.cmnPatrolWord x0 x1 x2 x3 x4 x5).kept = x0.kept := by
  unfold State.cmnPatrolWord
  repeat'
    first
    | with_reducible rfl
    | assumption
    | (simp only [State_modDie_kept, State_latchCmn_kept, State_bumpF_kept, State_setPoison_kept, *]; done)
    | intro _
    | split
    | (simp only [State_modDie_kept, State_latchCmn_kept, State_bumpF_kept, State_setPoison_kept, *])

theorem State_cmnPatrolBank_kept (x0 : State) (x1 : Nat) (x2 : Nat) (x3 : Nat) (x4 : List Ecc) :
    (State.cmnPatrolBank x0 x1 x2 x3 x4).kept = x0.kept := by
  unfold State.cmnPatrolBank
  repeat'
    first
    | with_reducible rfl
    | assumption
    | (simp only [ite_kept, State_scrubRow_kept, State_modDie_kept, ite_self, State_cmnPatrolWord_kept, *]; done)
    | intro _
    | (with_reducible refine (foldl_kept _ ?_ _ _).trans ?_)
    | split
    | (simp only [ite_kept, State_scrubRow_kept, State_modDie_kept, ite_self, State_cmnPatrolWord_kept, *])

theorem execCmnPatrol_kept (x0 : Nat) (x1 : Nat) (x2 : List Ecc) (x3 : State) {kk} (hk : x3.kept = kk) :
    Keeps (execCmnPatrol x0 x1 x2 x3) kk := by
  subst hk; unfold execCmnPatrol; simp only [keeps_ite, keeps_next, ite_kept, State_bumpF_kept, State_setF_kept,
      State_modDie_kept, State_addFrame_kept, State_cmnPatrolBank_kept, ite_self]

theorem State_copyRow_kept (x0 : State) (x1 : Nat) :
    (State.copyRow x0 x1).kept = x0.kept := by
  unfold State.copyRow
  repeat'
    first
    | with_reducible rfl
    | assumption
    | (simp only [ite_kept, State_setPoison_kept, ite_self, State_scrubRow_kept, *]; done)
    | intro _
    | (with_reducible refine (foldl_kept _ ?_ _ _).trans ?_)
    | split
    | (simp only [ite_kept, State_setPoison_kept, ite_self, State_scrubRow_kept, *])

theorem State_repairCoreRow_kept (x0 : State) (x1 : Nat) (x2 : Nat) (x3 : Nat) (x4 : Nat) :
    (State.repairCoreRow x0 x1 x2 x3 x4).1.kept = x0.kept := by
  unfold State.repairCoreRow
  repeat'
    first
    | with_reducible rfl
    | assumption
    | (simp only [State_modCore_kept, ite_kept, State_owesRecord_kept, State_copyRow_kept, ite_self, *]; done)
    | intro _
    | split
    | (simp only [State_modCore_kept, ite_kept, State_owesRecord_kept, State_copyRow_kept, ite_self, *])

theorem State_repairCmnRow_kept (x0 : State) (x1 : Nat) (x2 : Nat) (x3 : Nat) :
    (State.repairCmnRow x0 x1 x2 x3).1.kept = x0.kept := by
  unfold State.repairCmnRow
  repeat'
    first
    | with_reducible rfl
    | assumption
    | (simp only [State_setF_kept, State_modDie_kept, ite_kept, State_copyRow_kept, State_owesRecord_kept, ite_self,
        *]; done)
    | intro _
    | split
    | (simp only [State_setF_kept, State_modDie_kept, ite_kept, State_copyRow_kept, State_owesRecord_kept, ite_self, *])

theorem State_cmnExhausted_kept (x0 : State) (x1 : Nat) (x2 : Nat) :
    (State.cmnExhausted x0 x1 x2).kept = x0.kept := by
  unfold State.cmnExhausted; simp only [ite_kept, State_doubt_kept, State_setF_kept, ite_self]

theorem State_repairTrackRow_kept (x0 : State) (x1 : Nat) (x2 : Nat) :
    (State.repairTrackRow x0 x1 x2).kept = x0.kept := by
  unfold State.repairTrackRow
  repeat'
    first
    | with_reducible rfl
    | assumption
    | (simp only [State_owesRecord_kept, State_modDie_kept, *]; done)
    | intro _
    | split
    | (simp only [State_owesRecord_kept, State_modDie_kept, *])

theorem execRestartTaggedAccess_kept (x0 : Nat) (x1 : Nat) (x2 : Option (List Byte)) (x3 : State) {kk} (hk : x3.kept = kk) :
    Keeps (execRestartTaggedAccess x0 x1 x2 x3) kk := by
  subst hk; unfold execRestartTaggedAccess
  repeat'
    first
    | with_reducible rfl
    | assumption
    | (simp only [keeps_next, kept_mk, kept_eta, State_noPlace_kept (fun n => hostErr_kept x3 n rfl), *]; done)
    | intro _
    | split
    | (simp only [keeps_next, kept_mk, kept_eta, State_noPlace_kept (fun n => hostErr_kept x3 n rfl), *])

end Sys2Proof.Machine
end

