-- ==== Sys2Proof/Laws/KeptModule.lean ====
section
/-! SUPPORT. No operation or command here changes the queue, the part or OTP: starts, the Strainer, Ethernet, the frame root, restarts, self-test and DMA. -/

namespace Sys2Proof.Machine

open Sys2Proof

set_option linter.unusedSimpArgs false
set_option linter.unusedVariables false

/-! ### Boot -/

theorem State_secRegs_kept (x0 : State) :
    (State.secRegs x0).kept = x0.kept := by
  unfold State.secRegs; simp only [State_setF_kept]

theorem State_idAndOtp_kept (x0 : State) :
    (State.idAndOtp x0).kept = x0.kept := by
  unfold State.idAndOtp
  repeat'
    first
    | with_reducible rfl
    | assumption
    | (simp only [State_secRegs_kept, State_setF_kept, kept_mk, kept_eta, *]; done)
    | intro _
    | (with_reducible refine (foldl_kept _ ?_ _ _).trans ?_)
    | split
    | (simp only [State_secRegs_kept, State_setF_kept, kept_mk, kept_eta, *])

theorem State_mainReset_kept (x0 : State) (x1 : Bool) :
    (State.mainReset x0 x1).kept = x0.kept := by
  unfold State.mainReset; simp only [State_setF_kept, State_idAndOtp_kept, kept_mk, kept_eta]

theorem State_coldBegin_kept (x0 : State) (x1 : Bool) :
    (State.coldBegin x0 x1).kept = x0.kept := by
  unfold State.coldBegin
  repeat'
    first
    | with_reducible rfl
    | assumption
    | (simp only [State_setF_kept, kept_mk, kept_eta, State_flashWrite_kept, State_mainReset_kept, *]; done)
    | intro _
    | (with_reducible refine (foldl_kept _ ?_ _ _).trans ?_)
    | split
    | (simp only [State_setF_kept, kept_mk, kept_eta, State_flashWrite_kept, State_mainReset_kept, *])

theorem execPowerGood_kept (x0 : BitVec 4) (x1 : State) {kk} (hk : x1.kept = kk) :
    Keeps (execPowerGood x0 x1) kk := by
  subst hk; unfold execPowerGood; simp only [keeps_ite, keeps_next, State_setF_kept, State_coldBegin_kept, kept_mk,
      kept_eta, State_free_kept, ite_self]

theorem execRootPllLock_kept (x0 : State) {kk} (hk : x0.kept = kk) :
    Keeps (execRootPllLock x0) kk := by
  subst hk; unfold execRootPllLock
  repeat'
    first
    | with_reducible rfl
    | assumption
    | (simp only [keeps_next, kept_mk, kept_eta, State_setF_kept, *]; done)
    | intro _
    | (with_reducible refine (foldl_kept _ ?_ _ _).trans ?_)
    | split
    | (simp only [keeps_next, kept_mk, kept_eta, State_setF_kept, *])

theorem State_startHeld_kept (x0 : State) :
    (State.startHeld x0).kept = x0.kept := by
  unfold State.startHeld; simp only [State_fault_kept, kept_mk, kept_eta]

theorem State_step3_kept (x0 : State) :
    (State.step3 x0).kept = x0.kept := by
  unfold State.step3; simp only [ite_kept, kept_mk, kept_eta, ite_self]

theorem State_hubOwes_kept (x0 : State) (x1 : Nat) (x2 : Nat) :
    (State.hubOwes x0 x1 x2).kept = x0.kept := by
  unfold State.hubOwes; simp only [kept_mk, kept_eta]

theorem State_pipeOff_kept (x0 : State) (x1 : Nat) :
    (State.pipeOff x0 x1).kept = x0.kept := by
  unfold State.pipeOff; simp only [ite_kept, State_setF_kept, kept_mk, kept_eta, ite_self]

theorem execHubSelftestDone_kept (x0 : List Nat) (x1 : State) {kk} (hk : x1.kept = kk) :
    Keeps (execHubSelftestDone x0 x1) kk := by
  subst hk; unfold execHubSelftestDone
  repeat'
    first
    | with_reducible rfl
    | assumption
    | (simp only [keeps_next, State_step3_kept, kept_mk, kept_eta, ite_kept, State_hubOwes_kept, State_pipeOff_kept,
        ite_self, State_startHeld_kept, *]; done)
    | intro _
    | (with_reducible refine (foldl_kept _ ?_ _ _).trans ?_)
    | split
    | (simp only [keeps_next, State_step3_kept, kept_mk, kept_eta, ite_kept, State_hubOwes_kept, State_pipeOff_kept,
        ite_self, State_startHeld_kept, *])

theorem State_cosyReport_kept (x0 : State) :
    (State.cosyReport x0).kept = x0.kept := by
  unfold State.cosyReport; simp only [ite_kept, State_step3_kept, kept_mk, kept_eta, State_startHeld_kept, ite_self,
      State_doubt_kept]

theorem execCosyLinkTrain_kept (x0 : State) {kk} (hk : x0.kept = kk) :
    Keeps (execCosyLinkTrain x0) kk := by
  subst hk; unfold execCosyLinkTrain; simp only [keeps_ite, keeps_next, State_cosyReport_kept, kept_mk, kept_eta,
      State_setLink_kept, ite_self]

theorem execCosySelftestReport_kept (x0 : State) {kk} (hk : x0.kept = kk) :
    Keeps (execCosySelftestReport x0) kk := by
  subst hk; unfold execCosySelftestReport; simp only [keeps_ite, keeps_next, State_cosyReport_kept, ite_self]

theorem execCosyResultTimeout_kept (x0 : State) {kk} (hk : x0.kept = kk) :
    Keeps (execCosyResultTimeout x0) kk := by
  subst hk; unfold execCosyResultTimeout; simp only [keeps_ite, keeps_next, State_step3_kept, kept_mk, kept_eta, ite_self]

theorem execLoaderRunning_kept (x0 : State) {kk} (hk : x0.kept = kk) :
    Keeps (execLoaderRunning x0) kk := by
  subst hk; unfold execLoaderRunning; simp only [keeps_ite, keeps_next, State_setF_kept, kept_mk, kept_eta, ite_self]

theorem State_slotRegs_kept (x0 : State) :
    (State.slotRegs x0).kept = x0.kept := by
  unfold State.slotRegs; simp only [State_setF_kept]

theorem State_setRecord_kept (x0 : State) (x1 : Bool) (x2 : Option Bool) :
    (State.setRecord x0 x1 x2).kept = x0.kept := by
  unfold State.setRecord; simp only [State_slotRegs_kept, State_flashWrite_kept]

theorem State_slotFails_kept (x0 : State) (x1 : Bool) (x2 : Nat) :
    (State.slotFails x0 x1 x2).kept = x0.kept := by
  unfold State.slotFails; simp only [ite_kept, State_setRecord_kept, State_setF_kept, kept_mk, kept_eta,
      State_raise_kept, ite_self]

theorem State_hold_kept (x0 : State) :
    (State.hold x0).kept = x0.kept := by
  unfold State.hold; simp only [State_fault_kept, State_setF_kept, kept_mk, kept_eta]

theorem State_trySlots_kept (l : List Bool) (s : State) : (State.trySlots l s).kept = s.kept := by
  induction l generalizing s with
  | nil => unfold State.trySlots; exact State_hold_kept _
  | cons b l ih =>
    unfold State.trySlots
    extract_lets m src s1 s2 cause
    have h1 : s1.kept = s.kept := by simp only [s1, State_hold_kept, State_setF_kept, kept_mk, kept_eta,
        State_slotFails_kept]
    clear_value s1
    have h2 : s2.kept = s.kept := by simp only [s2, State_hold_kept, State_setF_kept, kept_mk, kept_eta,
        State_slotFails_kept, h1]
    clear_value s2
    split
    · simp only [State_hold_kept, State_setF_kept, kept_mk, kept_eta, State_slotFails_kept, h2]
    · rw [ih, State_slotFails_kept, h2]

theorem State_applyRepair_kept (x0 : State) (x1 : List Byte) :
    (State.applyRepair x0 x1).1.kept = x0.kept := by
  unfold State.applyRepair
  repeat'
    first
    | with_reducible rfl
    | assumption
    | (simp only [State_modCore_kept, State_modDie_kept, State_modCtl_kept, State_retiredBit_kept, State_modUnit_kept,
        State_pipeOff_kept, kept_mk, kept_eta, *]; done)
    | intro _
    | split
    | (simp only [State_modCore_kept, State_modDie_kept, State_modCtl_kept, State_retiredBit_kept, State_modUnit_kept,
        State_pipeOff_kept, kept_mk, kept_eta, *])

theorem State_applyRepairs_kept (x0 : State) :
    (State.applyRepairs x0).kept = x0.kept := by
  unfold State.applyRepairs
  repeat'
    first
    | with_reducible rfl
    | assumption
    | (simp only [ite_kept, State_bumpF_kept, State_applyRepair_kept, ite_self, *]; done)
    | intro _
    | (with_reducible refine (foldl_kept _ ?_ _ _).trans ?_)
    | split
    | (simp only [ite_kept, State_bumpF_kept, State_applyRepair_kept, ite_self, *])

theorem State_resumeNumbers_kept (x0 : State) :
    (State.resumeNumbers x0).kept = x0.kept := by
  unfold State.resumeNumbers
  repeat'
    first
    | with_reducible rfl
    | assumption
    | (simp only [State_setF_kept, kept_mk, kept_eta, State_modStream_kept, State_flashWrite_kept, *]; done)
    | intro _
    | (with_reducible refine (foldl_kept _ ?_ _ _).trans ?_)
    | split
    | (simp only [State_setF_kept, kept_mk, kept_eta, State_modStream_kept, State_flashWrite_kept, *])

theorem State_runScripts_kept (x0 : State) (x1 : List (List (Option (BitVec 24)))) :
    (State.runScripts x0 x1).kept = x0.kept := by
  unfold State.runScripts
  repeat'
    first
    | with_reducible rfl
    | assumption
    | (simp only [ite_kept, kept_mk, kept_eta, ite_self, *]; done)
    | intro _
    | (with_reducible refine (foldl_kept _ ?_ _ _).trans ?_)
    | split
    | (simp only [ite_kept, kept_mk, kept_eta, ite_self, *])

theorem execUfsLinkUp_kept (x0 : Bool) (x1 : Bool) (x2 : List (List (Option (BitVec 24)))) (x3 : Bool) (x4 : State) {kk} (hk : x4.kept = kk) :
    Keeps (execUfsLinkUp x0 x1 x2 x3 x4) kk := by
  subst hk; unfold execUfsLinkUp; simp only [keeps_ite, keeps_next, State_fault_kept, ite_kept, State_raise_kept,
      State_secRegs_kept, kept_mk, kept_eta, State_slotRegs_kept, State_applyRepairs_kept, State_resumeNumbers_kept,
      ite_self, State_runScripts_kept, State_trySlots_kept]

theorem State_dieFails_kept (x0 : State) (x1 : Nat) :
    (State.dieFails x0 x1).kept = x0.kept := by
  unfold State.dieFails; simp only [State_doubt_kept, State_modDie_kept]

theorem State_startFault_kept (x0 : State) (x1 : Nat) (x2 : StartFault) :
    (State.startFault x0 x1 x2).1.kept = x0.kept := by
  unfold State.startFault
  repeat'
    first
    | with_reducible rfl
    | assumption
    | (simp only [State_repairCoreRow_kept, ite_kept, State_repairCmnRow_kept, State_cmnExhausted_kept, ite_self,
        State_repairTrackRow_kept, *]; done)
    | intro _
    | split
    | (simp only [State_repairCoreRow_kept, ite_kept, State_repairCmnRow_kept, State_cmnExhausted_kept, ite_self,
        State_repairTrackRow_kept, *])

theorem State_selftested_kept (x0 : State) (x1 : Nat) (x2 : List StartFault) :
    (State.selftested x0 x1 x2).kept = x0.kept := by
  unfold State.selftested
  repeat'
    first
    | with_reducible rfl
    | assumption
    | (simp only [ite_kept, State_dieFails_kept, State_unitRegs_kept, State_startUnits_kept, ite_self,
        State_owesRecord_kept, State_retiredBit_kept, State_startFault_kept, *]; done)
    | intro _
    | (with_reducible refine (foldl_kept _ ?_ _ _).trans ?_)
    | (with_reducible refine (foldl_kept1 _ ?_ _ _).trans ?_)
    | split
    | (with_reducible refine kept_fst (by assumption) ?_)
    | (simp only [ite_kept, State_dieFails_kept, State_unitRegs_kept, State_startUnits_kept, ite_self,
        State_owesRecord_kept, State_retiredBit_kept, State_startFault_kept, *])

theorem execCdieSelftestDone_kept (x0 : Nat) (x1 : List StartFault) (x2 : State) {kk} (hk : x2.kept = kk) :
    Keeps (execCdieSelftestDone x0 x1 x2) kk := by
  subst hk; unfold execCdieSelftestDone
  repeat'
    first
    | with_reducible rfl
    | assumption
    | (simp only [keeps_next, State_ctlRegs_kept, State_modCtl_kept, State_selftested_kept, kept_mk, kept_eta,
        keeps_ite, ite_self, *]; done)
    | intro _
    | (with_reducible refine (foldl_kept _ ?_ _ _).trans ?_)
    | split
    | (simp only [keeps_next, State_ctlRegs_kept, State_modCtl_kept, State_selftested_kept, kept_mk, kept_eta,
        keeps_ite, ite_self, *])

theorem State_loadBytes_kept (x0 : State) (x1 : Map Byte) (x2 : Nat) (x3 : Nat) (x4 : Nat) :
    (State.loadBytes x0 x1 x2 x3 x4).kept = x0.kept := by
  unfold State.loadBytes; simp only [kept_mk, kept_eta]

theorem State_loadGolden_kept (x0 : State) :
    (State.loadGolden x0).kept = x0.kept := by
  unfold State.loadGolden; simp only [kept_mk, kept_eta]

theorem State_lockRanges_kept (x0 : State) :
    (State.lockRanges x0).kept = x0.kept := by
  unfold State.lockRanges; simp only [kept_mk, kept_eta]

theorem execSectionHashed_kept (k : Nat) (s : State) {kk} (hk : s.kept = kk) : Keeps (execSectionHashed k s) kk := by
  subst hk; unfold execSectionHashed
  split
  · exact (keeps_next _ _).mpr rfl
  · extract_lets b m e dies fail s0 src1 s1 s2 s3 same src2 s4
    have hf : ∀ t c, t.kept = s.kept → Keeps (fail t c) s.kept := by
      intro t c h; exact (keeps_next _ _).mpr (by rw [State_trySlots_kept, State_slotFails_kept, h])
    clear_value fail
    have h0 : s0.kept = s.kept := by
      show State.kept (ite _ _ _) = _
      split
      · exact foldl_kept _ (fun _ _ => State_loadBytes_kept _ _ _ _ _) _ _
      · rfl
    clear_value s0
    split
    · exact (keeps_next _ _).mpr rfl
    · split
      · exact hf _ _ h0
      · have h1 : s1.kept = s.kept := by simp only [s1, keeps_next, State_trySlots_kept, State_slotFails_kept,
          State_loadBytes_kept, State_setF_kept, kept_mk, kept_eta, State_lockRanges_kept, State_doubt_kept,
          State_loadGolden_kept, h0]
        clear_value s1
        split
        · have h2 : s2.kept = s.kept := h1
          have h3 : s3.kept = s.kept := by
            show State.kept (ite _ _ _) = _
            split
            · exact (State_loadGolden_kept _).trans h2
            · exact h2
          clear_value s3
          exact (keeps_next _ _).mpr ((foldl_kept _ (fun _ _ => State_loadBytes_kept _ _ _ _ _) _ _).trans h3)
        · split
          · exact hf _ _ h1
          · have h2 : s4.kept = s.kept := by simp only [s4, keeps_next, State_trySlots_kept, State_slotFails_kept,
              State_loadBytes_kept, State_setF_kept, kept_mk, kept_eta, State_lockRanges_kept, State_doubt_kept,
              State_loadGolden_kept, h1]
            clear_value s4
            refine (keeps_next _ _).mpr ?_
            split
            · exact (State_doubt_kept _ _ _ _ _ _).trans h2
            · exact h2

theorem State_loadDie_kept (x0 : State) (x1 : Nat) :
    (State.loadDie x0 x1).kept = x0.kept := by
  unfold State.loadDie; simp only [State_modDie_kept]

theorem State_loadHub_kept (x0 : State) :
    (State.loadHub x0).kept = x0.kept := by
  unfold State.loadHub
  repeat'
    first
    | with_reducible rfl
    | assumption
    | (simp only [State_loadGolden_kept, kept_mk, kept_eta, *]; done)
    | intro _
    | split
    | (simp only [State_loadGolden_kept, kept_mk, kept_eta, *])

theorem State_zeroRings_kept (x0 : State) (x1 : Nat) :
    (State.zeroRings x0 x1).kept = x0.kept := by
  unfold State.zeroRings
  repeat'
    first
    | with_reducible rfl
    | assumption
    | (simp only [ite_kept, State_clearMem_kept, ite_self, *]; done)
    | intro _
    | (with_reducible refine (foldl_kept _ ?_ _ _).trans ?_)
    | split
    | (simp only [ite_kept, State_clearMem_kept, ite_self, *])

theorem State_configureDie_kept (x0 : State) (x1 : Nat) :
    (State.configureDie x0 x1).kept = x0.kept := by
  unfold State.configureDie
  repeat'
    first
    | with_reducible rfl
    | assumption
    | (simp only [State_zeroRings_kept, State_unitRegs_kept, State_setReg_kept, State_setF_kept, *]; done)
    | intro _
    | (with_reducible refine (foldl_kept _ ?_ _ _).trans ?_)
    | split
    | (simp only [State_zeroRings_kept, State_unitRegs_kept, State_setReg_kept, State_setF_kept, *])

theorem State_configurePipes_kept (x0 : State) :
    (State.configurePipes x0).kept = x0.kept := by
  unfold State.configurePipes; simp only [State_modIng_kept]

theorem execFirmwareRunning_kept (x0 : State) {kk} (hk : x0.kept = kk) :
    Keeps (execFirmwareRunning x0) kk := by
  subst hk; unfold execFirmwareRunning
  repeat'
    first
    | with_reducible rfl
    | assumption
    | (simp only [keeps_next, State_ringTry_kept, ite_kept, State_configureDie_kept, State_loadDie_kept, ite_self,
        State_configurePipes_kept, State_setF_kept, kept_mk, kept_eta, State_unpredictable_kept, *]; done)
    | intro _
    | (with_reducible refine (foldl_kept _ ?_ _ _).trans ?_)
    | split
    | (simp only [keeps_next, State_ringTry_kept, ite_kept, State_configureDie_kept, State_loadDie_kept, ite_self,
        State_configurePipes_kept, State_setF_kept, kept_mk, kept_eta, State_unpredictable_kept, *])

theorem State_burnRegs_kept (x0 : State) :
    (State.burnRegs x0).kept = x0.kept := by
  unfold State.burnRegs; simp only [State_setF_kept]

theorem State_writeMark_kept (x0 : State) :
    (State.writeMark x0).kept = x0.kept := by
  unfold State.writeMark; simp only [State_flashWrite_kept]

theorem execNumberingMark_kept (x0 : State) {kk} (hk : x0.kept = kk) :
    Keeps (execNumberingMark x0) kk := by
  subst hk; unfold execNumberingMark; simp only [keeps_ite, keeps_next, State_writeMark_kept, ite_self]

theorem execCosyPowerGood_kept (x0 : Bool) (x1 : State) {kk} (hk : x1.kept = kk) :
    Keeps (execCosyPowerGood x0 x1) kk := by
  subst hk; unfold execCosyPowerGood; simp only [keeps_next, kept_mk, kept_eta]

theorem execCosyFrame_kept (l : List CosyOut) (w : Nat) (s : State) {kk} (hk : s.kept = kk) : Keeps (execCosyFrame l w s) kk := by
  subst hk; unfold execCosyFrame
  refine keeps_if ((keeps_next _ _).mpr rfl) ?_
  split
  rename_i a t h
  replace h : t.kept = s.kept := kept_snd h (State_free_kept _)
  extract_lets
  refine (keeps_next _ _).mpr ?_
  refine (foldl_kept _ ?_ _ _).trans h
  intro s o; simp only [kept_mk, kept_eta]

theorem State_linkLost_kept (x0 : State) (x1 : DieLink) :
    (State.linkLost x0 x1).kept = x0.kept := by
  unfold State.linkLost
  repeat'
    first
    | with_reducible rfl
    | assumption
    | (simp only [State_doubt_kept, State_setLink_kept, ite_kept, kept_mk, kept_eta, ite_self, *]; done)
    | intro _
    | split
    | (simp only [State_doubt_kept, State_setLink_kept, ite_kept, kept_mk, kept_eta, ite_self, *])

theorem execLinkRetrain_kept (x0 : DieLink) (x1 : Bool) (x2 : State) {kk} (hk : x2.kept = kk) :
    Keeps (execLinkRetrain x0 x1 x2) kk := by
  subst hk; unfold execLinkRetrain; simp only [keeps_ite, keeps_next, State_raise_kept, State_setLink_kept,
      State_linkLost_kept, ite_self]

/-! ### Strainer -/

theorem State_refuseMessage_kept (x0 : State) (x1 : Nat) (x2 : Word) :
    (State.refuseMessage x0 x1 x2).kept = x0.kept := by
  unfold State.refuseMessage; simp only [State_latch_kept, State_bumpF_kept]

theorem State_acceptMain_kept (x0 : State) (x1 : Nat) (x2 : Msg) :
    (State.acceptMain x0 x1 x2).kept = x0.kept := by
  unfold State.acceptMain; simp only [ite_kept, State_refuseMessage_kept, State_bumpF_kept, State_strain_kept, ite_self,
      State_modStream_kept]

theorem execOutputAccept_kept (x0 : Nat) (x1 : Nat) (x2 : Word) (x3 : List Byte) (x4 : Bool) (x5 : State) {kk} (hk : x5.kept = kk) :
    Keeps (execOutputAccept x0 x1 x2 x3 x4 x5) kk := by
  subst hk; unfold execOutputAccept
  repeat'
    first
    | with_reducible rfl
    | assumption
    | (simp only [keeps_next, keeps_ite, hostErr_kept, State_settle_kept, State_modInst_kept, ite_kept,
        State_acceptMain_kept, State_spoilMessages_kept, ite_self, *]; done)
    | intro _
    | split
    | (with_reducible refine hostErr_kept ?_)
    | (simp only [keeps_next, keeps_ite, hostErr_kept, State_settle_kept, State_modInst_kept, ite_kept,
        State_acceptMain_kept, State_spoilMessages_kept, ite_self, *])

theorem execStreamDeadline_kept (x0 : Nat) (x1 : State) {kk} (hk : x1.kept = kk) :
    Keeps (execStreamDeadline x0 x1) kk := by
  subst hk; unfold execStreamDeadline
  repeat'
    first
    | with_reducible rfl
    | assumption
    | (simp only [keeps_ite, keeps_next, State_spoilMessages_kept, State_strainMask_kept, State_expirePairs_kept, *]; done)
    | intro _
    | (with_reducible refine (foldl_kept _ ?_ _ _).trans ?_)
    | split
    | (simp only [keeps_ite, keeps_next, State_spoilMessages_kept, State_strainMask_kept, State_expirePairs_kept, *])

theorem execCosyMessage_kept (x0 : CosyMsg) (x1 : State) {kk} (hk : x1.kept = kk) :
    Keeps (execCosyMessage x0 x1) kk := by
  subst hk; unfold execCosyMessage
  repeat'
    first
    | with_reducible rfl
    | assumption
    | (simp only [keeps_next, State_strain_kept, State_modStream_kept, State_bumpF_kept, kept_mk, kept_eta,
        State_setF_kept, *]; done)
    | intro _
    | (with_reducible refine (foldl_kept _ ?_ _ _).trans ?_)
    | split
    | (simp only [keeps_next, State_strain_kept, State_modStream_kept, State_bumpF_kept, kept_mk, kept_eta,
        State_setF_kept, *])

theorem execDiversityVerdict_kept (x0 : Nat) (x1 : Word) (x2 : State) {kk} (hk : x2.kept = kk) :
    Keeps (execDiversityVerdict x0 x1 x2) kk := by
  subst hk; unfold execDiversityVerdict
  repeat'
    first
    | with_reducible rfl
    | assumption
    | (simp only [keeps_ite, keeps_next, hostErr_kept, State_strainMask_kept, ite_kept, State_latch_kept,
        State_giveVerdict_kept, ite_self, *]; done)
    | intro _
    | split
    | (with_reducible refine hostErr_kept ?_)
    | (simp only [keeps_ite, keeps_next, hostErr_kept, State_strainMask_kept, ite_kept, State_latch_kept,
        State_giveVerdict_kept, ite_self, *])

theorem State_modeRequest_kept (x0 : State) (x1 : Nat) (x2 : List Byte) :
    (State.modeRequest x0 x1 x2).kept = x0.kept := by
  unfold State.modeRequest; simp only [ite_kept, State_bumpF_kept, State_setF_kept, kept_mk, kept_eta, ite_self]

theorem execModeRequest_kept (x0 : Nat) (x1 : List Byte) (x2 : State) {kk} (hk : x2.kept = kk) :
    Keeps (execModeRequest x0 x1 x2) kk := by
  subst hk; unfold execModeRequest; simp only [keeps_ite, keeps_next, State_modeRequest_kept, ite_self]

/-! ### Tsn -/

theorem execHostPortLink_kept (x0 : Nat) (x1 : Bool) (x2 : State) {kk} (hk : x2.kept = kk) :
    Keeps (execHostPortLink x0 x1 x2) kk := by
  subst hk; unfold execHostPortLink; simp only [keeps_ite, keeps_next, kept_mk, kept_eta, State_setF_kept,
      State_bumpF_kept, ite_self]

theorem execGateCycleStart_kept (x0 : Nat) (x1 : State) {kk} (hk : x1.kept = kk) :
    Keeps (execGateCycleStart x0 x1) kk := by
  subst hk; unfold execGateCycleStart
  repeat'
    first
    | with_reducible rfl
    | assumption
    | (simp only [keeps_ite, keeps_next, ite_self, State_setF_kept, kept_mk, kept_eta, *]; done)
    | intro _
    | split
    | (simp only [keeps_ite, keeps_next, ite_self, State_setF_kept, kept_mk, kept_eta, *])

theorem State_nextFragment_kept (x0 : State) (x1 : Nat) (x2 : OutMsg) (x3 : Bool) :
    (State.nextFragment x0 x1 x2 x3).kept = x0.kept := by
  unfold State.nextFragment
  repeat'
    first
    | with_reducible rfl
    | assumption
    | (simp only [State_bumpF_kept, State_setF_kept, State_backlogReg_kept, State_modStream_kept, *]; done)
    | intro _
    | split
    | (simp only [State_bumpF_kept, State_setF_kept, State_backlogReg_kept, State_modStream_kept, *])

theorem State_fragmentOn_kept (x0 : State) (x1 : Nat) (x2 : OutMsg) (x3 : Nat) :
    (State.fragmentOn x0 x1 x2 x3).kept = x0.kept := by
  unfold State.fragmentOn; simp only [ite_kept, State_modStream_kept, State_bumpF_kept, kept_mk, kept_eta, ite_self]

theorem execFragmentSend_kept (x0 : Nat) (x1 : State) {kk} (hk : x1.kept = kk) :
    Keeps (execFragmentSend x0 x1) kk := by
  subst hk; unfold execFragmentSend
  repeat'
    first
    | with_reducible rfl
    | assumption
    | (simp only [keeps_next, keeps_ite, State_nextFragment_kept, State_raise_kept, State_fragmentOn_kept, *]; done)
    | intro _
    | (with_reducible refine (foldl_kept _ ?_ _ _).trans ?_)
    | split
    | (simp only [keeps_next, keeps_ite, State_nextFragment_kept, State_raise_kept, State_fragmentOn_kept, *])

theorem State_servoRate_kept (x0 : State) :
    (State.servoRate x0).2.kept = x0.kept := by
  unfold State.servoRate; simp only [State_free_kept]

theorem State_setSeg_kept (x0 : State) (x1 : WallSeg) :
    (State.setSeg x0 x1).kept = x0.kept := by
  unfold State.setSeg; simp only [State_setF_kept, kept_mk, kept_eta, ite_kept, State_flashWrite_kept, ite_self]

theorem execGptpSync_kept (x0 : Nat) (x1 : Int) (x2 : State) {kk} (hk : x2.kept = kk) :
    Keeps (execGptpSync x0 x1 x2) kk := by
  subst hk; unfold execGptpSync; simp only [keeps_ite, keeps_next, ite_kept, State_bumpF_kept, State_setSeg_kept,
      State_raise_kept, State_setF_kept, kept_mk, kept_eta, ite_self, State_servoRate_kept]

theorem execSyncTimeout_kept (x0 : State) {kk} (hk : x0.kept = kk) :
    Keeps (execSyncTimeout x0) kk := by
  subst hk; unfold execSyncTimeout; simp only [keeps_ite, keeps_next, State_raise_kept, State_setF_kept, kept_mk,
      kept_eta, ite_self]

theorem State_modIngStream_kept (x0 : State) (x1 : Nat) (x2 : IngStream → IngStream) :
    (State.modIngStream x0 x1 x2).kept = x0.kept := by
  unfold State.modIngStream; simp only [kept_mk, kept_eta]

theorem State_macsecFail_kept (x0 : State) (x1 : Nat) :
    (State.macsecFail x0 x1).kept = x0.kept := by
  unfold State.macsecFail; simp only [ite_kept, State_doubt_kept, kept_mk, kept_eta, ite_self]

theorem State_ringEntry_kept (x0 : State) (x1 : Nat) (x2 : Nat) (x3 : List Byte) :
    (State.ringEntry x0 x1 x2 x3).kept = x0.kept := by
  unfold State.ringEntry
  repeat'
    first
    | with_reducible rfl
    | assumption
    | (simp only [State_settle_kept, ite_kept, State_modInst_kept, ite_self, State_appendRing_kept, *]; done)
    | intro _
    | (with_reducible refine (foldl_kept _ ?_ _ _).trans ?_)
    | split
    | (simp only [State_settle_kept, ite_kept, State_modInst_kept, ite_self, State_appendRing_kept, *])

theorem State_toRing_kept (x0 : State) (x1 : Nat) (x2 : Nat) (x3 : List Byte) :
    (State.toRing x0 x1 x2 x3).1.kept = x0.kept := by
  unfold State.toRing
  repeat'
    first
    | with_reducible rfl
    | assumption
    | (simp only [ite_kept, State_bumpF_kept, ite_self, kept_mk, kept_eta, State_ringEntry_kept, *]; done)
    | intro _
    | split
    | (simp only [ite_kept, State_bumpF_kept, ite_self, kept_mk, kept_eta, State_ringEntry_kept, *])

theorem State_ingMessage_kept (x0 : State) (x1 : Nat) (x2 : Nat) (x3 : List Byte) :
    (State.ingMessage x0 x1 x2 x3).kept = x0.kept := by
  unfold State.ingMessage
  repeat'
    first
    | with_reducible rfl
    | assumption
    | (simp only [ite_kept, State_modeRequest_kept, State_bumpF_kept, ite_self, State_toRing_kept, *]; done)
    | intro _
    | (with_reducible refine (foldl_kept1 _ ?_ _ _).trans ?_)
    | split
    | (simp only [ite_kept, State_modeRequest_kept, State_bumpF_kept, ite_self, State_toRing_kept, *])

theorem State_reassemble_kept (x0 : State) (x1 : Nat) (x2 : Nat) (x3 : IngFrame) :
    (State.reassemble x0 x1 x2 x3).kept = x0.kept := by
  unfold State.reassemble
  repeat'
    first
    | with_reducible rfl
    | assumption
    | (simp only [ite_kept, State_modIngStream_kept, State_ingMessage_kept, State_bumpF_kept, *]; done)
    | intro _
    | split
    | (simp only [ite_kept, State_modIngStream_kept, State_ingMessage_kept, State_bumpF_kept, *])

theorem execIngressFrame_kept (p : Nat) (f : IngFrame) (s : State) {kk} (hk : s.kept = kk) : Keeps (execIngressFrame p f s) kk := by
  subst hk; unfold execIngressFrame
  refine keeps_if ((keeps_next _ _).mpr rfl) (keeps_if ((keeps_next _ _).mpr rfl) ?_)
  extract_lets s0 sec
  have h0 : s0.kept = s.kept := State_bumpF_kept _ _ _ _ _ _
  clear_value s0
  refine keeps_if ?_ (keeps_if ?_ (keeps_if ?_ ?_))
  · simp only [keeps_next, State_bumpF_kept, h0]
  · simp only [keeps_next, State_macsecFail_kept, State_bumpF_kept, h0]
  · simp only [keeps_next, State_macsecFail_kept, State_bumpF_kept, h0]
  · split
    · simp only [keeps_next, State_bumpF_kept, h0]
    · refine keeps_if ?_ ?_
      · simp only [keeps_next, State_bumpF_kept, h0]
      · split
        refine keeps_if ?_ ?_
        · simp only [keeps_next, State_bumpF_kept, State_modIngStream_kept, h0]
        · split
          refine keeps_if ?_ (keeps_if ?_ ?_)
          · simp only [keeps_next, State_bumpF_kept, State_modIngStream_kept, h0]
          · simp only [keeps_next, State_reassemble_kept, State_bumpF_kept, State_modIngStream_kept, h0]
          · simp only [keeps_next, State_bumpF_kept, State_modIngStream_kept, h0]

theorem execReassemblyTimeout_kept (x0 : Nat) (x1 : State) {kk} (hk : x1.kept = kk) :
    Keeps (execReassemblyTimeout x0 x1) kk := by
  subst hk; unfold execReassemblyTimeout; simp only [keeps_ite, keeps_next, State_bumpF_kept, State_modIngStream_kept,
      ite_self]

theorem execIngressHoldRetry_kept (x0 : Nat) (x1 : Nat) (x2 : State) {kk} (hk : x2.kept = kk) :
    Keeps (execIngressHoldRetry x0 x1 x2) kk := by
  subst hk; unfold execIngressHoldRetry
  repeat'
    first
    | with_reducible rfl
    | assumption
    | (simp only [keeps_next, keeps_ite, State_ringEntry_kept, kept_mk, kept_eta, ite_self, *]; done)
    | intro _
    | split
    | (simp only [keeps_next, keeps_ite, State_ringEntry_kept, kept_mk, kept_eta, ite_self, *])

theorem execCbReset_kept (x0 : Nat) (x1 : State) {kk} (hk : x1.kept = kk) :
    Keeps (execCbReset x0 x1) kk := by
  subst hk; unfold execCbReset; simp only [keeps_ite, keeps_next, State_modIngStream_kept, ite_self]

theorem State_capture_kept (x0 : State) (x1 : Nat) (x2 : Word) :
    (State.capture x0 x1 x2).kept = x0.kept := by
  unfold State.capture; simp only [kept_mk, kept_eta]

theorem execTsnWallLoRead_kept (x0 : Init) (x1 : State) {kk} (hk : x1.kept = kk) :
    Keeps (execTsnWallLoRead x0 x1) kk := by
  subst hk; unfold execTsnWallLoRead; simp only [keeps_ite, keeps_next, State_readErr_kept, State_answer_kept,
      State_capture_kept, ite_self]

theorem execTsnTimeRead_kept (x0 : Init) (x1 : State) {kk} (hk : x1.kept = kk) :
    Keeps (execTsnTimeRead x0 x1) kk := by
  subst hk; unfold execTsnTimeRead
  repeat'
    first
    | with_reducible rfl
    | assumption
    | (simp only [keeps_next, State_answer_kept, kept_mk, kept_eta, State_readErr_kept, *]; done)
    | intro _
    | split
    | (simp only [keeps_next, State_answer_kept, kept_mk, kept_eta, State_readErr_kept, *])

/-! ### FrameRoot -/

theorem State_tellSkipped_kept (x0 : State) (x1 : Nat) (x2 : Nat) (x3 : Word) (x4 : List Nat) :
    (State.tellSkipped x0 x1 x2 x3 x4).kept = x0.kept := by
  unfold State.tellSkipped
  repeat'
    first
    | with_reducible rfl
    | assumption
    | (simp only [ite_kept, State_settle_kept, ite_self, State_deliverEdge_kept, *]; done)
    | intro _
    | (with_reducible refine (foldl_kept _ ?_ _ _).trans ?_)
    | split
    | (simp only [ite_kept, State_settle_kept, ite_self, State_deliverEdge_kept, *])

theorem State_failDies_kept (x0 : State) :
    (State.failDies x0).kept = x0.kept := by
  unfold State.failDies
  repeat'
    first
    | with_reducible rfl
    | assumption
    | (simp only [ite_kept, State_dieFails_kept, ite_self, *]; done)
    | intro _
    | (with_reducible refine (foldl_kept _ ?_ _ _).trans ?_)
    | split
    | (simp only [ite_kept, State_dieFails_kept, ite_self, *])

theorem State_rootRegs_kept (x0 : State) (x1 : FrameStart) (x2 : SlotPlan) :
    (State.rootRegs x0 x1 x2).kept = x0.kept := by
  unfold State.rootRegs
  repeat'
    first
    | with_reducible rfl
    | assumption
    | (simp only [ite_kept, State_setF_kept, State_bumpF_kept, State_raise_kept, State_setPair_kept,
        State_syncRegs_kept, ite_self, *]; done)
    | intro _
    | split
    | (simp only [ite_kept, State_setF_kept, State_bumpF_kept, State_raise_kept, State_setPair_kept,
        State_syncRegs_kept, ite_self, *])

theorem State_cosyNotice_kept (x0 : State) (x1 : FrameStart) :
    (State.cosyNotice x0 x1).kept = x0.kept := by
  unfold State.cosyNotice; simp only [ite_kept, State_putBytes_kept, ite_self]

theorem State_returnStreams_kept (x0 : State) :
    (State.returnStreams x0).kept = x0.kept := by
  unfold State.returnStreams
  repeat'
    first
    | with_reducible rfl
    | assumption
    | (simp only [ite_kept, State_modStream_kept, ite_self, *]; done)
    | intro _
    | (with_reducible refine (foldl_kept _ ?_ _ _).trans ?_)
    | split
    | (simp only [ite_kept, State_modStream_kept, ite_self, *])

theorem State_modeTakesEffect_kept (x0 : State) :
    (State.modeTakesEffect x0).kept = x0.kept := by
  unfold State.modeTakesEffect
  repeat'
    first
    | with_reducible rfl
    | assumption
    | (simp only [State_setF_kept, kept_mk, kept_eta, *]; done)
    | intro _
    | split
    | (simp only [State_setF_kept, kept_mk, kept_eta, *])

theorem State_firstStart_kept (x0 : State) :
    (State.firstStart x0).kept = x0.kept := by
  unfold State.firstStart; simp only [ite_kept, State_burnRegs_kept, State_doubt_kept, State_setRecord_kept,
      State_setF_kept, kept_mk, kept_eta, ite_self]

theorem State_firstFrameReg_kept (x0 : State) (x1 : Nat) :
    (State.firstFrameReg x0 x1).kept = x0.kept := by
  unfold State.firstFrameReg; simp only [ite_kept, State_setPair_kept, kept_mk, kept_eta, ite_self]

theorem State_warmRejoins_kept (x0 : State) :
    (State.warmRejoins x0).kept = x0.kept := by
  unfold State.warmRejoins
  repeat'
    first
    | with_reducible rfl
    | assumption
    | (simp only [State_ringTry_kept, State_raise_kept, State_markStreams_kept, State_clearDoubts_kept, kept_mk,
        kept_eta, State_configureDie_kept, State_loadDie_kept, State_setLink_kept, State_modDie_kept, *]; done)
    | intro _
    | (with_reducible refine (foldl_kept _ ?_ _ _).trans ?_)
    | split
    | (simp only [State_ringTry_kept, State_raise_kept, State_markStreams_kept, State_clearDoubts_kept, kept_mk,
        kept_eta, State_configureDie_kept, State_loadDie_kept, State_setLink_kept, State_modDie_kept, *])

theorem State_startFrame_kept (x0 : State) :
    (State.startFrame x0).kept = x0.kept := by
  unfold State.startFrame
  repeat'
    first
    | with_reducible rfl
    | assumption
    | (simp only [State_strainMask_kept, State_returnStreams_kept, State_openWindow_kept, kept_mk, kept_eta, ite_kept,
        State_doubt_kept, ite_self, State_clearDoubts_kept, State_modeTakesEffect_kept, State_tellSkipped_kept,
        State_modSeq_kept, State_cosyNotice_kept, State_rootRegs_kept, State_publishFrame_kept, State_failDies_kept,
        State_warmRejoins_kept, State_firstFrameReg_kept, State_firstStart_kept, *]; done)
    | intro _
    | (with_reducible refine (foldl_kept _ ?_ _ _).trans ?_)
    | split
    | (simp only [State_strainMask_kept, State_returnStreams_kept, State_openWindow_kept, kept_mk, kept_eta, ite_kept,
        State_doubt_kept, ite_self, State_clearDoubts_kept, State_modeTakesEffect_kept, State_tellSkipped_kept,
        State_modSeq_kept, State_cosyNotice_kept, State_rootRegs_kept, State_publishFrame_kept, State_failDies_kept,
        State_warmRejoins_kept, State_firstFrameReg_kept, State_firstStart_kept, *])

theorem execFrameStart_kept (x0 : State) {kk} (hk : x0.kept = kk) :
    Keeps (execFrameStart x0) kk := by
  subst hk; unfold execFrameStart; simp only [keeps_ite, keeps_next, ite_kept, State_coldBegin_kept,
      State_startFrame_kept, ite_self]

/-! ### Restart -/

theorem State_refreshAll_kept (x0 : State) (x1 : Nat) :
    (State.refreshAll x0 x1).kept = x0.kept := by
  unfold State.refreshAll
  repeat'
    first
    | with_reducible rfl
    | assumption
    | (simp only [State_ctlRegs_kept, State_modCtl_kept, *]; done)
    | intro _
    | (with_reducible refine (foldl_kept _ ?_ _ _).trans ?_)
    | split
    | (simp only [State_ctlRegs_kept, State_modCtl_kept, *])

theorem State_refuseWatches_kept (x0 : State) (x1 : Nat) :
    (State.refuseWatches x0 x1).kept = x0.kept := by
  unfold State.refuseWatches; simp only [kept_mk, kept_eta, State_bumpF_kept]

theorem State_clearedRegs_kept (x0 : State) (x1 : Nat) :
    (State.clearedRegs x0 x1).kept = x0.kept := by
  unfold State.clearedRegs
  repeat'
    first
    | with_reducible rfl
    | assumption
    | (simp only [State_seqRegs_kept, State_dspStatus_kept, State_setF_kept, kept_mk, kept_eta, *]; done)
    | intro _
    | (with_reducible refine (foldl_kept _ ?_ _ _).trans ?_)
    | split
    | (simp only [State_seqRegs_kept, State_dspStatus_kept, State_setF_kept, kept_mk, kept_eta, *])

theorem State_resetDie_kept (x0 : State) (x1 : Nat) (x2 : Restart) :
    (State.resetDie x0 x1 x2).kept = x0.kept := by
  unfold State.resetDie
  repeat'
    first
    | with_reducible rfl
    | assumption
    | (simp only [State_bumpF_kept, State_clearedRegs_kept, State_clearMem_kept, kept_mk, kept_eta,
        State_refreshAll_kept, State_modDie_kept, State_refuseWatches_kept, *]; done)
    | intro _
    | (with_reducible refine (foldl_kept _ ?_ _ _).trans ?_)
    | split
    | (simp only [State_bumpF_kept, State_clearedRegs_kept, State_clearMem_kept, kept_mk, kept_eta,
        State_refreshAll_kept, State_modDie_kept, State_refuseWatches_kept, *])

theorem execDoubtLatch_kept (x0 : DoubtCause) (x1 : State) {kk} (hk : x1.kept = kk) :
    Keeps (execDoubtLatch x0 x1) kk := by
  subst hk; unfold execDoubtLatch; simp only [keeps_ite, keeps_next, ite_kept, State_coldBegin_kept, State_latch_kept,
      kept_mk, kept_eta, ite_self]

theorem execDieRestart_kept (x0 : Nat) (x1 : State) {kk} (hk : x1.kept = kk) :
    Keeps (execDieRestart x0 x1) kk := by
  subst hk; unfold execDieRestart
  repeat'
    first
    | with_reducible rfl
    | assumption
    | (simp only [keeps_next, State_bumpF_kept, State_setF_kept, kept_mk, kept_eta, State_tellSkipped_kept,
        State_resetDie_kept, *]; done)
    | intro _
    | (with_reducible refine (foldl_kept _ ?_ _ _).trans ?_)
    | split
    | (simp only [keeps_next, State_bumpF_kept, State_setF_kept, kept_mk, kept_eta, State_tellSkipped_kept,
        State_resetDie_kept, *])

theorem State_rejoinSources_kept (x0 : State) (x1 : Nat) (x2 : Word) :
    (State.rejoinSources x0 x1 x2).kept = x0.kept := by
  unfold State.rejoinSources
  repeat'
    first
    | with_reducible rfl
    | assumption
    | (simp only [State_modCtx_kept, State_write_kept, State_free_kept, *]; done)
    | intro _
    | (with_reducible refine (foldl_kept _ ?_ _ _).trans ?_)
    | split
    | (simp only [State_modCtx_kept, State_write_kept, State_free_kept, *])

theorem execDieRejoin_kept (d : Nat) (s : State) {kk} (hk : s.kept = kk) : Keeps (execDieRejoin d s) kk := by
  subst hk; unfold execDieRejoin
  split
  · simp only [keeps_next, State_configureDie_kept, State_loadDie_kept, State_setLink_kept, State_modDie_kept,
      State_rejoinSources_kept, State_startEffect_kept, State_markStreams_kept, State_recovered_kept, State_raise_kept,
      kept_mk, kept_eta, State_ringTry_kept, State_dieFails_kept]
  · split
    · simp only [keeps_next, State_configureDie_kept, State_loadDie_kept, State_setLink_kept, State_modDie_kept,
        State_rejoinSources_kept, State_startEffect_kept, State_markStreams_kept, State_recovered_kept,
        State_raise_kept, kept_mk, kept_eta, State_ringTry_kept, State_dieFails_kept]
    · split
      · simp only [keeps_next, State_configureDie_kept, State_loadDie_kept, State_setLink_kept, State_modDie_kept,
          State_rejoinSources_kept, State_startEffect_kept, State_markStreams_kept, State_recovered_kept,
          State_raise_kept, kept_mk, kept_eta, State_ringTry_kept, State_dieFails_kept]
      · extract_lets scope s1 s2 s3 b4 s4
        have h1 : s1.kept = s.kept := by simp only [s1, keeps_next, State_configureDie_kept, State_loadDie_kept,
            State_setLink_kept, State_modDie_kept, State_rejoinSources_kept, State_startEffect_kept,
            State_markStreams_kept, State_recovered_kept, State_raise_kept, kept_mk, kept_eta, State_ringTry_kept,
            State_dieFails_kept]
        clear_value s1
        have h2 : s2.kept = s.kept := by
          simp only [s2]; split <;> simp only [keeps_next, State_configureDie_kept, State_loadDie_kept,
              State_setLink_kept, State_modDie_kept, State_rejoinSources_kept, State_startEffect_kept,
              State_markStreams_kept, State_recovered_kept, State_raise_kept, kept_mk, kept_eta, State_ringTry_kept,
              State_dieFails_kept, h1]
        clear_value s2
        have h3 : s3.kept = s.kept := by simp only [s3, keeps_next, State_configureDie_kept, State_loadDie_kept,
            State_setLink_kept, State_modDie_kept, State_rejoinSources_kept, State_startEffect_kept,
            State_markStreams_kept, State_recovered_kept, State_raise_kept, kept_mk, kept_eta, State_ringTry_kept,
            State_dieFails_kept, h2]
        clear_value s3
        have h4 : s4.kept = s.kept := by simp only [s4, keeps_next, State_configureDie_kept, State_loadDie_kept,
            State_setLink_kept, State_modDie_kept, State_rejoinSources_kept, State_startEffect_kept,
            State_markStreams_kept, State_recovered_kept, State_raise_kept, kept_mk, kept_eta, State_ringTry_kept,
            State_dieFails_kept, h3]
        clear_value s4
        simp only [keeps_next, State_configureDie_kept, State_loadDie_kept, State_setLink_kept, State_modDie_kept,
            State_rejoinSources_kept, State_startEffect_kept, State_markStreams_kept, State_recovered_kept,
            State_raise_kept, kept_mk, kept_eta, State_ringTry_kept, State_dieFails_kept, h4]

theorem execDieRestartEscalate_kept (x0 : Nat) (x1 : State) {kk} (hk : x1.kept = kk) :
    Keeps (execDieRestartEscalate x0 x1) kk := by
  subst hk; unfold execDieRestartEscalate
  repeat'
    first
    | with_reducible rfl
    | assumption
    | (simp only [keeps_next, keeps_ite, kept_mk, kept_eta, ite_self, *]; done)
    | intro _
    | split
    | (simp only [keeps_next, keeps_ite, kept_mk, kept_eta, ite_self, *])

theorem State_giveUp_kept (x0 : State) :
    (State.giveUp x0).kept = x0.kept := by
  unfold State.giveUp; simp only [State_latch_kept, State_fault_kept, kept_mk, kept_eta]

theorem State_warmBegin_kept (x0 : State) :
    (State.warmBegin x0).kept = x0.kept := by
  unfold State.warmBegin
  repeat'
    first
    | with_reducible rfl
    | assumption
    | (simp only [ite_kept, State_giveUp_kept, State_bumpF_kept, State_setF_kept, State_resetDie_kept, ite_self,
        kept_mk, kept_eta, *]; done)
    | intro _
    | (with_reducible refine (foldl_kept _ ?_ _ _).trans ?_)
    | split
    | (simp only [ite_kept, State_giveUp_kept, State_bumpF_kept, State_setF_kept, State_resetDie_kept, ite_self,
        kept_mk, kept_eta, *])

theorem execWarmRestart_kept (x0 : State) {kk} (hk : x0.kept = kk) :
    Keeps (execWarmRestart x0) kk := by
  subst hk; unfold execWarmRestart; simp only [keeps_ite, keeps_next, State_warmBegin_kept, ite_self]

theorem execWarmRejoin_kept (x0 : State) {kk} (hk : x0.kept = kk) :
    Keeps (execWarmRejoin x0) kk := by
  subst hk; unfold execWarmRejoin
  repeat'
    first
    | with_reducible rfl
    | assumption
    | (simp only [keeps_ite, keeps_next, State_coldBegin_kept, State_loadHub_kept, ite_kept, State_dieFails_kept,
        State_modDie_kept, ite_self, *]; done)
    | intro _
    | (with_reducible refine (foldl_kept _ ?_ _ _).trans ?_)
    | split
    | (simp only [keeps_ite, keeps_next, State_coldBegin_kept, State_loadHub_kept, ite_kept, State_dieFails_kept,
        State_modDie_kept, ite_self, *])

theorem execWarmRestartTimeout_kept (x0 : State) {kk} (hk : x0.kept = kk) :
    Keeps (execWarmRestartTimeout x0) kk := by
  subst hk; unfold execWarmRestartTimeout; simp only [keeps_ite, keeps_next, State_giveUp_kept, ite_self]

theorem execRehashComplete_kept (x0 : Nat) (x1 : State) {kk} (hk : x1.kept = kk) :
    Keeps (execRehashComplete x0 x1) kk := by
  subst hk; unfold execRehashComplete; simp only [keeps_ite, keeps_next, ite_kept, kept_mk, kept_eta, State_doubt_kept,
      ite_self]

theorem execHubLockstepFail_kept (x0 : State) {kk} (hk : x0.kept = kk) :
    Keeps (execHubLockstepFail x0) kk := by
  subst hk; unfold execHubLockstepFail; simp only [keeps_ite, keeps_next, State_fault_kept, kept_mk, kept_eta,
      State_mainReset_kept, ite_self]

theorem execBootReqWarm_kept (x0 : Init) (x1 : State) {kk} (hk : x1.kept = kk) :
    Keeps (execBootReqWarm x0 x1) kk := by
  subst hk; unfold execBootReqWarm; simp only [keeps_ite, keeps_next, hostErr_kept, State_viewMiss_kept,
      State_raise_kept, State_warmBegin_kept, ite_self]

theorem execBootReqCold_kept (x0 : Init) (x1 : Bool) (x2 : State) {kk} (hk : x2.kept = kk) :
    Keeps (execBootReqCold x0 x1 x2) kk := by
  subst hk; unfold execBootReqCold; simp only [keeps_ite, keeps_next, hostErr_kept, State_viewMiss_kept,
      State_raise_kept, State_coldBegin_kept, ite_self]

/-! ### Bist -/

theorem State_latchBist_kept (x0 : State) (x1 : Nat) (x2 : Nat) (x3 : SliceResult) :
    (State.latchBist x0 x1 x2 x3).kept = x0.kept := by
  unfold State.latchBist; simp only [ite_kept, State_setF_kept, ite_self]

theorem State_retireSpared_kept (x0 : State) (x1 : Nat) (x2 : Nat) :
    (State.retireSpared x0 x1 x2).kept = x0.kept := by
  unfold State.retireSpared
  repeat'
    first
    | with_reducible rfl
    | assumption
    | (simp only [State_modUnit_kept, State_retire_kept, ite_kept, State_migrate_kept, ite_self, *]; done)
    | intro _
    | split
    | (simp only [State_modUnit_kept, State_retire_kept, ite_kept, State_migrate_kept, ite_self, *])

theorem State_pipeFails_kept (x0 : State) (x1 : Nat) :
    (State.pipeFails x0 x1).kept = x0.kept := by
  unfold State.pipeFails
  repeat'
    first
    | with_reducible rfl
    | assumption
    | (simp only [State_askHandover_kept, State_modTest_kept, State_retirePipe_kept, *]; done)
    | intro _
    | split
    | (simp only [State_askHandover_kept, State_modTest_kept, State_retirePipe_kept, *])

theorem State_rotate_kept (x0 : State) (x1 : Nat) (x2 : Nat) (x3 : Nat) :
    (State.rotate x0 x1 x2 x3).kept = x0.kept := by
  unfold State.rotate
  repeat'
    first
    | with_reducible rfl
    | assumption
    | (simp only [ite_kept, State_modDie_kept, State_modUnit_kept, State_migrate_kept, ite_self, State_fill_kept, *]; done)
    | intro _
    | split
    | (simp only [ite_kept, State_modDie_kept, State_modUnit_kept, State_migrate_kept, ite_self, State_fill_kept, *])

theorem execRotationStep_kept (x0 : Nat) (x1 : Nat) (x2 : State) {kk} (hk : x2.kept = kk) :
    Keeps (execRotationStep x0 x1 x2) kk := by
  subst hk; unfold execRotationStep
  repeat'
    first
    | with_reducible rfl
    | assumption
    | (simp only [keeps_next, State_rotate_kept, keeps_ite, State_modIng_kept, State_askHandover_kept, ite_self, *]; done)
    | intro _
    | split
    | (simp only [keeps_next, State_rotate_kept, keeps_ite, State_modIng_kept, State_askHandover_kept, ite_self, *])

theorem State_queueRow_kept (x0 : State) (x1 : Nat) (x2 : Nat) (x3 : SliceResult) :
    (State.queueRow x0 x1 x2 x3).kept = x0.kept := by
  unfold State.queueRow; simp only [ite_kept, State_modCore_kept, ite_self]

theorem State_slicePassed_kept (x0 : State) (x1 : Nat) (x2 : Nat) :
    (State.slicePassed x0 x1 x2).kept = x0.kept := by
  unfold State.slicePassed; simp only [ite_kept, State_recovered_kept, State_modUnit_kept, ite_self]

theorem State_marched_kept (x0 : State) (x1 : Nat) (x2 : Nat) :
    (State.marched x0 x1 x2).kept = x0.kept := by
  unfold State.marched
  repeat'
    first
    | with_reducible rfl
    | assumption
    | (simp only [State_spoilByte_kept, kept_mk, kept_eta, *]; done)
    | intro _
    | (with_reducible refine (foldl_kept _ ?_ _ _).trans ?_)
    | split
    | (simp only [State_spoilByte_kept, kept_mk, kept_eta, *])

theorem execSliceDone_kept (x0 : Nat) (x1 : Nat) (x2 : SliceResult) (x3 : State) {kk} (hk : x3.kept = kk) :
    Keeps (execSliceDone x0 x1 x2 x3) kk := by
  subst hk; unfold execSliceDone; simp only [keeps_ite, keeps_next, State_recovered_kept, State_modTest_kept,
      State_pipeFails_kept, State_latchBist_kept, ite_self, State_slicePassed_kept, ite_kept, State_queueRow_kept,
      State_marched_kept, State_retireSpared_kept]

theorem execSegmentStart_kept (x0 : Nat) (x1 : Nat) (x2 : State) {kk} (hk : x2.kept = kk) :
    Keeps (execSegmentStart x0 x1 x2) kk := by
  subst hk; unfold execSegmentStart
  repeat'
    first
    | with_reducible rfl
    | assumption
    | (simp only [keeps_ite, keeps_next, State_modUnit_kept, ite_self, *]; done)
    | intro _
    | split
    | (simp only [keeps_ite, keeps_next, State_modUnit_kept, ite_self, *])

theorem execSegmentDone_kept (x0 : Nat) (x1 : Nat) (x2 : SliceResult) (x3 : State) {kk} (hk : x3.kept = kk) :
    Keeps (execSegmentDone x0 x1 x2 x3) kk := by
  subst hk; unfold execSegmentDone; simp only [keeps_ite, keeps_next, State_retireSpared_kept, State_latchBist_kept,
      ite_kept, State_slicePassed_kept, State_modUnit_kept, ite_self]

theorem execCoverageExpiry_kept (x0 : Nat) (x1 : Nat) (x2 : State) {kk} (hk : x2.kept = kk) :
    Keeps (execCoverageExpiry x0 x1 x2) kk := by
  subst hk; unfold execCoverageExpiry; simp only [keeps_ite, keeps_next, State_doubt_kept, State_modTest_kept,
      State_latchBist_kept, ite_self, State_modUnit_kept]

theorem execSuspectClear_kept (x0 : Nat) (x1 : Nat) (x2 : State) {kk} (hk : x2.kept = kk) :
    Keeps (execSuspectClear x0 x1 x2) kk := by
  subst hk; unfold execSuspectClear; simp only [keeps_ite, keeps_next, State_modUnit_kept, ite_self]

theorem State_repairCommons_kept (x0 : State) (x1 : Nat) (x2 : Nat) :
    (State.repairCommons x0 x1 x2).kept = x0.kept := by
  unfold State.repairCommons; simp only [ite_kept, State_modDie_kept, State_repairCmnRow_kept, State_cmnExhausted_kept,
      ite_self]

theorem State_repairCore_kept (x0 : State) (x1 : Nat) (x2 : Nat) (x3 : Nat) :
    (State.repairCore x0 x1 x2 x3).kept = x0.kept := by
  unfold State.repairCore
  repeat'
    first
    | with_reducible rfl
    | assumption
    | (simp only [ite_kept, State_repairCoreRow_kept, State_modCore_kept, State_retire_kept, ite_self, *]; done)
    | intro _
    | split
    | (simp only [ite_kept, State_repairCoreRow_kept, State_modCore_kept, State_retire_kept, ite_self, *])

theorem execRowRepair_kept (x0 : Nat) (x1 : State) {kk} (hk : x1.kept = kk) :
    Keeps (execRowRepair x0 x1) kk := by
  subst hk; unfold execRowRepair
  repeat'
    first
    | with_reducible rfl
    | assumption
    | (simp only [keeps_next, State_repairCommons_kept, State_repairCore_kept, *]; done)
    | intro _
    | split
    | (simp only [keeps_next, State_repairCommons_kept, State_repairCore_kept, *])

theorem State_logRepair_kept (x0 : State) (x1 : Nat) (x2 : List Byte) :
    (State.logRepair x0 x1 x2).kept = x0.kept := by
  unfold State.logRepair; simp only [State_bumpF_kept, kept_mk, kept_eta]

theorem State_nextRepair_kept {s : State} {d r s1} (h : s.nextRepair = some (d, r, s1)) : s1.kept = s.kept := by
  unfold State.nextRepair at h
  repeat' (split at h)
  all_goals cases h
  all_goals simp only [State_modDie_kept, State_modIng_kept]

theorem execRepairRecordWrite_kept (x0 : State) {kk} (hk : x0.kept = kk) :
    Keeps (execRepairRecordWrite x0) kk := by
  subst hk; unfold execRepairRecordWrite
  repeat'
    first
    | with_reducible rfl
    | assumption
    | (simp only [keeps_next, State_logRepair_kept, *]; done)
    | intro _
    | split
    | (with_reducible exact State_nextRepair_kept (by assumption))
    | (simp only [keeps_next, State_logRepair_kept, *])

theorem State_flushRepairs_kept (x0 : State) :
    (State.flushRepairs x0).kept = x0.kept := by
  unfold State.flushRepairs
  repeat'
    first
    | with_reducible rfl
    | assumption
    | (simp only [State_modIng_kept, State_logRepair_kept, State_modDie_kept, *]; done)
    | intro _
    | (with_reducible refine (foldl_kept _ ?_ _ _).trans ?_)
    | split
    | (simp only [State_modIng_kept, State_logRepair_kept, State_modDie_kept, *])

theorem State_checkerFails_kept (x0 : State) (x1 : Nat) (x2 : CheckerAt) :
    (State.checkerFails x0 x1 x2).kept = x0.kept := by
  unfold State.checkerFails
  repeat'
    first
    | with_reducible rfl
    | assumption
    | (simp only [ite_kept, State_pipeFails_kept, State_retireSpared_kept, ite_self, State_doubt_kept, kept_mk,
        kept_eta, *]; done)
    | intro _
    | split
    | (simp only [ite_kept, State_pipeFails_kept, State_retireSpared_kept, ite_self, State_doubt_kept, kept_mk, kept_eta, *])

theorem execCheckerTest_kept (x0 : Nat) (x1 : CheckerAt) (x2 : Bool) (x3 : State) {kk} (hk : x3.kept = kk) :
    Keeps (execCheckerTest x0 x1 x2 x3) kk := by
  subst hk; unfold execCheckerTest
  repeat'
    first
    | with_reducible rfl
    | assumption
    | (simp only [keeps_next, State_checkerFails_kept, State_latchBist_kept, State_bumpF_kept, State_bumpUnits_kept,
        *]; done)
    | intro _
    | split
    | (simp only [keeps_next, State_checkerFails_kept, State_latchBist_kept, State_bumpF_kept, State_bumpUnits_kept, *])

/-! ### Dma -/

theorem State_modDma_kept (x0 : State) (x1 : ChanRef) (x2 : DmaChan → DmaChan) :
    (State.modDma x0 x1 x2).kept = x0.kept := by
  unfold State.modDma; simp only [State_modChan_kept]

theorem State_doGranules_kept (x0 : State) (x1 : DescMoves) (x2 : Nat → Bool) :
    (State.doGranules x0 x1 x2).1.kept = x0.kept := by
  unfold State.doGranules
  repeat'
    first
    | with_reducible rfl
    | assumption
    | (simp only [State_countRemote_kept, State_countSource_kept, State_addMove_kept, State_doMove_kept, *]; done)
    | intro _
    | (with_reducible refine (foldl_kept1 _ ?_ _ _).trans ?_)
    | split
    | (simp only [State_countRemote_kept, State_countSource_kept, State_addMove_kept, State_doMove_kept, *])

theorem State_taskDescDone_kept (x0 : State) (x1 : ChanRef) (x2 : Nat) (x3 : Nat) (x4 : Bool) (x5 : Bool) :
    (State.taskDescDone x0 x1 x2 x3 x4 x5).kept = x0.kept := by
  unfold State.taskDescDone
  repeat'
    first
    | with_reducible rfl
    | assumption
    | (simp only [State_modSlot_kept, ite_kept, State_endTask_kept, State_unrecovered_kept, State_dmaAppend_kept,
        ite_self, *]; done)
    | intro _
    | split
    | (simp only [State_modSlot_kept, ite_kept, State_endTask_kept, State_unrecovered_kept, State_dmaAppend_kept,
        ite_self, *])

theorem State_dmaFinish_kept (x0 : State) (x1 : ChanRef) (x2 : Desc) (x3 : Nat) (x4 : Nat) (x5 : Nat) (x6 : Bool) :
    (State.dmaFinish x0 x1 x2 x3 x4 x5 x6).kept = x0.kept := by
  unfold State.dmaFinish; simp only [ite_kept, State_modDma_kept, State_bumpF_kept, ite_self, State_flagPost_kept,
      State_appendRing_kept]

theorem State_dmaComplete_kept (x0 : State) (x1 : ChanRef) (x2 : Desc) (x3 : Nat) (x4 : Nat) (x5 : Nat) :
    (State.dmaComplete x0 x1 x2 x3 x4 x5).kept = x0.kept := by
  unfold State.dmaComplete
  repeat'
    first
    | with_reducible rfl
    | assumption
    | (simp only [State_dmaFinish_kept, ite_kept, State_bumpF_kept, State_addFrame_kept, State_disown_kept,
        State_write_kept, ite_self, State_settle_kept, State_taskDescDone_kept, State_passStopped_kept,
        State_popRing_kept, State_modSeq_kept, *]; done)
    | intro _
    | split
    | (simp only [State_dmaFinish_kept, ite_kept, State_bumpF_kept, State_addFrame_kept, State_disown_kept,
        State_write_kept, ite_self, State_settle_kept, State_taskDescDone_kept, State_passStopped_kept,
        State_popRing_kept, State_modSeq_kept, *])

theorem State_withHead_kept {s : State} {c : ChanRef} {op} {f : State → Desc → Result State} (hf : ∀ t x, t.kept = s.kept → Keeps (f t x) s.kept) : Keeps (s.withHead c op f) s.kept := by
  unfold State.withHead
  extract_lets x t
  have ht : t.kept = s.kept := by simp only [t, State_modDma_kept, keeps_next, hostErr_kept, State_dmaComplete_kept]
  clear_value t
  refine keeps_if ((keeps_next _ _).mpr rfl) (keeps_if ?_ (keeps_if ?_ (keeps_if ((keeps_next _ _).mpr rfl) (hf _ _ ht))))
  · simp only [State_modDma_kept, keeps_next, hostErr_kept, State_dmaComplete_kept]
  · simp only [State_modDma_kept, keeps_next, hostErr_kept, State_dmaComplete_kept, ht]

theorem State_noteScatter_kept (x0 : State) (x1 : ChanRef) (x2 : DescMoves) :
    (State.noteScatter x0 x1 x2).kept = x0.kept := by
  unfold State.noteScatter
  repeat'
    first
    | with_reducible rfl
    | assumption
    | (simp only [ite_kept, State_modSlot_kept, ite_self, *]; done)
    | intro _
    | split
    | (simp only [ite_kept, State_modSlot_kept, ite_self, *])

theorem State_dataDesc_kept (x0 : State) (x1 : ChanRef) (x2 : Nat) {kk} (hk : x0.kept = kk) :
    Keeps (State.dataDesc x0 x1 x2) kk := by
  subst hk; unfold State.dataDesc
  repeat'
    first
    | with_reducible rfl
    | assumption
    | (simp only [hostErr_kept, State_dmaComplete_kept, keeps_ite, keeps_next, State_addFrame_kept,
        State_bumpUnits_kept, State_noteScatter_kept, State_modDma_kept, State_doGranules_kept, ite_self, *]; done)
    | intro _
    | split
    | (with_reducible refine hostErr_kept ?_)
    | (with_reducible refine State_withHead_kept ?_)
    | (simp only [hostErr_kept, State_dmaComplete_kept, keeps_ite, keeps_next, State_addFrame_kept,
        State_bumpUnits_kept, State_noteScatter_kept, State_modDma_kept, State_doGranules_kept, ite_self, *])

theorem execCopy_kept (x0 : ChanRef) (x1 : State) {kk} (hk : x1.kept = kk) :
    Keeps (execCopy x0 x1) kk := by
  subst hk; unfold execCopy; simp only [State_dataDesc_kept]

theorem execLinear_kept (x0 : ChanRef) (x1 : State) {kk} (hk : x1.kept = kk) :
    Keeps (execLinear x0 x1) kk := by
  subst hk; unfold execLinear; simp only [State_dataDesc_kept]

theorem execFill_kept (x0 : ChanRef) (x1 : State) {kk} (hk : x1.kept = kk) :
    Keeps (execFill x0 x1) kk := by
  subst hk; unfold execFill; simp only [State_dataDesc_kept]

theorem execGather_kept (x0 : ChanRef) (x1 : State) {kk} (hk : x1.kept = kk) :
    Keeps (execGather x0 x1) kk := by
  subst hk; unfold execGather; simp only [State_dataDesc_kept]

theorem execScatter_kept (x0 : ChanRef) (x1 : State) {kk} (hk : x1.kept = kk) :
    Keeps (execScatter x0 x1) kk := by
  subst hk; unfold execScatter; simp only [State_dataDesc_kept]

theorem execScatterAdd_kept (x0 : ChanRef) (x1 : State) {kk} (hk : x1.kept = kk) :
    Keeps (execScatterAdd x0 x1) kk := by
  subst hk; unfold execScatterAdd; simp only [State_dataDesc_kept]

theorem execDmaFlagOp_kept (x0 : ChanRef) (x1 : State) {kk} (hk : x1.kept = kk) :
    Keeps (execDmaFlagOp x0 x1) kk := by
  subst hk; unfold execDmaFlagOp
  repeat'
    first
    | with_reducible rfl
    | assumption
    | (simp only [keeps_next, State_dmaComplete_kept, *]; done)
    | intro _
    | split
    | (with_reducible refine State_withHead_kept ?_)
    | (simp only [keeps_next, State_dmaComplete_kept, *])

theorem execJump_kept (x0 : ChanRef) (x1 : State) {kk} (hk : x1.kept = kk) :
    Keeps (execJump x0 x1) kk := by
  subst hk; unfold execJump
  repeat'
    first
    | with_reducible rfl
    | assumption
    | (simp only [keeps_ite, hostErr_kept, State_dmaComplete_kept, keeps_next, ite_self, *]; done)
    | intro _
    | split
    | (with_reducible refine hostErr_kept ?_)
    | (with_reducible refine State_withHead_kept ?_)
    | (simp only [keeps_ite, hostErr_kept, State_dmaComplete_kept, keeps_next, ite_self, *])

theorem execPop_kept (x0 : ChanRef) (x1 : State) {kk} (hk : x1.kept = kk) :
    Keeps (execPop x0 x1) kk := by
  subst hk; unfold execPop
  repeat'
    first
    | with_reducible rfl
    | assumption
    | (simp only [keeps_ite, hostErr_kept, State_dmaComplete_kept, keeps_next, State_bumpUnits_kept, State_popRing_kept,
        State_modDma_kept, State_doGranules_kept, ite_self, *]; done)
    | intro _
    | split
    | (with_reducible refine hostErr_kept ?_)
    | (with_reducible refine State_withHead_kept ?_)
    | (simp only [keeps_ite, hostErr_kept, State_dmaComplete_kept, keeps_next, State_bumpUnits_kept, State_popRing_kept,
        State_modDma_kept, State_doGranules_kept, ite_self, *])

theorem execDmaDoorbell_kept (x0 : Init) (x1 : Nat) (x2 : Nat) (x3 : Nat) (x4 : State) {kk} (hk : x4.kept = kk) :
    Keeps (execDmaDoorbell x0 x1 x2 x3 x4) kk := by
  subst hk; unfold execDmaDoorbell; simp only [keeps_ite, keeps_next, hostErr_kept, State_viewMiss_kept,
      State_modDma_kept, ite_self]

theorem State_stopChan_kept (x0 : State) (x1 : ChanRef) (x2 : ChState) (x3 : Nat) (x4 : BitVec 64) :
    (State.stopChan x0 x1 x2 x3 x4).kept = x0.kept := by
  unfold State.stopChan
  repeat'
    first
    | with_reducible rfl
    | assumption
    | (simp only [State_modDma_kept, ite_kept, State_noteScatter_kept, State_doGranules_kept, ite_self, *]; done)
    | intro _
    | split
    | (simp only [State_modDma_kept, ite_kept, State_noteScatter_kept, State_doGranules_kept, ite_self, *])

theorem execDmaNorespTimeout_kept (x0 : ChanRef) (x1 : Nat) (x2 : Nat) (x3 : BitVec 64) (x4 : State) {kk} (hk : x4.kept = kk) :
    Keeps (execDmaNorespTimeout x0 x1 x2 x3 x4) kk := by
  subst hk; unfold execDmaNorespTimeout; simp only [keeps_ite, keeps_next, State_raise_kept, State_bumpF_kept,
      State_modDma_kept, State_stopChan_kept, ite_self]

theorem execDmaPause_kept (x0 : Init) (x1 : ChanRef) (x2 : Nat) (x3 : BitVec 64) (x4 : State) {kk} (hk : x4.kept = kk) :
    Keeps (execDmaPause x0 x1 x2 x3 x4) kk := by
  subst hk; unfold execDmaPause; simp only [keeps_ite, keeps_next, hostErr_kept, State_viewMiss_kept,
      State_stopChan_kept, State_setF_kept, State_modDma_kept, ite_self]

theorem execDmaResume_kept (x0 : Init) (x1 : ChanRef) (x2 : State) {kk} (hk : x2.kept = kk) :
    Keeps (execDmaResume x0 x1 x2) kk := by
  subst hk; unfold execDmaResume; simp only [keeps_ite, keeps_next, hostErr_kept, State_viewMiss_kept,
      State_modDma_kept, State_setF_kept, ite_self]

theorem execDmaRetry_kept (x0 : Init) (x1 : ChanRef) (x2 : State) {kk} (hk : x2.kept = kk) :
    Keeps (execDmaRetry x0 x1 x2) kk := by
  subst hk; unfold execDmaRetry; simp only [keeps_ite, keeps_next, hostErr_kept, State_viewMiss_kept, State_modDma_kept,
      ite_self]

theorem execDmaSkip_kept (x0 : Init) (x1 : ChanRef) (x2 : State) {kk} (hk : x2.kept = kk) :
    Keeps (execDmaSkip x0 x1 x2) kk := by
  subst hk; unfold execDmaSkip; simp only [keeps_ite, keeps_next, hostErr_kept, State_viewMiss_kept,
      State_dmaComplete_kept, ite_self]

theorem execDmaRequestMismatch_kept (x0 : ChanRef) (x1 : Nat) (x2 : BitVec 64) (x3 : State) {kk} (hk : x3.kept = kk) :
    Keeps (execDmaRequestMismatch x0 x1 x2 x3) kk := by
  subst hk; unfold execDmaRequestMismatch; simp only [keeps_ite, keeps_next, ite_kept, State_doubt_kept,
      State_modDie_kept, State_stopChan_kept, ite_self]

theorem State_dmaRecordRetry_kept (x0 : State) (x1 : ChanRef) :
    (State.dmaRecordRetry x0 x1).kept = x0.kept := by
  unfold State.dmaRecordRetry
  repeat'
    first
    | with_reducible rfl
    | assumption
    | (simp only [State_dmaFinish_kept, *]; done)
    | intro _
    | split
    | (simp only [State_dmaFinish_kept, *])

theorem State_chanRegs_kept (x0 : State) (x1 : ChanRef) :
    (State.chanRegs x0 x1).kept = x0.kept := by
  unfold State.chanRegs; simp only [State_setF_kept]

theorem State_dmaRegs_kept (x0 : State) (x1 : Nat) :
    (State.dmaRegs x0 x1).kept = x0.kept := by
  unfold State.dmaRegs
  repeat'
    first
    | with_reducible rfl
    | assumption
    | (simp only [State_setF_kept, *]; done)
    | intro _
    | (with_reducible refine (foldl_kept _ ?_ _ _).trans ?_)
    | split
    | (simp only [State_setF_kept, *])

end Sys2Proof.Machine
end

