-- ==== Sys2Proof/Laws/KeptRest.lean ====
section
/-! SUPPORT. No operation or command here changes the queue, the part or OTP: vision engines, freeze, power, registers, sessions and the vector unit. -/

namespace Sys2Proof.Machine

open Sys2Proof

set_option linter.unusedSimpArgs false
set_option linter.unusedVariables false

/-! ### Features -/

theorem State_featureTask_kept (x0 : State) (x1 : Nat) (x2 : Nat) (x3 : Job) (x4 : Bool) (x5 : List Nat) {kk} (hk : x0.kept = kk) :
    Keeps (State.featureTask x0 x1 x2 x3 x4 x5) kk := by
  subst hk; unfold State.featureTask
  repeat'
    first
    | with_reducible rfl
    | assumption
    | (simp only [hostErr_kept, keeps_ite, keeps_next, State_bumpF_kept, State_bumpUnits_kept, State_workDone_kept,
        State_modDie_kept, ite_self, *]; done)
    | intro _
    | split
    | (with_reducible refine hostErr_kept ?_)
    | (simp only [hostErr_kept, keeps_ite, keeps_next, State_bumpF_kept, State_bumpUnits_kept, State_workDone_kept,
        State_modDie_kept, ite_self, *])

theorem State_withMode_kept {s : State} {d i mode} {f : Job → Result State} (hf : ∀ x, Keeps (f x) s.kept) : Keeps (s.withMode d i mode f) s.kept := by
  unfold State.withMode; repeat' split
  all_goals first | exact hf _ | simp only [keeps_next, hostErr_kept]

theorem execFtrDetectMatch_kept (x0 : Nat) (x1 : Nat) (x2 : List Nat) (x3 : State) {kk} (hk : x3.kept = kk) :
    Keeps (execFtrDetectMatch x0 x1 x2 x3) kk := by
  subst hk; unfold execFtrDetectMatch
  repeat'
    first
    | with_reducible rfl
    | assumption
    | (simp only [State_featureTask_kept, *]; done)
    | intro _
    | split
    | (with_reducible refine State_withMode_kept ?_)
    | (simp only [State_featureTask_kept, *])

theorem execFtrDetect_kept (x0 : Nat) (x1 : Nat) (x2 : State) {kk} (hk : x2.kept = kk) :
    Keeps (execFtrDetect x0 x1 x2) kk := by
  subst hk; unfold execFtrDetect
  repeat'
    first
    | with_reducible rfl
    | assumption
    | (simp only [State_featureTask_kept, *]; done)
    | intro _
    | split
    | (with_reducible refine State_withMode_kept ?_)
    | (simp only [State_featureTask_kept, *])

theorem execFtrReset_kept (x0 : Nat) (x1 : Nat) (x2 : State) {kk} (hk : x2.kept = kk) :
    Keeps (execFtrReset x0 x1 x2) kk := by
  subst hk; unfold execFtrReset
  repeat'
    first
    | with_reducible rfl
    | assumption
    | (simp only [keeps_ite, hostErr_kept, keeps_next, State_workDone_kept, State_modDie_kept, ite_self, *]; done)
    | intro _
    | split
    | (with_reducible refine hostErr_kept ?_)
    | (with_reducible refine State_withMode_kept ?_)
    | (simp only [keeps_ite, hostErr_kept, keeps_next, State_workDone_kept, State_modDie_kept, ite_self, *])

theorem execFtrDump_kept (x0 : Nat) (x1 : Nat) (x2 : State) {kk} (hk : x2.kept = kk) :
    Keeps (execFtrDump x0 x1 x2) kk := by
  subst hk; unfold execFtrDump
  repeat'
    first
    | with_reducible rfl
    | assumption
    | (simp only [keeps_ite, hostErr_kept, keeps_next, State_workDone_kept, ite_self, *]; done)
    | intro _
    | split
    | (with_reducible refine hostErr_kept ?_)
    | (with_reducible refine State_withMode_kept ?_)
    | (simp only [keeps_ite, hostErr_kept, keeps_next, State_workDone_kept, ite_self, *])

theorem execFtrTrackSelWrite_kept (x0 : Init) (x1 : Nat) (x2 : Nat) (x3 : Word) (x4 : State) {kk} (hk : x4.kept = kk) :
    Keeps (execFtrTrackSelWrite x0 x1 x2 x3 x4) kk := by
  subst hk; unfold execFtrTrackSelWrite; simp only [keeps_ite, hostErr_kept, keeps_next, State_viewMiss_kept,
      State_modDie_kept, State_setF_kept, ite_self]

theorem execFtrTrackDataRead_kept (x0 : Init) (x1 : Nat) (x2 : Nat) (x3 : State) {kk} (hk : x3.kept = kk) :
    Keeps (execFtrTrackDataRead x0 x1 x2 x3) kk := by
  subst hk; unfold execFtrTrackDataRead; simp only [keeps_ite, State_readErr_kept, keeps_next, kept_mk, kept_eta,
      State_viewMiss_kept, State_modDie_kept, ite_self]

/-! ### Vision -/

theorem execPyrTask_kept (x0 : Nat) (x1 : Nat) (x2 : State) {kk} (hk : x2.kept = kk) :
    Keeps (execPyrTask x0 x1 x2) kk := by
  subst hk; unfold execPyrTask
  repeat'
    first
    | with_reducible rfl
    | assumption
    | (simp only [keeps_next, hostErr_kept, keeps_ite, State_bumpUnits_kept, State_workDone_kept, ite_self, *]; done)
    | intro _
    | split
    | (with_reducible refine hostErr_kept ?_)
    | (simp only [keeps_next, hostErr_kept, keeps_ite, State_bumpUnits_kept, State_workDone_kept, ite_self, *])

theorem State_warpCounts_kept (x0 : State) (x1 : Nat) (x2 : Nat) (x3 : Nat) (x4 : Nat) (x5 : Nat) (x6 : Nat) :
    (State.warpCounts x0 x1 x2 x3 x4 x5 x6).kept = x0.kept := by
  unfold State.warpCounts; simp only [State_bumpF_kept, State_bumpUnits_kept]

theorem execWrpMeshTask_kept (x0 : Nat) (x1 : Nat) (x2 : State) {kk} (hk : x2.kept = kk) :
    Keeps (execWrpMeshTask x0 x1 x2) kk := by
  subst hk; unfold execWrpMeshTask
  repeat'
    first
    | with_reducible rfl
    | assumption
    | (simp only [keeps_next, hostErr_kept, keeps_ite, State_warpCounts_kept, State_workDone_kept, ite_self, *]; done)
    | intro _
    | split
    | (with_reducible refine hostErr_kept ?_)
    | (simp only [keeps_next, hostErr_kept, keeps_ite, State_warpCounts_kept, State_workDone_kept, ite_self, *])

theorem execWrpSamplerTask_kept (x0 : Nat) (x1 : Nat) (x2 : State) {kk} (hk : x2.kept = kk) :
    Keeps (execWrpSamplerTask x0 x1 x2) kk := by
  subst hk; unfold execWrpSamplerTask
  repeat'
    first
    | with_reducible rfl
    | assumption
    | (simp only [keeps_next, hostErr_kept, keeps_ite, State_warpCounts_kept, State_workDone_kept, ite_self, *]; done)
    | intro _
    | split
    | (with_reducible refine hostErr_kept ?_)
    | (simp only [keeps_next, hostErr_kept, keeps_ite, State_warpCounts_kept, State_workDone_kept, ite_self, *])

/-! ### Flow -/

theorem execFlwTask_kept (x0 : Nat) (x1 : Nat) (x2 : State) {kk} (hk : x2.kept = kk) :
    Keeps (execFlwTask x0 x1 x2) kk := by
  subst hk; unfold execFlwTask
  repeat'
    first
    | with_reducible rfl
    | assumption
    | (simp only [keeps_next, hostErr_kept, keeps_ite, State_bumpUnits_kept, State_workDone_kept, ite_self, *]; done)
    | intro _
    | split
    | (with_reducible refine hostErr_kept ?_)
    | (simp only [keeps_next, hostErr_kept, keeps_ite, State_bumpUnits_kept, State_workDone_kept, ite_self, *])

/-! ### Freeze -/

theorem State_sendMsg_kept (x0 : State) (x1 : Nat) (x2 : List Byte) :
    (State.sendMsg x0 x1 x2).kept = x0.kept := by
  unfold State.sendMsg; simp only [kept_mk, kept_eta, State_free_kept]

theorem State_accept_kept (x0 : State) (x1 : List Byte) :
    (State.accept x0 x1).kept = x0.kept := by
  unfold State.accept; simp only [State_sendMsg_kept]

theorem State_refuse_kept (x0 : State) :
    (State.refuse x0).kept = x0.kept := by
  unfold State.refuse; simp only [State_sendMsg_kept, State_free_kept]

theorem State_heard_kept (x0 : State) :
    (State.heard x0).kept = x0.kept := by
  unfold State.heard; simp only [kept_mk, kept_eta]

theorem State_message_kept {s : State} {r b} {f : Session → State → Result State} (hf : ∀ x t, t.kept = s.kept → Keeps (f x t) s.kept) : Keeps (s.message r b f) s.kept := by
  unfold State.message; repeat' split
  all_goals first | (refine hf _ _ ?_; simp only [keeps_next, State_refuse_kept,
      State_heard_kept]; done) | simp only [keeps_next, State_refuse_kept, State_heard_kept]

theorem State_askFreeze_kept (x0 : State) (x1 : Nat) (x2 : Bool) :
    (State.askFreeze x0 x1 x2).kept = x0.kept := by
  unfold State.askFreeze; simp only [ite_kept, kept_mk, kept_eta, State_raise_kept, State_bumpF_kept, ite_self]

theorem State_frzRegs_kept (x0 : State) :
    (State.frzRegs x0).kept = x0.kept := by
  unfold State.frzRegs; simp only [State_setF_kept]

theorem execFreezePin_kept (x0 : State) {kk} (hk : x0.kept = kk) :
    Keeps (execFreezePin x0) kk := by
  subst hk; unfold execFreezePin; simp only [keeps_next, State_askFreeze_kept]

theorem execFrzCtlFreeze_kept (x0 : Init) (x1 : State) {kk} (hk : x1.kept = kk) :
    Keeps (execFrzCtlFreeze x0 x1) kk := by
  subst hk; unfold execFrzCtlFreeze; simp only [keeps_ite, keeps_next, hostErr_kept, State_viewMiss_kept,
      State_askFreeze_kept, ite_self]

theorem execFreeze_kept (x0 : State) {kk} (hk : x0.kept = kk) :
    Keeps (execFreeze x0) kk := by
  subst hk; unfold execFreeze
  repeat'
    first
    | with_reducible rfl
    | assumption
    | (simp only [keeps_ite, keeps_next, State_accept_kept, State_askFreeze_kept, State_refuse_kept, ite_self, *]; done)
    | intro _
    | split
    | (with_reducible refine State_message_kept ?_)
    | (simp only [keeps_ite, keeps_next, State_accept_kept, State_askFreeze_kept, State_refuse_kept, ite_self, *])

theorem State_freeBytes_kept (x0 : State) (x1 : Nat) :
    (State.freeBytes x0 x1).2.kept = x0.kept := by
  unfold State.freeBytes; simp only [kept_mk, kept_eta]

theorem withChecks_kept (x0 : State) (x1 : List Byte) :
    (withChecks x0 x1).2.kept = x0.kept := by
  unfold withChecks; simp only [State_freeBytes_kept]

theorem State_dieSegments_kept (x0 : State) (x1 : Nat) :
    (State.dieSegments x0 x1).2.kept = x0.kept := by
  unfold State.dieSegments
  repeat'
    first
    | with_reducible rfl
    | assumption
    | (simp only [withChecks_kept, State_freeBytes_kept, *]; done)
    | intro _
    | (with_reducible refine (foldl_kept2 _ ?_ _ _).trans ?_)
    | split
    | (simp only [withChecks_kept, State_freeBytes_kept, *])

theorem State_readOut_kept (x0 : State) :
    (State.readOut x0).kept = x0.kept := by
  unfold State.readOut
  repeat'
    first
    | with_reducible rfl
    | assumption
    | (simp only [kept_mk, kept_eta, State_sendMsg_kept, State_dieSegments_kept, *]; done)
    | intro _
    | (with_reducible refine (foldl_kept2 _ ?_ _ _).trans ?_)
    | split
    | (with_reducible refine kept_snd (by assumption) ?_)
    | (simp only [kept_mk, kept_eta, State_sendMsg_kept, State_dieSegments_kept, *])

theorem execClockStop_kept (x0 : State) {kk} (hk : x0.kept = kk) :
    Keeps (execClockStop x0) kk := by
  subst hk; unfold execClockStop; simp only [keeps_ite, keeps_next, ite_kept, State_readOut_kept, State_setF_kept,
      State_setPair_kept, kept_mk, kept_eta, ite_self]

theorem execReadState_kept (x0 : State) {kk} (hk : x0.kept = kk) :
    Keeps (execReadState x0) kk := by
  subst hk; unfold execReadState
  repeat'
    first
    | with_reducible rfl
    | assumption
    | (simp only [keeps_ite, keeps_next, State_readOut_kept, State_refuse_kept, ite_self, *]; done)
    | intro _
    | split
    | (with_reducible refine State_message_kept ?_)
    | (simp only [keeps_ite, keeps_next, State_readOut_kept, State_refuse_kept, ite_self, *])

theorem State_dramFrame_kept (x0 : State) (x1 : Nat) (x2 : Nat) :
    (State.dramFrame x0 x1 x2).2.kept = x0.kept := by
  unfold State.dramFrame
  repeat'
    first
    | with_reducible rfl
    | assumption
    | (simp only [State_freeBytes_kept, *]; done)
    | intro _
    | (with_reducible refine (foldl_kept2 _ ?_ _ _).trans ?_)
    | split
    | (simp only [State_freeBytes_kept, *])

theorem execReadDram_kept (x0 : Nat) (x1 : Nat) (x2 : Nat) (x3 : State) {kk} (hk : x3.kept = kk) :
    Keeps (execReadDram x0 x1 x2 x3) kk := by
  subst hk; unfold execReadDram
  repeat'
    first
    | with_reducible rfl
    | assumption
    | (simp only [keeps_next, State_setF_kept, kept_mk, kept_eta, State_sendMsg_kept, State_dramFrame_kept,
        State_refuse_kept, *]; done)
    | intro _
    | (with_reducible refine (foldl_kept2 _ ?_ _ _).trans ?_)
    | split
    | (with_reducible refine kept_snd (by assumption) ?_)
    | (with_reducible refine State_message_kept ?_)
    | (simp only [keeps_next, State_setF_kept, kept_mk, kept_eta, State_sendMsg_kept, State_dramFrame_kept,
        State_refuse_kept, *])

theorem State_endFreeze_kept (x0 : State) (x1 : Nat) :
    (State.endFreeze x0 x1).kept = x0.kept := by
  unfold State.endFreeze; simp only [ite_kept, State_breakRing_kept, State_raise_kept, State_setF_kept, kept_mk,
      kept_eta, State_free_kept, ite_self]

theorem execResume_kept (x0 : State) {kk} (hk : x0.kept = kk) :
    Keeps (execResume x0) kk := by
  subst hk; unfold execResume
  repeat'
    first
    | with_reducible rfl
    | assumption
    | (simp only [keeps_ite, keeps_next, State_accept_kept, State_ringTry_kept, State_bumpF_kept, State_endFreeze_kept,
        State_refuse_kept, ite_self, *]; done)
    | intro _
    | split
    | (with_reducible refine State_message_kept ?_)
    | (simp only [keeps_ite, keeps_next, State_accept_kept, State_ringTry_kept, State_bumpF_kept, State_endFreeze_kept,
        State_refuse_kept, ite_self, *])

theorem execFreezeStatus_kept (x0 : State) {kk} (hk : x0.kept = kk) :
    Keeps (execFreezeStatus x0) kk := by
  subst hk; unfold execFreezeStatus
  repeat'
    first
    | with_reducible rfl
    | assumption
    | (simp only [keeps_next, State_sendMsg_kept, *]; done)
    | intro _
    | split
    | (with_reducible refine State_message_kept ?_)
    | (simp only [keeps_next, State_sendMsg_kept, *])

theorem execTapAccess_kept (x0 : TapInstr) (x1 : State) {kk} (hk : x1.kept = kk) :
    Keeps (execTapAccess x0 x1) kk := by
  subst hk; unfold execTapAccess; simp only [keeps_ite, keeps_next, State_answer_kept, State_free_kept, ite_self]

/-! ### Power -/

theorem State_modPwr_kept (x0 : State) (x1 : Power → Power) :
    (State.modPwr x0 x1).kept = x0.kept := by
  unfold State.modPwr; simp only [kept_mk, kept_eta]

theorem execBladeContact_kept (x0 : State) {kk} (hk : x0.kept = kk) :
    Keeps (execBladeContact x0) kk := by
  subst hk; unfold execBladeContact; simp only [keeps_ite, keeps_next, State_modPwr_kept, ite_self]

theorem execInrushStart_kept (x0 : State) {kk} (hk : x0.kept = kk) :
    Keeps (execInrushStart x0) kk := by
  subst hk; unfold execInrushStart; simp only [keeps_ite, keeps_next, State_modPwr_kept, ite_self]

theorem State_railsOff_kept (x0 : State) :
    (State.railsOff x0).kept = x0.kept := by
  unfold State.railsOff; simp only [State_modPwr_kept, State_mainReset_kept, kept_mk, kept_eta]

theorem State_cosyOff_kept (x0 : State) :
    (State.cosyOff x0).kept = x0.kept := by
  unfold State.cosyOff; simp only [ite_kept, State_linkLost_kept, kept_mk, kept_eta, ite_self]

theorem execInputOutOfRange_kept (x0 : Bool) (x1 : Nat) (x2 : State) {kk} (hk : x2.kept = kk) :
    Keeps (execInputOutOfRange x0 x1 x2) kk := by
  subst hk; unfold execInputOutOfRange; simp only [keeps_ite, keeps_next, State_cosyOff_kept, State_railsOff_kept, ite_self]

theorem execLowInputTick_kept (x0 : Nat) (x1 : State) {kk} (hk : x1.kept = kk) :
    Keeps (execLowInputTick x0 x1) kk := by
  subst hk; unfold execLowInputTick; simp only [keeps_ite, keeps_next, State_modPwr_kept, State_setF_kept,
      State_raise_kept, State_bumpF_kept, ite_self]

theorem execThermalCut_kept (x0 : Nat) (x1 : State) {kk} (hk : x1.kept = kk) :
    Keeps (execThermalCut x0 x1) kk := by
  subst hk; unfold execThermalCut; simp only [keeps_ite, keeps_next, State_fault_kept, State_modPwr_kept,
      State_railsOff_kept, ite_self]

theorem State_trips_kept (x0 : State) (x1 : Nat) (x2 : Nat) (x3 : Nat) :
    (State.trips x0 x1 x2 x3).kept = x0.kept := by
  unfold State.trips; simp only [State_doubt_kept, State_raise_kept]

theorem execPowerWindow_kept (x0 : Nat) (x1 : State) {kk} (hk : x1.kept = kk) :
    Keeps (execPowerWindow x0 x1) kk := by
  subst hk; unfold execPowerWindow; simp only [keeps_ite, keeps_next, ite_kept, State_trips_kept, State_raise_kept,
      State_modPwr_kept, State_peakF_kept, State_setF_kept, ite_self]

theorem State_warmth_kept (x0 : State) (x1 : Nat) (x2 : Bool) (x3 : Nat) (x4 : Int) :
    (State.warmth x0 x1 x2 x3 x4).kept = x0.kept := by
  unfold State.warmth; simp only [ite_kept, State_trips_kept, State_raise_kept, State_setF_kept, ite_self]

theorem execMonitorTrip_kept (x0 : Nat) (x1 : MonitorKind) (x2 : Nat) (x3 : Int) (x4 : State) {kk} (hk : x4.kept = kk) :
    Keeps (execMonitorTrip x0 x1 x2 x3 x4) kk := by
  subst hk; unfold execMonitorTrip
  repeat'
    first
    | with_reducible rfl
    | assumption
    | (simp only [keeps_next, State_trips_kept, ite_kept, State_setF_kept, ite_self, State_warmth_kept,
        State_modPwr_kept, *]; done)
    | intro _
    | split
    | (simp only [keeps_next, State_trips_kept, ite_kept, State_setF_kept, ite_self, State_warmth_kept,
        State_modPwr_kept, *])

theorem execMonitorTest_kept (x0 : Nat) (x1 : MonitorKind) (x2 : Bool) (x3 : State) {kk} (hk : x3.kept = kk) :
    Keeps (execMonitorTest x0 x1 x2 x3) kk := by
  subst hk; unfold execMonitorTest; simp only [keeps_ite, keeps_next, State_checkerFails_kept, ite_self]

theorem execPhaseFail_kept (x0 : Nat) (x1 : Nat) (x2 : State) {kk} (hk : x2.kept = kk) :
    Keeps (execPhaseFail x0 x1 x2) kk := by
  subst hk; unfold execPhaseFail; simp only [keeps_ite, keeps_next, State_raise_kept, State_setF_kept,
      State_modPwr_kept, State_free_kept, ite_self]

theorem State_domainRegs_kept (x0 : State) (x1 : Nat) (x2 : Nat) :
    (State.domainRegs x0 x1 x2).kept = x0.kept := by
  unfold State.domainRegs; simp only [State_setF_kept]

theorem execDomainSwitch_kept (x0 : Nat) (x1 : Nat) (x2 : Bool) (x3 : State) {kk} (hk : x3.kept = kk) :
    Keeps (execDomainSwitch x0 x1 x2 x3) kk := by
  subst hk; unfold execDomainSwitch; simp only [keeps_ite, keeps_next, ite_kept, kept_mk, kept_eta, ite_self,
      State_domainRegs_kept, State_modPwr_kept]

theorem State_clkRegs_kept (x0 : State) :
    (State.clkRegs x0).kept = x0.kept := by
  unfold State.clkRegs; simp only [State_setF_kept]

theorem State_lastPart_kept (x0 : State) :
    (State.lastPart x0).kept = x0.kept := by
  unfold State.lastPart; simp only [State_doubt_kept, State_raise_kept]

theorem State_clockPart_kept (x0 : State) :
    (State.clockPart x0).kept = x0.kept := by
  unfold State.clockPart; simp only [State_latch_kept, State_raise_kept]

theorem State_pllFails_kept (x0 : State) :
    (State.pllFails x0).kept = x0.kept := by
  unfold State.pllFails; simp only [ite_kept, State_lastPart_kept, State_recovered_kept, State_clkRegs_kept,
      State_raise_kept, State_bumpF_kept, State_clockPart_kept, State_modPwr_kept, ite_self]

theorem State_refFails_kept (x0 : State) :
    (State.refFails x0).kept = x0.kept := by
  unfold State.refFails; simp only [ite_kept, State_lastPart_kept, State_clkRegs_kept, State_modPwr_kept,
      State_raise_kept, State_bumpF_kept, State_clockPart_kept, ite_self]

theorem execClockCompare_kept (x0 : Bool) (x1 : Bool) (x2 : Bool) (x3 : Bool) (x4 : State) {kk} (hk : x4.kept = kk) :
    Keeps (execClockCompare x0 x1 x2 x3 x4) kk := by
  subst hk; unfold execClockCompare; simp only [keeps_ite, keeps_next, State_pllFails_kept, State_setF_kept,
      State_free_kept, State_refFails_kept, State_lastPart_kept, State_clkRegs_kept, State_modPwr_kept, ite_self]

theorem execHoldoverEnd_kept (x0 : State) {kk} (hk : x0.kept = kk) :
    Keeps (execHoldoverEnd x0) kk := by
  subst hk; unfold execHoldoverEnd; simp only [keeps_ite, keeps_next, State_recovered_kept, State_clkRegs_kept,
      State_modPwr_kept, ite_self]

theorem State_decideRest_kept (n : Nat) (s : State) (d : Nat) : (State.decideRest n s d).kept = s.kept := by
  induction n generalizing s with
  | zero => rfl
  | succ n ih =>
      unfold State.decideRest
      repeat'
        first
        | with_reducible rfl
        | assumption
        | (simp only [State_closeFrame_kept, State_enqueue_kept, *]; done)
        | intro _
        | split
        | (simp only [State_closeFrame_kept, State_enqueue_kept, *])

theorem State_dropTasks_kept (x0 : State) :
    (State.dropTasks x0).kept = x0.kept := by
  unfold State.dropTasks; simp only [kept_mk, kept_eta]

theorem State_gatherEvents_kept (x0 : State) :
    (State.gatherEvents x0).kept = x0.kept := by
  unfold State.gatherEvents
  repeat'
    first
    | with_reducible rfl
    | assumption
    | (simp only [State_intoAccum_kept, kept_mk, kept_eta, *]; done)
    | intro _
    | (with_reducible refine (foldl_kept _ ?_ _ _).trans ?_)
    | split
    | (simp only [State_intoAccum_kept, kept_mk, kept_eta, *])

theorem State_removalStep_kept (x0 : State) (x1 : Nat) :
    (State.removalStep x0 x1).kept = x0.kept := by
  unfold State.removalStep; simp only [ite_kept, State_breakRing_kept, State_sendFlit_kept, State_dropTasks_kept,
      ite_self, kept_mk, kept_eta, State_flushRepairs_kept, State_persistRegs_kept, State_modRec_kept,
      State_flushRecorder_kept, State_gatherEvents_kept, State_writeMark_kept, State_modPwr_kept, State_railsOff_kept]

theorem execRemovalRequest_kept (x0 : State) {kk} (hk : x0.kept = kk) :
    Keeps (execRemovalRequest x0) kk := by
  subst hk; unfold execRemovalRequest
  repeat'
    first
    | with_reducible rfl
    | assumption
    | (simp only [keeps_next, State_decideRest_kept, kept_mk, kept_eta, State_raise_kept, State_setF_kept,
        State_modPwr_kept, State_endFreeze_kept, State_railsOff_kept, *]; done)
    | intro _
    | (with_reducible refine (foldl_kept _ ?_ _ _).trans ?_)
    | split
    | (simp only [keeps_next, State_decideRest_kept, kept_mk, kept_eta, State_raise_kept, State_setF_kept,
        State_modPwr_kept, State_endFreeze_kept, State_railsOff_kept, *])

theorem State_removalAt_kept (x0 : State) (x1 : Option Nat) :
    (State.removalAt x0 x1).kept = x0.kept := by
  unfold State.removalAt
  repeat'
    first
    | with_reducible rfl
    | assumption
    | (simp only [State_removalStep_kept, *]; done)
    | intro _
    | split
    | (simp only [State_removalStep_kept, *])

theorem State_diesEnd_kept (x0 : State) :
    (State.diesEnd x0).kept = x0.kept := by
  unfold State.diesEnd
  repeat'
    first
    | with_reducible rfl
    | assumption
    | (simp only [State_cycleEnd_kept, *]; done)
    | intro _
    | (with_reducible refine (foldl_kept _ ?_ _ _).trans ?_)
    | split
    | (simp only [State_cycleEnd_kept, *])

theorem State_idle_kept (x0 : State) :
    (State.idle x0).kept = x0.kept := by
  unfold State.idle; simp only [ite_kept, State_tick_kept, State_removalAt_kept, State_diesEnd_kept, ite_self]

theorem execModResetN_kept (x0 : Bool) (x1 : State) {kk} (hk : x1.kept = kk) :
    Keeps (execModResetN x0 x1) kk := by
  subst hk; unfold execModResetN; simp only [keeps_ite, keeps_next, State_modPwr_kept, ite_kept, State_mainReset_kept,
      ite_self, State_coldBegin_kept]

theorem execPresentNMake_kept (x0 : State) {kk} (hk : x0.kept = kk) :
    Keeps (execPresentNMake x0) kk := by
  subst hk; unfold execPresentNMake; simp only [keeps_ite, keeps_next, State_modPwr_kept, ite_self]

/-! ### Queues -/

theorem State_retryQueue_kept (x0 : State) (x1 : Nat) (x2 : Nat) :
    (State.retryQueue x0 x1 x2).kept = x0.kept := by
  unfold State.retryQueue
  repeat'
    first
    | with_reducible rfl
    | assumption
    | (simp only [State_settle_kept, State_dmaRecordRetry_kept, State_dmaAppend_kept, State_recordOut_kept, *]; done)
    | intro _
    | (with_reducible refine (foldl_kept _ ?_ _ _).trans ?_)
    | split
    | (simp only [State_settle_kept, State_dmaRecordRetry_kept, State_dmaAppend_kept, State_recordOut_kept, *])

theorem execQueueRetry_kept (x0 : Nat) (x1 : Nat) (x2 : State) {kk} (hk : x2.kept = kk) :
    Keeps (execQueueRetry x0 x1 x2) kk := by
  subst hk; unfold execQueueRetry; simp only [keeps_ite, keeps_next, State_retryQueue_kept, ite_self]

theorem execDspQHeadWrite_kept (x0 : Init) (x1 : Nat) (x2 : Word) (x3 : State) {kk} (hk : x3.kept = kk) :
    Keeps (execDspQHeadWrite x0 x1 x2 x3) kk := by
  subst hk; unfold execDspQHeadWrite; simp only [keeps_ite, hostErr_kept, keeps_next, State_viewMiss_kept,
      State_retryQueue_kept, State_setRing_kept, ite_self]

/-! ### Registers -/

theorem State_engineStatus_kept (x0 : State) (x1 : Nat) (x2 : Nat) (x3 : Nat) (x4 : Fld) (x5 : Fld) (x6 : Fld) (x7 : Fld) (x8 : Fld) :
    (State.engineStatus x0 x1 x2 x3 x4 x5 x6 x7 x8).kept = x0.kept := by
  unfold State.engineStatus; simp only [State_setF_kept]

theorem State_engineRegs_kept (x0 : State) (x1 : Nat) :
    (State.engineRegs x0 x1).kept = x0.kept := by
  unfold State.engineRegs
  repeat'
    first
    | with_reducible rfl
    | assumption
    | (simp only [State_engineStatus_kept, *]; done)
    | intro _
    | (with_reducible refine (foldl_kept _ ?_ _ _).trans ?_)
    | split
    | (simp only [State_engineStatus_kept, *])

theorem State_nodeRegs_kept (x0 : State) (x1 : Nat) :
    (State.nodeRegs x0 x1).kept = x0.kept := by
  unfold State.nodeRegs
  repeat'
    first
    | with_reducible rfl
    | assumption
    | (simp only [State_setF_kept, kept_mk, kept_eta, *]; done)
    | intro _
    | (with_reducible refine (foldl_kept _ ?_ _ _).trans ?_)
    | split
    | (simp only [State_setF_kept, kept_mk, kept_eta, *])

theorem State_measure_kept (x0 : State) (x1 : Nat) (x2 : Fld) (x3 : Nat) (x4 : Nat) :
    (State.measure x0 x1 x2 x3 x4).kept = x0.kept := by
  unfold State.measure; simp only [State_setF_kept, State_free_kept]

theorem State_dieRegs_kept (x0 : State) (x1 : Nat) :
    (State.dieRegs x0 x1).kept = x0.kept := by
  unfold State.dieRegs
  repeat'
    first
    | with_reducible rfl
    | assumption
    | (simp only [State_measure_kept, State_flagRegs_kept, State_domainRegs_kept, State_setF_kept, State_ctlRegs_kept,
        State_seqRegs_kept, State_nodeRegs_kept, State_dmaRegs_kept, State_engineRegs_kept, State_unitRegs_kept,
        *]; done)
    | intro _
    | (with_reducible refine (foldl_kept _ ?_ _ _).trans ?_)
    | split
    | (simp only [State_measure_kept, State_flagRegs_kept, State_domainRegs_kept, State_setF_kept, State_ctlRegs_kept,
        State_seqRegs_kept, State_nodeRegs_kept, State_dmaRegs_kept, State_engineRegs_kept, State_unitRegs_kept, *])

theorem State_ingLive_kept (x0 : State) :
    (State.ingLive x0).kept = x0.kept := by
  unfold State.ingLive
  repeat'
    first
    | with_reducible rfl
    | assumption
    | (simp only [State_linkRegs_kept, State_ingRegs_kept, State_setF_kept, *]; done)
    | intro _
    | (with_reducible refine (foldl_kept _ ?_ _ _).trans ?_)
    | split
    | (simp only [State_linkRegs_kept, State_ingRegs_kept, State_setF_kept, *])

theorem State_hubRegs_kept (x0 : State) :
    (State.hubRegs x0).kept = x0.kept := by
  unfold State.hubRegs
  repeat'
    first
    | with_reducible rfl
    | assumption
    | (simp only [State_measure_kept, State_domainRegs_kept, State_setF_kept, State_portRegs_kept, State_linkRegs_kept,
        State_strRegs_kept, State_ispRegs_kept, State_ingRegs_kept, *]; done)
    | intro _
    | (with_reducible refine (foldl_kept _ ?_ _ _).trans ?_)
    | split
    | (simp only [State_measure_kept, State_domainRegs_kept, State_setF_kept, State_portRegs_kept, State_linkRegs_kept,
        State_strRegs_kept, State_ispRegs_kept, State_ingRegs_kept, *])

theorem execShadowRefresh_kept (x0 : Nat) (x1 : State) {kk} (hk : x1.kept = kk) :
    Keeps (execShadowRefresh x0 x1) kk := by
  subst hk; unfold execShadowRefresh; simp only [keeps_ite, keeps_next, kept_mk, kept_eta, ite_kept, State_hubRegs_kept,
      State_dieRegs_kept, ite_self]

theorem State_liveRegs_kept (x0 : State) (x1 : Nat) (x2 : Nat) :
    (State.liveRegs x0 x1 x2).kept = x0.kept := by
  unfold State.liveRegs; simp only [ite_kept, State_secRegs_kept, State_frzRegs_kept, State_clkRegs_kept,
      State_syncRegs_kept, State_ingLive_kept, State_measure_kept, ite_self, State_setF_kept, State_flagRegs_kept,
      State_chanRegs_kept]

theorem State_readRegister_kept (x0 : State) (x1 : Nat) (x2 : Nat) (x3 : RegSpec) (x4 : Nat) (x5 : Bool) :
    (State.readRegister x0 x1 x2 x3 x4 x5).2.kept = x0.kept := by
  unfold State.readRegister
  repeat'
    first
    | with_reducible rfl
    | assumption
    | (simp only [State_liveRegs_kept, State_free_kept, State_setReg_kept, *]; done)
    | intro _
    | split
    | (simp only [State_liveRegs_kept, State_free_kept, State_setReg_kept, *])

theorem State_endPairs_kept (x0 : State) (x1 : Init) (x2 : Nat) (x3 : Nat) :
    (State.endPairs x0 x1 x2 x3).kept = x0.kept := by
  unfold State.endPairs; simp only [kept_mk, kept_eta]

theorem State_readNodePair_kept (s : State) (w : Init) (d p o : Nat) (r : RegSpec) (i : Nat) (b : Bool) : (s.readNodePair w d p o r i b).kept = s.kept := by
  unfold State.readNodePair
  split
  · exact State_answer_kept _ _
  · split
    rename_i a t h
    have ht : t.kept = s.kept := kept_snd h (State_readRegister_kept _ _ _ _ _ _)
    clear h
    split
    · rw [State_answer_kept, State_capture_kept, ht]
    · rw [State_answer_kept, ht]

theorem State_readPlace_kept (s : State) (w : Init) (d p : Nat) (b : Bool) {kk} (hk : s.kept = kk) : Keeps (s.readPlace w d p b) kk := by
  subst hk; unfold State.readPlace
  split
  · simp only [State_readErr_kept, keeps_next, State_answer_kept, State_free_kept, execTsnWallLoRead_kept,
      execTsnTimeRead_kept, execFtrTrackDataRead_kept, State_readNodePair_kept, State_readRegister_kept,
      State_capture_kept]
  · rename_i r i _
    refine keeps_if ?_ (keeps_if ?_ (keeps_if ?_ (keeps_if ?_ (keeps_if ?_ (keeps_if ?_ (keeps_if ?_ ?_))))))
    · exact (keeps_next _ _).mpr ((State_answer_kept _ _).trans (State_free_kept _))
    · exact execTsnWallLoRead_kept _ _ rfl
    · split
      · exact (keeps_next _ _).mpr (State_answer_kept _ _)
      · exact (keeps_next _ _).mpr (State_answer_kept _ _)
    · exact execTsnTimeRead_kept _ _ rfl
    · refine keeps_if ?_ ?_
      · exact execFtrTrackDataRead_kept _ _ _ _ rfl
      · exact (keeps_next _ _).mpr (State_answer_kept _ _)
    · exact (keeps_next _ _).mpr (State_answer_kept _ _)
    · exact (keeps_next _ _).mpr (State_answer_kept _ _)
    · split
      · exact (keeps_next _ _).mpr (State_readNodePair_kept _ _ _ _ _ _ _ _)
      · split
        rename_i a t h
        replace h : t.kept = s.kept := kept_snd h (State_readRegister_kept _ _ _ _ _ _)
        refine keeps_if ?_ (keeps_if ?_ ?_)
        · split
          · exact (keeps_next _ _).mpr ((State_answer_kept _ _).trans ((State_capture_kept _ _ _).trans h))
          · exact (keeps_next _ _).mpr ((State_answer_kept _ _).trans h)
        · split
          · exact (keeps_next _ _).mpr ((State_answer_kept _ _).trans h)
          · exact (keeps_next _ _).mpr ((State_answer_kept _ _).trans h)
        · exact (keeps_next _ _).mpr ((State_answer_kept _ _).trans h)

theorem State_writeRegister_kept (x0 : State) (x1 : Nat) (x2 : Nat) (x3 : RegSpec) (x4 : Nat) (x5 : Bool) (x6 : Word) {kk} (hk : x0.kept = kk) :
    Keeps (State.writeRegister x0 x1 x2 x3 x4 x5 x6) kk := by
  subst hk; unfold State.writeRegister; simp only [keeps_next, State_setReg_kept]

theorem State_writeChCtl_kept (x0 : State) (x1 : Init) (x2 : Nat) (x3 : Nat) (x4 : Nat) {kk} (hk : x0.kept = kk) :
    Keeps (State.writeChCtl x0 x1 x2 x3 x4) kk := by
  subst hk; unfold State.writeChCtl
  repeat'
    first
    | with_reducible rfl
    | assumption
    | (simp only [keeps_ite, execDmaRetry_kept, keeps_next, ite_self, execDmaSkip_kept, execDmaPause_kept,
        execDmaResume_kept, *]; done)
    | intro _
    | (with_reducible refine keeps_andThen ?_ ?_)
    | split
    | (simp only [keeps_ite, execDmaRetry_kept, keeps_next, ite_self, execDmaSkip_kept, execDmaPause_kept,
        execDmaResume_kept, *])

theorem State_writePlace_kept (x0 : State) (x1 : Init) (x2 : Nat) (x3 : Nat) (x4 : Bool) (x5 : Word) {kk} (hk : x0.kept = kk) :
    Keeps (State.writePlace x0 x1 x2 x3 x4 x5) kk := by
  subst hk; unfold State.writePlace
  repeat'
    first
    | with_reducible rfl
    | assumption
    | (simp only [hostErr_kept, keeps_ite, keeps_next, State_modRec_kept, execEvrRaiseCode_kept, execBootReqCold_kept,
        execBootReqWarm_kept, ite_self, execIngI2cCmd_kept, execEvrFreezeSet_kept, execEvrFreezeClear_kept,
        execFrzCtlFreeze_kept, State_writeRegister_kept, execDspPush_kept, execDspCancelSlot_kept,
        execDspCancelNode_kept, execDspQHeadWrite_kept, execFtrTrackSelWrite_kept, execFlagSet_kept, execFlagAdd_kept,
        execDmaDoorbell_kept, State_writeChCtl_kept, *]; done)
    | intro _
    | split
    | (with_reducible refine hostErr_kept ?_)
    | (simp only [hostErr_kept, keeps_ite, keeps_next, State_modRec_kept, execEvrRaiseCode_kept, execBootReqCold_kept,
        execBootReqWarm_kept, ite_self, execIngI2cCmd_kept, execEvrFreezeSet_kept, execEvrFreezeClear_kept,
        execFrzCtlFreeze_kept, State_writeRegister_kept, execDspPush_kept, execDspCancelSlot_kept,
        execDspCancelNode_kept, execDspQHeadWrite_kept, execFtrTrackSelWrite_kept, execFlagSet_kept, execFlagAdd_kept,
        execDmaDoorbell_kept, State_writeChCtl_kept, *])

theorem State_viewAccess_kept {s : State} {w a n} {g : State → Nat → Result State} {f : State → Nat → Nat → Bool → Result State} (hg : ∀ x, Keeps (g s x) s.kept) (hf : ∀ t x y z, t.kept = s.kept → Keeps (f t x y z) s.kept) : Keeps (s.viewAccess w a n g f) s.kept := by
  unfold State.viewAccess State.noPlace; repeat' split
  all_goals
    first
    | exact hg _
    | exact hf _ _ _ _ rfl
    | exact hf _ _ _ _ (State_answer_kept _ _)
    | simp only [keeps_fault]

theorem State_regReadAt_kept (x0 : State) (x1 : Init) (x2 : Nat) (x3 : Nat) {kk} (hk : x0.kept = kk) :
    Keeps (State.regReadAt x0 x1 x2 x3) kk := by
  subst hk; unfold State.regReadAt
  repeat'
    first
    | with_reducible rfl
    | assumption
    | (simp only [State_readErr_kept, State_readPlace_kept, State_endPairs_kept, *]; done)
    | intro _
    | split
    | (with_reducible refine State_viewAccess_kept ?_ ?_)
    | (simp only [State_readErr_kept, State_readPlace_kept, State_endPairs_kept, *])

theorem State_regWriteAt_kept (x0 : State) (x1 : Init) (x2 : Nat) (x3 : Word) (x4 : Nat) {kk} (hk : x0.kept = kk) :
    Keeps (State.regWriteAt x0 x1 x2 x3 x4) kk := by
  subst hk; unfold State.regWriteAt
  repeat'
    first
    | with_reducible rfl
    | assumption
    | (simp only [hostErr_kept, State_writePlace_kept, State_endPairs_kept, *]; done)
    | intro _
    | split
    | (with_reducible refine hostErr_kept ?_)
    | (with_reducible refine State_viewAccess_kept ?_ ?_)
    | (simp only [hostErr_kept, State_writePlace_kept, State_endPairs_kept, *])

theorem execRegisterRead_kept (x0 : Init) (x1 : Nat) (x2 : Nat) (x3 : State) {kk} (hk : x3.kept = kk) :
    Keeps (execRegisterRead x0 x1 x2 x3) kk := by
  subst hk; unfold execRegisterRead
  repeat'
    first
    | with_reducible rfl
    | assumption
    | (simp only [keeps_ite, State_readErr_kept, keeps_next, State_answer_kept, State_free_kept, ite_self,
        State_regReadAt_kept, *]; done)
    | intro _
    | split
    | (simp only [keeps_ite, State_readErr_kept, keeps_next, State_answer_kept, State_free_kept, ite_self,
        State_regReadAt_kept, *])

theorem execRegisterWrite_kept (x0 : Init) (x1 : Nat) (x2 : Word) (x3 : Nat) (x4 : State) {kk} (hk : x4.kept = kk) :
    Keeps (execRegisterWrite x0 x1 x2 x3 x4) kk := by
  subst hk; unfold execRegisterWrite; simp only [keeps_ite, keeps_next, State_regWriteAt_kept, ite_self]

theorem execRegLoRead_kept (x0 : Init) (x1 : Nat) (x2 : State) {kk} (hk : x2.kept = kk) :
    Keeps (execRegLoRead x0 x1 x2) kk := by
  subst hk; unfold execRegLoRead; simp only [keeps_ite, keeps_next, State_regReadAt_kept, State_readErr_kept, ite_self]

theorem execRegHiRead_kept (x0 : Init) (x1 : Nat) (x2 : State) {kk} (hk : x2.kept = kk) :
    Keeps (execRegHiRead x0 x1 x2) kk := by
  subst hk; unfold execRegHiRead; simp only [keeps_ite, keeps_next, State_regReadAt_kept, State_readErr_kept, ite_self]

theorem execRegLoWrite_kept (x0 : Init) (x1 : Nat) (x2 : Word) (x3 : State) {kk} (hk : x3.kept = kk) :
    Keeps (execRegLoWrite x0 x1 x2 x3) kk := by
  subst hk; unfold execRegLoWrite
  repeat'
    first
    | with_reducible rfl
    | assumption
    | (simp only [hostErr_kept, keeps_next, kept_mk, kept_eta, *]; done)
    | intro _
    | split
    | (with_reducible refine hostErr_kept ?_)
    | (with_reducible refine State_viewAccess_kept ?_ ?_)
    | (simp only [hostErr_kept, keeps_next, kept_mk, kept_eta, *])

theorem execRegHiWrite_kept (x0 : Init) (x1 : Nat) (x2 : Word) (x3 : State) {kk} (hk : x3.kept = kk) :
    Keeps (execRegHiWrite x0 x1 x2 x3) kk := by
  subst hk; unfold execRegHiWrite
  repeat'
    first
    | with_reducible rfl
    | assumption
    | (simp only [hostErr_kept, State_writePlace_kept, kept_mk, kept_eta, keeps_next, *]; done)
    | intro _
    | (with_reducible refine keeps_andThen ?_ ?_)
    | split
    | (with_reducible refine hostErr_kept ?_)
    | (with_reducible refine State_viewAccess_kept ?_ ?_)
    | (simp only [hostErr_kept, State_writePlace_kept, kept_mk, kept_eta, keeps_next, *])

theorem execCosyMailboxRead_kept (x0 : Nat) (x1 : State) {kk} (hk : x1.kept = kk) :
    Keeps (execCosyMailboxRead x0 x1) kk := by
  subst hk; unfold execCosyMailboxRead
  repeat'
    first
    | with_reducible rfl
    | assumption
    | (simp only [keeps_next, State_answer_kept, State_noPlace_kept (fun n => State_readErr_kept x1 n rfl), *]; done)
    | intro _
    | split
    | (simp only [keeps_next, State_answer_kept, State_noPlace_kept (fun n => State_readErr_kept x1 n rfl), *])

theorem execIngressBufferWrite_kept (x0 : Nat) (x1 : List Byte) (x2 : State) {kk} (hk : x2.kept = kk) :
    Keeps (execIngressBufferWrite x0 x1 x2) kk := by
  subst hk; unfold execIngressBufferWrite
  repeat'
    first
    | with_reducible rfl
    | assumption
    | (simp only [keeps_next, State_noPlace_kept (fun n => hostErr_kept x2 n rfl), *]; done)
    | intro _
    | split
    | (simp only [keeps_next, State_noPlace_kept (fun n => hostErr_kept x2 n rfl), *])

/-! ### Session -/

theorem State_modSec_kept (s : State) (f : Security → Security) : (s.modSec f).kept = (s.pending, s.m2, (f s.sec).serial, (f s.sec).vkey, (f s.sec).ikey, (f s.sec).lifecycle, (f s.sec).counter) := id rfl

theorem State_modSession_kept (x0 : State) (x1 : Session → Session) :
    (State.modSession x0 x1).kept = x0.kept := by
  unfold State.modSession; simp only [State_modSec_kept, kept_eta]

theorem execOpenSession_kept (x0 : Nat) (x1 : Hash) (x2 : Hash) (x3 : State) {kk} (hk : x3.kept = kk) :
    Keeps (execOpenSession x0 x1 x2 x3) kk := by
  subst hk; unfold execOpenSession; simp only [keeps_ite, keeps_next, State_refuse_kept, State_heard_kept,
      State_secRegs_kept, State_sendMsg_kept, State_modSec_kept, kept_eta, ite_self]

theorem State_proveFails_kept (x0 : State) :
    (State.proveFails x0).kept = x0.kept := by
  unfold State.proveFails; simp only [State_secRegs_kept, State_refuse_kept, State_raise_kept, State_bumpF_kept,
      State_modSec_kept, kept_eta]

theorem execProve_kept (x0 : List Byte) (x1 : State) {kk} (hk : x1.kept = kk) :
    Keeps (execProve x0 x1) kk := by
  subst hk; unfold execProve
  repeat'
    first
    | with_reducible rfl
    | assumption
    | (simp only [keeps_next, State_refuse_kept, keeps_ite, State_secRegs_kept, State_accept_kept, State_raise_kept,
        State_modSec_kept, kept_eta, State_modSession_kept, State_proveFails_kept, ite_self, *]; done)
    | intro _
    | split
    | (with_reducible refine State_message_kept ?_)
    | (simp only [keeps_next, State_refuse_kept, keeps_ite, State_secRegs_kept, State_accept_kept, State_raise_kept,
        State_modSec_kept, kept_eta, State_modSession_kept, State_proveFails_kept, ite_self, *])

theorem execClose_kept (x0 : State) {kk} (hk : x0.kept = kk) :
    Keeps (execClose x0) kk := by
  subst hk; unfold execClose
  repeat'
    first
    | with_reducible rfl
    | assumption
    | (simp only [keeps_next, State_secRegs_kept, State_modSec_kept, kept_eta, State_accept_kept, *]; done)
    | intro _
    | split
    | (with_reducible refine State_message_kept ?_)
    | (simp only [keeps_next, State_secRegs_kept, State_modSec_kept, kept_eta, State_accept_kept, *])

theorem execSessionTimeout_kept (x0 : State) {kk} (hk : x0.kept = kk) :
    Keeps (execSessionTimeout x0) kk := by
  subst hk; unfold execSessionTimeout
  repeat'
    first
    | with_reducible rfl
    | assumption
    | (simp only [keeps_next, keeps_ite, State_secRegs_kept, State_modSec_kept, kept_eta, ite_self, *]; done)
    | intro _
    | split
    | (simp only [keeps_next, keeps_ite, State_secRegs_kept, State_modSec_kept, kept_eta, ite_self, *])

theorem execAuthLockoutEnd_kept (x0 : State) {kk} (hk : x0.kept = kk) :
    Keeps (execAuthLockoutEnd x0) kk := by
  subst hk; unfold execAuthLockoutEnd
  repeat'
    first
    | with_reducible rfl
    | assumption
    | (simp only [keeps_next, keeps_ite, State_secRegs_kept, State_modSec_kept, kept_eta, ite_self, *]; done)
    | intro _
    | split
    | (simp only [keeps_next, keeps_ite, State_secRegs_kept, State_modSec_kept, kept_eta, ite_self, *])

theorem execAttest_kept (x0 : Hash) (x1 : State) {kk} (hk : x1.kept = kk) :
    Keeps (execAttest x0 x1) kk := by
  subst hk; unfold execAttest
  repeat'
    first
    | with_reducible rfl
    | assumption
    | (simp only [keeps_ite, keeps_next, State_refuse_kept, State_bumpF_kept, State_secRegs_kept, State_modSec_kept,
        kept_eta, ite_self, *]; done)
    | intro _
    | split
    | (with_reducible refine State_message_kept ?_)
    | (simp only [keeps_ite, keeps_next, State_refuse_kept, State_bumpF_kept, State_secRegs_kept, State_modSec_kept,
        kept_eta, ite_self, *])

theorem execAttestSigned_kept (x0 : State) {kk} (hk : x0.kept = kk) :
    Keeps (execAttestSigned x0) kk := by
  subst hk; unfold execAttestSigned
  repeat'
    first
    | with_reducible rfl
    | assumption
    | (simp only [keeps_next, keeps_ite, State_secRegs_kept, State_modSec_kept, kept_eta, State_freeBytes_kept,
        State_sendMsg_kept, State_raise_kept, State_bumpF_kept, ite_self, *]; done)
    | intro _
    | split
    | (simp only [keeps_next, keeps_ite, State_secRegs_kept, State_modSec_kept, kept_eta, State_freeBytes_kept,
        State_sendMsg_kept, State_raise_kept, State_bumpF_kept, ite_self, *])

theorem State_readWords_kept {n : Nat} {s : State} {a l s1 l1} (h : State.readWords n s a l = .next (s1, l1)) : s1.kept = s.kept := by
  induction n generalizing s a l with
  | zero => cases h; rfl
  | succ n ih =>
    unfold State.readWords at h; split at h
    · have h1 := (State_regReadAt_kept s .session a _ rfl).1 _ (by assumption)
      rw [ih h, ← h1]; simp only [Keeps.keeps, State_regReadAt_kept, kept_mk, kept_eta]
    · cases h
    · cases h

theorem execRegRead_kept (a c : Nat) (s : State) {kk} (hk : s.kept = kk) : Keeps (execRegRead a c s) kk := by
  subst hk; unfold execRegRead
  refine State_message_kept ?_
  intro x t ht
  split
  · simp only [keeps_next, State_sendMsg_kept, keeps_fault, keeps_refused, State_refuse_kept, ht]
  · split
    · rename_i h; have := State_readWords_kept h; simp only [keeps_next, State_sendMsg_kept, keeps_fault, keeps_refused,
        State_refuse_kept, this, ht]
    · simp only [keeps_next, State_sendMsg_kept, keeps_fault, keeps_refused, State_refuse_kept]
    · simp only [keeps_next, State_sendMsg_kept, keeps_fault, keeps_refused, State_refuse_kept]

theorem State_writeWords_kept (l : List Word) (s : State) (a : Nat) {kk} (hk : s.kept = kk) : Keeps (State.writeWords l s a) kk := by
  subst hk
  induction l generalizing s a with
  | nil =>
      unfold State.writeWords
      repeat'
        first
        | assumption
        | extract_lets
        | (simp only [keeps_next, Keeps.keeps, State_regWriteAt_kept, keeps_fault, keeps_refused, *]; done)
        | intro _
        | split
        | (simp only [keeps_next, Keeps.keeps, State_regWriteAt_kept, keeps_fault, keeps_refused, *])
  | cons w l ih =>
    unfold State.writeWords; split
    · have h1 := (State_regWriteAt_kept s .session a w _ rfl).1 _ (by assumption)
      rw [← h1]; exact ih _ _
    · simp only [keeps_next, Keeps.keeps, State_regWriteAt_kept, keeps_fault, keeps_refused]
    · simp only [keeps_next, Keeps.keeps, State_regWriteAt_kept, keeps_fault, keeps_refused]

theorem execRegWrite_kept (x0 : Nat) (x1 : List Word) (x2 : State) {kk} (hk : x2.kept = kk) :
    Keeps (execRegWrite x0 x1 x2) kk := by
  subst hk; unfold execRegWrite
  repeat'
    first
    | with_reducible rfl
    | assumption
    | (simp only [State_writeWords_kept, keeps_next, State_accept_kept, *]; done)
    | intro _
    | (with_reducible refine keeps_andThen ?_ ?_)
    | split
    | (with_reducible refine State_message_kept ?_)
    | (simp only [State_writeWords_kept, keeps_next, State_accept_kept, *])

theorem execLogRead_kept (x0 : Nat) (x1 : Nat) (x2 : State) {kk} (hk : x2.kept = kk) :
    Keeps (execLogRead x0 x1 x2) kk := by
  subst hk; unfold execLogRead
  repeat'
    first
    | with_reducible rfl
    | assumption
    | (simp only [keeps_next, State_sendMsg_kept, State_freeBytes_kept, *]; done)
    | intro _
    | split
    | (with_reducible refine State_message_kept ?_)
    | (simp only [keeps_next, State_sendMsg_kept, State_freeBytes_kept, *])

theorem State_putSlot_kept (x0 : State) (x1 : Bool) (x2 : Nat) (x3 : List Byte) :
    (State.putSlot x0 x1 x2 x3).kept = x0.kept := by
  unfold State.putSlot; simp only [ite_kept, kept_mk, kept_eta, ite_self]

theorem execUpload_kept (x0 : Bool) (x1 : Nat) (x2 : List Byte) (x3 : State) {kk} (hk : x3.kept = kk) :
    Keeps (execUpload x0 x1 x2 x3) kk := by
  subst hk; unfold execUpload
  repeat'
    first
    | with_reducible rfl
    | assumption
    | (simp only [keeps_ite, keeps_next, State_refuse_kept, State_accept_kept, State_putSlot_kept, ite_kept,
        State_setRecord_kept, State_modSession_kept, ite_self, *]; done)
    | intro _
    | split
    | (with_reducible refine State_message_kept ?_)
    | (simp only [keeps_ite, keeps_next, State_refuse_kept, State_accept_kept, State_putSlot_kept, ite_kept,
        State_setRecord_kept, State_modSession_kept, ite_self, *])

theorem execCommit_kept (x0 : State) {kk} (hk : x0.kept = kk) :
    Keeps (execCommit x0) kk := by
  subst hk; unfold execCommit
  repeat'
    first
    | with_reducible rfl
    | assumption
    | (simp only [keeps_next, State_refuse_kept, keeps_ite, State_setF_kept, kept_mk, kept_eta, ite_self, *]; done)
    | intro _
    | split
    | (with_reducible refine State_message_kept ?_)
    | (simp only [keeps_next, State_refuse_kept, keeps_ite, State_setF_kept, kept_mk, kept_eta, ite_self, *])

theorem execCommitReadbackDone_kept (x0 : Bool) (x1 : State) {kk} (hk : x1.kept = kk) :
    Keeps (execCommitReadbackDone x0 x1) kk := by
  subst hk; unfold execCommitReadbackDone
  repeat'
    first
    | with_reducible rfl
    | assumption
    | (simp only [keeps_next, ite_kept, State_secRegs_kept, State_modSec_kept, kept_eta, State_sendMsg_kept,
        State_setRecord_kept, State_setF_kept, kept_mk, ite_self, *]; done)
    | intro _
    | split
    | (simp only [keeps_next, ite_kept, State_secRegs_kept, State_modSec_kept, kept_eta, State_sendMsg_kept,
        State_setRecord_kept, State_setF_kept, kept_mk, ite_self, *])

theorem execHoldingColdStart_kept (x0 : State) {kk} (hk : x0.kept = kk) :
    Keeps (execHoldingColdStart x0) kk := by
  subst hk; unfold execHoldingColdStart; simp only [keeps_ite, keeps_next, State_coldBegin_kept, ite_self]

theorem execCosyImage_kept (x0 : Nat) (x1 : List Byte) (x2 : State) {kk} (hk : x2.kept = kk) :
    Keeps (execCosyImage x0 x1 x2) kk := by
  subst hk; unfold execCosyImage
  repeat'
    first
    | with_reducible rfl
    | assumption
    | (simp only [keeps_next, State_accept_kept, ite_kept, kept_mk, kept_eta, State_write_kept, ite_self,
        State_refuse_kept, *]; done)
    | intro _
    | split
    | (with_reducible refine State_message_kept ?_)
    | (simp only [keeps_next, State_accept_kept, ite_kept, kept_mk, kept_eta, State_write_kept, ite_self,
        State_refuse_kept, *])

theorem execCakSet_kept (x0 : List Byte) (x1 : State) {kk} (hk : x1.kept = kk) :
    Keeps (execCakSet x0 x1) kk := by
  subst hk; unfold execCakSet
  repeat'
    first
    | with_reducible rfl
    | assumption
    | (simp only [keeps_next, State_accept_kept, State_flashWrite_kept, *]; done)
    | intro _
    | split
    | (with_reducible refine State_message_kept ?_)
    | (simp only [keeps_next, State_accept_kept, State_flashWrite_kept, *])

theorem execUnlock_kept (x0 : List Byte) (x1 : List Byte) (x2 : State) {kk} (hk : x2.kept = kk) :
    Keeps (execUnlock x0 x1 x2) kk := by
  subst hk; unfold execUnlock
  repeat'
    first
    | with_reducible rfl
    | assumption
    | (simp only [keeps_ite, keeps_next, State_secRegs_kept, State_accept_kept, State_raise_kept, State_modSec_kept,
        kept_eta, State_refuse_kept, ite_self, *]; done)
    | intro _
    | split
    | (with_reducible refine State_message_kept ?_)
    | (simp only [keeps_ite, keeps_next, State_secRegs_kept, State_accept_kept, State_raise_kept, State_modSec_kept,
        kept_eta, State_refuse_kept, ite_self, *])

theorem execLoaderWrite_kept (x0 : Nat) (x1 : List Byte) (x2 : State) {kk} (hk : x2.kept = kk) :
    Keeps (execLoaderWrite x0 x1 x2) kk := by
  subst hk; unfold execLoaderWrite
  repeat'
    first
    | with_reducible rfl
    | assumption
    | (simp only [keeps_next, State_accept_kept, kept_mk, kept_eta, *]; done)
    | intro _
    | split
    | (with_reducible refine State_message_kept ?_)
    | (simp only [keeps_next, State_accept_kept, kept_mk, kept_eta, *])

theorem State_checkFailed_kept (x0 : State) (x1 : Nat) :
    (State.checkFailed x0 x1).kept = x0.kept := by
  unfold State.checkFailed; simp only [ite_kept, State_doubt_kept, State_raise_kept, State_secRegs_kept, ite_self]

theorem execOtpReread_kept (x0 : Nat) (x1 : Bool) (x2 : State) {kk} (hk : x2.kept = kk) :
    Keeps (execOtpReread x0 x1 x2) kk := by
  subst hk; unfold execOtpReread; simp only [keeps_ite, keeps_next, State_checkFailed_kept, State_modSec_kept, kept_eta,
      ite_self]

theorem execSecurityKat_kept (x0 : Nat) (x1 : Bool) (x2 : State) {kk} (hk : x2.kept = kk) :
    Keeps (execSecurityKat x0 x1 x2) kk := by
  subst hk; unfold execSecurityKat; simp only [keeps_ite, keeps_next, State_checkFailed_kept, State_modSec_kept,
      kept_eta, ite_self]

theorem execTrngSample_kept (x0 : Bool) (x1 : State) {kk} (hk : x1.kept = kk) :
    Keeps (execTrngSample x0 x1) kk := by
  subst hk; unfold execTrngSample; simp only [keeps_ite, keeps_next, State_checkFailed_kept, State_modSec_kept,
      kept_eta, ite_self]

/-! ### Stereo -/

theorem State_steCounts_kept (x0 : State) (x1 : Nat) (x2 : Nat) (x3 : List StePixel) :
    (State.steCounts x0 x1 x2 x3).kept = x0.kept := by
  unfold State.steCounts; simp only [State_bumpUnits_kept]

theorem execSteSgm_kept (x0 : Nat) (x1 : Nat) (x2 : State) {kk} (hk : x2.kept = kk) :
    Keeps (execSteSgm x0 x1 x2) kk := by
  subst hk; unfold execSteSgm
  repeat'
    first
    | with_reducible rfl
    | assumption
    | (simp only [keeps_next, hostErr_kept, keeps_ite, State_steCounts_kept, State_workDone_kept, ite_self, *]; done)
    | intro _
    | split
    | (with_reducible refine hostErr_kept ?_)
    | (simp only [keeps_next, hostErr_kept, keeps_ite, State_steCounts_kept, State_workDone_kept, ite_self, *])

theorem execSteTestFill_kept (x0 : Nat) (x1 : Nat) (x2 : State) {kk} (hk : x2.kept = kk) :
    Keeps (execSteTestFill x0 x1 x2) kk := by
  subst hk; unfold execSteTestFill
  repeat'
    first
    | with_reducible rfl
    | assumption
    | (simp only [keeps_next, hostErr_kept, State_steCounts_kept, State_workDone_kept, *]; done)
    | intro _
    | split
    | (with_reducible refine hostErr_kept ?_)
    | (simp only [keeps_next, hostErr_kept, State_steCounts_kept, State_workDone_kept, *])

/-! ### VectorUnit -/

theorem State_sendResult_kept (x0 : State) (x1 : CoreRef) (x2 : VWrite) {kk} (hk : x0.kept = kk) :
    Keeps (State.sendResult x0 x1 x2) kk := by
  subst hk; unfold State.sendResult; simp only [keeps_ite, State_coreErr_kept, keeps_next, State_modCore_kept, ite_self]

theorem execVectorLoad_kept (x0 : CoreRef) (x1 : Nat) (x2 : State) {kk} (hk : x2.kept = kk) :
    Keeps (execVectorLoad x0 x1 x2) kk := by
  subst hk; unfold execVectorLoad
  repeat'
    first
    | with_reducible rfl
    | assumption
    | (simp only [keeps_ite, keeps_next, State_coreErr_kept, State_sendResult_kept, State_occupy_kept,
        State_stepGen_kept, State_genRead_kept, ite_self, *]; done)
    | intro _
    | split
    | (with_reducible refine State_inBundle_kept ?_)
    | (simp only [keeps_ite, keeps_next, State_coreErr_kept, State_sendResult_kept, State_occupy_kept,
        State_stepGen_kept, State_genRead_kept, ite_self, *])

theorem execVectorStore_kept (x0 : CoreRef) (x1 : State) {kk} (hk : x1.kept = kk) :
    Keeps (execVectorStore x0 x1) kk := by
  subst hk; unfold execVectorStore
  repeat'
    first
    | with_reducible rfl
    | assumption
    | (simp only [keeps_ite, keeps_next, State_coreErr_kept, State_occupy_kept, State_stepGen_kept,
        State_portWrite_kept, *]; done)
    | intro _
    | (with_reducible refine (foldl_kept _ ?_ _ _).trans ?_)
    | split
    | (with_reducible refine State_inBundle_kept ?_)
    | (simp only [keeps_ite, keeps_next, State_coreErr_kept, State_occupy_kept, State_stepGen_kept, State_portWrite_kept, *])

theorem State_vectorFail_kept (x0 : State) (x1 : CoreRef) (x2 : Nat) (x3 : Nat) :
    (State.vectorFail x0 x1 x2 x3).kept = x0.kept := by
  unfold State.vectorFail; simp only [State_checkFail_kept, State_setF_kept, ite_kept, State_bumpF_kept, ite_self]

theorem State_vectorOp_kept (x0 : State) (x1 : VOp) (x2 : Nat) (x3 : Nat) (x4 : Bool) (x5 : Spread) (x6 : VIn → List Nat) {kk} (hk : x0.kept = kk) :
    Keeps (State.vectorOp x0 x1 x2 x3 x4 x5 x6) kk := by
  subst hk; unfold State.vectorOp
  repeat'
    first
    | with_reducible rfl
    | assumption
    | (simp only [keeps_ite, keeps_next, State_sendResult_kept, State_addFrame_kept, ite_self, State_vectorFail_kept,
        State_bumpF_kept, *]; done)
    | intro _
    | split
    | (with_reducible refine State_inBundle_kept ?_)
    | (simp only [keeps_ite, keeps_next, State_sendResult_kept, State_addFrame_kept, ite_self, State_vectorFail_kept,
        State_bumpF_kept, *])

theorem execAdd_kept (x0 : VOp) (x1 : State) {kk} (hk : x1.kept = kk) :
    Keeps (execAdd x0 x1) kk := by
  subst hk; unfold execAdd; simp only [State_vectorOp_kept]

theorem execSub_kept (x0 : VOp) (x1 : State) {kk} (hk : x1.kept = kk) :
    Keeps (execSub x0 x1) kk := by
  subst hk; unfold execSub; simp only [State_vectorOp_kept]

theorem execMul_kept (x0 : VOp) (x1 : State) {kk} (hk : x1.kept = kk) :
    Keeps (execMul x0 x1) kk := by
  subst hk; unfold execMul; simp only [State_vectorOp_kept]

theorem execFma_kept (x0 : VOp) (x1 : State) {kk} (hk : x1.kept = kk) :
    Keeps (execFma x0 x1) kk := by
  subst hk; unfold execFma; simp only [State_vectorOp_kept]

theorem execMax_kept (x0 : VOp) (x1 : State) {kk} (hk : x1.kept = kk) :
    Keeps (execMax x0 x1) kk := by
  subst hk; unfold execMax; simp only [State_vectorOp_kept]

theorem execMin_kept (x0 : VOp) (x1 : State) {kk} (hk : x1.kept = kk) :
    Keeps (execMin x0 x1) kk := by
  subst hk; unfold execMin; simp only [State_vectorOp_kept]

theorem execAbs_kept (x0 : VOp) (x1 : State) {kk} (hk : x1.kept = kk) :
    Keeps (execAbs x0 x1) kk := by
  subst hk; unfold execAbs; simp only [State_vectorOp_kept]

theorem execNeg_kept (x0 : VOp) (x1 : State) {kk} (hk : x1.kept = kk) :
    Keeps (execNeg x0 x1) kk := by
  subst hk; unfold execNeg; simp only [State_vectorOp_kept]

theorem execCmplt_kept (x0 : VOp) (x1 : State) {kk} (hk : x1.kept = kk) :
    Keeps (execCmplt x0 x1) kk := by
  subst hk; unfold execCmplt; simp only [State_vectorOp_kept]

theorem execCmpeq_kept (x0 : VOp) (x1 : State) {kk} (hk : x1.kept = kk) :
    Keeps (execCmpeq x0 x1) kk := by
  subst hk; unfold execCmpeq; simp only [State_vectorOp_kept]

theorem execSel_kept (x0 : VOp) (x1 : State) {kk} (hk : x1.kept = kk) :
    Keeps (execSel x0 x1) kk := by
  subst hk; unfold execSel; simp only [State_vectorOp_kept]

theorem execRcp_kept (x0 : VOp) (x1 : State) {kk} (hk : x1.kept = kk) :
    Keeps (execRcp x0 x1) kk := by
  subst hk; unfold execRcp; simp only [State_vectorOp_kept]

theorem execRsqrt_kept (x0 : VOp) (x1 : State) {kk} (hk : x1.kept = kk) :
    Keeps (execRsqrt x0 x1) kk := by
  subst hk; unfold execRsqrt; simp only [State_vectorOp_kept]

theorem execSqrt_kept (x0 : VOp) (x1 : State) {kk} (hk : x1.kept = kk) :
    Keeps (execSqrt x0 x1) kk := by
  subst hk; unfold execSqrt; simp only [State_vectorOp_kept]

theorem execExp2_kept (x0 : VOp) (x1 : State) {kk} (hk : x1.kept = kk) :
    Keeps (execExp2 x0 x1) kk := by
  subst hk; unfold execExp2; simp only [State_vectorOp_kept]

theorem execLog2_kept (x0 : VOp) (x1 : State) {kk} (hk : x1.kept = kk) :
    Keeps (execLog2 x0 x1) kk := by
  subst hk; unfold execLog2; simp only [State_vectorOp_kept]

theorem execTanh_kept (x0 : VOp) (x1 : State) {kk} (hk : x1.kept = kk) :
    Keeps (execTanh x0 x1) kk := by
  subst hk; unfold execTanh; simp only [State_vectorOp_kept]

theorem execSigmoid_kept (x0 : VOp) (x1 : State) {kk} (hk : x1.kept = kk) :
    Keeps (execSigmoid x0 x1) kk := by
  subst hk; unfold execSigmoid; simp only [State_vectorOp_kept]

theorem execRsum_kept (x0 : VOp) (x1 : State) {kk} (hk : x1.kept = kk) :
    Keeps (execRsum x0 x1) kk := by
  subst hk; unfold execRsum; simp only [State_vectorOp_kept]

theorem execRmax_kept (x0 : VOp) (x1 : State) {kk} (hk : x1.kept = kk) :
    Keeps (execRmax x0 x1) kk := by
  subst hk; unfold execRmax; simp only [State_vectorOp_kept]

theorem execBcast_kept (x0 : VOp) (x1 : State) {kk} (hk : x1.kept = kk) :
    Keeps (execBcast x0 x1) kk := by
  subst hk; unfold execBcast; simp only [State_vectorOp_kept]

theorem execPerm_kept (x0 : VOp) (x1 : State) {kk} (hk : x1.kept = kk) :
    Keeps (execPerm x0 x1) kk := by
  subst hk; unfold execPerm; simp only [State_vectorOp_kept]

theorem execMovi_kept (x0 : VOp) (x1 : State) {kk} (hk : x1.kept = kk) :
    Keeps (execMovi x0 x1) kk := by
  subst hk; unfold execMovi; simp only [State_vectorOp_kept]

theorem execPackbf_kept (x0 : VOp) (x1 : State) {kk} (hk : x1.kept = kk) :
    Keeps (execPackbf x0 x1) kk := by
  subst hk; unfold execPackbf; simp only [State_vectorOp_kept]

theorem execUnpkbf_kept (x0 : VOp) (x1 : State) {kk} (hk : x1.kept = kk) :
    Keeps (execUnpkbf x0 x1) kk := by
  subst hk; unfold execUnpkbf; simp only [State_vectorOp_kept]

theorem execPackh_kept (x0 : VOp) (x1 : State) {kk} (hk : x1.kept = kk) :
    Keeps (execPackh x0 x1) kk := by
  subst hk; unfold execPackh; simp only [State_vectorOp_kept]

theorem execUnpkh_kept (x0 : VOp) (x1 : State) {kk} (hk : x1.kept = kk) :
    Keeps (execUnpkh x0 x1) kk := by
  subst hk; unfold execUnpkh; simp only [State_vectorOp_kept]

theorem execCvtmx_kept (x0 : VOp) (x1 : State) {kk} (hk : x1.kept = kk) : Keeps (execCvtmx x0 x1) kk := by
  subst hk; unfold execCvtmx
  extract_lets f
  split
  · exact State_vectorOp_kept _ _ _ _ _ _ _ rfl
  · split
    · rename_i t h
      refine State_coreErr_kept _ _ _ ?_
      unfold State.atCycle at h; dsimp only at h
      repeat' split at h
      all_goals first | (cases h; done) | (injection h with h; subst h; simp only [State_coreErr_kept,
          State_firstBundle_kept, State_portsTo_kept, State_modCore_kept, keeps_next, State_vectorOp_kept])
    · exact (keeps_next _ _).mpr rfl

theorem execScins_kept (x0 : VOp) (x1 : State) {kk} (hk : x1.kept = kk) :
    Keeps (execScins x0 x1) kk := by
  subst hk; unfold execScins; simp only [State_vectorOp_kept]

theorem execIadd_kept (x0 : VOp) (x1 : State) {kk} (hk : x1.kept = kk) :
    Keeps (execIadd x0 x1) kk := by
  subst hk; unfold execIadd; simp only [State_vectorOp_kept]

theorem execIsub_kept (x0 : VOp) (x1 : State) {kk} (hk : x1.kept = kk) :
    Keeps (execIsub x0 x1) kk := by
  subst hk; unfold execIsub; simp only [State_vectorOp_kept]

theorem execImul_kept (x0 : VOp) (x1 : State) {kk} (hk : x1.kept = kk) :
    Keeps (execImul x0 x1) kk := by
  subst hk; unfold execImul; simp only [State_vectorOp_kept]

theorem execShl_kept (x0 : VOp) (x1 : State) {kk} (hk : x1.kept = kk) :
    Keeps (execShl x0 x1) kk := by
  subst hk; unfold execShl; simp only [State_vectorOp_kept]

theorem execShra_kept (x0 : VOp) (x1 : State) {kk} (hk : x1.kept = kk) :
    Keeps (execShra x0 x1) kk := by
  subst hk; unfold execShra; simp only [State_vectorOp_kept]

theorem execShrl_kept (x0 : VOp) (x1 : State) {kk} (hk : x1.kept = kk) :
    Keeps (execShrl x0 x1) kk := by
  subst hk; unfold execShrl; simp only [State_vectorOp_kept]

theorem execVand_kept (x0 : VOp) (x1 : State) {kk} (hk : x1.kept = kk) :
    Keeps (execVand x0 x1) kk := by
  subst hk; unfold execVand; simp only [State_vectorOp_kept]

theorem execVor_kept (x0 : VOp) (x1 : State) {kk} (hk : x1.kept = kk) :
    Keeps (execVor x0 x1) kk := by
  subst hk; unfold execVor; simp only [State_vectorOp_kept]

theorem execVxor_kept (x0 : VOp) (x1 : State) {kk} (hk : x1.kept = kk) :
    Keeps (execVxor x0 x1) kk := by
  subst hk; unfold execVxor; simp only [State_vectorOp_kept]

theorem execImin_kept (x0 : VOp) (x1 : State) {kk} (hk : x1.kept = kk) :
    Keeps (execImin x0 x1) kk := by
  subst hk; unfold execImin; simp only [State_vectorOp_kept]

theorem execImax_kept (x0 : VOp) (x1 : State) {kk} (hk : x1.kept = kk) :
    Keeps (execImax x0 x1) kk := by
  subst hk; unfold execImax; simp only [State_vectorOp_kept]

theorem execIcmplt_kept (x0 : VOp) (x1 : State) {kk} (hk : x1.kept = kk) :
    Keeps (execIcmplt x0 x1) kk := by
  subst hk; unfold execIcmplt; simp only [State_vectorOp_kept]

theorem execCvtif_kept (x0 : VOp) (x1 : State) {kk} (hk : x1.kept = kk) :
    Keeps (execCvtif x0 x1) kk := by
  subst hk; unfold execCvtif; simp only [State_vectorOp_kept]

theorem execCvtfi_kept (x0 : VOp) (x1 : State) {kk} (hk : x1.kept = kk) :
    Keeps (execCvtfi x0 x1) kk := by
  subst hk; unfold execCvtfi; simp only [State_vectorOp_kept]

theorem execIota_kept (x0 : VOp) (x1 : State) {kk} (hk : x1.kept = kk) :
    Keeps (execIota x0 x1) kk := by
  subst hk; unfold execIota; simp only [State_vectorOp_kept]

end Sys2Proof.Machine
end

