-- ==== Sys2Proof/Laws/Map.lean ====
section
/-! SUPPORT. The laws of sparse maps: what is read after a write, a removal or a clearing, and that each keeps the canonical
form. -/

namespace Sys2Proof.Machine

open Sys2Proof

variable {α : Type}

/-! ### Reading after writing -/

@[simp] theorem Map.get_nil (d : α) (k : Nat) : Map.get d [] k = d := rfl

@[simp] theorem Map.get_put_same (d : α) (m : Map α) (k : Nat) (v : α) : Map.get d (Map.put m k v) k = v := by
  induction m with
  | nil => simp [Map.put, Map.get]
  | cons p m ih =>
    unfold Map.put
    split
    · simp [Map.get]
    · split
      · simp [Map.get]
      · simp only [Map.get, ih]; split <;> simp_all

theorem Map.get_put_ne (d : α) (m : Map α) (k i : Nat) (v : α) (h : i ≠ k) :
    Map.get d (Map.put m k v) i = Map.get d m i := by
  induction m with
  | nil => simp [Map.put, Map.get, h]
  | cons p m ih =>
    unfold Map.put
    split
    · rename_i hk; simp [Map.get, ← hk, h]
    · split
      · simp [Map.get, h]
      · simp only [Map.get, ih]

@[simp] theorem Map.get_erase_same (d : α) (m : Map α) (k : Nat) : Map.get d (Map.erase m k) k = d := by
  unfold Map.erase
  induction m with
  | nil => rfl
  | cons p m ih =>
    by_cases h : p.1 = k
    · simpa [List.filter_cons, h] using ih
    · simp only [List.filter_cons, ne_eq, h, not_false_eq_true, decide_true, if_true, Map.get]
      rw [if_neg (fun e => h e.symm)]; exact ih

theorem Map.get_erase_ne (d : α) (m : Map α) (k i : Nat) (h : i ≠ k) : Map.get d (Map.erase m k) i = Map.get d m i := by
  unfold Map.erase
  induction m with
  | nil => rfl
  | cons p m ih =>
    by_cases hp : p.1 = k
    · have : i ≠ p.1 := fun e => h (e.trans hp)
      simp only [List.filter_cons, ne_eq, hp, not_true_eq_false, decide_false, Map.get]
      rw [if_neg (by simp), if_neg h]; exact ih
    · simp only [List.filter_cons, ne_eq, hp, not_false_eq_true, decide_true, if_true, Map.get, ih]

@[simp] theorem Map.get_set_same [DecidableEq α] (d : α) (m : Map α) (k : Nat) (v : α) :
    Map.get d (Map.set d m k v) k = v := by
  unfold Map.set; split
  · rename_i h; simp [h]
  · simp

theorem Map.get_set_ne [DecidableEq α] (d : α) (m : Map α) (k i : Nat) (v : α) (h : i ≠ k) :
    Map.get d (Map.set d m k v) i = Map.get d m i := by
  unfold Map.set; split
  · exact Map.get_erase_ne d m k i h
  · exact Map.get_put_ne d m k i v h

/-- A write with the default of one key is read through another key's default as before. -/
theorem Map.get_set_ne' [DecidableEq α] (d e : α) (m : Map α) (k i : Nat) (v : α) (h : i ≠ k) :
    Map.get e (Map.set d m k v) i = Map.get e m i := by
  unfold Map.set; split
  · exact Map.get_erase_ne e m k i h
  · exact Map.get_put_ne e m k i v h

theorem Map.get_set [DecidableEq α] (d : α) (m : Map α) (k i : Nat) (v : α) :
    Map.get d (Map.set d m k v) i = if i = k then v else Map.get d m i := by
  split
  · rename_i h; simp [h]
  · rename_i h; exact Map.get_set_ne d m k i v h

@[simp] theorem Map.get_modify_same [DecidableEq α] (d : α) (m : Map α) (k : Nat) (f : α → α) :
    Map.get d (Map.modify d m k f) k = f (Map.get d m k) := by
  simp [Map.modify]

theorem Map.get_modify_ne [DecidableEq α] (d : α) (m : Map α) (k i : Nat) (f : α → α) (h : i ≠ k) :
    Map.get d (Map.modify d m k f) i = Map.get d m i :=
  Map.get_set_ne d m k i _ h

theorem Map.get_clearRange_in (d : α) (lo hi : Nat) (m : Map α) (k : Nat) (h1 : lo ≤ k) (h2 : k < hi) :
    Map.get d (Map.clearRange lo hi m) k = d := by
  unfold Map.clearRange
  induction m with
  | nil => rfl
  | cons p m ih =>
    rw [List.filter_cons]
    split
    · rename_i h
      simp only [Bool.or_eq_true, decide_eq_true_eq] at h
      have : k ≠ p.1 := by omega
      simp only [Map.get, this, if_false]; exact ih
    · exact ih

theorem Map.get_clearRange_out (d : α) (lo hi : Nat) (m : Map α) (k : Nat) (h : k < lo ∨ hi ≤ k) :
    Map.get d (Map.clearRange lo hi m) k = Map.get d m k := by
  unfold Map.clearRange
  induction m with
  | nil => rfl
  | cons p m ih =>
    rw [List.filter_cons]
    split
    · simp only [Map.get, ih]
    · rename_i hp
      simp only [Bool.or_eq_true, decide_eq_true_eq] at hp
      have : k ≠ p.1 := by omega
      simp only [Map.get, this, if_false]; exact ih

/-! ### The canonical form -/

theorem Map.above_mono {j k : Nat} {m : Map α} (h : Map.above k m = true) (hjk : j ≤ k) : Map.above j m = true := by
  simp only [Map.above, List.all_eq_true, decide_eq_true_eq] at *
  intro p hp; have := h p hp; omega

theorem Map.above_put {j k : Nat} {m : Map α} {v : α} (h : Map.above j m = true) (hk : j < k) :
    Map.above j (Map.put m k v) = true := by
  induction m with
  | nil => simp [Map.put, Map.above, hk]
  | cons p m ih =>
    have h0 : j < p.1 ∧ Map.above j m = true := by simpa [Map.above] using h
    unfold Map.put
    split
    · simpa [Map.above, hk] using h0.2
    · split
      · simpa [Map.above, hk, h0.1] using h0.2
      · have := ih h0.2; simp only [Map.above, List.all_cons, Bool.and_eq_true, decide_eq_true_eq] at *
        exact ⟨h0.1, this⟩

theorem Map.above_filter {j : Nat} {m : Map α} (f : Nat × α → Bool) (h : Map.above j m = true) :
    Map.above j (m.filter f) = true := by
  simp only [Map.above, List.all_eq_true, decide_eq_true_eq, List.mem_filter] at *
  intro p hp; exact h p hp.1

variable [DecidableEq α]

theorem Map.wf_cons {d : α} {p : Nat × α} {m : Map α} :
    Map.wf d (p :: m) = true ↔ p.2 ≠ d ∧ Map.above p.1 m = true ∧ Map.wf d m = true := by
  obtain ⟨j, v⟩ := p
  simp [Map.wf, and_assoc]

theorem Map.wf_filter {d : α} {m : Map α} (f : Nat × α → Bool) (h : Map.wf d m = true) : Map.wf d (m.filter f) = true := by
  induction m with
  | nil => rfl
  | cons p m ih =>
    obtain ⟨h1, h2, h3⟩ := Map.wf_cons.mp h
    rw [List.filter_cons]
    split
    · exact Map.wf_cons.mpr ⟨h1, Map.above_filter f h2, ih h3⟩
    · exact ih h3

theorem Map.wf_put {d : α} {m : Map α} {k : Nat} {v : α} (h : Map.wf d m = true) (hv : v ≠ d) :
    Map.wf d (Map.put m k v) = true := by
  induction m with
  | nil => simp [Map.put, Map.wf, Map.above, hv]
  | cons p m ih =>
    obtain ⟨h1, h2, h3⟩ := Map.wf_cons.mp h
    unfold Map.put
    split
    · rename_i hk; exact Map.wf_cons.mpr ⟨hv, by simpa [hk] using h2, h3⟩
    · split
      · rename_i hk
        refine Map.wf_cons.mpr ⟨hv, ?_, h⟩
        have := Map.above_mono h2 (Nat.le_of_lt hk)
        simpa [Map.above, hk] using this
      · exact Map.wf_cons.mpr ⟨h1, Map.above_put h2 (by omega), ih h3⟩

/-- A write keeps the canonical form. -/
theorem Map.wf_set {d : α} {m : Map α} {k : Nat} {v : α} (h : Map.wf d m = true) : Map.wf d (Map.set d m k v) = true := by
  unfold Map.set; split
  · exact Map.wf_filter _ h
  · rename_i hv; exact Map.wf_put h hv

/-- Clearing a range keeps the canonical form. -/
theorem Map.wf_clearRange {d : α} {m : Map α} {lo hi : Nat} (h : Map.wf d m = true) :
    Map.wf d (Map.clearRange lo hi m) = true := Map.wf_filter _ h

/-- Two maps, the keys of the first below those of the second, joined. -/
theorem Map.wf_append {d : α} {m n : Map α} (hm : Map.wf d m = true) (hn : Map.wf d n = true)
    (h : ∀ p ∈ m, ∀ q ∈ n, p.1 < q.1) : Map.wf d (m ++ n) = true := by
  induction m with
  | nil => exact hn
  | cons p m ih =>
    obtain ⟨h1, h2, h3⟩ := Map.wf_cons.mp hm
    refine Map.wf_cons.mpr ⟨h1, ?_, ih h3 (fun a ha b hb => h a (List.mem_cons_of_mem _ ha) b hb)⟩
    show List.all (List.append m n) _ = true
    rw [List.append_eq, List.all_append, Bool.and_eq_true]
    refine ⟨h2, ?_⟩
    simp only [List.all_eq_true, decide_eq_true_eq]
    exact fun q hq => h p (List.mem_cons_self ..) q hq

/-- Every key listed in a canonical map's tail is above its head's. -/
theorem Map.lt_of_wf {d : α} {p q : Nat × α} {m : Map α} (h : Map.wf d (p :: m) = true) (hq : q ∈ m) : p.1 < q.1 := by
  have := (Map.wf_cons.mp h).2.1
  simp only [Map.above, List.all_eq_true, decide_eq_true_eq] at this
  exact this q hq

end Sys2Proof.Machine
end

