-- ==== Sys2Proof/Laws/State.lean ====
section
/-! SUPPORT. What the named updates of the state leave alone: one lemma for each field of the state and each update that does not touch
it, true by unfolding, so that no proof has to open an update. -/

namespace Sys2Proof.Machine

open Sys2Proof

variable (s : State)

@[simp] theorem State.setReg_pending (d b x r : Nat) (w : Word) : (s.setReg d b x r w).pending = s.pending := rfl
@[simp] theorem State.setReg_m2 (d b x r : Nat) (w : Word) : (s.setReg d b x r w).m2 = s.m2 := rfl
@[simp] theorem State.setReg_deviceTime (d b x r : Nat) (w : Word) : (s.setReg d b x r w).deviceTime = s.deviceTime := rfl
@[simp] theorem State.setReg_time (d b x r : Nat) (w : Word) : (s.setReg d b x r w).time = s.time := rfl
@[simp] theorem State.setReg_shadow (d b x r : Nat) (w : Word) : (s.setReg d b x r w).shadow = s.shadow := rfl
@[simp] theorem State.setReg_captures (d b x r : Nat) (w : Word) : (s.setReg d b x r w).captures = s.captures := rfl
@[simp] theorem State.setReg_loHeld (d b x r : Nat) (w : Word) : (s.setReg d b x r w).loHeld = s.loHeld := rfl
@[simp] theorem State.setReg_mem (d b x r : Nat) (w : Word) : (s.setReg d b x r w).mem = s.mem := rfl
@[simp] theorem State.setReg_poison (d b x r : Nat) (w : Word) : (s.setReg d b x r w).poison = s.poison := rfl
@[simp] theorem State.setReg_locked (d b x r : Nat) (w : Word) : (s.setReg d b x r w).locked = s.locked := rfl
@[simp] theorem State.setReg_flags (d b x r : Nat) (w : Word) : (s.setReg d b x r w).flags = s.flags := rfl
@[simp] theorem State.setReg_caddy (d b x r : Nat) (w : Word) : (s.setReg d b x r w).caddy = s.caddy := rfl
@[simp] theorem State.setReg_flash (d b x r : Nat) (w : Word) : (s.setReg d b x r w).flash = s.flash := rfl
@[simp] theorem State.setReg_boot (d b x r : Nat) (w : Word) : (s.setReg d b x r w).boot = s.boot := rfl
@[simp] theorem State.setReg_links (d b x r : Nat) (w : Word) : (s.setReg d b x r w).links = s.links := rfl
@[simp] theorem State.setReg_dies (d b x r : Nat) (w : Word) : (s.setReg d b x r w).dies = s.dies := rfl
@[simp] theorem State.setReg_root (d b x r : Nat) (w : Word) : (s.setReg d b x r w).root = s.root := rfl
@[simp] theorem State.setReg_notices (d b x r : Nat) (w : Word) : (s.setReg d b x r w).notices = s.notices := rfl
@[simp] theorem State.setReg_travel (d b x r : Nat) (w : Word) : (s.setReg d b x r w).travel = s.travel := rfl
@[simp] theorem State.setReg_streams (d b x r : Nat) (w : Word) : (s.setReg d b x r w).streams = s.streams := rfl
@[simp] theorem State.setReg_pairs (d b x r : Nat) (w : Word) : (s.setReg d b x r w).pairs = s.pairs := rfl
@[simp] theorem State.setReg_saf (d b x r : Nat) (w : Word) : (s.setReg d b x r w).saf = s.saf := rfl
@[simp] theorem State.setReg_cosyView (d b x r : Nat) (w : Word) : (s.setReg d b x r w).cosyView = s.cosyView := rfl
@[simp] theorem State.setReg_cosy (d b x r : Nat) (w : Word) : (s.setReg d b x r w).cosy = s.cosy := rfl
@[simp] theorem State.setReg_recorder (d b x r : Nat) (w : Word) : (s.setReg d b x r w).recorder = s.recorder := rfl
@[simp] theorem State.setReg_evDue (d b x r : Nat) (w : Word) : (s.setReg d b x r w).evDue = s.evDue := rfl
@[simp] theorem State.setReg_doubtDue (d b x r : Nat) (w : Word) : (s.setReg d b x r w).doubtDue = s.doubtDue := rfl
@[simp] theorem State.setReg_ingress (d b x r : Nat) (w : Word) : (s.setReg d b x r w).ingress = s.ingress := rfl
@[simp] theorem State.setReg_ingStreams (d b x r : Nat) (w : Word) : (s.setReg d b x r w).ingStreams = s.ingStreams := rfl
@[simp] theorem State.setReg_ringHold (d b x r : Nat) (w : Word) : (s.setReg d b x r w).ringHold = s.ringHold := rfl
@[simp] theorem State.setReg_ports (d b x r : Nat) (w : Word) : (s.setReg d b x r w).ports = s.ports := rfl
@[simp] theorem State.setReg_ring (d b x r : Nat) (w : Word) : (s.setReg d b x r w).ring = s.ring := rfl
@[simp] theorem State.setReg_sec (d b x r : Nat) (w : Word) : (s.setReg d b x r w).sec = s.sec := rfl
@[simp] theorem State.setReg_pwr (d b x r : Nat) (w : Word) : (s.setReg d b x r w).pwr = s.pwr := rfl
@[simp] theorem State.setReg_frz (d b x r : Nat) (w : Word) : (s.setReg d b x r w).frz = s.frz := rfl
@[simp] theorem State.setReg_out (d b x r : Nat) (w : Word) : (s.setReg d b x r w).out = s.out := rfl
@[simp] theorem State.setReg_tally (d b x r : Nat) (w : Word) : (s.setReg d b x r w).tally = s.tally := rfl
@[simp] theorem State.setReg_perFrame (d b x r : Nat) (w : Word) : (s.setReg d b x r w).perFrame = s.perFrame := rfl
@[simp] theorem State.setReg_freeCtr (d b x r : Nat) (w : Word) : (s.setReg d b x r w).freeCtr = s.freeCtr := rfl

@[simp] theorem State.setF_pending (d : Nat) (f : Fld) (v i x : Nat) : (s.setF d f v i x).pending = s.pending := rfl
@[simp] theorem State.setF_m2 (d : Nat) (f : Fld) (v i x : Nat) : (s.setF d f v i x).m2 = s.m2 := rfl
@[simp] theorem State.setF_deviceTime (d : Nat) (f : Fld) (v i x : Nat) : (s.setF d f v i x).deviceTime = s.deviceTime := rfl
@[simp] theorem State.setF_time (d : Nat) (f : Fld) (v i x : Nat) : (s.setF d f v i x).time = s.time := rfl
@[simp] theorem State.setF_shadow (d : Nat) (f : Fld) (v i x : Nat) : (s.setF d f v i x).shadow = s.shadow := rfl
@[simp] theorem State.setF_captures (d : Nat) (f : Fld) (v i x : Nat) : (s.setF d f v i x).captures = s.captures := rfl
@[simp] theorem State.setF_loHeld (d : Nat) (f : Fld) (v i x : Nat) : (s.setF d f v i x).loHeld = s.loHeld := rfl
@[simp] theorem State.setF_mem (d : Nat) (f : Fld) (v i x : Nat) : (s.setF d f v i x).mem = s.mem := rfl
@[simp] theorem State.setF_poison (d : Nat) (f : Fld) (v i x : Nat) : (s.setF d f v i x).poison = s.poison := rfl
@[simp] theorem State.setF_locked (d : Nat) (f : Fld) (v i x : Nat) : (s.setF d f v i x).locked = s.locked := rfl
@[simp] theorem State.setF_flags (d : Nat) (f : Fld) (v i x : Nat) : (s.setF d f v i x).flags = s.flags := rfl
@[simp] theorem State.setF_caddy (d : Nat) (f : Fld) (v i x : Nat) : (s.setF d f v i x).caddy = s.caddy := rfl
@[simp] theorem State.setF_flash (d : Nat) (f : Fld) (v i x : Nat) : (s.setF d f v i x).flash = s.flash := rfl
@[simp] theorem State.setF_boot (d : Nat) (f : Fld) (v i x : Nat) : (s.setF d f v i x).boot = s.boot := rfl
@[simp] theorem State.setF_links (d : Nat) (f : Fld) (v i x : Nat) : (s.setF d f v i x).links = s.links := rfl
@[simp] theorem State.setF_dies (d : Nat) (f : Fld) (v i x : Nat) : (s.setF d f v i x).dies = s.dies := rfl
@[simp] theorem State.setF_root (d : Nat) (f : Fld) (v i x : Nat) : (s.setF d f v i x).root = s.root := rfl
@[simp] theorem State.setF_notices (d : Nat) (f : Fld) (v i x : Nat) : (s.setF d f v i x).notices = s.notices := rfl
@[simp] theorem State.setF_travel (d : Nat) (f : Fld) (v i x : Nat) : (s.setF d f v i x).travel = s.travel := rfl
@[simp] theorem State.setF_streams (d : Nat) (f : Fld) (v i x : Nat) : (s.setF d f v i x).streams = s.streams := rfl
@[simp] theorem State.setF_pairs (d : Nat) (f : Fld) (v i x : Nat) : (s.setF d f v i x).pairs = s.pairs := rfl
@[simp] theorem State.setF_saf (d : Nat) (f : Fld) (v i x : Nat) : (s.setF d f v i x).saf = s.saf := rfl
@[simp] theorem State.setF_cosyView (d : Nat) (f : Fld) (v i x : Nat) : (s.setF d f v i x).cosyView = s.cosyView := rfl
@[simp] theorem State.setF_cosy (d : Nat) (f : Fld) (v i x : Nat) : (s.setF d f v i x).cosy = s.cosy := rfl
@[simp] theorem State.setF_recorder (d : Nat) (f : Fld) (v i x : Nat) : (s.setF d f v i x).recorder = s.recorder := rfl
@[simp] theorem State.setF_evDue (d : Nat) (f : Fld) (v i x : Nat) : (s.setF d f v i x).evDue = s.evDue := rfl
@[simp] theorem State.setF_doubtDue (d : Nat) (f : Fld) (v i x : Nat) : (s.setF d f v i x).doubtDue = s.doubtDue := rfl
@[simp] theorem State.setF_ingress (d : Nat) (f : Fld) (v i x : Nat) : (s.setF d f v i x).ingress = s.ingress := rfl
@[simp] theorem State.setF_ingStreams (d : Nat) (f : Fld) (v i x : Nat) : (s.setF d f v i x).ingStreams = s.ingStreams := rfl
@[simp] theorem State.setF_ringHold (d : Nat) (f : Fld) (v i x : Nat) : (s.setF d f v i x).ringHold = s.ringHold := rfl
@[simp] theorem State.setF_ports (d : Nat) (f : Fld) (v i x : Nat) : (s.setF d f v i x).ports = s.ports := rfl
@[simp] theorem State.setF_ring (d : Nat) (f : Fld) (v i x : Nat) : (s.setF d f v i x).ring = s.ring := rfl
@[simp] theorem State.setF_sec (d : Nat) (f : Fld) (v i x : Nat) : (s.setF d f v i x).sec = s.sec := rfl
@[simp] theorem State.setF_pwr (d : Nat) (f : Fld) (v i x : Nat) : (s.setF d f v i x).pwr = s.pwr := rfl
@[simp] theorem State.setF_frz (d : Nat) (f : Fld) (v i x : Nat) : (s.setF d f v i x).frz = s.frz := rfl
@[simp] theorem State.setF_out (d : Nat) (f : Fld) (v i x : Nat) : (s.setF d f v i x).out = s.out := rfl
@[simp] theorem State.setF_tally (d : Nat) (f : Fld) (v i x : Nat) : (s.setF d f v i x).tally = s.tally := rfl
@[simp] theorem State.setF_perFrame (d : Nat) (f : Fld) (v i x : Nat) : (s.setF d f v i x).perFrame = s.perFrame := rfl
@[simp] theorem State.setF_freeCtr (d : Nat) (f : Fld) (v i x : Nat) : (s.setF d f v i x).freeCtr = s.freeCtr := rfl

@[simp] theorem State.bumpF_pending (d : Nat) (f : Fld) (i x n : Nat) : (s.bumpF d f i x n).pending = s.pending := rfl
@[simp] theorem State.bumpF_m2 (d : Nat) (f : Fld) (i x n : Nat) : (s.bumpF d f i x n).m2 = s.m2 := rfl
@[simp] theorem State.bumpF_deviceTime (d : Nat) (f : Fld) (i x n : Nat) : (s.bumpF d f i x n).deviceTime = s.deviceTime := rfl
@[simp] theorem State.bumpF_time (d : Nat) (f : Fld) (i x n : Nat) : (s.bumpF d f i x n).time = s.time := rfl
@[simp] theorem State.bumpF_shadow (d : Nat) (f : Fld) (i x n : Nat) : (s.bumpF d f i x n).shadow = s.shadow := rfl
@[simp] theorem State.bumpF_captures (d : Nat) (f : Fld) (i x n : Nat) : (s.bumpF d f i x n).captures = s.captures := rfl
@[simp] theorem State.bumpF_loHeld (d : Nat) (f : Fld) (i x n : Nat) : (s.bumpF d f i x n).loHeld = s.loHeld := rfl
@[simp] theorem State.bumpF_mem (d : Nat) (f : Fld) (i x n : Nat) : (s.bumpF d f i x n).mem = s.mem := rfl
@[simp] theorem State.bumpF_poison (d : Nat) (f : Fld) (i x n : Nat) : (s.bumpF d f i x n).poison = s.poison := rfl
@[simp] theorem State.bumpF_locked (d : Nat) (f : Fld) (i x n : Nat) : (s.bumpF d f i x n).locked = s.locked := rfl
@[simp] theorem State.bumpF_flags (d : Nat) (f : Fld) (i x n : Nat) : (s.bumpF d f i x n).flags = s.flags := rfl
@[simp] theorem State.bumpF_caddy (d : Nat) (f : Fld) (i x n : Nat) : (s.bumpF d f i x n).caddy = s.caddy := rfl
@[simp] theorem State.bumpF_flash (d : Nat) (f : Fld) (i x n : Nat) : (s.bumpF d f i x n).flash = s.flash := rfl
@[simp] theorem State.bumpF_boot (d : Nat) (f : Fld) (i x n : Nat) : (s.bumpF d f i x n).boot = s.boot := rfl
@[simp] theorem State.bumpF_links (d : Nat) (f : Fld) (i x n : Nat) : (s.bumpF d f i x n).links = s.links := rfl
@[simp] theorem State.bumpF_dies (d : Nat) (f : Fld) (i x n : Nat) : (s.bumpF d f i x n).dies = s.dies := rfl
@[simp] theorem State.bumpF_root (d : Nat) (f : Fld) (i x n : Nat) : (s.bumpF d f i x n).root = s.root := rfl
@[simp] theorem State.bumpF_notices (d : Nat) (f : Fld) (i x n : Nat) : (s.bumpF d f i x n).notices = s.notices := rfl
@[simp] theorem State.bumpF_travel (d : Nat) (f : Fld) (i x n : Nat) : (s.bumpF d f i x n).travel = s.travel := rfl
@[simp] theorem State.bumpF_streams (d : Nat) (f : Fld) (i x n : Nat) : (s.bumpF d f i x n).streams = s.streams := rfl
@[simp] theorem State.bumpF_pairs (d : Nat) (f : Fld) (i x n : Nat) : (s.bumpF d f i x n).pairs = s.pairs := rfl
@[simp] theorem State.bumpF_saf (d : Nat) (f : Fld) (i x n : Nat) : (s.bumpF d f i x n).saf = s.saf := rfl
@[simp] theorem State.bumpF_cosyView (d : Nat) (f : Fld) (i x n : Nat) : (s.bumpF d f i x n).cosyView = s.cosyView := rfl
@[simp] theorem State.bumpF_cosy (d : Nat) (f : Fld) (i x n : Nat) : (s.bumpF d f i x n).cosy = s.cosy := rfl
@[simp] theorem State.bumpF_recorder (d : Nat) (f : Fld) (i x n : Nat) : (s.bumpF d f i x n).recorder = s.recorder := rfl
@[simp] theorem State.bumpF_evDue (d : Nat) (f : Fld) (i x n : Nat) : (s.bumpF d f i x n).evDue = s.evDue := rfl
@[simp] theorem State.bumpF_doubtDue (d : Nat) (f : Fld) (i x n : Nat) : (s.bumpF d f i x n).doubtDue = s.doubtDue := rfl
@[simp] theorem State.bumpF_ingress (d : Nat) (f : Fld) (i x n : Nat) : (s.bumpF d f i x n).ingress = s.ingress := rfl
@[simp] theorem State.bumpF_ingStreams (d : Nat) (f : Fld) (i x n : Nat) : (s.bumpF d f i x n).ingStreams = s.ingStreams := rfl
@[simp] theorem State.bumpF_ringHold (d : Nat) (f : Fld) (i x n : Nat) : (s.bumpF d f i x n).ringHold = s.ringHold := rfl
@[simp] theorem State.bumpF_ports (d : Nat) (f : Fld) (i x n : Nat) : (s.bumpF d f i x n).ports = s.ports := rfl
@[simp] theorem State.bumpF_ring (d : Nat) (f : Fld) (i x n : Nat) : (s.bumpF d f i x n).ring = s.ring := rfl
@[simp] theorem State.bumpF_sec (d : Nat) (f : Fld) (i x n : Nat) : (s.bumpF d f i x n).sec = s.sec := rfl
@[simp] theorem State.bumpF_pwr (d : Nat) (f : Fld) (i x n : Nat) : (s.bumpF d f i x n).pwr = s.pwr := rfl
@[simp] theorem State.bumpF_frz (d : Nat) (f : Fld) (i x n : Nat) : (s.bumpF d f i x n).frz = s.frz := rfl
@[simp] theorem State.bumpF_out (d : Nat) (f : Fld) (i x n : Nat) : (s.bumpF d f i x n).out = s.out := rfl
@[simp] theorem State.bumpF_tally (d : Nat) (f : Fld) (i x n : Nat) : (s.bumpF d f i x n).tally = s.tally := rfl
@[simp] theorem State.bumpF_perFrame (d : Nat) (f : Fld) (i x n : Nat) : (s.bumpF d f i x n).perFrame = s.perFrame := rfl
@[simp] theorem State.bumpF_freeCtr (d : Nat) (f : Fld) (i x n : Nat) : (s.bumpF d f i x n).freeCtr = s.freeCtr := rfl

@[simp] theorem State.setPair_pending (d : Nat) (a b : Fld) (v i x : Nat) : (s.setPair d a b v i x).pending = s.pending := rfl
@[simp] theorem State.setPair_m2 (d : Nat) (a b : Fld) (v i x : Nat) : (s.setPair d a b v i x).m2 = s.m2 := rfl
@[simp] theorem State.setPair_deviceTime (d : Nat) (a b : Fld) (v i x : Nat) : (s.setPair d a b v i x).deviceTime = s.deviceTime := rfl
@[simp] theorem State.setPair_time (d : Nat) (a b : Fld) (v i x : Nat) : (s.setPair d a b v i x).time = s.time := rfl
@[simp] theorem State.setPair_shadow (d : Nat) (a b : Fld) (v i x : Nat) : (s.setPair d a b v i x).shadow = s.shadow := rfl
@[simp] theorem State.setPair_captures (d : Nat) (a b : Fld) (v i x : Nat) : (s.setPair d a b v i x).captures = s.captures := rfl
@[simp] theorem State.setPair_loHeld (d : Nat) (a b : Fld) (v i x : Nat) : (s.setPair d a b v i x).loHeld = s.loHeld := rfl
@[simp] theorem State.setPair_mem (d : Nat) (a b : Fld) (v i x : Nat) : (s.setPair d a b v i x).mem = s.mem := rfl
@[simp] theorem State.setPair_poison (d : Nat) (a b : Fld) (v i x : Nat) : (s.setPair d a b v i x).poison = s.poison := rfl
@[simp] theorem State.setPair_locked (d : Nat) (a b : Fld) (v i x : Nat) : (s.setPair d a b v i x).locked = s.locked := rfl
@[simp] theorem State.setPair_flags (d : Nat) (a b : Fld) (v i x : Nat) : (s.setPair d a b v i x).flags = s.flags := rfl
@[simp] theorem State.setPair_caddy (d : Nat) (a b : Fld) (v i x : Nat) : (s.setPair d a b v i x).caddy = s.caddy := rfl
@[simp] theorem State.setPair_flash (d : Nat) (a b : Fld) (v i x : Nat) : (s.setPair d a b v i x).flash = s.flash := rfl
@[simp] theorem State.setPair_boot (d : Nat) (a b : Fld) (v i x : Nat) : (s.setPair d a b v i x).boot = s.boot := rfl
@[simp] theorem State.setPair_links (d : Nat) (a b : Fld) (v i x : Nat) : (s.setPair d a b v i x).links = s.links := rfl
@[simp] theorem State.setPair_dies (d : Nat) (a b : Fld) (v i x : Nat) : (s.setPair d a b v i x).dies = s.dies := rfl
@[simp] theorem State.setPair_root (d : Nat) (a b : Fld) (v i x : Nat) : (s.setPair d a b v i x).root = s.root := rfl
@[simp] theorem State.setPair_notices (d : Nat) (a b : Fld) (v i x : Nat) : (s.setPair d a b v i x).notices = s.notices := rfl
@[simp] theorem State.setPair_travel (d : Nat) (a b : Fld) (v i x : Nat) : (s.setPair d a b v i x).travel = s.travel := rfl
@[simp] theorem State.setPair_streams (d : Nat) (a b : Fld) (v i x : Nat) : (s.setPair d a b v i x).streams = s.streams := rfl
@[simp] theorem State.setPair_pairs (d : Nat) (a b : Fld) (v i x : Nat) : (s.setPair d a b v i x).pairs = s.pairs := rfl
@[simp] theorem State.setPair_saf (d : Nat) (a b : Fld) (v i x : Nat) : (s.setPair d a b v i x).saf = s.saf := rfl
@[simp] theorem State.setPair_cosyView (d : Nat) (a b : Fld) (v i x : Nat) : (s.setPair d a b v i x).cosyView = s.cosyView := rfl
@[simp] theorem State.setPair_cosy (d : Nat) (a b : Fld) (v i x : Nat) : (s.setPair d a b v i x).cosy = s.cosy := rfl
@[simp] theorem State.setPair_recorder (d : Nat) (a b : Fld) (v i x : Nat) : (s.setPair d a b v i x).recorder = s.recorder := rfl
@[simp] theorem State.setPair_evDue (d : Nat) (a b : Fld) (v i x : Nat) : (s.setPair d a b v i x).evDue = s.evDue := rfl
@[simp] theorem State.setPair_doubtDue (d : Nat) (a b : Fld) (v i x : Nat) : (s.setPair d a b v i x).doubtDue = s.doubtDue := rfl
@[simp] theorem State.setPair_ingress (d : Nat) (a b : Fld) (v i x : Nat) : (s.setPair d a b v i x).ingress = s.ingress := rfl
@[simp] theorem State.setPair_ingStreams (d : Nat) (a b : Fld) (v i x : Nat) : (s.setPair d a b v i x).ingStreams = s.ingStreams := rfl
@[simp] theorem State.setPair_ringHold (d : Nat) (a b : Fld) (v i x : Nat) : (s.setPair d a b v i x).ringHold = s.ringHold := rfl
@[simp] theorem State.setPair_ports (d : Nat) (a b : Fld) (v i x : Nat) : (s.setPair d a b v i x).ports = s.ports := rfl
@[simp] theorem State.setPair_ring (d : Nat) (a b : Fld) (v i x : Nat) : (s.setPair d a b v i x).ring = s.ring := rfl
@[simp] theorem State.setPair_sec (d : Nat) (a b : Fld) (v i x : Nat) : (s.setPair d a b v i x).sec = s.sec := rfl
@[simp] theorem State.setPair_pwr (d : Nat) (a b : Fld) (v i x : Nat) : (s.setPair d a b v i x).pwr = s.pwr := rfl
@[simp] theorem State.setPair_frz (d : Nat) (a b : Fld) (v i x : Nat) : (s.setPair d a b v i x).frz = s.frz := rfl
@[simp] theorem State.setPair_out (d : Nat) (a b : Fld) (v i x : Nat) : (s.setPair d a b v i x).out = s.out := rfl
@[simp] theorem State.setPair_tally (d : Nat) (a b : Fld) (v i x : Nat) : (s.setPair d a b v i x).tally = s.tally := rfl
@[simp] theorem State.setPair_perFrame (d : Nat) (a b : Fld) (v i x : Nat) : (s.setPair d a b v i x).perFrame = s.perFrame := rfl
@[simp] theorem State.setPair_freeCtr (d : Nat) (a b : Fld) (v i x : Nat) : (s.setPair d a b v i x).freeCtr = s.freeCtr := rfl

@[simp] theorem State.bumpUnits_pending (d : Nat) (f : Fld) (u n i x : Nat) : (s.bumpUnits d f u n i x).pending = s.pending := rfl
@[simp] theorem State.bumpUnits_m2 (d : Nat) (f : Fld) (u n i x : Nat) : (s.bumpUnits d f u n i x).m2 = s.m2 := rfl
@[simp] theorem State.bumpUnits_deviceTime (d : Nat) (f : Fld) (u n i x : Nat) : (s.bumpUnits d f u n i x).deviceTime = s.deviceTime := rfl
@[simp] theorem State.bumpUnits_time (d : Nat) (f : Fld) (u n i x : Nat) : (s.bumpUnits d f u n i x).time = s.time := rfl
@[simp] theorem State.bumpUnits_shadow (d : Nat) (f : Fld) (u n i x : Nat) : (s.bumpUnits d f u n i x).shadow = s.shadow := rfl
@[simp] theorem State.bumpUnits_captures (d : Nat) (f : Fld) (u n i x : Nat) : (s.bumpUnits d f u n i x).captures = s.captures := rfl
@[simp] theorem State.bumpUnits_loHeld (d : Nat) (f : Fld) (u n i x : Nat) : (s.bumpUnits d f u n i x).loHeld = s.loHeld := rfl
@[simp] theorem State.bumpUnits_mem (d : Nat) (f : Fld) (u n i x : Nat) : (s.bumpUnits d f u n i x).mem = s.mem := rfl
@[simp] theorem State.bumpUnits_poison (d : Nat) (f : Fld) (u n i x : Nat) : (s.bumpUnits d f u n i x).poison = s.poison := rfl
@[simp] theorem State.bumpUnits_locked (d : Nat) (f : Fld) (u n i x : Nat) : (s.bumpUnits d f u n i x).locked = s.locked := rfl
@[simp] theorem State.bumpUnits_flags (d : Nat) (f : Fld) (u n i x : Nat) : (s.bumpUnits d f u n i x).flags = s.flags := rfl
@[simp] theorem State.bumpUnits_caddy (d : Nat) (f : Fld) (u n i x : Nat) : (s.bumpUnits d f u n i x).caddy = s.caddy := rfl
@[simp] theorem State.bumpUnits_flash (d : Nat) (f : Fld) (u n i x : Nat) : (s.bumpUnits d f u n i x).flash = s.flash := rfl
@[simp] theorem State.bumpUnits_boot (d : Nat) (f : Fld) (u n i x : Nat) : (s.bumpUnits d f u n i x).boot = s.boot := rfl
@[simp] theorem State.bumpUnits_links (d : Nat) (f : Fld) (u n i x : Nat) : (s.bumpUnits d f u n i x).links = s.links := rfl
@[simp] theorem State.bumpUnits_dies (d : Nat) (f : Fld) (u n i x : Nat) : (s.bumpUnits d f u n i x).dies = s.dies := rfl
@[simp] theorem State.bumpUnits_root (d : Nat) (f : Fld) (u n i x : Nat) : (s.bumpUnits d f u n i x).root = s.root := rfl
@[simp] theorem State.bumpUnits_notices (d : Nat) (f : Fld) (u n i x : Nat) : (s.bumpUnits d f u n i x).notices = s.notices := rfl
@[simp] theorem State.bumpUnits_travel (d : Nat) (f : Fld) (u n i x : Nat) : (s.bumpUnits d f u n i x).travel = s.travel := rfl
@[simp] theorem State.bumpUnits_streams (d : Nat) (f : Fld) (u n i x : Nat) : (s.bumpUnits d f u n i x).streams = s.streams := rfl
@[simp] theorem State.bumpUnits_pairs (d : Nat) (f : Fld) (u n i x : Nat) : (s.bumpUnits d f u n i x).pairs = s.pairs := rfl
@[simp] theorem State.bumpUnits_saf (d : Nat) (f : Fld) (u n i x : Nat) : (s.bumpUnits d f u n i x).saf = s.saf := rfl
@[simp] theorem State.bumpUnits_cosyView (d : Nat) (f : Fld) (u n i x : Nat) : (s.bumpUnits d f u n i x).cosyView = s.cosyView := rfl
@[simp] theorem State.bumpUnits_cosy (d : Nat) (f : Fld) (u n i x : Nat) : (s.bumpUnits d f u n i x).cosy = s.cosy := rfl
@[simp] theorem State.bumpUnits_recorder (d : Nat) (f : Fld) (u n i x : Nat) : (s.bumpUnits d f u n i x).recorder = s.recorder := rfl
@[simp] theorem State.bumpUnits_evDue (d : Nat) (f : Fld) (u n i x : Nat) : (s.bumpUnits d f u n i x).evDue = s.evDue := rfl
@[simp] theorem State.bumpUnits_doubtDue (d : Nat) (f : Fld) (u n i x : Nat) : (s.bumpUnits d f u n i x).doubtDue = s.doubtDue := rfl
@[simp] theorem State.bumpUnits_ingress (d : Nat) (f : Fld) (u n i x : Nat) : (s.bumpUnits d f u n i x).ingress = s.ingress := rfl
@[simp] theorem State.bumpUnits_ingStreams (d : Nat) (f : Fld) (u n i x : Nat) : (s.bumpUnits d f u n i x).ingStreams = s.ingStreams := rfl
@[simp] theorem State.bumpUnits_ringHold (d : Nat) (f : Fld) (u n i x : Nat) : (s.bumpUnits d f u n i x).ringHold = s.ringHold := rfl
@[simp] theorem State.bumpUnits_ports (d : Nat) (f : Fld) (u n i x : Nat) : (s.bumpUnits d f u n i x).ports = s.ports := rfl
@[simp] theorem State.bumpUnits_ring (d : Nat) (f : Fld) (u n i x : Nat) : (s.bumpUnits d f u n i x).ring = s.ring := rfl
@[simp] theorem State.bumpUnits_sec (d : Nat) (f : Fld) (u n i x : Nat) : (s.bumpUnits d f u n i x).sec = s.sec := rfl
@[simp] theorem State.bumpUnits_pwr (d : Nat) (f : Fld) (u n i x : Nat) : (s.bumpUnits d f u n i x).pwr = s.pwr := rfl
@[simp] theorem State.bumpUnits_frz (d : Nat) (f : Fld) (u n i x : Nat) : (s.bumpUnits d f u n i x).frz = s.frz := rfl
@[simp] theorem State.bumpUnits_out (d : Nat) (f : Fld) (u n i x : Nat) : (s.bumpUnits d f u n i x).out = s.out := rfl
@[simp] theorem State.bumpUnits_perFrame (d : Nat) (f : Fld) (u n i x : Nat) : (s.bumpUnits d f u n i x).perFrame = s.perFrame := rfl
@[simp] theorem State.bumpUnits_freeCtr (d : Nat) (f : Fld) (u n i x : Nat) : (s.bumpUnits d f u n i x).freeCtr = s.freeCtr := rfl

@[simp] theorem State.putAcc_pending (a : FrameAcc) : (s.putAcc a).pending = s.pending := rfl
@[simp] theorem State.putAcc_m2 (a : FrameAcc) : (s.putAcc a).m2 = s.m2 := rfl
@[simp] theorem State.putAcc_deviceTime (a : FrameAcc) : (s.putAcc a).deviceTime = s.deviceTime := rfl
@[simp] theorem State.putAcc_time (a : FrameAcc) : (s.putAcc a).time = s.time := rfl
@[simp] theorem State.putAcc_regs (a : FrameAcc) : (s.putAcc a).regs = s.regs := rfl
@[simp] theorem State.putAcc_shadow (a : FrameAcc) : (s.putAcc a).shadow = s.shadow := rfl
@[simp] theorem State.putAcc_captures (a : FrameAcc) : (s.putAcc a).captures = s.captures := rfl
@[simp] theorem State.putAcc_loHeld (a : FrameAcc) : (s.putAcc a).loHeld = s.loHeld := rfl
@[simp] theorem State.putAcc_mem (a : FrameAcc) : (s.putAcc a).mem = s.mem := rfl
@[simp] theorem State.putAcc_poison (a : FrameAcc) : (s.putAcc a).poison = s.poison := rfl
@[simp] theorem State.putAcc_locked (a : FrameAcc) : (s.putAcc a).locked = s.locked := rfl
@[simp] theorem State.putAcc_flags (a : FrameAcc) : (s.putAcc a).flags = s.flags := rfl
@[simp] theorem State.putAcc_caddy (a : FrameAcc) : (s.putAcc a).caddy = s.caddy := rfl
@[simp] theorem State.putAcc_flash (a : FrameAcc) : (s.putAcc a).flash = s.flash := rfl
@[simp] theorem State.putAcc_boot (a : FrameAcc) : (s.putAcc a).boot = s.boot := rfl
@[simp] theorem State.putAcc_links (a : FrameAcc) : (s.putAcc a).links = s.links := rfl
@[simp] theorem State.putAcc_dies (a : FrameAcc) : (s.putAcc a).dies = s.dies := rfl
@[simp] theorem State.putAcc_root (a : FrameAcc) : (s.putAcc a).root = s.root := rfl
@[simp] theorem State.putAcc_notices (a : FrameAcc) : (s.putAcc a).notices = s.notices := rfl
@[simp] theorem State.putAcc_travel (a : FrameAcc) : (s.putAcc a).travel = s.travel := rfl
@[simp] theorem State.putAcc_streams (a : FrameAcc) : (s.putAcc a).streams = s.streams := rfl
@[simp] theorem State.putAcc_pairs (a : FrameAcc) : (s.putAcc a).pairs = s.pairs := rfl
@[simp] theorem State.putAcc_saf (a : FrameAcc) : (s.putAcc a).saf = s.saf := rfl
@[simp] theorem State.putAcc_cosyView (a : FrameAcc) : (s.putAcc a).cosyView = s.cosyView := rfl
@[simp] theorem State.putAcc_cosy (a : FrameAcc) : (s.putAcc a).cosy = s.cosy := rfl
@[simp] theorem State.putAcc_recorder (a : FrameAcc) : (s.putAcc a).recorder = s.recorder := rfl
@[simp] theorem State.putAcc_evDue (a : FrameAcc) : (s.putAcc a).evDue = s.evDue := rfl
@[simp] theorem State.putAcc_doubtDue (a : FrameAcc) : (s.putAcc a).doubtDue = s.doubtDue := rfl
@[simp] theorem State.putAcc_ingress (a : FrameAcc) : (s.putAcc a).ingress = s.ingress := rfl
@[simp] theorem State.putAcc_ingStreams (a : FrameAcc) : (s.putAcc a).ingStreams = s.ingStreams := rfl
@[simp] theorem State.putAcc_ringHold (a : FrameAcc) : (s.putAcc a).ringHold = s.ringHold := rfl
@[simp] theorem State.putAcc_ports (a : FrameAcc) : (s.putAcc a).ports = s.ports := rfl
@[simp] theorem State.putAcc_ring (a : FrameAcc) : (s.putAcc a).ring = s.ring := rfl
@[simp] theorem State.putAcc_sec (a : FrameAcc) : (s.putAcc a).sec = s.sec := rfl
@[simp] theorem State.putAcc_pwr (a : FrameAcc) : (s.putAcc a).pwr = s.pwr := rfl
@[simp] theorem State.putAcc_frz (a : FrameAcc) : (s.putAcc a).frz = s.frz := rfl
@[simp] theorem State.putAcc_out (a : FrameAcc) : (s.putAcc a).out = s.out := rfl
@[simp] theorem State.putAcc_tally (a : FrameAcc) : (s.putAcc a).tally = s.tally := rfl
@[simp] theorem State.putAcc_freeCtr (a : FrameAcc) : (s.putAcc a).freeCtr = s.freeCtr := rfl

@[simp] theorem State.addFrame_pending (d : Nat) (f : Fld) (u n i x : Nat) : (s.addFrame d f u n i x).pending = s.pending := rfl
@[simp] theorem State.addFrame_m2 (d : Nat) (f : Fld) (u n i x : Nat) : (s.addFrame d f u n i x).m2 = s.m2 := rfl
@[simp] theorem State.addFrame_deviceTime (d : Nat) (f : Fld) (u n i x : Nat) : (s.addFrame d f u n i x).deviceTime = s.deviceTime := rfl
@[simp] theorem State.addFrame_time (d : Nat) (f : Fld) (u n i x : Nat) : (s.addFrame d f u n i x).time = s.time := rfl
@[simp] theorem State.addFrame_regs (d : Nat) (f : Fld) (u n i x : Nat) : (s.addFrame d f u n i x).regs = s.regs := rfl
@[simp] theorem State.addFrame_shadow (d : Nat) (f : Fld) (u n i x : Nat) : (s.addFrame d f u n i x).shadow = s.shadow := rfl
@[simp] theorem State.addFrame_captures (d : Nat) (f : Fld) (u n i x : Nat) : (s.addFrame d f u n i x).captures = s.captures := rfl
@[simp] theorem State.addFrame_loHeld (d : Nat) (f : Fld) (u n i x : Nat) : (s.addFrame d f u n i x).loHeld = s.loHeld := rfl
@[simp] theorem State.addFrame_mem (d : Nat) (f : Fld) (u n i x : Nat) : (s.addFrame d f u n i x).mem = s.mem := rfl
@[simp] theorem State.addFrame_poison (d : Nat) (f : Fld) (u n i x : Nat) : (s.addFrame d f u n i x).poison = s.poison := rfl
@[simp] theorem State.addFrame_locked (d : Nat) (f : Fld) (u n i x : Nat) : (s.addFrame d f u n i x).locked = s.locked := rfl
@[simp] theorem State.addFrame_flags (d : Nat) (f : Fld) (u n i x : Nat) : (s.addFrame d f u n i x).flags = s.flags := rfl
@[simp] theorem State.addFrame_caddy (d : Nat) (f : Fld) (u n i x : Nat) : (s.addFrame d f u n i x).caddy = s.caddy := rfl
@[simp] theorem State.addFrame_flash (d : Nat) (f : Fld) (u n i x : Nat) : (s.addFrame d f u n i x).flash = s.flash := rfl
@[simp] theorem State.addFrame_boot (d : Nat) (f : Fld) (u n i x : Nat) : (s.addFrame d f u n i x).boot = s.boot := rfl
@[simp] theorem State.addFrame_links (d : Nat) (f : Fld) (u n i x : Nat) : (s.addFrame d f u n i x).links = s.links := rfl
@[simp] theorem State.addFrame_dies (d : Nat) (f : Fld) (u n i x : Nat) : (s.addFrame d f u n i x).dies = s.dies := rfl
@[simp] theorem State.addFrame_root (d : Nat) (f : Fld) (u n i x : Nat) : (s.addFrame d f u n i x).root = s.root := rfl
@[simp] theorem State.addFrame_notices (d : Nat) (f : Fld) (u n i x : Nat) : (s.addFrame d f u n i x).notices = s.notices := rfl
@[simp] theorem State.addFrame_travel (d : Nat) (f : Fld) (u n i x : Nat) : (s.addFrame d f u n i x).travel = s.travel := rfl
@[simp] theorem State.addFrame_streams (d : Nat) (f : Fld) (u n i x : Nat) : (s.addFrame d f u n i x).streams = s.streams := rfl
@[simp] theorem State.addFrame_pairs (d : Nat) (f : Fld) (u n i x : Nat) : (s.addFrame d f u n i x).pairs = s.pairs := rfl
@[simp] theorem State.addFrame_saf (d : Nat) (f : Fld) (u n i x : Nat) : (s.addFrame d f u n i x).saf = s.saf := rfl
@[simp] theorem State.addFrame_cosyView (d : Nat) (f : Fld) (u n i x : Nat) : (s.addFrame d f u n i x).cosyView = s.cosyView := rfl
@[simp] theorem State.addFrame_cosy (d : Nat) (f : Fld) (u n i x : Nat) : (s.addFrame d f u n i x).cosy = s.cosy := rfl
@[simp] theorem State.addFrame_recorder (d : Nat) (f : Fld) (u n i x : Nat) : (s.addFrame d f u n i x).recorder = s.recorder := rfl
@[simp] theorem State.addFrame_evDue (d : Nat) (f : Fld) (u n i x : Nat) : (s.addFrame d f u n i x).evDue = s.evDue := rfl
@[simp] theorem State.addFrame_doubtDue (d : Nat) (f : Fld) (u n i x : Nat) : (s.addFrame d f u n i x).doubtDue = s.doubtDue := rfl
@[simp] theorem State.addFrame_ingress (d : Nat) (f : Fld) (u n i x : Nat) : (s.addFrame d f u n i x).ingress = s.ingress := rfl
@[simp] theorem State.addFrame_ingStreams (d : Nat) (f : Fld) (u n i x : Nat) : (s.addFrame d f u n i x).ingStreams = s.ingStreams := rfl
@[simp] theorem State.addFrame_ringHold (d : Nat) (f : Fld) (u n i x : Nat) : (s.addFrame d f u n i x).ringHold = s.ringHold := rfl
@[simp] theorem State.addFrame_ports (d : Nat) (f : Fld) (u n i x : Nat) : (s.addFrame d f u n i x).ports = s.ports := rfl
@[simp] theorem State.addFrame_ring (d : Nat) (f : Fld) (u n i x : Nat) : (s.addFrame d f u n i x).ring = s.ring := rfl
@[simp] theorem State.addFrame_sec (d : Nat) (f : Fld) (u n i x : Nat) : (s.addFrame d f u n i x).sec = s.sec := rfl
@[simp] theorem State.addFrame_pwr (d : Nat) (f : Fld) (u n i x : Nat) : (s.addFrame d f u n i x).pwr = s.pwr := rfl
@[simp] theorem State.addFrame_frz (d : Nat) (f : Fld) (u n i x : Nat) : (s.addFrame d f u n i x).frz = s.frz := rfl
@[simp] theorem State.addFrame_out (d : Nat) (f : Fld) (u n i x : Nat) : (s.addFrame d f u n i x).out = s.out := rfl
@[simp] theorem State.addFrame_tally (d : Nat) (f : Fld) (u n i x : Nat) : (s.addFrame d f u n i x).tally = s.tally := rfl
@[simp] theorem State.addFrame_freeCtr (d : Nat) (f : Fld) (u n i x : Nat) : (s.addFrame d f u n i x).freeCtr = s.freeCtr := rfl

@[simp] theorem State.modDie_pending (d : Nat) (f : Die → Die) : (s.modDie d f).pending = s.pending := rfl
@[simp] theorem State.modDie_m2 (d : Nat) (f : Die → Die) : (s.modDie d f).m2 = s.m2 := rfl
@[simp] theorem State.modDie_deviceTime (d : Nat) (f : Die → Die) : (s.modDie d f).deviceTime = s.deviceTime := rfl
@[simp] theorem State.modDie_time (d : Nat) (f : Die → Die) : (s.modDie d f).time = s.time := rfl
@[simp] theorem State.modDie_regs (d : Nat) (f : Die → Die) : (s.modDie d f).regs = s.regs := rfl
@[simp] theorem State.modDie_shadow (d : Nat) (f : Die → Die) : (s.modDie d f).shadow = s.shadow := rfl
@[simp] theorem State.modDie_captures (d : Nat) (f : Die → Die) : (s.modDie d f).captures = s.captures := rfl
@[simp] theorem State.modDie_loHeld (d : Nat) (f : Die → Die) : (s.modDie d f).loHeld = s.loHeld := rfl
@[simp] theorem State.modDie_mem (d : Nat) (f : Die → Die) : (s.modDie d f).mem = s.mem := rfl
@[simp] theorem State.modDie_poison (d : Nat) (f : Die → Die) : (s.modDie d f).poison = s.poison := rfl
@[simp] theorem State.modDie_locked (d : Nat) (f : Die → Die) : (s.modDie d f).locked = s.locked := rfl
@[simp] theorem State.modDie_flags (d : Nat) (f : Die → Die) : (s.modDie d f).flags = s.flags := rfl
@[simp] theorem State.modDie_caddy (d : Nat) (f : Die → Die) : (s.modDie d f).caddy = s.caddy := rfl
@[simp] theorem State.modDie_flash (d : Nat) (f : Die → Die) : (s.modDie d f).flash = s.flash := rfl
@[simp] theorem State.modDie_boot (d : Nat) (f : Die → Die) : (s.modDie d f).boot = s.boot := rfl
@[simp] theorem State.modDie_links (d : Nat) (f : Die → Die) : (s.modDie d f).links = s.links := rfl
@[simp] theorem State.modDie_root (d : Nat) (f : Die → Die) : (s.modDie d f).root = s.root := rfl
@[simp] theorem State.modDie_notices (d : Nat) (f : Die → Die) : (s.modDie d f).notices = s.notices := rfl
@[simp] theorem State.modDie_travel (d : Nat) (f : Die → Die) : (s.modDie d f).travel = s.travel := rfl
@[simp] theorem State.modDie_streams (d : Nat) (f : Die → Die) : (s.modDie d f).streams = s.streams := rfl
@[simp] theorem State.modDie_pairs (d : Nat) (f : Die → Die) : (s.modDie d f).pairs = s.pairs := rfl
@[simp] theorem State.modDie_saf (d : Nat) (f : Die → Die) : (s.modDie d f).saf = s.saf := rfl
@[simp] theorem State.modDie_cosyView (d : Nat) (f : Die → Die) : (s.modDie d f).cosyView = s.cosyView := rfl
@[simp] theorem State.modDie_cosy (d : Nat) (f : Die → Die) : (s.modDie d f).cosy = s.cosy := rfl
@[simp] theorem State.modDie_recorder (d : Nat) (f : Die → Die) : (s.modDie d f).recorder = s.recorder := rfl
@[simp] theorem State.modDie_evDue (d : Nat) (f : Die → Die) : (s.modDie d f).evDue = s.evDue := rfl
@[simp] theorem State.modDie_doubtDue (d : Nat) (f : Die → Die) : (s.modDie d f).doubtDue = s.doubtDue := rfl
@[simp] theorem State.modDie_ingress (d : Nat) (f : Die → Die) : (s.modDie d f).ingress = s.ingress := rfl
@[simp] theorem State.modDie_ingStreams (d : Nat) (f : Die → Die) : (s.modDie d f).ingStreams = s.ingStreams := rfl
@[simp] theorem State.modDie_ringHold (d : Nat) (f : Die → Die) : (s.modDie d f).ringHold = s.ringHold := rfl
@[simp] theorem State.modDie_ports (d : Nat) (f : Die → Die) : (s.modDie d f).ports = s.ports := rfl
@[simp] theorem State.modDie_ring (d : Nat) (f : Die → Die) : (s.modDie d f).ring = s.ring := rfl
@[simp] theorem State.modDie_sec (d : Nat) (f : Die → Die) : (s.modDie d f).sec = s.sec := rfl
@[simp] theorem State.modDie_pwr (d : Nat) (f : Die → Die) : (s.modDie d f).pwr = s.pwr := rfl
@[simp] theorem State.modDie_frz (d : Nat) (f : Die → Die) : (s.modDie d f).frz = s.frz := rfl
@[simp] theorem State.modDie_out (d : Nat) (f : Die → Die) : (s.modDie d f).out = s.out := rfl
@[simp] theorem State.modDie_tally (d : Nat) (f : Die → Die) : (s.modDie d f).tally = s.tally := rfl
@[simp] theorem State.modDie_perFrame (d : Nat) (f : Die → Die) : (s.modDie d f).perFrame = s.perFrame := rfl
@[simp] theorem State.modDie_freeCtr (d : Nat) (f : Die → Die) : (s.modDie d f).freeCtr = s.freeCtr := rfl

@[simp] theorem State.modSeq_pending (d : Nat) (f : Sequencer → Sequencer) : (s.modSeq d f).pending = s.pending := rfl
@[simp] theorem State.modSeq_m2 (d : Nat) (f : Sequencer → Sequencer) : (s.modSeq d f).m2 = s.m2 := rfl
@[simp] theorem State.modSeq_deviceTime (d : Nat) (f : Sequencer → Sequencer) : (s.modSeq d f).deviceTime = s.deviceTime := rfl
@[simp] theorem State.modSeq_time (d : Nat) (f : Sequencer → Sequencer) : (s.modSeq d f).time = s.time := rfl
@[simp] theorem State.modSeq_regs (d : Nat) (f : Sequencer → Sequencer) : (s.modSeq d f).regs = s.regs := rfl
@[simp] theorem State.modSeq_shadow (d : Nat) (f : Sequencer → Sequencer) : (s.modSeq d f).shadow = s.shadow := rfl
@[simp] theorem State.modSeq_captures (d : Nat) (f : Sequencer → Sequencer) : (s.modSeq d f).captures = s.captures := rfl
@[simp] theorem State.modSeq_loHeld (d : Nat) (f : Sequencer → Sequencer) : (s.modSeq d f).loHeld = s.loHeld := rfl
@[simp] theorem State.modSeq_mem (d : Nat) (f : Sequencer → Sequencer) : (s.modSeq d f).mem = s.mem := rfl
@[simp] theorem State.modSeq_poison (d : Nat) (f : Sequencer → Sequencer) : (s.modSeq d f).poison = s.poison := rfl
@[simp] theorem State.modSeq_locked (d : Nat) (f : Sequencer → Sequencer) : (s.modSeq d f).locked = s.locked := rfl
@[simp] theorem State.modSeq_flags (d : Nat) (f : Sequencer → Sequencer) : (s.modSeq d f).flags = s.flags := rfl
@[simp] theorem State.modSeq_caddy (d : Nat) (f : Sequencer → Sequencer) : (s.modSeq d f).caddy = s.caddy := rfl
@[simp] theorem State.modSeq_flash (d : Nat) (f : Sequencer → Sequencer) : (s.modSeq d f).flash = s.flash := rfl
@[simp] theorem State.modSeq_boot (d : Nat) (f : Sequencer → Sequencer) : (s.modSeq d f).boot = s.boot := rfl
@[simp] theorem State.modSeq_links (d : Nat) (f : Sequencer → Sequencer) : (s.modSeq d f).links = s.links := rfl
@[simp] theorem State.modSeq_root (d : Nat) (f : Sequencer → Sequencer) : (s.modSeq d f).root = s.root := rfl
@[simp] theorem State.modSeq_notices (d : Nat) (f : Sequencer → Sequencer) : (s.modSeq d f).notices = s.notices := rfl
@[simp] theorem State.modSeq_travel (d : Nat) (f : Sequencer → Sequencer) : (s.modSeq d f).travel = s.travel := rfl
@[simp] theorem State.modSeq_streams (d : Nat) (f : Sequencer → Sequencer) : (s.modSeq d f).streams = s.streams := rfl
@[simp] theorem State.modSeq_pairs (d : Nat) (f : Sequencer → Sequencer) : (s.modSeq d f).pairs = s.pairs := rfl
@[simp] theorem State.modSeq_saf (d : Nat) (f : Sequencer → Sequencer) : (s.modSeq d f).saf = s.saf := rfl
@[simp] theorem State.modSeq_cosyView (d : Nat) (f : Sequencer → Sequencer) : (s.modSeq d f).cosyView = s.cosyView := rfl
@[simp] theorem State.modSeq_cosy (d : Nat) (f : Sequencer → Sequencer) : (s.modSeq d f).cosy = s.cosy := rfl
@[simp] theorem State.modSeq_recorder (d : Nat) (f : Sequencer → Sequencer) : (s.modSeq d f).recorder = s.recorder := rfl
@[simp] theorem State.modSeq_evDue (d : Nat) (f : Sequencer → Sequencer) : (s.modSeq d f).evDue = s.evDue := rfl
@[simp] theorem State.modSeq_doubtDue (d : Nat) (f : Sequencer → Sequencer) : (s.modSeq d f).doubtDue = s.doubtDue := rfl
@[simp] theorem State.modSeq_ingress (d : Nat) (f : Sequencer → Sequencer) : (s.modSeq d f).ingress = s.ingress := rfl
@[simp] theorem State.modSeq_ingStreams (d : Nat) (f : Sequencer → Sequencer) : (s.modSeq d f).ingStreams = s.ingStreams := rfl
@[simp] theorem State.modSeq_ringHold (d : Nat) (f : Sequencer → Sequencer) : (s.modSeq d f).ringHold = s.ringHold := rfl
@[simp] theorem State.modSeq_ports (d : Nat) (f : Sequencer → Sequencer) : (s.modSeq d f).ports = s.ports := rfl
@[simp] theorem State.modSeq_ring (d : Nat) (f : Sequencer → Sequencer) : (s.modSeq d f).ring = s.ring := rfl
@[simp] theorem State.modSeq_sec (d : Nat) (f : Sequencer → Sequencer) : (s.modSeq d f).sec = s.sec := rfl
@[simp] theorem State.modSeq_pwr (d : Nat) (f : Sequencer → Sequencer) : (s.modSeq d f).pwr = s.pwr := rfl
@[simp] theorem State.modSeq_frz (d : Nat) (f : Sequencer → Sequencer) : (s.modSeq d f).frz = s.frz := rfl
@[simp] theorem State.modSeq_out (d : Nat) (f : Sequencer → Sequencer) : (s.modSeq d f).out = s.out := rfl
@[simp] theorem State.modSeq_tally (d : Nat) (f : Sequencer → Sequencer) : (s.modSeq d f).tally = s.tally := rfl
@[simp] theorem State.modSeq_perFrame (d : Nat) (f : Sequencer → Sequencer) : (s.modSeq d f).perFrame = s.perFrame := rfl
@[simp] theorem State.modSeq_freeCtr (d : Nat) (f : Sequencer → Sequencer) : (s.modSeq d f).freeCtr = s.freeCtr := rfl

@[simp] theorem State.modUnit_pending (d u : Nat) (f : UnitState → UnitState) : (s.modUnit d u f).pending = s.pending := rfl
@[simp] theorem State.modUnit_m2 (d u : Nat) (f : UnitState → UnitState) : (s.modUnit d u f).m2 = s.m2 := rfl
@[simp] theorem State.modUnit_deviceTime (d u : Nat) (f : UnitState → UnitState) : (s.modUnit d u f).deviceTime = s.deviceTime := rfl
@[simp] theorem State.modUnit_time (d u : Nat) (f : UnitState → UnitState) : (s.modUnit d u f).time = s.time := rfl
@[simp] theorem State.modUnit_regs (d u : Nat) (f : UnitState → UnitState) : (s.modUnit d u f).regs = s.regs := rfl
@[simp] theorem State.modUnit_shadow (d u : Nat) (f : UnitState → UnitState) : (s.modUnit d u f).shadow = s.shadow := rfl
@[simp] theorem State.modUnit_captures (d u : Nat) (f : UnitState → UnitState) : (s.modUnit d u f).captures = s.captures := rfl
@[simp] theorem State.modUnit_loHeld (d u : Nat) (f : UnitState → UnitState) : (s.modUnit d u f).loHeld = s.loHeld := rfl
@[simp] theorem State.modUnit_mem (d u : Nat) (f : UnitState → UnitState) : (s.modUnit d u f).mem = s.mem := rfl
@[simp] theorem State.modUnit_poison (d u : Nat) (f : UnitState → UnitState) : (s.modUnit d u f).poison = s.poison := rfl
@[simp] theorem State.modUnit_locked (d u : Nat) (f : UnitState → UnitState) : (s.modUnit d u f).locked = s.locked := rfl
@[simp] theorem State.modUnit_flags (d u : Nat) (f : UnitState → UnitState) : (s.modUnit d u f).flags = s.flags := rfl
@[simp] theorem State.modUnit_caddy (d u : Nat) (f : UnitState → UnitState) : (s.modUnit d u f).caddy = s.caddy := rfl
@[simp] theorem State.modUnit_flash (d u : Nat) (f : UnitState → UnitState) : (s.modUnit d u f).flash = s.flash := rfl
@[simp] theorem State.modUnit_boot (d u : Nat) (f : UnitState → UnitState) : (s.modUnit d u f).boot = s.boot := rfl
@[simp] theorem State.modUnit_links (d u : Nat) (f : UnitState → UnitState) : (s.modUnit d u f).links = s.links := rfl
@[simp] theorem State.modUnit_root (d u : Nat) (f : UnitState → UnitState) : (s.modUnit d u f).root = s.root := rfl
@[simp] theorem State.modUnit_notices (d u : Nat) (f : UnitState → UnitState) : (s.modUnit d u f).notices = s.notices := rfl
@[simp] theorem State.modUnit_travel (d u : Nat) (f : UnitState → UnitState) : (s.modUnit d u f).travel = s.travel := rfl
@[simp] theorem State.modUnit_streams (d u : Nat) (f : UnitState → UnitState) : (s.modUnit d u f).streams = s.streams := rfl
@[simp] theorem State.modUnit_pairs (d u : Nat) (f : UnitState → UnitState) : (s.modUnit d u f).pairs = s.pairs := rfl
@[simp] theorem State.modUnit_saf (d u : Nat) (f : UnitState → UnitState) : (s.modUnit d u f).saf = s.saf := rfl
@[simp] theorem State.modUnit_cosyView (d u : Nat) (f : UnitState → UnitState) : (s.modUnit d u f).cosyView = s.cosyView := rfl
@[simp] theorem State.modUnit_cosy (d u : Nat) (f : UnitState → UnitState) : (s.modUnit d u f).cosy = s.cosy := rfl
@[simp] theorem State.modUnit_recorder (d u : Nat) (f : UnitState → UnitState) : (s.modUnit d u f).recorder = s.recorder := rfl
@[simp] theorem State.modUnit_evDue (d u : Nat) (f : UnitState → UnitState) : (s.modUnit d u f).evDue = s.evDue := rfl
@[simp] theorem State.modUnit_doubtDue (d u : Nat) (f : UnitState → UnitState) : (s.modUnit d u f).doubtDue = s.doubtDue := rfl
@[simp] theorem State.modUnit_ingress (d u : Nat) (f : UnitState → UnitState) : (s.modUnit d u f).ingress = s.ingress := rfl
@[simp] theorem State.modUnit_ingStreams (d u : Nat) (f : UnitState → UnitState) : (s.modUnit d u f).ingStreams = s.ingStreams := rfl
@[simp] theorem State.modUnit_ringHold (d u : Nat) (f : UnitState → UnitState) : (s.modUnit d u f).ringHold = s.ringHold := rfl
@[simp] theorem State.modUnit_ports (d u : Nat) (f : UnitState → UnitState) : (s.modUnit d u f).ports = s.ports := rfl
@[simp] theorem State.modUnit_ring (d u : Nat) (f : UnitState → UnitState) : (s.modUnit d u f).ring = s.ring := rfl
@[simp] theorem State.modUnit_sec (d u : Nat) (f : UnitState → UnitState) : (s.modUnit d u f).sec = s.sec := rfl
@[simp] theorem State.modUnit_pwr (d u : Nat) (f : UnitState → UnitState) : (s.modUnit d u f).pwr = s.pwr := rfl
@[simp] theorem State.modUnit_frz (d u : Nat) (f : UnitState → UnitState) : (s.modUnit d u f).frz = s.frz := rfl
@[simp] theorem State.modUnit_out (d u : Nat) (f : UnitState → UnitState) : (s.modUnit d u f).out = s.out := rfl
@[simp] theorem State.modUnit_tally (d u : Nat) (f : UnitState → UnitState) : (s.modUnit d u f).tally = s.tally := rfl
@[simp] theorem State.modUnit_perFrame (d u : Nat) (f : UnitState → UnitState) : (s.modUnit d u f).perFrame = s.perFrame := rfl
@[simp] theorem State.modUnit_freeCtr (d u : Nat) (f : UnitState → UnitState) : (s.modUnit d u f).freeCtr = s.freeCtr := rfl

@[simp] theorem State.modSlot_pending (d k : Nat) (f : Slot → Slot) : (s.modSlot d k f).pending = s.pending := rfl
@[simp] theorem State.modSlot_m2 (d k : Nat) (f : Slot → Slot) : (s.modSlot d k f).m2 = s.m2 := rfl
@[simp] theorem State.modSlot_deviceTime (d k : Nat) (f : Slot → Slot) : (s.modSlot d k f).deviceTime = s.deviceTime := rfl
@[simp] theorem State.modSlot_time (d k : Nat) (f : Slot → Slot) : (s.modSlot d k f).time = s.time := rfl
@[simp] theorem State.modSlot_regs (d k : Nat) (f : Slot → Slot) : (s.modSlot d k f).regs = s.regs := rfl
@[simp] theorem State.modSlot_shadow (d k : Nat) (f : Slot → Slot) : (s.modSlot d k f).shadow = s.shadow := rfl
@[simp] theorem State.modSlot_captures (d k : Nat) (f : Slot → Slot) : (s.modSlot d k f).captures = s.captures := rfl
@[simp] theorem State.modSlot_loHeld (d k : Nat) (f : Slot → Slot) : (s.modSlot d k f).loHeld = s.loHeld := rfl
@[simp] theorem State.modSlot_mem (d k : Nat) (f : Slot → Slot) : (s.modSlot d k f).mem = s.mem := rfl
@[simp] theorem State.modSlot_poison (d k : Nat) (f : Slot → Slot) : (s.modSlot d k f).poison = s.poison := rfl
@[simp] theorem State.modSlot_locked (d k : Nat) (f : Slot → Slot) : (s.modSlot d k f).locked = s.locked := rfl
@[simp] theorem State.modSlot_flags (d k : Nat) (f : Slot → Slot) : (s.modSlot d k f).flags = s.flags := rfl
@[simp] theorem State.modSlot_caddy (d k : Nat) (f : Slot → Slot) : (s.modSlot d k f).caddy = s.caddy := rfl
@[simp] theorem State.modSlot_flash (d k : Nat) (f : Slot → Slot) : (s.modSlot d k f).flash = s.flash := rfl
@[simp] theorem State.modSlot_boot (d k : Nat) (f : Slot → Slot) : (s.modSlot d k f).boot = s.boot := rfl
@[simp] theorem State.modSlot_links (d k : Nat) (f : Slot → Slot) : (s.modSlot d k f).links = s.links := rfl
@[simp] theorem State.modSlot_root (d k : Nat) (f : Slot → Slot) : (s.modSlot d k f).root = s.root := rfl
@[simp] theorem State.modSlot_notices (d k : Nat) (f : Slot → Slot) : (s.modSlot d k f).notices = s.notices := rfl
@[simp] theorem State.modSlot_travel (d k : Nat) (f : Slot → Slot) : (s.modSlot d k f).travel = s.travel := rfl
@[simp] theorem State.modSlot_streams (d k : Nat) (f : Slot → Slot) : (s.modSlot d k f).streams = s.streams := rfl
@[simp] theorem State.modSlot_pairs (d k : Nat) (f : Slot → Slot) : (s.modSlot d k f).pairs = s.pairs := rfl
@[simp] theorem State.modSlot_saf (d k : Nat) (f : Slot → Slot) : (s.modSlot d k f).saf = s.saf := rfl
@[simp] theorem State.modSlot_cosyView (d k : Nat) (f : Slot → Slot) : (s.modSlot d k f).cosyView = s.cosyView := rfl
@[simp] theorem State.modSlot_cosy (d k : Nat) (f : Slot → Slot) : (s.modSlot d k f).cosy = s.cosy := rfl
@[simp] theorem State.modSlot_recorder (d k : Nat) (f : Slot → Slot) : (s.modSlot d k f).recorder = s.recorder := rfl
@[simp] theorem State.modSlot_evDue (d k : Nat) (f : Slot → Slot) : (s.modSlot d k f).evDue = s.evDue := rfl
@[simp] theorem State.modSlot_doubtDue (d k : Nat) (f : Slot → Slot) : (s.modSlot d k f).doubtDue = s.doubtDue := rfl
@[simp] theorem State.modSlot_ingress (d k : Nat) (f : Slot → Slot) : (s.modSlot d k f).ingress = s.ingress := rfl
@[simp] theorem State.modSlot_ingStreams (d k : Nat) (f : Slot → Slot) : (s.modSlot d k f).ingStreams = s.ingStreams := rfl
@[simp] theorem State.modSlot_ringHold (d k : Nat) (f : Slot → Slot) : (s.modSlot d k f).ringHold = s.ringHold := rfl
@[simp] theorem State.modSlot_ports (d k : Nat) (f : Slot → Slot) : (s.modSlot d k f).ports = s.ports := rfl
@[simp] theorem State.modSlot_ring (d k : Nat) (f : Slot → Slot) : (s.modSlot d k f).ring = s.ring := rfl
@[simp] theorem State.modSlot_sec (d k : Nat) (f : Slot → Slot) : (s.modSlot d k f).sec = s.sec := rfl
@[simp] theorem State.modSlot_pwr (d k : Nat) (f : Slot → Slot) : (s.modSlot d k f).pwr = s.pwr := rfl
@[simp] theorem State.modSlot_frz (d k : Nat) (f : Slot → Slot) : (s.modSlot d k f).frz = s.frz := rfl
@[simp] theorem State.modSlot_out (d k : Nat) (f : Slot → Slot) : (s.modSlot d k f).out = s.out := rfl
@[simp] theorem State.modSlot_tally (d k : Nat) (f : Slot → Slot) : (s.modSlot d k f).tally = s.tally := rfl
@[simp] theorem State.modSlot_perFrame (d k : Nat) (f : Slot → Slot) : (s.modSlot d k f).perFrame = s.perFrame := rfl
@[simp] theorem State.modSlot_freeCtr (d k : Nat) (f : Slot → Slot) : (s.modSlot d k f).freeCtr = s.freeCtr := rfl

@[simp] theorem State.modChan_pending (d c : Nat) (f : DmaChan → DmaChan) : (s.modChan d c f).pending = s.pending := rfl
@[simp] theorem State.modChan_m2 (d c : Nat) (f : DmaChan → DmaChan) : (s.modChan d c f).m2 = s.m2 := rfl
@[simp] theorem State.modChan_deviceTime (d c : Nat) (f : DmaChan → DmaChan) : (s.modChan d c f).deviceTime = s.deviceTime := rfl
@[simp] theorem State.modChan_time (d c : Nat) (f : DmaChan → DmaChan) : (s.modChan d c f).time = s.time := rfl
@[simp] theorem State.modChan_regs (d c : Nat) (f : DmaChan → DmaChan) : (s.modChan d c f).regs = s.regs := rfl
@[simp] theorem State.modChan_shadow (d c : Nat) (f : DmaChan → DmaChan) : (s.modChan d c f).shadow = s.shadow := rfl
@[simp] theorem State.modChan_captures (d c : Nat) (f : DmaChan → DmaChan) : (s.modChan d c f).captures = s.captures := rfl
@[simp] theorem State.modChan_loHeld (d c : Nat) (f : DmaChan → DmaChan) : (s.modChan d c f).loHeld = s.loHeld := rfl
@[simp] theorem State.modChan_mem (d c : Nat) (f : DmaChan → DmaChan) : (s.modChan d c f).mem = s.mem := rfl
@[simp] theorem State.modChan_poison (d c : Nat) (f : DmaChan → DmaChan) : (s.modChan d c f).poison = s.poison := rfl
@[simp] theorem State.modChan_locked (d c : Nat) (f : DmaChan → DmaChan) : (s.modChan d c f).locked = s.locked := rfl
@[simp] theorem State.modChan_flags (d c : Nat) (f : DmaChan → DmaChan) : (s.modChan d c f).flags = s.flags := rfl
@[simp] theorem State.modChan_caddy (d c : Nat) (f : DmaChan → DmaChan) : (s.modChan d c f).caddy = s.caddy := rfl
@[simp] theorem State.modChan_flash (d c : Nat) (f : DmaChan → DmaChan) : (s.modChan d c f).flash = s.flash := rfl
@[simp] theorem State.modChan_boot (d c : Nat) (f : DmaChan → DmaChan) : (s.modChan d c f).boot = s.boot := rfl
@[simp] theorem State.modChan_links (d c : Nat) (f : DmaChan → DmaChan) : (s.modChan d c f).links = s.links := rfl
@[simp] theorem State.modChan_root (d c : Nat) (f : DmaChan → DmaChan) : (s.modChan d c f).root = s.root := rfl
@[simp] theorem State.modChan_notices (d c : Nat) (f : DmaChan → DmaChan) : (s.modChan d c f).notices = s.notices := rfl
@[simp] theorem State.modChan_travel (d c : Nat) (f : DmaChan → DmaChan) : (s.modChan d c f).travel = s.travel := rfl
@[simp] theorem State.modChan_streams (d c : Nat) (f : DmaChan → DmaChan) : (s.modChan d c f).streams = s.streams := rfl
@[simp] theorem State.modChan_pairs (d c : Nat) (f : DmaChan → DmaChan) : (s.modChan d c f).pairs = s.pairs := rfl
@[simp] theorem State.modChan_saf (d c : Nat) (f : DmaChan → DmaChan) : (s.modChan d c f).saf = s.saf := rfl
@[simp] theorem State.modChan_cosyView (d c : Nat) (f : DmaChan → DmaChan) : (s.modChan d c f).cosyView = s.cosyView := rfl
@[simp] theorem State.modChan_cosy (d c : Nat) (f : DmaChan → DmaChan) : (s.modChan d c f).cosy = s.cosy := rfl
@[simp] theorem State.modChan_recorder (d c : Nat) (f : DmaChan → DmaChan) : (s.modChan d c f).recorder = s.recorder := rfl
@[simp] theorem State.modChan_evDue (d c : Nat) (f : DmaChan → DmaChan) : (s.modChan d c f).evDue = s.evDue := rfl
@[simp] theorem State.modChan_doubtDue (d c : Nat) (f : DmaChan → DmaChan) : (s.modChan d c f).doubtDue = s.doubtDue := rfl
@[simp] theorem State.modChan_ingress (d c : Nat) (f : DmaChan → DmaChan) : (s.modChan d c f).ingress = s.ingress := rfl
@[simp] theorem State.modChan_ingStreams (d c : Nat) (f : DmaChan → DmaChan) : (s.modChan d c f).ingStreams = s.ingStreams := rfl
@[simp] theorem State.modChan_ringHold (d c : Nat) (f : DmaChan → DmaChan) : (s.modChan d c f).ringHold = s.ringHold := rfl
@[simp] theorem State.modChan_ports (d c : Nat) (f : DmaChan → DmaChan) : (s.modChan d c f).ports = s.ports := rfl
@[simp] theorem State.modChan_ring (d c : Nat) (f : DmaChan → DmaChan) : (s.modChan d c f).ring = s.ring := rfl
@[simp] theorem State.modChan_sec (d c : Nat) (f : DmaChan → DmaChan) : (s.modChan d c f).sec = s.sec := rfl
@[simp] theorem State.modChan_pwr (d c : Nat) (f : DmaChan → DmaChan) : (s.modChan d c f).pwr = s.pwr := rfl
@[simp] theorem State.modChan_frz (d c : Nat) (f : DmaChan → DmaChan) : (s.modChan d c f).frz = s.frz := rfl
@[simp] theorem State.modChan_out (d c : Nat) (f : DmaChan → DmaChan) : (s.modChan d c f).out = s.out := rfl
@[simp] theorem State.modChan_tally (d c : Nat) (f : DmaChan → DmaChan) : (s.modChan d c f).tally = s.tally := rfl
@[simp] theorem State.modChan_perFrame (d c : Nat) (f : DmaChan → DmaChan) : (s.modChan d c f).perFrame = s.perFrame := rfl
@[simp] theorem State.modChan_freeCtr (d c : Nat) (f : DmaChan → DmaChan) : (s.modChan d c f).freeCtr = s.freeCtr := rfl

@[simp] theorem State.modCtl_pending (d k : Nat) (f : MemCtl → MemCtl) : (s.modCtl d k f).pending = s.pending := rfl
@[simp] theorem State.modCtl_m2 (d k : Nat) (f : MemCtl → MemCtl) : (s.modCtl d k f).m2 = s.m2 := rfl
@[simp] theorem State.modCtl_deviceTime (d k : Nat) (f : MemCtl → MemCtl) : (s.modCtl d k f).deviceTime = s.deviceTime := rfl
@[simp] theorem State.modCtl_time (d k : Nat) (f : MemCtl → MemCtl) : (s.modCtl d k f).time = s.time := rfl
@[simp] theorem State.modCtl_regs (d k : Nat) (f : MemCtl → MemCtl) : (s.modCtl d k f).regs = s.regs := rfl
@[simp] theorem State.modCtl_shadow (d k : Nat) (f : MemCtl → MemCtl) : (s.modCtl d k f).shadow = s.shadow := rfl
@[simp] theorem State.modCtl_captures (d k : Nat) (f : MemCtl → MemCtl) : (s.modCtl d k f).captures = s.captures := rfl
@[simp] theorem State.modCtl_loHeld (d k : Nat) (f : MemCtl → MemCtl) : (s.modCtl d k f).loHeld = s.loHeld := rfl
@[simp] theorem State.modCtl_mem (d k : Nat) (f : MemCtl → MemCtl) : (s.modCtl d k f).mem = s.mem := rfl
@[simp] theorem State.modCtl_poison (d k : Nat) (f : MemCtl → MemCtl) : (s.modCtl d k f).poison = s.poison := rfl
@[simp] theorem State.modCtl_locked (d k : Nat) (f : MemCtl → MemCtl) : (s.modCtl d k f).locked = s.locked := rfl
@[simp] theorem State.modCtl_flags (d k : Nat) (f : MemCtl → MemCtl) : (s.modCtl d k f).flags = s.flags := rfl
@[simp] theorem State.modCtl_caddy (d k : Nat) (f : MemCtl → MemCtl) : (s.modCtl d k f).caddy = s.caddy := rfl
@[simp] theorem State.modCtl_flash (d k : Nat) (f : MemCtl → MemCtl) : (s.modCtl d k f).flash = s.flash := rfl
@[simp] theorem State.modCtl_boot (d k : Nat) (f : MemCtl → MemCtl) : (s.modCtl d k f).boot = s.boot := rfl
@[simp] theorem State.modCtl_links (d k : Nat) (f : MemCtl → MemCtl) : (s.modCtl d k f).links = s.links := rfl
@[simp] theorem State.modCtl_root (d k : Nat) (f : MemCtl → MemCtl) : (s.modCtl d k f).root = s.root := rfl
@[simp] theorem State.modCtl_notices (d k : Nat) (f : MemCtl → MemCtl) : (s.modCtl d k f).notices = s.notices := rfl
@[simp] theorem State.modCtl_travel (d k : Nat) (f : MemCtl → MemCtl) : (s.modCtl d k f).travel = s.travel := rfl
@[simp] theorem State.modCtl_streams (d k : Nat) (f : MemCtl → MemCtl) : (s.modCtl d k f).streams = s.streams := rfl
@[simp] theorem State.modCtl_pairs (d k : Nat) (f : MemCtl → MemCtl) : (s.modCtl d k f).pairs = s.pairs := rfl
@[simp] theorem State.modCtl_saf (d k : Nat) (f : MemCtl → MemCtl) : (s.modCtl d k f).saf = s.saf := rfl
@[simp] theorem State.modCtl_cosyView (d k : Nat) (f : MemCtl → MemCtl) : (s.modCtl d k f).cosyView = s.cosyView := rfl
@[simp] theorem State.modCtl_cosy (d k : Nat) (f : MemCtl → MemCtl) : (s.modCtl d k f).cosy = s.cosy := rfl
@[simp] theorem State.modCtl_recorder (d k : Nat) (f : MemCtl → MemCtl) : (s.modCtl d k f).recorder = s.recorder := rfl
@[simp] theorem State.modCtl_evDue (d k : Nat) (f : MemCtl → MemCtl) : (s.modCtl d k f).evDue = s.evDue := rfl
@[simp] theorem State.modCtl_doubtDue (d k : Nat) (f : MemCtl → MemCtl) : (s.modCtl d k f).doubtDue = s.doubtDue := rfl
@[simp] theorem State.modCtl_ingress (d k : Nat) (f : MemCtl → MemCtl) : (s.modCtl d k f).ingress = s.ingress := rfl
@[simp] theorem State.modCtl_ingStreams (d k : Nat) (f : MemCtl → MemCtl) : (s.modCtl d k f).ingStreams = s.ingStreams := rfl
@[simp] theorem State.modCtl_ringHold (d k : Nat) (f : MemCtl → MemCtl) : (s.modCtl d k f).ringHold = s.ringHold := rfl
@[simp] theorem State.modCtl_ports (d k : Nat) (f : MemCtl → MemCtl) : (s.modCtl d k f).ports = s.ports := rfl
@[simp] theorem State.modCtl_ring (d k : Nat) (f : MemCtl → MemCtl) : (s.modCtl d k f).ring = s.ring := rfl
@[simp] theorem State.modCtl_sec (d k : Nat) (f : MemCtl → MemCtl) : (s.modCtl d k f).sec = s.sec := rfl
@[simp] theorem State.modCtl_pwr (d k : Nat) (f : MemCtl → MemCtl) : (s.modCtl d k f).pwr = s.pwr := rfl
@[simp] theorem State.modCtl_frz (d k : Nat) (f : MemCtl → MemCtl) : (s.modCtl d k f).frz = s.frz := rfl
@[simp] theorem State.modCtl_out (d k : Nat) (f : MemCtl → MemCtl) : (s.modCtl d k f).out = s.out := rfl
@[simp] theorem State.modCtl_tally (d k : Nat) (f : MemCtl → MemCtl) : (s.modCtl d k f).tally = s.tally := rfl
@[simp] theorem State.modCtl_perFrame (d k : Nat) (f : MemCtl → MemCtl) : (s.modCtl d k f).perFrame = s.perFrame := rfl
@[simp] theorem State.modCtl_freeCtr (d k : Nat) (f : MemCtl → MemCtl) : (s.modCtl d k f).freeCtr = s.freeCtr := rfl

@[simp] theorem State.modCore_pending (d c : Nat) (f : Core → Core) : (s.modCore d c f).pending = s.pending := rfl
@[simp] theorem State.modCore_m2 (d c : Nat) (f : Core → Core) : (s.modCore d c f).m2 = s.m2 := rfl
@[simp] theorem State.modCore_deviceTime (d c : Nat) (f : Core → Core) : (s.modCore d c f).deviceTime = s.deviceTime := rfl
@[simp] theorem State.modCore_time (d c : Nat) (f : Core → Core) : (s.modCore d c f).time = s.time := rfl
@[simp] theorem State.modCore_regs (d c : Nat) (f : Core → Core) : (s.modCore d c f).regs = s.regs := rfl
@[simp] theorem State.modCore_shadow (d c : Nat) (f : Core → Core) : (s.modCore d c f).shadow = s.shadow := rfl
@[simp] theorem State.modCore_captures (d c : Nat) (f : Core → Core) : (s.modCore d c f).captures = s.captures := rfl
@[simp] theorem State.modCore_loHeld (d c : Nat) (f : Core → Core) : (s.modCore d c f).loHeld = s.loHeld := rfl
@[simp] theorem State.modCore_mem (d c : Nat) (f : Core → Core) : (s.modCore d c f).mem = s.mem := rfl
@[simp] theorem State.modCore_poison (d c : Nat) (f : Core → Core) : (s.modCore d c f).poison = s.poison := rfl
@[simp] theorem State.modCore_locked (d c : Nat) (f : Core → Core) : (s.modCore d c f).locked = s.locked := rfl
@[simp] theorem State.modCore_flags (d c : Nat) (f : Core → Core) : (s.modCore d c f).flags = s.flags := rfl
@[simp] theorem State.modCore_caddy (d c : Nat) (f : Core → Core) : (s.modCore d c f).caddy = s.caddy := rfl
@[simp] theorem State.modCore_flash (d c : Nat) (f : Core → Core) : (s.modCore d c f).flash = s.flash := rfl
@[simp] theorem State.modCore_boot (d c : Nat) (f : Core → Core) : (s.modCore d c f).boot = s.boot := rfl
@[simp] theorem State.modCore_links (d c : Nat) (f : Core → Core) : (s.modCore d c f).links = s.links := rfl
@[simp] theorem State.modCore_root (d c : Nat) (f : Core → Core) : (s.modCore d c f).root = s.root := rfl
@[simp] theorem State.modCore_notices (d c : Nat) (f : Core → Core) : (s.modCore d c f).notices = s.notices := rfl
@[simp] theorem State.modCore_travel (d c : Nat) (f : Core → Core) : (s.modCore d c f).travel = s.travel := rfl
@[simp] theorem State.modCore_streams (d c : Nat) (f : Core → Core) : (s.modCore d c f).streams = s.streams := rfl
@[simp] theorem State.modCore_pairs (d c : Nat) (f : Core → Core) : (s.modCore d c f).pairs = s.pairs := rfl
@[simp] theorem State.modCore_saf (d c : Nat) (f : Core → Core) : (s.modCore d c f).saf = s.saf := rfl
@[simp] theorem State.modCore_cosyView (d c : Nat) (f : Core → Core) : (s.modCore d c f).cosyView = s.cosyView := rfl
@[simp] theorem State.modCore_cosy (d c : Nat) (f : Core → Core) : (s.modCore d c f).cosy = s.cosy := rfl
@[simp] theorem State.modCore_recorder (d c : Nat) (f : Core → Core) : (s.modCore d c f).recorder = s.recorder := rfl
@[simp] theorem State.modCore_evDue (d c : Nat) (f : Core → Core) : (s.modCore d c f).evDue = s.evDue := rfl
@[simp] theorem State.modCore_doubtDue (d c : Nat) (f : Core → Core) : (s.modCore d c f).doubtDue = s.doubtDue := rfl
@[simp] theorem State.modCore_ingress (d c : Nat) (f : Core → Core) : (s.modCore d c f).ingress = s.ingress := rfl
@[simp] theorem State.modCore_ingStreams (d c : Nat) (f : Core → Core) : (s.modCore d c f).ingStreams = s.ingStreams := rfl
@[simp] theorem State.modCore_ringHold (d c : Nat) (f : Core → Core) : (s.modCore d c f).ringHold = s.ringHold := rfl
@[simp] theorem State.modCore_ports (d c : Nat) (f : Core → Core) : (s.modCore d c f).ports = s.ports := rfl
@[simp] theorem State.modCore_ring (d c : Nat) (f : Core → Core) : (s.modCore d c f).ring = s.ring := rfl
@[simp] theorem State.modCore_sec (d c : Nat) (f : Core → Core) : (s.modCore d c f).sec = s.sec := rfl
@[simp] theorem State.modCore_pwr (d c : Nat) (f : Core → Core) : (s.modCore d c f).pwr = s.pwr := rfl
@[simp] theorem State.modCore_frz (d c : Nat) (f : Core → Core) : (s.modCore d c f).frz = s.frz := rfl
@[simp] theorem State.modCore_out (d c : Nat) (f : Core → Core) : (s.modCore d c f).out = s.out := rfl
@[simp] theorem State.modCore_tally (d c : Nat) (f : Core → Core) : (s.modCore d c f).tally = s.tally := rfl
@[simp] theorem State.modCore_perFrame (d c : Nat) (f : Core → Core) : (s.modCore d c f).perFrame = s.perFrame := rfl
@[simp] theorem State.modCore_freeCtr (d c : Nat) (f : Core → Core) : (s.modCore d c f).freeCtr = s.freeCtr := rfl

@[simp] theorem State.modRelay_pending (d : Nat) (f : Relay → Relay) : (s.modRelay d f).pending = s.pending := rfl
@[simp] theorem State.modRelay_m2 (d : Nat) (f : Relay → Relay) : (s.modRelay d f).m2 = s.m2 := rfl
@[simp] theorem State.modRelay_deviceTime (d : Nat) (f : Relay → Relay) : (s.modRelay d f).deviceTime = s.deviceTime := rfl
@[simp] theorem State.modRelay_time (d : Nat) (f : Relay → Relay) : (s.modRelay d f).time = s.time := rfl
@[simp] theorem State.modRelay_regs (d : Nat) (f : Relay → Relay) : (s.modRelay d f).regs = s.regs := rfl
@[simp] theorem State.modRelay_shadow (d : Nat) (f : Relay → Relay) : (s.modRelay d f).shadow = s.shadow := rfl
@[simp] theorem State.modRelay_captures (d : Nat) (f : Relay → Relay) : (s.modRelay d f).captures = s.captures := rfl
@[simp] theorem State.modRelay_loHeld (d : Nat) (f : Relay → Relay) : (s.modRelay d f).loHeld = s.loHeld := rfl
@[simp] theorem State.modRelay_mem (d : Nat) (f : Relay → Relay) : (s.modRelay d f).mem = s.mem := rfl
@[simp] theorem State.modRelay_poison (d : Nat) (f : Relay → Relay) : (s.modRelay d f).poison = s.poison := rfl
@[simp] theorem State.modRelay_locked (d : Nat) (f : Relay → Relay) : (s.modRelay d f).locked = s.locked := rfl
@[simp] theorem State.modRelay_flags (d : Nat) (f : Relay → Relay) : (s.modRelay d f).flags = s.flags := rfl
@[simp] theorem State.modRelay_caddy (d : Nat) (f : Relay → Relay) : (s.modRelay d f).caddy = s.caddy := rfl
@[simp] theorem State.modRelay_flash (d : Nat) (f : Relay → Relay) : (s.modRelay d f).flash = s.flash := rfl
@[simp] theorem State.modRelay_boot (d : Nat) (f : Relay → Relay) : (s.modRelay d f).boot = s.boot := rfl
@[simp] theorem State.modRelay_links (d : Nat) (f : Relay → Relay) : (s.modRelay d f).links = s.links := rfl
@[simp] theorem State.modRelay_root (d : Nat) (f : Relay → Relay) : (s.modRelay d f).root = s.root := rfl
@[simp] theorem State.modRelay_notices (d : Nat) (f : Relay → Relay) : (s.modRelay d f).notices = s.notices := rfl
@[simp] theorem State.modRelay_travel (d : Nat) (f : Relay → Relay) : (s.modRelay d f).travel = s.travel := rfl
@[simp] theorem State.modRelay_streams (d : Nat) (f : Relay → Relay) : (s.modRelay d f).streams = s.streams := rfl
@[simp] theorem State.modRelay_pairs (d : Nat) (f : Relay → Relay) : (s.modRelay d f).pairs = s.pairs := rfl
@[simp] theorem State.modRelay_saf (d : Nat) (f : Relay → Relay) : (s.modRelay d f).saf = s.saf := rfl
@[simp] theorem State.modRelay_cosyView (d : Nat) (f : Relay → Relay) : (s.modRelay d f).cosyView = s.cosyView := rfl
@[simp] theorem State.modRelay_cosy (d : Nat) (f : Relay → Relay) : (s.modRelay d f).cosy = s.cosy := rfl
@[simp] theorem State.modRelay_recorder (d : Nat) (f : Relay → Relay) : (s.modRelay d f).recorder = s.recorder := rfl
@[simp] theorem State.modRelay_evDue (d : Nat) (f : Relay → Relay) : (s.modRelay d f).evDue = s.evDue := rfl
@[simp] theorem State.modRelay_doubtDue (d : Nat) (f : Relay → Relay) : (s.modRelay d f).doubtDue = s.doubtDue := rfl
@[simp] theorem State.modRelay_ingress (d : Nat) (f : Relay → Relay) : (s.modRelay d f).ingress = s.ingress := rfl
@[simp] theorem State.modRelay_ingStreams (d : Nat) (f : Relay → Relay) : (s.modRelay d f).ingStreams = s.ingStreams := rfl
@[simp] theorem State.modRelay_ringHold (d : Nat) (f : Relay → Relay) : (s.modRelay d f).ringHold = s.ringHold := rfl
@[simp] theorem State.modRelay_ports (d : Nat) (f : Relay → Relay) : (s.modRelay d f).ports = s.ports := rfl
@[simp] theorem State.modRelay_ring (d : Nat) (f : Relay → Relay) : (s.modRelay d f).ring = s.ring := rfl
@[simp] theorem State.modRelay_sec (d : Nat) (f : Relay → Relay) : (s.modRelay d f).sec = s.sec := rfl
@[simp] theorem State.modRelay_pwr (d : Nat) (f : Relay → Relay) : (s.modRelay d f).pwr = s.pwr := rfl
@[simp] theorem State.modRelay_frz (d : Nat) (f : Relay → Relay) : (s.modRelay d f).frz = s.frz := rfl
@[simp] theorem State.modRelay_out (d : Nat) (f : Relay → Relay) : (s.modRelay d f).out = s.out := rfl
@[simp] theorem State.modRelay_tally (d : Nat) (f : Relay → Relay) : (s.modRelay d f).tally = s.tally := rfl
@[simp] theorem State.modRelay_perFrame (d : Nat) (f : Relay → Relay) : (s.modRelay d f).perFrame = s.perFrame := rfl
@[simp] theorem State.modRelay_freeCtr (d : Nat) (f : Relay → Relay) : (s.modRelay d f).freeCtr = s.freeCtr := rfl

@[simp] theorem State.putBytes_pending (a : Nat) (l : List Byte) : (s.putBytes a l).pending = s.pending := rfl
@[simp] theorem State.putBytes_m2 (a : Nat) (l : List Byte) : (s.putBytes a l).m2 = s.m2 := rfl
@[simp] theorem State.putBytes_deviceTime (a : Nat) (l : List Byte) : (s.putBytes a l).deviceTime = s.deviceTime := rfl
@[simp] theorem State.putBytes_time (a : Nat) (l : List Byte) : (s.putBytes a l).time = s.time := rfl
@[simp] theorem State.putBytes_regs (a : Nat) (l : List Byte) : (s.putBytes a l).regs = s.regs := rfl
@[simp] theorem State.putBytes_shadow (a : Nat) (l : List Byte) : (s.putBytes a l).shadow = s.shadow := rfl
@[simp] theorem State.putBytes_captures (a : Nat) (l : List Byte) : (s.putBytes a l).captures = s.captures := rfl
@[simp] theorem State.putBytes_loHeld (a : Nat) (l : List Byte) : (s.putBytes a l).loHeld = s.loHeld := rfl
@[simp] theorem State.putBytes_poison (a : Nat) (l : List Byte) : (s.putBytes a l).poison = s.poison := rfl
@[simp] theorem State.putBytes_locked (a : Nat) (l : List Byte) : (s.putBytes a l).locked = s.locked := rfl
@[simp] theorem State.putBytes_flags (a : Nat) (l : List Byte) : (s.putBytes a l).flags = s.flags := rfl
@[simp] theorem State.putBytes_caddy (a : Nat) (l : List Byte) : (s.putBytes a l).caddy = s.caddy := rfl
@[simp] theorem State.putBytes_flash (a : Nat) (l : List Byte) : (s.putBytes a l).flash = s.flash := rfl
@[simp] theorem State.putBytes_boot (a : Nat) (l : List Byte) : (s.putBytes a l).boot = s.boot := rfl
@[simp] theorem State.putBytes_links (a : Nat) (l : List Byte) : (s.putBytes a l).links = s.links := rfl
@[simp] theorem State.putBytes_dies (a : Nat) (l : List Byte) : (s.putBytes a l).dies = s.dies := rfl
@[simp] theorem State.putBytes_root (a : Nat) (l : List Byte) : (s.putBytes a l).root = s.root := rfl
@[simp] theorem State.putBytes_notices (a : Nat) (l : List Byte) : (s.putBytes a l).notices = s.notices := rfl
@[simp] theorem State.putBytes_travel (a : Nat) (l : List Byte) : (s.putBytes a l).travel = s.travel := rfl
@[simp] theorem State.putBytes_streams (a : Nat) (l : List Byte) : (s.putBytes a l).streams = s.streams := rfl
@[simp] theorem State.putBytes_pairs (a : Nat) (l : List Byte) : (s.putBytes a l).pairs = s.pairs := rfl
@[simp] theorem State.putBytes_saf (a : Nat) (l : List Byte) : (s.putBytes a l).saf = s.saf := rfl
@[simp] theorem State.putBytes_cosyView (a : Nat) (l : List Byte) : (s.putBytes a l).cosyView = s.cosyView := rfl
@[simp] theorem State.putBytes_cosy (a : Nat) (l : List Byte) : (s.putBytes a l).cosy = s.cosy := rfl
@[simp] theorem State.putBytes_recorder (a : Nat) (l : List Byte) : (s.putBytes a l).recorder = s.recorder := rfl
@[simp] theorem State.putBytes_evDue (a : Nat) (l : List Byte) : (s.putBytes a l).evDue = s.evDue := rfl
@[simp] theorem State.putBytes_doubtDue (a : Nat) (l : List Byte) : (s.putBytes a l).doubtDue = s.doubtDue := rfl
@[simp] theorem State.putBytes_ingress (a : Nat) (l : List Byte) : (s.putBytes a l).ingress = s.ingress := rfl
@[simp] theorem State.putBytes_ingStreams (a : Nat) (l : List Byte) : (s.putBytes a l).ingStreams = s.ingStreams := rfl
@[simp] theorem State.putBytes_ringHold (a : Nat) (l : List Byte) : (s.putBytes a l).ringHold = s.ringHold := rfl
@[simp] theorem State.putBytes_ports (a : Nat) (l : List Byte) : (s.putBytes a l).ports = s.ports := rfl
@[simp] theorem State.putBytes_ring (a : Nat) (l : List Byte) : (s.putBytes a l).ring = s.ring := rfl
@[simp] theorem State.putBytes_sec (a : Nat) (l : List Byte) : (s.putBytes a l).sec = s.sec := rfl
@[simp] theorem State.putBytes_pwr (a : Nat) (l : List Byte) : (s.putBytes a l).pwr = s.pwr := rfl
@[simp] theorem State.putBytes_frz (a : Nat) (l : List Byte) : (s.putBytes a l).frz = s.frz := rfl
@[simp] theorem State.putBytes_out (a : Nat) (l : List Byte) : (s.putBytes a l).out = s.out := rfl
@[simp] theorem State.putBytes_tally (a : Nat) (l : List Byte) : (s.putBytes a l).tally = s.tally := rfl
@[simp] theorem State.putBytes_perFrame (a : Nat) (l : List Byte) : (s.putBytes a l).perFrame = s.perFrame := rfl
@[simp] theorem State.putBytes_freeCtr (a : Nat) (l : List Byte) : (s.putBytes a l).freeCtr = s.freeCtr := rfl

@[simp] theorem State.setPoison_pending (a : Nat) (p : Bool) : (s.setPoison a p).pending = s.pending := rfl
@[simp] theorem State.setPoison_m2 (a : Nat) (p : Bool) : (s.setPoison a p).m2 = s.m2 := rfl
@[simp] theorem State.setPoison_deviceTime (a : Nat) (p : Bool) : (s.setPoison a p).deviceTime = s.deviceTime := rfl
@[simp] theorem State.setPoison_time (a : Nat) (p : Bool) : (s.setPoison a p).time = s.time := rfl
@[simp] theorem State.setPoison_regs (a : Nat) (p : Bool) : (s.setPoison a p).regs = s.regs := rfl
@[simp] theorem State.setPoison_shadow (a : Nat) (p : Bool) : (s.setPoison a p).shadow = s.shadow := rfl
@[simp] theorem State.setPoison_captures (a : Nat) (p : Bool) : (s.setPoison a p).captures = s.captures := rfl
@[simp] theorem State.setPoison_loHeld (a : Nat) (p : Bool) : (s.setPoison a p).loHeld = s.loHeld := rfl
@[simp] theorem State.setPoison_mem (a : Nat) (p : Bool) : (s.setPoison a p).mem = s.mem := rfl
@[simp] theorem State.setPoison_locked (a : Nat) (p : Bool) : (s.setPoison a p).locked = s.locked := rfl
@[simp] theorem State.setPoison_flags (a : Nat) (p : Bool) : (s.setPoison a p).flags = s.flags := rfl
@[simp] theorem State.setPoison_caddy (a : Nat) (p : Bool) : (s.setPoison a p).caddy = s.caddy := rfl
@[simp] theorem State.setPoison_flash (a : Nat) (p : Bool) : (s.setPoison a p).flash = s.flash := rfl
@[simp] theorem State.setPoison_boot (a : Nat) (p : Bool) : (s.setPoison a p).boot = s.boot := rfl
@[simp] theorem State.setPoison_links (a : Nat) (p : Bool) : (s.setPoison a p).links = s.links := rfl
@[simp] theorem State.setPoison_dies (a : Nat) (p : Bool) : (s.setPoison a p).dies = s.dies := rfl
@[simp] theorem State.setPoison_root (a : Nat) (p : Bool) : (s.setPoison a p).root = s.root := rfl
@[simp] theorem State.setPoison_notices (a : Nat) (p : Bool) : (s.setPoison a p).notices = s.notices := rfl
@[simp] theorem State.setPoison_travel (a : Nat) (p : Bool) : (s.setPoison a p).travel = s.travel := rfl
@[simp] theorem State.setPoison_streams (a : Nat) (p : Bool) : (s.setPoison a p).streams = s.streams := rfl
@[simp] theorem State.setPoison_pairs (a : Nat) (p : Bool) : (s.setPoison a p).pairs = s.pairs := rfl
@[simp] theorem State.setPoison_saf (a : Nat) (p : Bool) : (s.setPoison a p).saf = s.saf := rfl
@[simp] theorem State.setPoison_cosyView (a : Nat) (p : Bool) : (s.setPoison a p).cosyView = s.cosyView := rfl
@[simp] theorem State.setPoison_cosy (a : Nat) (p : Bool) : (s.setPoison a p).cosy = s.cosy := rfl
@[simp] theorem State.setPoison_recorder (a : Nat) (p : Bool) : (s.setPoison a p).recorder = s.recorder := rfl
@[simp] theorem State.setPoison_evDue (a : Nat) (p : Bool) : (s.setPoison a p).evDue = s.evDue := rfl
@[simp] theorem State.setPoison_doubtDue (a : Nat) (p : Bool) : (s.setPoison a p).doubtDue = s.doubtDue := rfl
@[simp] theorem State.setPoison_ingress (a : Nat) (p : Bool) : (s.setPoison a p).ingress = s.ingress := rfl
@[simp] theorem State.setPoison_ingStreams (a : Nat) (p : Bool) : (s.setPoison a p).ingStreams = s.ingStreams := rfl
@[simp] theorem State.setPoison_ringHold (a : Nat) (p : Bool) : (s.setPoison a p).ringHold = s.ringHold := rfl
@[simp] theorem State.setPoison_ports (a : Nat) (p : Bool) : (s.setPoison a p).ports = s.ports := rfl
@[simp] theorem State.setPoison_ring (a : Nat) (p : Bool) : (s.setPoison a p).ring = s.ring := rfl
@[simp] theorem State.setPoison_sec (a : Nat) (p : Bool) : (s.setPoison a p).sec = s.sec := rfl
@[simp] theorem State.setPoison_pwr (a : Nat) (p : Bool) : (s.setPoison a p).pwr = s.pwr := rfl
@[simp] theorem State.setPoison_frz (a : Nat) (p : Bool) : (s.setPoison a p).frz = s.frz := rfl
@[simp] theorem State.setPoison_out (a : Nat) (p : Bool) : (s.setPoison a p).out = s.out := rfl
@[simp] theorem State.setPoison_tally (a : Nat) (p : Bool) : (s.setPoison a p).tally = s.tally := rfl
@[simp] theorem State.setPoison_perFrame (a : Nat) (p : Bool) : (s.setPoison a p).perFrame = s.perFrame := rfl
@[simp] theorem State.setPoison_freeCtr (a : Nat) (p : Bool) : (s.setPoison a p).freeCtr = s.freeCtr := rfl

@[simp] theorem State.clearMem_pending (a b : Nat) : (s.clearMem a b).pending = s.pending := rfl
@[simp] theorem State.clearMem_m2 (a b : Nat) : (s.clearMem a b).m2 = s.m2 := rfl
@[simp] theorem State.clearMem_deviceTime (a b : Nat) : (s.clearMem a b).deviceTime = s.deviceTime := rfl
@[simp] theorem State.clearMem_time (a b : Nat) : (s.clearMem a b).time = s.time := rfl
@[simp] theorem State.clearMem_regs (a b : Nat) : (s.clearMem a b).regs = s.regs := rfl
@[simp] theorem State.clearMem_shadow (a b : Nat) : (s.clearMem a b).shadow = s.shadow := rfl
@[simp] theorem State.clearMem_captures (a b : Nat) : (s.clearMem a b).captures = s.captures := rfl
@[simp] theorem State.clearMem_loHeld (a b : Nat) : (s.clearMem a b).loHeld = s.loHeld := rfl
@[simp] theorem State.clearMem_locked (a b : Nat) : (s.clearMem a b).locked = s.locked := rfl
@[simp] theorem State.clearMem_flags (a b : Nat) : (s.clearMem a b).flags = s.flags := rfl
@[simp] theorem State.clearMem_caddy (a b : Nat) : (s.clearMem a b).caddy = s.caddy := rfl
@[simp] theorem State.clearMem_flash (a b : Nat) : (s.clearMem a b).flash = s.flash := rfl
@[simp] theorem State.clearMem_boot (a b : Nat) : (s.clearMem a b).boot = s.boot := rfl
@[simp] theorem State.clearMem_links (a b : Nat) : (s.clearMem a b).links = s.links := rfl
@[simp] theorem State.clearMem_dies (a b : Nat) : (s.clearMem a b).dies = s.dies := rfl
@[simp] theorem State.clearMem_root (a b : Nat) : (s.clearMem a b).root = s.root := rfl
@[simp] theorem State.clearMem_notices (a b : Nat) : (s.clearMem a b).notices = s.notices := rfl
@[simp] theorem State.clearMem_travel (a b : Nat) : (s.clearMem a b).travel = s.travel := rfl
@[simp] theorem State.clearMem_streams (a b : Nat) : (s.clearMem a b).streams = s.streams := rfl
@[simp] theorem State.clearMem_pairs (a b : Nat) : (s.clearMem a b).pairs = s.pairs := rfl
@[simp] theorem State.clearMem_saf (a b : Nat) : (s.clearMem a b).saf = s.saf := rfl
@[simp] theorem State.clearMem_cosyView (a b : Nat) : (s.clearMem a b).cosyView = s.cosyView := rfl
@[simp] theorem State.clearMem_cosy (a b : Nat) : (s.clearMem a b).cosy = s.cosy := rfl
@[simp] theorem State.clearMem_recorder (a b : Nat) : (s.clearMem a b).recorder = s.recorder := rfl
@[simp] theorem State.clearMem_evDue (a b : Nat) : (s.clearMem a b).evDue = s.evDue := rfl
@[simp] theorem State.clearMem_doubtDue (a b : Nat) : (s.clearMem a b).doubtDue = s.doubtDue := rfl
@[simp] theorem State.clearMem_ingress (a b : Nat) : (s.clearMem a b).ingress = s.ingress := rfl
@[simp] theorem State.clearMem_ingStreams (a b : Nat) : (s.clearMem a b).ingStreams = s.ingStreams := rfl
@[simp] theorem State.clearMem_ringHold (a b : Nat) : (s.clearMem a b).ringHold = s.ringHold := rfl
@[simp] theorem State.clearMem_ports (a b : Nat) : (s.clearMem a b).ports = s.ports := rfl
@[simp] theorem State.clearMem_ring (a b : Nat) : (s.clearMem a b).ring = s.ring := rfl
@[simp] theorem State.clearMem_sec (a b : Nat) : (s.clearMem a b).sec = s.sec := rfl
@[simp] theorem State.clearMem_pwr (a b : Nat) : (s.clearMem a b).pwr = s.pwr := rfl
@[simp] theorem State.clearMem_frz (a b : Nat) : (s.clearMem a b).frz = s.frz := rfl
@[simp] theorem State.clearMem_out (a b : Nat) : (s.clearMem a b).out = s.out := rfl
@[simp] theorem State.clearMem_tally (a b : Nat) : (s.clearMem a b).tally = s.tally := rfl
@[simp] theorem State.clearMem_perFrame (a b : Nat) : (s.clearMem a b).perFrame = s.perFrame := rfl
@[simp] theorem State.clearMem_freeCtr (a b : Nat) : (s.clearMem a b).freeCtr = s.freeCtr := rfl

@[simp] theorem State.copyRange_pending (a b n : Nat) : (s.copyRange a b n).pending = s.pending := rfl
@[simp] theorem State.copyRange_m2 (a b n : Nat) : (s.copyRange a b n).m2 = s.m2 := rfl
@[simp] theorem State.copyRange_deviceTime (a b n : Nat) : (s.copyRange a b n).deviceTime = s.deviceTime := rfl
@[simp] theorem State.copyRange_time (a b n : Nat) : (s.copyRange a b n).time = s.time := rfl
@[simp] theorem State.copyRange_regs (a b n : Nat) : (s.copyRange a b n).regs = s.regs := rfl
@[simp] theorem State.copyRange_shadow (a b n : Nat) : (s.copyRange a b n).shadow = s.shadow := rfl
@[simp] theorem State.copyRange_captures (a b n : Nat) : (s.copyRange a b n).captures = s.captures := rfl
@[simp] theorem State.copyRange_loHeld (a b n : Nat) : (s.copyRange a b n).loHeld = s.loHeld := rfl
@[simp] theorem State.copyRange_locked (a b n : Nat) : (s.copyRange a b n).locked = s.locked := rfl
@[simp] theorem State.copyRange_flags (a b n : Nat) : (s.copyRange a b n).flags = s.flags := rfl
@[simp] theorem State.copyRange_caddy (a b n : Nat) : (s.copyRange a b n).caddy = s.caddy := rfl
@[simp] theorem State.copyRange_flash (a b n : Nat) : (s.copyRange a b n).flash = s.flash := rfl
@[simp] theorem State.copyRange_boot (a b n : Nat) : (s.copyRange a b n).boot = s.boot := rfl
@[simp] theorem State.copyRange_links (a b n : Nat) : (s.copyRange a b n).links = s.links := rfl
@[simp] theorem State.copyRange_dies (a b n : Nat) : (s.copyRange a b n).dies = s.dies := rfl
@[simp] theorem State.copyRange_root (a b n : Nat) : (s.copyRange a b n).root = s.root := rfl
@[simp] theorem State.copyRange_notices (a b n : Nat) : (s.copyRange a b n).notices = s.notices := rfl
@[simp] theorem State.copyRange_travel (a b n : Nat) : (s.copyRange a b n).travel = s.travel := rfl
@[simp] theorem State.copyRange_streams (a b n : Nat) : (s.copyRange a b n).streams = s.streams := rfl
@[simp] theorem State.copyRange_pairs (a b n : Nat) : (s.copyRange a b n).pairs = s.pairs := rfl
@[simp] theorem State.copyRange_saf (a b n : Nat) : (s.copyRange a b n).saf = s.saf := rfl
@[simp] theorem State.copyRange_cosyView (a b n : Nat) : (s.copyRange a b n).cosyView = s.cosyView := rfl
@[simp] theorem State.copyRange_cosy (a b n : Nat) : (s.copyRange a b n).cosy = s.cosy := rfl
@[simp] theorem State.copyRange_recorder (a b n : Nat) : (s.copyRange a b n).recorder = s.recorder := rfl
@[simp] theorem State.copyRange_evDue (a b n : Nat) : (s.copyRange a b n).evDue = s.evDue := rfl
@[simp] theorem State.copyRange_doubtDue (a b n : Nat) : (s.copyRange a b n).doubtDue = s.doubtDue := rfl
@[simp] theorem State.copyRange_ingress (a b n : Nat) : (s.copyRange a b n).ingress = s.ingress := rfl
@[simp] theorem State.copyRange_ingStreams (a b n : Nat) : (s.copyRange a b n).ingStreams = s.ingStreams := rfl
@[simp] theorem State.copyRange_ringHold (a b n : Nat) : (s.copyRange a b n).ringHold = s.ringHold := rfl
@[simp] theorem State.copyRange_ports (a b n : Nat) : (s.copyRange a b n).ports = s.ports := rfl
@[simp] theorem State.copyRange_ring (a b n : Nat) : (s.copyRange a b n).ring = s.ring := rfl
@[simp] theorem State.copyRange_sec (a b n : Nat) : (s.copyRange a b n).sec = s.sec := rfl
@[simp] theorem State.copyRange_pwr (a b n : Nat) : (s.copyRange a b n).pwr = s.pwr := rfl
@[simp] theorem State.copyRange_frz (a b n : Nat) : (s.copyRange a b n).frz = s.frz := rfl
@[simp] theorem State.copyRange_out (a b n : Nat) : (s.copyRange a b n).out = s.out := rfl
@[simp] theorem State.copyRange_tally (a b n : Nat) : (s.copyRange a b n).tally = s.tally := rfl
@[simp] theorem State.copyRange_perFrame (a b n : Nat) : (s.copyRange a b n).perFrame = s.perFrame := rfl
@[simp] theorem State.copyRange_freeCtr (a b n : Nat) : (s.copyRange a b n).freeCtr = s.freeCtr := rfl

@[simp] theorem State.raise_pending (c v d f : Nat) : (s.raise c v d f).pending = s.pending := rfl
@[simp] theorem State.raise_m2 (c v d f : Nat) : (s.raise c v d f).m2 = s.m2 := rfl
@[simp] theorem State.raise_deviceTime (c v d f : Nat) : (s.raise c v d f).deviceTime = s.deviceTime := rfl
@[simp] theorem State.raise_time (c v d f : Nat) : (s.raise c v d f).time = s.time := rfl
@[simp] theorem State.raise_regs (c v d f : Nat) : (s.raise c v d f).regs = s.regs := rfl
@[simp] theorem State.raise_shadow (c v d f : Nat) : (s.raise c v d f).shadow = s.shadow := rfl
@[simp] theorem State.raise_captures (c v d f : Nat) : (s.raise c v d f).captures = s.captures := rfl
@[simp] theorem State.raise_loHeld (c v d f : Nat) : (s.raise c v d f).loHeld = s.loHeld := rfl
@[simp] theorem State.raise_mem (c v d f : Nat) : (s.raise c v d f).mem = s.mem := rfl
@[simp] theorem State.raise_poison (c v d f : Nat) : (s.raise c v d f).poison = s.poison := rfl
@[simp] theorem State.raise_locked (c v d f : Nat) : (s.raise c v d f).locked = s.locked := rfl
@[simp] theorem State.raise_flags (c v d f : Nat) : (s.raise c v d f).flags = s.flags := rfl
@[simp] theorem State.raise_caddy (c v d f : Nat) : (s.raise c v d f).caddy = s.caddy := rfl
@[simp] theorem State.raise_flash (c v d f : Nat) : (s.raise c v d f).flash = s.flash := rfl
@[simp] theorem State.raise_boot (c v d f : Nat) : (s.raise c v d f).boot = s.boot := rfl
@[simp] theorem State.raise_links (c v d f : Nat) : (s.raise c v d f).links = s.links := rfl
@[simp] theorem State.raise_dies (c v d f : Nat) : (s.raise c v d f).dies = s.dies := rfl
@[simp] theorem State.raise_root (c v d f : Nat) : (s.raise c v d f).root = s.root := rfl
@[simp] theorem State.raise_notices (c v d f : Nat) : (s.raise c v d f).notices = s.notices := rfl
@[simp] theorem State.raise_travel (c v d f : Nat) : (s.raise c v d f).travel = s.travel := rfl
@[simp] theorem State.raise_streams (c v d f : Nat) : (s.raise c v d f).streams = s.streams := rfl
@[simp] theorem State.raise_pairs (c v d f : Nat) : (s.raise c v d f).pairs = s.pairs := rfl
@[simp] theorem State.raise_saf (c v d f : Nat) : (s.raise c v d f).saf = s.saf := rfl
@[simp] theorem State.raise_cosyView (c v d f : Nat) : (s.raise c v d f).cosyView = s.cosyView := rfl
@[simp] theorem State.raise_cosy (c v d f : Nat) : (s.raise c v d f).cosy = s.cosy := rfl
@[simp] theorem State.raise_recorder (c v d f : Nat) : (s.raise c v d f).recorder = s.recorder := rfl
@[simp] theorem State.raise_doubtDue (c v d f : Nat) : (s.raise c v d f).doubtDue = s.doubtDue := rfl
@[simp] theorem State.raise_ingress (c v d f : Nat) : (s.raise c v d f).ingress = s.ingress := rfl
@[simp] theorem State.raise_ingStreams (c v d f : Nat) : (s.raise c v d f).ingStreams = s.ingStreams := rfl
@[simp] theorem State.raise_ringHold (c v d f : Nat) : (s.raise c v d f).ringHold = s.ringHold := rfl
@[simp] theorem State.raise_ports (c v d f : Nat) : (s.raise c v d f).ports = s.ports := rfl
@[simp] theorem State.raise_ring (c v d f : Nat) : (s.raise c v d f).ring = s.ring := rfl
@[simp] theorem State.raise_sec (c v d f : Nat) : (s.raise c v d f).sec = s.sec := rfl
@[simp] theorem State.raise_pwr (c v d f : Nat) : (s.raise c v d f).pwr = s.pwr := rfl
@[simp] theorem State.raise_frz (c v d f : Nat) : (s.raise c v d f).frz = s.frz := rfl
@[simp] theorem State.raise_out (c v d f : Nat) : (s.raise c v d f).out = s.out := rfl
@[simp] theorem State.raise_tally (c v d f : Nat) : (s.raise c v d f).tally = s.tally := rfl
@[simp] theorem State.raise_perFrame (c v d f : Nat) : (s.raise c v d f).perFrame = s.perFrame := rfl
@[simp] theorem State.raise_freeCtr (c v d f : Nat) : (s.raise c v d f).freeCtr = s.freeCtr := rfl

@[simp] theorem State.doubt_pending (c d : Nat) (f : Word) (b : Nat) (w : DoubtWhy) : (s.doubt c d f b w).pending = s.pending := rfl
@[simp] theorem State.doubt_m2 (c d : Nat) (f : Word) (b : Nat) (w : DoubtWhy) : (s.doubt c d f b w).m2 = s.m2 := rfl
@[simp] theorem State.doubt_deviceTime (c d : Nat) (f : Word) (b : Nat) (w : DoubtWhy) : (s.doubt c d f b w).deviceTime = s.deviceTime := rfl
@[simp] theorem State.doubt_time (c d : Nat) (f : Word) (b : Nat) (w : DoubtWhy) : (s.doubt c d f b w).time = s.time := rfl
@[simp] theorem State.doubt_regs (c d : Nat) (f : Word) (b : Nat) (w : DoubtWhy) : (s.doubt c d f b w).regs = s.regs := rfl
@[simp] theorem State.doubt_shadow (c d : Nat) (f : Word) (b : Nat) (w : DoubtWhy) : (s.doubt c d f b w).shadow = s.shadow := rfl
@[simp] theorem State.doubt_captures (c d : Nat) (f : Word) (b : Nat) (w : DoubtWhy) : (s.doubt c d f b w).captures = s.captures := rfl
@[simp] theorem State.doubt_loHeld (c d : Nat) (f : Word) (b : Nat) (w : DoubtWhy) : (s.doubt c d f b w).loHeld = s.loHeld := rfl
@[simp] theorem State.doubt_mem (c d : Nat) (f : Word) (b : Nat) (w : DoubtWhy) : (s.doubt c d f b w).mem = s.mem := rfl
@[simp] theorem State.doubt_poison (c d : Nat) (f : Word) (b : Nat) (w : DoubtWhy) : (s.doubt c d f b w).poison = s.poison := rfl
@[simp] theorem State.doubt_locked (c d : Nat) (f : Word) (b : Nat) (w : DoubtWhy) : (s.doubt c d f b w).locked = s.locked := rfl
@[simp] theorem State.doubt_flags (c d : Nat) (f : Word) (b : Nat) (w : DoubtWhy) : (s.doubt c d f b w).flags = s.flags := rfl
@[simp] theorem State.doubt_caddy (c d : Nat) (f : Word) (b : Nat) (w : DoubtWhy) : (s.doubt c d f b w).caddy = s.caddy := rfl
@[simp] theorem State.doubt_flash (c d : Nat) (f : Word) (b : Nat) (w : DoubtWhy) : (s.doubt c d f b w).flash = s.flash := rfl
@[simp] theorem State.doubt_boot (c d : Nat) (f : Word) (b : Nat) (w : DoubtWhy) : (s.doubt c d f b w).boot = s.boot := rfl
@[simp] theorem State.doubt_links (c d : Nat) (f : Word) (b : Nat) (w : DoubtWhy) : (s.doubt c d f b w).links = s.links := rfl
@[simp] theorem State.doubt_dies (c d : Nat) (f : Word) (b : Nat) (w : DoubtWhy) : (s.doubt c d f b w).dies = s.dies := rfl
@[simp] theorem State.doubt_root (c d : Nat) (f : Word) (b : Nat) (w : DoubtWhy) : (s.doubt c d f b w).root = s.root := rfl
@[simp] theorem State.doubt_notices (c d : Nat) (f : Word) (b : Nat) (w : DoubtWhy) : (s.doubt c d f b w).notices = s.notices := rfl
@[simp] theorem State.doubt_travel (c d : Nat) (f : Word) (b : Nat) (w : DoubtWhy) : (s.doubt c d f b w).travel = s.travel := rfl
@[simp] theorem State.doubt_streams (c d : Nat) (f : Word) (b : Nat) (w : DoubtWhy) : (s.doubt c d f b w).streams = s.streams := rfl
@[simp] theorem State.doubt_pairs (c d : Nat) (f : Word) (b : Nat) (w : DoubtWhy) : (s.doubt c d f b w).pairs = s.pairs := rfl
@[simp] theorem State.doubt_saf (c d : Nat) (f : Word) (b : Nat) (w : DoubtWhy) : (s.doubt c d f b w).saf = s.saf := rfl
@[simp] theorem State.doubt_cosyView (c d : Nat) (f : Word) (b : Nat) (w : DoubtWhy) : (s.doubt c d f b w).cosyView = s.cosyView := rfl
@[simp] theorem State.doubt_cosy (c d : Nat) (f : Word) (b : Nat) (w : DoubtWhy) : (s.doubt c d f b w).cosy = s.cosy := rfl
@[simp] theorem State.doubt_recorder (c d : Nat) (f : Word) (b : Nat) (w : DoubtWhy) : (s.doubt c d f b w).recorder = s.recorder := rfl
@[simp] theorem State.doubt_evDue (c d : Nat) (f : Word) (b : Nat) (w : DoubtWhy) : (s.doubt c d f b w).evDue = s.evDue := rfl
@[simp] theorem State.doubt_ingress (c d : Nat) (f : Word) (b : Nat) (w : DoubtWhy) : (s.doubt c d f b w).ingress = s.ingress := rfl
@[simp] theorem State.doubt_ingStreams (c d : Nat) (f : Word) (b : Nat) (w : DoubtWhy) : (s.doubt c d f b w).ingStreams = s.ingStreams := rfl
@[simp] theorem State.doubt_ringHold (c d : Nat) (f : Word) (b : Nat) (w : DoubtWhy) : (s.doubt c d f b w).ringHold = s.ringHold := rfl
@[simp] theorem State.doubt_ports (c d : Nat) (f : Word) (b : Nat) (w : DoubtWhy) : (s.doubt c d f b w).ports = s.ports := rfl
@[simp] theorem State.doubt_ring (c d : Nat) (f : Word) (b : Nat) (w : DoubtWhy) : (s.doubt c d f b w).ring = s.ring := rfl
@[simp] theorem State.doubt_sec (c d : Nat) (f : Word) (b : Nat) (w : DoubtWhy) : (s.doubt c d f b w).sec = s.sec := rfl
@[simp] theorem State.doubt_pwr (c d : Nat) (f : Word) (b : Nat) (w : DoubtWhy) : (s.doubt c d f b w).pwr = s.pwr := rfl
@[simp] theorem State.doubt_frz (c d : Nat) (f : Word) (b : Nat) (w : DoubtWhy) : (s.doubt c d f b w).frz = s.frz := rfl
@[simp] theorem State.doubt_out (c d : Nat) (f : Word) (b : Nat) (w : DoubtWhy) : (s.doubt c d f b w).out = s.out := rfl
@[simp] theorem State.doubt_tally (c d : Nat) (f : Word) (b : Nat) (w : DoubtWhy) : (s.doubt c d f b w).tally = s.tally := rfl
@[simp] theorem State.doubt_perFrame (c d : Nat) (f : Word) (b : Nat) (w : DoubtWhy) : (s.doubt c d f b w).perFrame = s.perFrame := rfl
@[simp] theorem State.doubt_freeCtr (c d : Nat) (f : Word) (b : Nat) (w : DoubtWhy) : (s.doubt c d f b w).freeCtr = s.freeCtr := rfl

@[simp] theorem State.setLink_pending (l : DieLink) (w : LinkWidth) : (s.setLink l w).pending = s.pending := rfl
@[simp] theorem State.setLink_m2 (l : DieLink) (w : LinkWidth) : (s.setLink l w).m2 = s.m2 := rfl
@[simp] theorem State.setLink_deviceTime (l : DieLink) (w : LinkWidth) : (s.setLink l w).deviceTime = s.deviceTime := rfl
@[simp] theorem State.setLink_time (l : DieLink) (w : LinkWidth) : (s.setLink l w).time = s.time := rfl
@[simp] theorem State.setLink_regs (l : DieLink) (w : LinkWidth) : (s.setLink l w).regs = s.regs := rfl
@[simp] theorem State.setLink_shadow (l : DieLink) (w : LinkWidth) : (s.setLink l w).shadow = s.shadow := rfl
@[simp] theorem State.setLink_captures (l : DieLink) (w : LinkWidth) : (s.setLink l w).captures = s.captures := rfl
@[simp] theorem State.setLink_loHeld (l : DieLink) (w : LinkWidth) : (s.setLink l w).loHeld = s.loHeld := rfl
@[simp] theorem State.setLink_mem (l : DieLink) (w : LinkWidth) : (s.setLink l w).mem = s.mem := rfl
@[simp] theorem State.setLink_poison (l : DieLink) (w : LinkWidth) : (s.setLink l w).poison = s.poison := rfl
@[simp] theorem State.setLink_locked (l : DieLink) (w : LinkWidth) : (s.setLink l w).locked = s.locked := rfl
@[simp] theorem State.setLink_flags (l : DieLink) (w : LinkWidth) : (s.setLink l w).flags = s.flags := rfl
@[simp] theorem State.setLink_caddy (l : DieLink) (w : LinkWidth) : (s.setLink l w).caddy = s.caddy := rfl
@[simp] theorem State.setLink_flash (l : DieLink) (w : LinkWidth) : (s.setLink l w).flash = s.flash := rfl
@[simp] theorem State.setLink_boot (l : DieLink) (w : LinkWidth) : (s.setLink l w).boot = s.boot := rfl
@[simp] theorem State.setLink_dies (l : DieLink) (w : LinkWidth) : (s.setLink l w).dies = s.dies := rfl
@[simp] theorem State.setLink_root (l : DieLink) (w : LinkWidth) : (s.setLink l w).root = s.root := rfl
@[simp] theorem State.setLink_notices (l : DieLink) (w : LinkWidth) : (s.setLink l w).notices = s.notices := rfl
@[simp] theorem State.setLink_travel (l : DieLink) (w : LinkWidth) : (s.setLink l w).travel = s.travel := rfl
@[simp] theorem State.setLink_streams (l : DieLink) (w : LinkWidth) : (s.setLink l w).streams = s.streams := rfl
@[simp] theorem State.setLink_pairs (l : DieLink) (w : LinkWidth) : (s.setLink l w).pairs = s.pairs := rfl
@[simp] theorem State.setLink_saf (l : DieLink) (w : LinkWidth) : (s.setLink l w).saf = s.saf := rfl
@[simp] theorem State.setLink_cosyView (l : DieLink) (w : LinkWidth) : (s.setLink l w).cosyView = s.cosyView := rfl
@[simp] theorem State.setLink_cosy (l : DieLink) (w : LinkWidth) : (s.setLink l w).cosy = s.cosy := rfl
@[simp] theorem State.setLink_recorder (l : DieLink) (w : LinkWidth) : (s.setLink l w).recorder = s.recorder := rfl
@[simp] theorem State.setLink_evDue (l : DieLink) (w : LinkWidth) : (s.setLink l w).evDue = s.evDue := rfl
@[simp] theorem State.setLink_doubtDue (l : DieLink) (w : LinkWidth) : (s.setLink l w).doubtDue = s.doubtDue := rfl
@[simp] theorem State.setLink_ingress (l : DieLink) (w : LinkWidth) : (s.setLink l w).ingress = s.ingress := rfl
@[simp] theorem State.setLink_ingStreams (l : DieLink) (w : LinkWidth) : (s.setLink l w).ingStreams = s.ingStreams := rfl
@[simp] theorem State.setLink_ringHold (l : DieLink) (w : LinkWidth) : (s.setLink l w).ringHold = s.ringHold := rfl
@[simp] theorem State.setLink_ports (l : DieLink) (w : LinkWidth) : (s.setLink l w).ports = s.ports := rfl
@[simp] theorem State.setLink_ring (l : DieLink) (w : LinkWidth) : (s.setLink l w).ring = s.ring := rfl
@[simp] theorem State.setLink_sec (l : DieLink) (w : LinkWidth) : (s.setLink l w).sec = s.sec := rfl
@[simp] theorem State.setLink_pwr (l : DieLink) (w : LinkWidth) : (s.setLink l w).pwr = s.pwr := rfl
@[simp] theorem State.setLink_frz (l : DieLink) (w : LinkWidth) : (s.setLink l w).frz = s.frz := rfl
@[simp] theorem State.setLink_out (l : DieLink) (w : LinkWidth) : (s.setLink l w).out = s.out := rfl
@[simp] theorem State.setLink_tally (l : DieLink) (w : LinkWidth) : (s.setLink l w).tally = s.tally := rfl
@[simp] theorem State.setLink_perFrame (l : DieLink) (w : LinkWidth) : (s.setLink l w).perFrame = s.perFrame := rfl
@[simp] theorem State.setLink_freeCtr (l : DieLink) (w : LinkWidth) : (s.setLink l w).freeCtr = s.freeCtr := rfl

@[simp] theorem State.fault_pending (b : Bool) : (s.fault b).pending = s.pending := rfl
@[simp] theorem State.fault_m2 (b : Bool) : (s.fault b).m2 = s.m2 := rfl
@[simp] theorem State.fault_deviceTime (b : Bool) : (s.fault b).deviceTime = s.deviceTime := rfl
@[simp] theorem State.fault_time (b : Bool) : (s.fault b).time = s.time := rfl
@[simp] theorem State.fault_shadow (b : Bool) : (s.fault b).shadow = s.shadow := rfl
@[simp] theorem State.fault_captures (b : Bool) : (s.fault b).captures = s.captures := rfl
@[simp] theorem State.fault_loHeld (b : Bool) : (s.fault b).loHeld = s.loHeld := rfl
@[simp] theorem State.fault_mem (b : Bool) : (s.fault b).mem = s.mem := rfl
@[simp] theorem State.fault_poison (b : Bool) : (s.fault b).poison = s.poison := rfl
@[simp] theorem State.fault_locked (b : Bool) : (s.fault b).locked = s.locked := rfl
@[simp] theorem State.fault_flags (b : Bool) : (s.fault b).flags = s.flags := rfl
@[simp] theorem State.fault_caddy (b : Bool) : (s.fault b).caddy = s.caddy := rfl
@[simp] theorem State.fault_flash (b : Bool) : (s.fault b).flash = s.flash := rfl
@[simp] theorem State.fault_boot (b : Bool) : (s.fault b).boot = s.boot := rfl
@[simp] theorem State.fault_links (b : Bool) : (s.fault b).links = s.links := rfl
@[simp] theorem State.fault_dies (b : Bool) : (s.fault b).dies = s.dies := rfl
@[simp] theorem State.fault_root (b : Bool) : (s.fault b).root = s.root := rfl
@[simp] theorem State.fault_notices (b : Bool) : (s.fault b).notices = s.notices := rfl
@[simp] theorem State.fault_travel (b : Bool) : (s.fault b).travel = s.travel := rfl
@[simp] theorem State.fault_streams (b : Bool) : (s.fault b).streams = s.streams := rfl
@[simp] theorem State.fault_pairs (b : Bool) : (s.fault b).pairs = s.pairs := rfl
@[simp] theorem State.fault_saf (b : Bool) : (s.fault b).saf = s.saf := rfl
@[simp] theorem State.fault_cosyView (b : Bool) : (s.fault b).cosyView = s.cosyView := rfl
@[simp] theorem State.fault_cosy (b : Bool) : (s.fault b).cosy = s.cosy := rfl
@[simp] theorem State.fault_recorder (b : Bool) : (s.fault b).recorder = s.recorder := rfl
@[simp] theorem State.fault_evDue (b : Bool) : (s.fault b).evDue = s.evDue := rfl
@[simp] theorem State.fault_doubtDue (b : Bool) : (s.fault b).doubtDue = s.doubtDue := rfl
@[simp] theorem State.fault_ingress (b : Bool) : (s.fault b).ingress = s.ingress := rfl
@[simp] theorem State.fault_ingStreams (b : Bool) : (s.fault b).ingStreams = s.ingStreams := rfl
@[simp] theorem State.fault_ringHold (b : Bool) : (s.fault b).ringHold = s.ringHold := rfl
@[simp] theorem State.fault_ports (b : Bool) : (s.fault b).ports = s.ports := rfl
@[simp] theorem State.fault_ring (b : Bool) : (s.fault b).ring = s.ring := rfl
@[simp] theorem State.fault_sec (b : Bool) : (s.fault b).sec = s.sec := rfl
@[simp] theorem State.fault_frz (b : Bool) : (s.fault b).frz = s.frz := rfl
@[simp] theorem State.fault_out (b : Bool) : (s.fault b).out = s.out := rfl
@[simp] theorem State.fault_tally (b : Bool) : (s.fault b).tally = s.tally := rfl
@[simp] theorem State.fault_perFrame (b : Bool) : (s.fault b).perFrame = s.perFrame := rfl
@[simp] theorem State.fault_freeCtr (b : Bool) : (s.fault b).freeCtr = s.freeCtr := rfl

@[simp] theorem State.answer_pending (w : Word) : (s.answer w).pending = s.pending := rfl
@[simp] theorem State.answer_m2 (w : Word) : (s.answer w).m2 = s.m2 := rfl
@[simp] theorem State.answer_deviceTime (w : Word) : (s.answer w).deviceTime = s.deviceTime := rfl
@[simp] theorem State.answer_time (w : Word) : (s.answer w).time = s.time := rfl
@[simp] theorem State.answer_regs (w : Word) : (s.answer w).regs = s.regs := rfl
@[simp] theorem State.answer_shadow (w : Word) : (s.answer w).shadow = s.shadow := rfl
@[simp] theorem State.answer_captures (w : Word) : (s.answer w).captures = s.captures := rfl
@[simp] theorem State.answer_loHeld (w : Word) : (s.answer w).loHeld = s.loHeld := rfl
@[simp] theorem State.answer_mem (w : Word) : (s.answer w).mem = s.mem := rfl
@[simp] theorem State.answer_poison (w : Word) : (s.answer w).poison = s.poison := rfl
@[simp] theorem State.answer_locked (w : Word) : (s.answer w).locked = s.locked := rfl
@[simp] theorem State.answer_flags (w : Word) : (s.answer w).flags = s.flags := rfl
@[simp] theorem State.answer_caddy (w : Word) : (s.answer w).caddy = s.caddy := rfl
@[simp] theorem State.answer_flash (w : Word) : (s.answer w).flash = s.flash := rfl
@[simp] theorem State.answer_boot (w : Word) : (s.answer w).boot = s.boot := rfl
@[simp] theorem State.answer_links (w : Word) : (s.answer w).links = s.links := rfl
@[simp] theorem State.answer_dies (w : Word) : (s.answer w).dies = s.dies := rfl
@[simp] theorem State.answer_root (w : Word) : (s.answer w).root = s.root := rfl
@[simp] theorem State.answer_notices (w : Word) : (s.answer w).notices = s.notices := rfl
@[simp] theorem State.answer_travel (w : Word) : (s.answer w).travel = s.travel := rfl
@[simp] theorem State.answer_streams (w : Word) : (s.answer w).streams = s.streams := rfl
@[simp] theorem State.answer_pairs (w : Word) : (s.answer w).pairs = s.pairs := rfl
@[simp] theorem State.answer_saf (w : Word) : (s.answer w).saf = s.saf := rfl
@[simp] theorem State.answer_cosyView (w : Word) : (s.answer w).cosyView = s.cosyView := rfl
@[simp] theorem State.answer_cosy (w : Word) : (s.answer w).cosy = s.cosy := rfl
@[simp] theorem State.answer_recorder (w : Word) : (s.answer w).recorder = s.recorder := rfl
@[simp] theorem State.answer_evDue (w : Word) : (s.answer w).evDue = s.evDue := rfl
@[simp] theorem State.answer_doubtDue (w : Word) : (s.answer w).doubtDue = s.doubtDue := rfl
@[simp] theorem State.answer_ingress (w : Word) : (s.answer w).ingress = s.ingress := rfl
@[simp] theorem State.answer_ingStreams (w : Word) : (s.answer w).ingStreams = s.ingStreams := rfl
@[simp] theorem State.answer_ringHold (w : Word) : (s.answer w).ringHold = s.ringHold := rfl
@[simp] theorem State.answer_ports (w : Word) : (s.answer w).ports = s.ports := rfl
@[simp] theorem State.answer_ring (w : Word) : (s.answer w).ring = s.ring := rfl
@[simp] theorem State.answer_sec (w : Word) : (s.answer w).sec = s.sec := rfl
@[simp] theorem State.answer_pwr (w : Word) : (s.answer w).pwr = s.pwr := rfl
@[simp] theorem State.answer_frz (w : Word) : (s.answer w).frz = s.frz := rfl
@[simp] theorem State.answer_tally (w : Word) : (s.answer w).tally = s.tally := rfl
@[simp] theorem State.answer_perFrame (w : Word) : (s.answer w).perFrame = s.perFrame := rfl
@[simp] theorem State.answer_freeCtr (w : Word) : (s.answer w).freeCtr = s.freeCtr := rfl

@[simp] theorem State.capture_pending (k : Nat) (w : Word) : (s.capture k w).pending = s.pending := rfl
@[simp] theorem State.capture_m2 (k : Nat) (w : Word) : (s.capture k w).m2 = s.m2 := rfl
@[simp] theorem State.capture_deviceTime (k : Nat) (w : Word) : (s.capture k w).deviceTime = s.deviceTime := rfl
@[simp] theorem State.capture_time (k : Nat) (w : Word) : (s.capture k w).time = s.time := rfl
@[simp] theorem State.capture_regs (k : Nat) (w : Word) : (s.capture k w).regs = s.regs := rfl
@[simp] theorem State.capture_shadow (k : Nat) (w : Word) : (s.capture k w).shadow = s.shadow := rfl
@[simp] theorem State.capture_loHeld (k : Nat) (w : Word) : (s.capture k w).loHeld = s.loHeld := rfl
@[simp] theorem State.capture_mem (k : Nat) (w : Word) : (s.capture k w).mem = s.mem := rfl
@[simp] theorem State.capture_poison (k : Nat) (w : Word) : (s.capture k w).poison = s.poison := rfl
@[simp] theorem State.capture_locked (k : Nat) (w : Word) : (s.capture k w).locked = s.locked := rfl
@[simp] theorem State.capture_flags (k : Nat) (w : Word) : (s.capture k w).flags = s.flags := rfl
@[simp] theorem State.capture_caddy (k : Nat) (w : Word) : (s.capture k w).caddy = s.caddy := rfl
@[simp] theorem State.capture_flash (k : Nat) (w : Word) : (s.capture k w).flash = s.flash := rfl
@[simp] theorem State.capture_boot (k : Nat) (w : Word) : (s.capture k w).boot = s.boot := rfl
@[simp] theorem State.capture_links (k : Nat) (w : Word) : (s.capture k w).links = s.links := rfl
@[simp] theorem State.capture_dies (k : Nat) (w : Word) : (s.capture k w).dies = s.dies := rfl
@[simp] theorem State.capture_root (k : Nat) (w : Word) : (s.capture k w).root = s.root := rfl
@[simp] theorem State.capture_notices (k : Nat) (w : Word) : (s.capture k w).notices = s.notices := rfl
@[simp] theorem State.capture_travel (k : Nat) (w : Word) : (s.capture k w).travel = s.travel := rfl
@[simp] theorem State.capture_streams (k : Nat) (w : Word) : (s.capture k w).streams = s.streams := rfl
@[simp] theorem State.capture_pairs (k : Nat) (w : Word) : (s.capture k w).pairs = s.pairs := rfl
@[simp] theorem State.capture_saf (k : Nat) (w : Word) : (s.capture k w).saf = s.saf := rfl
@[simp] theorem State.capture_cosyView (k : Nat) (w : Word) : (s.capture k w).cosyView = s.cosyView := rfl
@[simp] theorem State.capture_cosy (k : Nat) (w : Word) : (s.capture k w).cosy = s.cosy := rfl
@[simp] theorem State.capture_recorder (k : Nat) (w : Word) : (s.capture k w).recorder = s.recorder := rfl
@[simp] theorem State.capture_evDue (k : Nat) (w : Word) : (s.capture k w).evDue = s.evDue := rfl
@[simp] theorem State.capture_doubtDue (k : Nat) (w : Word) : (s.capture k w).doubtDue = s.doubtDue := rfl
@[simp] theorem State.capture_ingress (k : Nat) (w : Word) : (s.capture k w).ingress = s.ingress := rfl
@[simp] theorem State.capture_ingStreams (k : Nat) (w : Word) : (s.capture k w).ingStreams = s.ingStreams := rfl
@[simp] theorem State.capture_ringHold (k : Nat) (w : Word) : (s.capture k w).ringHold = s.ringHold := rfl
@[simp] theorem State.capture_ports (k : Nat) (w : Word) : (s.capture k w).ports = s.ports := rfl
@[simp] theorem State.capture_ring (k : Nat) (w : Word) : (s.capture k w).ring = s.ring := rfl
@[simp] theorem State.capture_sec (k : Nat) (w : Word) : (s.capture k w).sec = s.sec := rfl
@[simp] theorem State.capture_pwr (k : Nat) (w : Word) : (s.capture k w).pwr = s.pwr := rfl
@[simp] theorem State.capture_frz (k : Nat) (w : Word) : (s.capture k w).frz = s.frz := rfl
@[simp] theorem State.capture_out (k : Nat) (w : Word) : (s.capture k w).out = s.out := rfl
@[simp] theorem State.capture_tally (k : Nat) (w : Word) : (s.capture k w).tally = s.tally := rfl
@[simp] theorem State.capture_perFrame (k : Nat) (w : Word) : (s.capture k w).perFrame = s.perFrame := rfl
@[simp] theorem State.capture_freeCtr (k : Nat) (w : Word) : (s.capture k w).freeCtr = s.freeCtr := rfl

@[simp] theorem State.modStream_pending (k : Nat) (f : Stream → Stream) : (s.modStream k f).pending = s.pending := rfl
@[simp] theorem State.modStream_m2 (k : Nat) (f : Stream → Stream) : (s.modStream k f).m2 = s.m2 := rfl
@[simp] theorem State.modStream_deviceTime (k : Nat) (f : Stream → Stream) : (s.modStream k f).deviceTime = s.deviceTime := rfl
@[simp] theorem State.modStream_time (k : Nat) (f : Stream → Stream) : (s.modStream k f).time = s.time := rfl
@[simp] theorem State.modStream_regs (k : Nat) (f : Stream → Stream) : (s.modStream k f).regs = s.regs := rfl
@[simp] theorem State.modStream_shadow (k : Nat) (f : Stream → Stream) : (s.modStream k f).shadow = s.shadow := rfl
@[simp] theorem State.modStream_captures (k : Nat) (f : Stream → Stream) : (s.modStream k f).captures = s.captures := rfl
@[simp] theorem State.modStream_loHeld (k : Nat) (f : Stream → Stream) : (s.modStream k f).loHeld = s.loHeld := rfl
@[simp] theorem State.modStream_mem (k : Nat) (f : Stream → Stream) : (s.modStream k f).mem = s.mem := rfl
@[simp] theorem State.modStream_poison (k : Nat) (f : Stream → Stream) : (s.modStream k f).poison = s.poison := rfl
@[simp] theorem State.modStream_locked (k : Nat) (f : Stream → Stream) : (s.modStream k f).locked = s.locked := rfl
@[simp] theorem State.modStream_flags (k : Nat) (f : Stream → Stream) : (s.modStream k f).flags = s.flags := rfl
@[simp] theorem State.modStream_caddy (k : Nat) (f : Stream → Stream) : (s.modStream k f).caddy = s.caddy := rfl
@[simp] theorem State.modStream_flash (k : Nat) (f : Stream → Stream) : (s.modStream k f).flash = s.flash := rfl
@[simp] theorem State.modStream_boot (k : Nat) (f : Stream → Stream) : (s.modStream k f).boot = s.boot := rfl
@[simp] theorem State.modStream_links (k : Nat) (f : Stream → Stream) : (s.modStream k f).links = s.links := rfl
@[simp] theorem State.modStream_dies (k : Nat) (f : Stream → Stream) : (s.modStream k f).dies = s.dies := rfl
@[simp] theorem State.modStream_root (k : Nat) (f : Stream → Stream) : (s.modStream k f).root = s.root := rfl
@[simp] theorem State.modStream_notices (k : Nat) (f : Stream → Stream) : (s.modStream k f).notices = s.notices := rfl
@[simp] theorem State.modStream_travel (k : Nat) (f : Stream → Stream) : (s.modStream k f).travel = s.travel := rfl
@[simp] theorem State.modStream_pairs (k : Nat) (f : Stream → Stream) : (s.modStream k f).pairs = s.pairs := rfl
@[simp] theorem State.modStream_saf (k : Nat) (f : Stream → Stream) : (s.modStream k f).saf = s.saf := rfl
@[simp] theorem State.modStream_cosyView (k : Nat) (f : Stream → Stream) : (s.modStream k f).cosyView = s.cosyView := rfl
@[simp] theorem State.modStream_cosy (k : Nat) (f : Stream → Stream) : (s.modStream k f).cosy = s.cosy := rfl
@[simp] theorem State.modStream_recorder (k : Nat) (f : Stream → Stream) : (s.modStream k f).recorder = s.recorder := rfl
@[simp] theorem State.modStream_evDue (k : Nat) (f : Stream → Stream) : (s.modStream k f).evDue = s.evDue := rfl
@[simp] theorem State.modStream_doubtDue (k : Nat) (f : Stream → Stream) : (s.modStream k f).doubtDue = s.doubtDue := rfl
@[simp] theorem State.modStream_ingress (k : Nat) (f : Stream → Stream) : (s.modStream k f).ingress = s.ingress := rfl
@[simp] theorem State.modStream_ingStreams (k : Nat) (f : Stream → Stream) : (s.modStream k f).ingStreams = s.ingStreams := rfl
@[simp] theorem State.modStream_ringHold (k : Nat) (f : Stream → Stream) : (s.modStream k f).ringHold = s.ringHold := rfl
@[simp] theorem State.modStream_ports (k : Nat) (f : Stream → Stream) : (s.modStream k f).ports = s.ports := rfl
@[simp] theorem State.modStream_ring (k : Nat) (f : Stream → Stream) : (s.modStream k f).ring = s.ring := rfl
@[simp] theorem State.modStream_sec (k : Nat) (f : Stream → Stream) : (s.modStream k f).sec = s.sec := rfl
@[simp] theorem State.modStream_pwr (k : Nat) (f : Stream → Stream) : (s.modStream k f).pwr = s.pwr := rfl
@[simp] theorem State.modStream_frz (k : Nat) (f : Stream → Stream) : (s.modStream k f).frz = s.frz := rfl
@[simp] theorem State.modStream_out (k : Nat) (f : Stream → Stream) : (s.modStream k f).out = s.out := rfl
@[simp] theorem State.modStream_tally (k : Nat) (f : Stream → Stream) : (s.modStream k f).tally = s.tally := rfl
@[simp] theorem State.modStream_perFrame (k : Nat) (f : Stream → Stream) : (s.modStream k f).perFrame = s.perFrame := rfl
@[simp] theorem State.modStream_freeCtr (k : Nat) (f : Stream → Stream) : (s.modStream k f).freeCtr = s.freeCtr := rfl

@[simp] theorem State.modIngStream_pending (k : Nat) (f : IngStream → IngStream) : (s.modIngStream k f).pending = s.pending := rfl
@[simp] theorem State.modIngStream_m2 (k : Nat) (f : IngStream → IngStream) : (s.modIngStream k f).m2 = s.m2 := rfl
@[simp] theorem State.modIngStream_deviceTime (k : Nat) (f : IngStream → IngStream) : (s.modIngStream k f).deviceTime = s.deviceTime := rfl
@[simp] theorem State.modIngStream_time (k : Nat) (f : IngStream → IngStream) : (s.modIngStream k f).time = s.time := rfl
@[simp] theorem State.modIngStream_regs (k : Nat) (f : IngStream → IngStream) : (s.modIngStream k f).regs = s.regs := rfl
@[simp] theorem State.modIngStream_shadow (k : Nat) (f : IngStream → IngStream) : (s.modIngStream k f).shadow = s.shadow := rfl
@[simp] theorem State.modIngStream_captures (k : Nat) (f : IngStream → IngStream) : (s.modIngStream k f).captures = s.captures := rfl
@[simp] theorem State.modIngStream_loHeld (k : Nat) (f : IngStream → IngStream) : (s.modIngStream k f).loHeld = s.loHeld := rfl
@[simp] theorem State.modIngStream_mem (k : Nat) (f : IngStream → IngStream) : (s.modIngStream k f).mem = s.mem := rfl
@[simp] theorem State.modIngStream_poison (k : Nat) (f : IngStream → IngStream) : (s.modIngStream k f).poison = s.poison := rfl
@[simp] theorem State.modIngStream_locked (k : Nat) (f : IngStream → IngStream) : (s.modIngStream k f).locked = s.locked := rfl
@[simp] theorem State.modIngStream_flags (k : Nat) (f : IngStream → IngStream) : (s.modIngStream k f).flags = s.flags := rfl
@[simp] theorem State.modIngStream_caddy (k : Nat) (f : IngStream → IngStream) : (s.modIngStream k f).caddy = s.caddy := rfl
@[simp] theorem State.modIngStream_flash (k : Nat) (f : IngStream → IngStream) : (s.modIngStream k f).flash = s.flash := rfl
@[simp] theorem State.modIngStream_boot (k : Nat) (f : IngStream → IngStream) : (s.modIngStream k f).boot = s.boot := rfl
@[simp] theorem State.modIngStream_links (k : Nat) (f : IngStream → IngStream) : (s.modIngStream k f).links = s.links := rfl
@[simp] theorem State.modIngStream_dies (k : Nat) (f : IngStream → IngStream) : (s.modIngStream k f).dies = s.dies := rfl
@[simp] theorem State.modIngStream_root (k : Nat) (f : IngStream → IngStream) : (s.modIngStream k f).root = s.root := rfl
@[simp] theorem State.modIngStream_notices (k : Nat) (f : IngStream → IngStream) : (s.modIngStream k f).notices = s.notices := rfl
@[simp] theorem State.modIngStream_travel (k : Nat) (f : IngStream → IngStream) : (s.modIngStream k f).travel = s.travel := rfl
@[simp] theorem State.modIngStream_streams (k : Nat) (f : IngStream → IngStream) : (s.modIngStream k f).streams = s.streams := rfl
@[simp] theorem State.modIngStream_pairs (k : Nat) (f : IngStream → IngStream) : (s.modIngStream k f).pairs = s.pairs := rfl
@[simp] theorem State.modIngStream_saf (k : Nat) (f : IngStream → IngStream) : (s.modIngStream k f).saf = s.saf := rfl
@[simp] theorem State.modIngStream_cosyView (k : Nat) (f : IngStream → IngStream) : (s.modIngStream k f).cosyView = s.cosyView := rfl
@[simp] theorem State.modIngStream_cosy (k : Nat) (f : IngStream → IngStream) : (s.modIngStream k f).cosy = s.cosy := rfl
@[simp] theorem State.modIngStream_recorder (k : Nat) (f : IngStream → IngStream) : (s.modIngStream k f).recorder = s.recorder := rfl
@[simp] theorem State.modIngStream_evDue (k : Nat) (f : IngStream → IngStream) : (s.modIngStream k f).evDue = s.evDue := rfl
@[simp] theorem State.modIngStream_doubtDue (k : Nat) (f : IngStream → IngStream) : (s.modIngStream k f).doubtDue = s.doubtDue := rfl
@[simp] theorem State.modIngStream_ingress (k : Nat) (f : IngStream → IngStream) : (s.modIngStream k f).ingress = s.ingress := rfl
@[simp] theorem State.modIngStream_ringHold (k : Nat) (f : IngStream → IngStream) : (s.modIngStream k f).ringHold = s.ringHold := rfl
@[simp] theorem State.modIngStream_ports (k : Nat) (f : IngStream → IngStream) : (s.modIngStream k f).ports = s.ports := rfl
@[simp] theorem State.modIngStream_ring (k : Nat) (f : IngStream → IngStream) : (s.modIngStream k f).ring = s.ring := rfl
@[simp] theorem State.modIngStream_sec (k : Nat) (f : IngStream → IngStream) : (s.modIngStream k f).sec = s.sec := rfl
@[simp] theorem State.modIngStream_pwr (k : Nat) (f : IngStream → IngStream) : (s.modIngStream k f).pwr = s.pwr := rfl
@[simp] theorem State.modIngStream_frz (k : Nat) (f : IngStream → IngStream) : (s.modIngStream k f).frz = s.frz := rfl
@[simp] theorem State.modIngStream_out (k : Nat) (f : IngStream → IngStream) : (s.modIngStream k f).out = s.out := rfl
@[simp] theorem State.modIngStream_tally (k : Nat) (f : IngStream → IngStream) : (s.modIngStream k f).tally = s.tally := rfl
@[simp] theorem State.modIngStream_perFrame (k : Nat) (f : IngStream → IngStream) : (s.modIngStream k f).perFrame = s.perFrame := rfl
@[simp] theorem State.modIngStream_freeCtr (k : Nat) (f : IngStream → IngStream) : (s.modIngStream k f).freeCtr = s.freeCtr := rfl

@[simp] theorem State.modIng_pending (f : Ingress → Ingress) : (s.modIng f).pending = s.pending := rfl
@[simp] theorem State.modIng_m2 (f : Ingress → Ingress) : (s.modIng f).m2 = s.m2 := rfl
@[simp] theorem State.modIng_deviceTime (f : Ingress → Ingress) : (s.modIng f).deviceTime = s.deviceTime := rfl
@[simp] theorem State.modIng_time (f : Ingress → Ingress) : (s.modIng f).time = s.time := rfl
@[simp] theorem State.modIng_regs (f : Ingress → Ingress) : (s.modIng f).regs = s.regs := rfl
@[simp] theorem State.modIng_shadow (f : Ingress → Ingress) : (s.modIng f).shadow = s.shadow := rfl
@[simp] theorem State.modIng_captures (f : Ingress → Ingress) : (s.modIng f).captures = s.captures := rfl
@[simp] theorem State.modIng_loHeld (f : Ingress → Ingress) : (s.modIng f).loHeld = s.loHeld := rfl
@[simp] theorem State.modIng_mem (f : Ingress → Ingress) : (s.modIng f).mem = s.mem := rfl
@[simp] theorem State.modIng_poison (f : Ingress → Ingress) : (s.modIng f).poison = s.poison := rfl
@[simp] theorem State.modIng_locked (f : Ingress → Ingress) : (s.modIng f).locked = s.locked := rfl
@[simp] theorem State.modIng_flags (f : Ingress → Ingress) : (s.modIng f).flags = s.flags := rfl
@[simp] theorem State.modIng_caddy (f : Ingress → Ingress) : (s.modIng f).caddy = s.caddy := rfl
@[simp] theorem State.modIng_flash (f : Ingress → Ingress) : (s.modIng f).flash = s.flash := rfl
@[simp] theorem State.modIng_boot (f : Ingress → Ingress) : (s.modIng f).boot = s.boot := rfl
@[simp] theorem State.modIng_links (f : Ingress → Ingress) : (s.modIng f).links = s.links := rfl
@[simp] theorem State.modIng_dies (f : Ingress → Ingress) : (s.modIng f).dies = s.dies := rfl
@[simp] theorem State.modIng_root (f : Ingress → Ingress) : (s.modIng f).root = s.root := rfl
@[simp] theorem State.modIng_notices (f : Ingress → Ingress) : (s.modIng f).notices = s.notices := rfl
@[simp] theorem State.modIng_travel (f : Ingress → Ingress) : (s.modIng f).travel = s.travel := rfl
@[simp] theorem State.modIng_streams (f : Ingress → Ingress) : (s.modIng f).streams = s.streams := rfl
@[simp] theorem State.modIng_pairs (f : Ingress → Ingress) : (s.modIng f).pairs = s.pairs := rfl
@[simp] theorem State.modIng_saf (f : Ingress → Ingress) : (s.modIng f).saf = s.saf := rfl
@[simp] theorem State.modIng_cosyView (f : Ingress → Ingress) : (s.modIng f).cosyView = s.cosyView := rfl
@[simp] theorem State.modIng_cosy (f : Ingress → Ingress) : (s.modIng f).cosy = s.cosy := rfl
@[simp] theorem State.modIng_recorder (f : Ingress → Ingress) : (s.modIng f).recorder = s.recorder := rfl
@[simp] theorem State.modIng_evDue (f : Ingress → Ingress) : (s.modIng f).evDue = s.evDue := rfl
@[simp] theorem State.modIng_doubtDue (f : Ingress → Ingress) : (s.modIng f).doubtDue = s.doubtDue := rfl
@[simp] theorem State.modIng_ingStreams (f : Ingress → Ingress) : (s.modIng f).ingStreams = s.ingStreams := rfl
@[simp] theorem State.modIng_ringHold (f : Ingress → Ingress) : (s.modIng f).ringHold = s.ringHold := rfl
@[simp] theorem State.modIng_ports (f : Ingress → Ingress) : (s.modIng f).ports = s.ports := rfl
@[simp] theorem State.modIng_ring (f : Ingress → Ingress) : (s.modIng f).ring = s.ring := rfl
@[simp] theorem State.modIng_sec (f : Ingress → Ingress) : (s.modIng f).sec = s.sec := rfl
@[simp] theorem State.modIng_pwr (f : Ingress → Ingress) : (s.modIng f).pwr = s.pwr := rfl
@[simp] theorem State.modIng_frz (f : Ingress → Ingress) : (s.modIng f).frz = s.frz := rfl
@[simp] theorem State.modIng_out (f : Ingress → Ingress) : (s.modIng f).out = s.out := rfl
@[simp] theorem State.modIng_tally (f : Ingress → Ingress) : (s.modIng f).tally = s.tally := rfl
@[simp] theorem State.modIng_perFrame (f : Ingress → Ingress) : (s.modIng f).perFrame = s.perFrame := rfl
@[simp] theorem State.modIng_freeCtr (f : Ingress → Ingress) : (s.modIng f).freeCtr = s.freeCtr := rfl

@[simp] theorem State.modCtx_pending (c : Nat) (f : Ctx → Ctx) : (s.modCtx c f).pending = s.pending := rfl
@[simp] theorem State.modCtx_m2 (c : Nat) (f : Ctx → Ctx) : (s.modCtx c f).m2 = s.m2 := rfl
@[simp] theorem State.modCtx_deviceTime (c : Nat) (f : Ctx → Ctx) : (s.modCtx c f).deviceTime = s.deviceTime := rfl
@[simp] theorem State.modCtx_time (c : Nat) (f : Ctx → Ctx) : (s.modCtx c f).time = s.time := rfl
@[simp] theorem State.modCtx_regs (c : Nat) (f : Ctx → Ctx) : (s.modCtx c f).regs = s.regs := rfl
@[simp] theorem State.modCtx_shadow (c : Nat) (f : Ctx → Ctx) : (s.modCtx c f).shadow = s.shadow := rfl
@[simp] theorem State.modCtx_captures (c : Nat) (f : Ctx → Ctx) : (s.modCtx c f).captures = s.captures := rfl
@[simp] theorem State.modCtx_loHeld (c : Nat) (f : Ctx → Ctx) : (s.modCtx c f).loHeld = s.loHeld := rfl
@[simp] theorem State.modCtx_mem (c : Nat) (f : Ctx → Ctx) : (s.modCtx c f).mem = s.mem := rfl
@[simp] theorem State.modCtx_poison (c : Nat) (f : Ctx → Ctx) : (s.modCtx c f).poison = s.poison := rfl
@[simp] theorem State.modCtx_locked (c : Nat) (f : Ctx → Ctx) : (s.modCtx c f).locked = s.locked := rfl
@[simp] theorem State.modCtx_flags (c : Nat) (f : Ctx → Ctx) : (s.modCtx c f).flags = s.flags := rfl
@[simp] theorem State.modCtx_caddy (c : Nat) (f : Ctx → Ctx) : (s.modCtx c f).caddy = s.caddy := rfl
@[simp] theorem State.modCtx_flash (c : Nat) (f : Ctx → Ctx) : (s.modCtx c f).flash = s.flash := rfl
@[simp] theorem State.modCtx_boot (c : Nat) (f : Ctx → Ctx) : (s.modCtx c f).boot = s.boot := rfl
@[simp] theorem State.modCtx_links (c : Nat) (f : Ctx → Ctx) : (s.modCtx c f).links = s.links := rfl
@[simp] theorem State.modCtx_dies (c : Nat) (f : Ctx → Ctx) : (s.modCtx c f).dies = s.dies := rfl
@[simp] theorem State.modCtx_root (c : Nat) (f : Ctx → Ctx) : (s.modCtx c f).root = s.root := rfl
@[simp] theorem State.modCtx_notices (c : Nat) (f : Ctx → Ctx) : (s.modCtx c f).notices = s.notices := rfl
@[simp] theorem State.modCtx_travel (c : Nat) (f : Ctx → Ctx) : (s.modCtx c f).travel = s.travel := rfl
@[simp] theorem State.modCtx_streams (c : Nat) (f : Ctx → Ctx) : (s.modCtx c f).streams = s.streams := rfl
@[simp] theorem State.modCtx_pairs (c : Nat) (f : Ctx → Ctx) : (s.modCtx c f).pairs = s.pairs := rfl
@[simp] theorem State.modCtx_saf (c : Nat) (f : Ctx → Ctx) : (s.modCtx c f).saf = s.saf := rfl
@[simp] theorem State.modCtx_cosyView (c : Nat) (f : Ctx → Ctx) : (s.modCtx c f).cosyView = s.cosyView := rfl
@[simp] theorem State.modCtx_cosy (c : Nat) (f : Ctx → Ctx) : (s.modCtx c f).cosy = s.cosy := rfl
@[simp] theorem State.modCtx_recorder (c : Nat) (f : Ctx → Ctx) : (s.modCtx c f).recorder = s.recorder := rfl
@[simp] theorem State.modCtx_evDue (c : Nat) (f : Ctx → Ctx) : (s.modCtx c f).evDue = s.evDue := rfl
@[simp] theorem State.modCtx_doubtDue (c : Nat) (f : Ctx → Ctx) : (s.modCtx c f).doubtDue = s.doubtDue := rfl
@[simp] theorem State.modCtx_ingStreams (c : Nat) (f : Ctx → Ctx) : (s.modCtx c f).ingStreams = s.ingStreams := rfl
@[simp] theorem State.modCtx_ringHold (c : Nat) (f : Ctx → Ctx) : (s.modCtx c f).ringHold = s.ringHold := rfl
@[simp] theorem State.modCtx_ports (c : Nat) (f : Ctx → Ctx) : (s.modCtx c f).ports = s.ports := rfl
@[simp] theorem State.modCtx_ring (c : Nat) (f : Ctx → Ctx) : (s.modCtx c f).ring = s.ring := rfl
@[simp] theorem State.modCtx_sec (c : Nat) (f : Ctx → Ctx) : (s.modCtx c f).sec = s.sec := rfl
@[simp] theorem State.modCtx_pwr (c : Nat) (f : Ctx → Ctx) : (s.modCtx c f).pwr = s.pwr := rfl
@[simp] theorem State.modCtx_frz (c : Nat) (f : Ctx → Ctx) : (s.modCtx c f).frz = s.frz := rfl
@[simp] theorem State.modCtx_out (c : Nat) (f : Ctx → Ctx) : (s.modCtx c f).out = s.out := rfl
@[simp] theorem State.modCtx_tally (c : Nat) (f : Ctx → Ctx) : (s.modCtx c f).tally = s.tally := rfl
@[simp] theorem State.modCtx_perFrame (c : Nat) (f : Ctx → Ctx) : (s.modCtx c f).perFrame = s.perFrame := rfl
@[simp] theorem State.modCtx_freeCtr (c : Nat) (f : Ctx → Ctx) : (s.modCtx c f).freeCtr = s.freeCtr := rfl

@[simp] theorem State.modPos_pending (p : Nat) (f : PipePos → PipePos) : (s.modPos p f).pending = s.pending := rfl
@[simp] theorem State.modPos_m2 (p : Nat) (f : PipePos → PipePos) : (s.modPos p f).m2 = s.m2 := rfl
@[simp] theorem State.modPos_deviceTime (p : Nat) (f : PipePos → PipePos) : (s.modPos p f).deviceTime = s.deviceTime := rfl
@[simp] theorem State.modPos_time (p : Nat) (f : PipePos → PipePos) : (s.modPos p f).time = s.time := rfl
@[simp] theorem State.modPos_regs (p : Nat) (f : PipePos → PipePos) : (s.modPos p f).regs = s.regs := rfl
@[simp] theorem State.modPos_shadow (p : Nat) (f : PipePos → PipePos) : (s.modPos p f).shadow = s.shadow := rfl
@[simp] theorem State.modPos_captures (p : Nat) (f : PipePos → PipePos) : (s.modPos p f).captures = s.captures := rfl
@[simp] theorem State.modPos_loHeld (p : Nat) (f : PipePos → PipePos) : (s.modPos p f).loHeld = s.loHeld := rfl
@[simp] theorem State.modPos_mem (p : Nat) (f : PipePos → PipePos) : (s.modPos p f).mem = s.mem := rfl
@[simp] theorem State.modPos_poison (p : Nat) (f : PipePos → PipePos) : (s.modPos p f).poison = s.poison := rfl
@[simp] theorem State.modPos_locked (p : Nat) (f : PipePos → PipePos) : (s.modPos p f).locked = s.locked := rfl
@[simp] theorem State.modPos_flags (p : Nat) (f : PipePos → PipePos) : (s.modPos p f).flags = s.flags := rfl
@[simp] theorem State.modPos_caddy (p : Nat) (f : PipePos → PipePos) : (s.modPos p f).caddy = s.caddy := rfl
@[simp] theorem State.modPos_flash (p : Nat) (f : PipePos → PipePos) : (s.modPos p f).flash = s.flash := rfl
@[simp] theorem State.modPos_boot (p : Nat) (f : PipePos → PipePos) : (s.modPos p f).boot = s.boot := rfl
@[simp] theorem State.modPos_links (p : Nat) (f : PipePos → PipePos) : (s.modPos p f).links = s.links := rfl
@[simp] theorem State.modPos_dies (p : Nat) (f : PipePos → PipePos) : (s.modPos p f).dies = s.dies := rfl
@[simp] theorem State.modPos_root (p : Nat) (f : PipePos → PipePos) : (s.modPos p f).root = s.root := rfl
@[simp] theorem State.modPos_notices (p : Nat) (f : PipePos → PipePos) : (s.modPos p f).notices = s.notices := rfl
@[simp] theorem State.modPos_travel (p : Nat) (f : PipePos → PipePos) : (s.modPos p f).travel = s.travel := rfl
@[simp] theorem State.modPos_streams (p : Nat) (f : PipePos → PipePos) : (s.modPos p f).streams = s.streams := rfl
@[simp] theorem State.modPos_pairs (p : Nat) (f : PipePos → PipePos) : (s.modPos p f).pairs = s.pairs := rfl
@[simp] theorem State.modPos_saf (p : Nat) (f : PipePos → PipePos) : (s.modPos p f).saf = s.saf := rfl
@[simp] theorem State.modPos_cosyView (p : Nat) (f : PipePos → PipePos) : (s.modPos p f).cosyView = s.cosyView := rfl
@[simp] theorem State.modPos_cosy (p : Nat) (f : PipePos → PipePos) : (s.modPos p f).cosy = s.cosy := rfl
@[simp] theorem State.modPos_recorder (p : Nat) (f : PipePos → PipePos) : (s.modPos p f).recorder = s.recorder := rfl
@[simp] theorem State.modPos_evDue (p : Nat) (f : PipePos → PipePos) : (s.modPos p f).evDue = s.evDue := rfl
@[simp] theorem State.modPos_doubtDue (p : Nat) (f : PipePos → PipePos) : (s.modPos p f).doubtDue = s.doubtDue := rfl
@[simp] theorem State.modPos_ingStreams (p : Nat) (f : PipePos → PipePos) : (s.modPos p f).ingStreams = s.ingStreams := rfl
@[simp] theorem State.modPos_ringHold (p : Nat) (f : PipePos → PipePos) : (s.modPos p f).ringHold = s.ringHold := rfl
@[simp] theorem State.modPos_ports (p : Nat) (f : PipePos → PipePos) : (s.modPos p f).ports = s.ports := rfl
@[simp] theorem State.modPos_ring (p : Nat) (f : PipePos → PipePos) : (s.modPos p f).ring = s.ring := rfl
@[simp] theorem State.modPos_sec (p : Nat) (f : PipePos → PipePos) : (s.modPos p f).sec = s.sec := rfl
@[simp] theorem State.modPos_pwr (p : Nat) (f : PipePos → PipePos) : (s.modPos p f).pwr = s.pwr := rfl
@[simp] theorem State.modPos_frz (p : Nat) (f : PipePos → PipePos) : (s.modPos p f).frz = s.frz := rfl
@[simp] theorem State.modPos_out (p : Nat) (f : PipePos → PipePos) : (s.modPos p f).out = s.out := rfl
@[simp] theorem State.modPos_tally (p : Nat) (f : PipePos → PipePos) : (s.modPos p f).tally = s.tally := rfl
@[simp] theorem State.modPos_perFrame (p : Nat) (f : PipePos → PipePos) : (s.modPos p f).perFrame = s.perFrame := rfl
@[simp] theorem State.modPos_freeCtr (p : Nat) (f : PipePos → PipePos) : (s.modPos p f).freeCtr = s.freeCtr := rfl

@[simp] theorem State.modPort_pending (p : Nat) (f : RelayPort → RelayPort) : (s.modPort p f).pending = s.pending := rfl
@[simp] theorem State.modPort_m2 (p : Nat) (f : RelayPort → RelayPort) : (s.modPort p f).m2 = s.m2 := rfl
@[simp] theorem State.modPort_deviceTime (p : Nat) (f : RelayPort → RelayPort) : (s.modPort p f).deviceTime = s.deviceTime := rfl
@[simp] theorem State.modPort_time (p : Nat) (f : RelayPort → RelayPort) : (s.modPort p f).time = s.time := rfl
@[simp] theorem State.modPort_regs (p : Nat) (f : RelayPort → RelayPort) : (s.modPort p f).regs = s.regs := rfl
@[simp] theorem State.modPort_shadow (p : Nat) (f : RelayPort → RelayPort) : (s.modPort p f).shadow = s.shadow := rfl
@[simp] theorem State.modPort_captures (p : Nat) (f : RelayPort → RelayPort) : (s.modPort p f).captures = s.captures := rfl
@[simp] theorem State.modPort_loHeld (p : Nat) (f : RelayPort → RelayPort) : (s.modPort p f).loHeld = s.loHeld := rfl
@[simp] theorem State.modPort_mem (p : Nat) (f : RelayPort → RelayPort) : (s.modPort p f).mem = s.mem := rfl
@[simp] theorem State.modPort_poison (p : Nat) (f : RelayPort → RelayPort) : (s.modPort p f).poison = s.poison := rfl
@[simp] theorem State.modPort_locked (p : Nat) (f : RelayPort → RelayPort) : (s.modPort p f).locked = s.locked := rfl
@[simp] theorem State.modPort_flags (p : Nat) (f : RelayPort → RelayPort) : (s.modPort p f).flags = s.flags := rfl
@[simp] theorem State.modPort_caddy (p : Nat) (f : RelayPort → RelayPort) : (s.modPort p f).caddy = s.caddy := rfl
@[simp] theorem State.modPort_flash (p : Nat) (f : RelayPort → RelayPort) : (s.modPort p f).flash = s.flash := rfl
@[simp] theorem State.modPort_boot (p : Nat) (f : RelayPort → RelayPort) : (s.modPort p f).boot = s.boot := rfl
@[simp] theorem State.modPort_links (p : Nat) (f : RelayPort → RelayPort) : (s.modPort p f).links = s.links := rfl
@[simp] theorem State.modPort_dies (p : Nat) (f : RelayPort → RelayPort) : (s.modPort p f).dies = s.dies := rfl
@[simp] theorem State.modPort_root (p : Nat) (f : RelayPort → RelayPort) : (s.modPort p f).root = s.root := rfl
@[simp] theorem State.modPort_notices (p : Nat) (f : RelayPort → RelayPort) : (s.modPort p f).notices = s.notices := rfl
@[simp] theorem State.modPort_travel (p : Nat) (f : RelayPort → RelayPort) : (s.modPort p f).travel = s.travel := rfl
@[simp] theorem State.modPort_streams (p : Nat) (f : RelayPort → RelayPort) : (s.modPort p f).streams = s.streams := rfl
@[simp] theorem State.modPort_pairs (p : Nat) (f : RelayPort → RelayPort) : (s.modPort p f).pairs = s.pairs := rfl
@[simp] theorem State.modPort_saf (p : Nat) (f : RelayPort → RelayPort) : (s.modPort p f).saf = s.saf := rfl
@[simp] theorem State.modPort_cosyView (p : Nat) (f : RelayPort → RelayPort) : (s.modPort p f).cosyView = s.cosyView := rfl
@[simp] theorem State.modPort_cosy (p : Nat) (f : RelayPort → RelayPort) : (s.modPort p f).cosy = s.cosy := rfl
@[simp] theorem State.modPort_recorder (p : Nat) (f : RelayPort → RelayPort) : (s.modPort p f).recorder = s.recorder := rfl
@[simp] theorem State.modPort_evDue (p : Nat) (f : RelayPort → RelayPort) : (s.modPort p f).evDue = s.evDue := rfl
@[simp] theorem State.modPort_doubtDue (p : Nat) (f : RelayPort → RelayPort) : (s.modPort p f).doubtDue = s.doubtDue := rfl
@[simp] theorem State.modPort_ingress (p : Nat) (f : RelayPort → RelayPort) : (s.modPort p f).ingress = s.ingress := rfl
@[simp] theorem State.modPort_ingStreams (p : Nat) (f : RelayPort → RelayPort) : (s.modPort p f).ingStreams = s.ingStreams := rfl
@[simp] theorem State.modPort_ringHold (p : Nat) (f : RelayPort → RelayPort) : (s.modPort p f).ringHold = s.ringHold := rfl
@[simp] theorem State.modPort_ring (p : Nat) (f : RelayPort → RelayPort) : (s.modPort p f).ring = s.ring := rfl
@[simp] theorem State.modPort_sec (p : Nat) (f : RelayPort → RelayPort) : (s.modPort p f).sec = s.sec := rfl
@[simp] theorem State.modPort_pwr (p : Nat) (f : RelayPort → RelayPort) : (s.modPort p f).pwr = s.pwr := rfl
@[simp] theorem State.modPort_frz (p : Nat) (f : RelayPort → RelayPort) : (s.modPort p f).frz = s.frz := rfl
@[simp] theorem State.modPort_out (p : Nat) (f : RelayPort → RelayPort) : (s.modPort p f).out = s.out := rfl
@[simp] theorem State.modPort_tally (p : Nat) (f : RelayPort → RelayPort) : (s.modPort p f).tally = s.tally := rfl
@[simp] theorem State.modPort_perFrame (p : Nat) (f : RelayPort → RelayPort) : (s.modPort p f).perFrame = s.perFrame := rfl
@[simp] theorem State.modPort_freeCtr (p : Nat) (f : RelayPort → RelayPort) : (s.modPort p f).freeCtr = s.freeCtr := rfl

@[simp] theorem State.modRec_pending (f : Recorder → Recorder) : (s.modRec f).pending = s.pending := rfl
@[simp] theorem State.modRec_m2 (f : Recorder → Recorder) : (s.modRec f).m2 = s.m2 := rfl
@[simp] theorem State.modRec_deviceTime (f : Recorder → Recorder) : (s.modRec f).deviceTime = s.deviceTime := rfl
@[simp] theorem State.modRec_time (f : Recorder → Recorder) : (s.modRec f).time = s.time := rfl
@[simp] theorem State.modRec_regs (f : Recorder → Recorder) : (s.modRec f).regs = s.regs := rfl
@[simp] theorem State.modRec_shadow (f : Recorder → Recorder) : (s.modRec f).shadow = s.shadow := rfl
@[simp] theorem State.modRec_captures (f : Recorder → Recorder) : (s.modRec f).captures = s.captures := rfl
@[simp] theorem State.modRec_loHeld (f : Recorder → Recorder) : (s.modRec f).loHeld = s.loHeld := rfl
@[simp] theorem State.modRec_mem (f : Recorder → Recorder) : (s.modRec f).mem = s.mem := rfl
@[simp] theorem State.modRec_poison (f : Recorder → Recorder) : (s.modRec f).poison = s.poison := rfl
@[simp] theorem State.modRec_locked (f : Recorder → Recorder) : (s.modRec f).locked = s.locked := rfl
@[simp] theorem State.modRec_flags (f : Recorder → Recorder) : (s.modRec f).flags = s.flags := rfl
@[simp] theorem State.modRec_caddy (f : Recorder → Recorder) : (s.modRec f).caddy = s.caddy := rfl
@[simp] theorem State.modRec_flash (f : Recorder → Recorder) : (s.modRec f).flash = s.flash := rfl
@[simp] theorem State.modRec_boot (f : Recorder → Recorder) : (s.modRec f).boot = s.boot := rfl
@[simp] theorem State.modRec_links (f : Recorder → Recorder) : (s.modRec f).links = s.links := rfl
@[simp] theorem State.modRec_dies (f : Recorder → Recorder) : (s.modRec f).dies = s.dies := rfl
@[simp] theorem State.modRec_root (f : Recorder → Recorder) : (s.modRec f).root = s.root := rfl
@[simp] theorem State.modRec_notices (f : Recorder → Recorder) : (s.modRec f).notices = s.notices := rfl
@[simp] theorem State.modRec_travel (f : Recorder → Recorder) : (s.modRec f).travel = s.travel := rfl
@[simp] theorem State.modRec_streams (f : Recorder → Recorder) : (s.modRec f).streams = s.streams := rfl
@[simp] theorem State.modRec_pairs (f : Recorder → Recorder) : (s.modRec f).pairs = s.pairs := rfl
@[simp] theorem State.modRec_saf (f : Recorder → Recorder) : (s.modRec f).saf = s.saf := rfl
@[simp] theorem State.modRec_cosyView (f : Recorder → Recorder) : (s.modRec f).cosyView = s.cosyView := rfl
@[simp] theorem State.modRec_cosy (f : Recorder → Recorder) : (s.modRec f).cosy = s.cosy := rfl
@[simp] theorem State.modRec_evDue (f : Recorder → Recorder) : (s.modRec f).evDue = s.evDue := rfl
@[simp] theorem State.modRec_doubtDue (f : Recorder → Recorder) : (s.modRec f).doubtDue = s.doubtDue := rfl
@[simp] theorem State.modRec_ingress (f : Recorder → Recorder) : (s.modRec f).ingress = s.ingress := rfl
@[simp] theorem State.modRec_ingStreams (f : Recorder → Recorder) : (s.modRec f).ingStreams = s.ingStreams := rfl
@[simp] theorem State.modRec_ringHold (f : Recorder → Recorder) : (s.modRec f).ringHold = s.ringHold := rfl
@[simp] theorem State.modRec_ports (f : Recorder → Recorder) : (s.modRec f).ports = s.ports := rfl
@[simp] theorem State.modRec_ring (f : Recorder → Recorder) : (s.modRec f).ring = s.ring := rfl
@[simp] theorem State.modRec_sec (f : Recorder → Recorder) : (s.modRec f).sec = s.sec := rfl
@[simp] theorem State.modRec_pwr (f : Recorder → Recorder) : (s.modRec f).pwr = s.pwr := rfl
@[simp] theorem State.modRec_frz (f : Recorder → Recorder) : (s.modRec f).frz = s.frz := rfl
@[simp] theorem State.modRec_out (f : Recorder → Recorder) : (s.modRec f).out = s.out := rfl
@[simp] theorem State.modRec_tally (f : Recorder → Recorder) : (s.modRec f).tally = s.tally := rfl
@[simp] theorem State.modRec_perFrame (f : Recorder → Recorder) : (s.modRec f).perFrame = s.perFrame := rfl
@[simp] theorem State.modRec_freeCtr (f : Recorder → Recorder) : (s.modRec f).freeCtr = s.freeCtr := rfl

@[simp] theorem State.modSec_pending (f : Security → Security) : (s.modSec f).pending = s.pending := rfl
@[simp] theorem State.modSec_m2 (f : Security → Security) : (s.modSec f).m2 = s.m2 := rfl
@[simp] theorem State.modSec_deviceTime (f : Security → Security) : (s.modSec f).deviceTime = s.deviceTime := rfl
@[simp] theorem State.modSec_time (f : Security → Security) : (s.modSec f).time = s.time := rfl
@[simp] theorem State.modSec_regs (f : Security → Security) : (s.modSec f).regs = s.regs := rfl
@[simp] theorem State.modSec_shadow (f : Security → Security) : (s.modSec f).shadow = s.shadow := rfl
@[simp] theorem State.modSec_captures (f : Security → Security) : (s.modSec f).captures = s.captures := rfl
@[simp] theorem State.modSec_loHeld (f : Security → Security) : (s.modSec f).loHeld = s.loHeld := rfl
@[simp] theorem State.modSec_mem (f : Security → Security) : (s.modSec f).mem = s.mem := rfl
@[simp] theorem State.modSec_poison (f : Security → Security) : (s.modSec f).poison = s.poison := rfl
@[simp] theorem State.modSec_locked (f : Security → Security) : (s.modSec f).locked = s.locked := rfl
@[simp] theorem State.modSec_flags (f : Security → Security) : (s.modSec f).flags = s.flags := rfl
@[simp] theorem State.modSec_caddy (f : Security → Security) : (s.modSec f).caddy = s.caddy := rfl
@[simp] theorem State.modSec_flash (f : Security → Security) : (s.modSec f).flash = s.flash := rfl
@[simp] theorem State.modSec_boot (f : Security → Security) : (s.modSec f).boot = s.boot := rfl
@[simp] theorem State.modSec_links (f : Security → Security) : (s.modSec f).links = s.links := rfl
@[simp] theorem State.modSec_dies (f : Security → Security) : (s.modSec f).dies = s.dies := rfl
@[simp] theorem State.modSec_root (f : Security → Security) : (s.modSec f).root = s.root := rfl
@[simp] theorem State.modSec_notices (f : Security → Security) : (s.modSec f).notices = s.notices := rfl
@[simp] theorem State.modSec_travel (f : Security → Security) : (s.modSec f).travel = s.travel := rfl
@[simp] theorem State.modSec_streams (f : Security → Security) : (s.modSec f).streams = s.streams := rfl
@[simp] theorem State.modSec_pairs (f : Security → Security) : (s.modSec f).pairs = s.pairs := rfl
@[simp] theorem State.modSec_saf (f : Security → Security) : (s.modSec f).saf = s.saf := rfl
@[simp] theorem State.modSec_cosyView (f : Security → Security) : (s.modSec f).cosyView = s.cosyView := rfl
@[simp] theorem State.modSec_cosy (f : Security → Security) : (s.modSec f).cosy = s.cosy := rfl
@[simp] theorem State.modSec_recorder (f : Security → Security) : (s.modSec f).recorder = s.recorder := rfl
@[simp] theorem State.modSec_evDue (f : Security → Security) : (s.modSec f).evDue = s.evDue := rfl
@[simp] theorem State.modSec_doubtDue (f : Security → Security) : (s.modSec f).doubtDue = s.doubtDue := rfl
@[simp] theorem State.modSec_ingress (f : Security → Security) : (s.modSec f).ingress = s.ingress := rfl
@[simp] theorem State.modSec_ingStreams (f : Security → Security) : (s.modSec f).ingStreams = s.ingStreams := rfl
@[simp] theorem State.modSec_ringHold (f : Security → Security) : (s.modSec f).ringHold = s.ringHold := rfl
@[simp] theorem State.modSec_ports (f : Security → Security) : (s.modSec f).ports = s.ports := rfl
@[simp] theorem State.modSec_ring (f : Security → Security) : (s.modSec f).ring = s.ring := rfl
@[simp] theorem State.modSec_pwr (f : Security → Security) : (s.modSec f).pwr = s.pwr := rfl
@[simp] theorem State.modSec_frz (f : Security → Security) : (s.modSec f).frz = s.frz := rfl
@[simp] theorem State.modSec_out (f : Security → Security) : (s.modSec f).out = s.out := rfl
@[simp] theorem State.modSec_tally (f : Security → Security) : (s.modSec f).tally = s.tally := rfl
@[simp] theorem State.modSec_perFrame (f : Security → Security) : (s.modSec f).perFrame = s.perFrame := rfl
@[simp] theorem State.modSec_freeCtr (f : Security → Security) : (s.modSec f).freeCtr = s.freeCtr := rfl

@[simp] theorem State.modPwr_pending (f : Power → Power) : (s.modPwr f).pending = s.pending := rfl
@[simp] theorem State.modPwr_m2 (f : Power → Power) : (s.modPwr f).m2 = s.m2 := rfl
@[simp] theorem State.modPwr_deviceTime (f : Power → Power) : (s.modPwr f).deviceTime = s.deviceTime := rfl
@[simp] theorem State.modPwr_time (f : Power → Power) : (s.modPwr f).time = s.time := rfl
@[simp] theorem State.modPwr_regs (f : Power → Power) : (s.modPwr f).regs = s.regs := rfl
@[simp] theorem State.modPwr_shadow (f : Power → Power) : (s.modPwr f).shadow = s.shadow := rfl
@[simp] theorem State.modPwr_captures (f : Power → Power) : (s.modPwr f).captures = s.captures := rfl
@[simp] theorem State.modPwr_loHeld (f : Power → Power) : (s.modPwr f).loHeld = s.loHeld := rfl
@[simp] theorem State.modPwr_mem (f : Power → Power) : (s.modPwr f).mem = s.mem := rfl
@[simp] theorem State.modPwr_poison (f : Power → Power) : (s.modPwr f).poison = s.poison := rfl
@[simp] theorem State.modPwr_locked (f : Power → Power) : (s.modPwr f).locked = s.locked := rfl
@[simp] theorem State.modPwr_flags (f : Power → Power) : (s.modPwr f).flags = s.flags := rfl
@[simp] theorem State.modPwr_caddy (f : Power → Power) : (s.modPwr f).caddy = s.caddy := rfl
@[simp] theorem State.modPwr_flash (f : Power → Power) : (s.modPwr f).flash = s.flash := rfl
@[simp] theorem State.modPwr_boot (f : Power → Power) : (s.modPwr f).boot = s.boot := rfl
@[simp] theorem State.modPwr_links (f : Power → Power) : (s.modPwr f).links = s.links := rfl
@[simp] theorem State.modPwr_dies (f : Power → Power) : (s.modPwr f).dies = s.dies := rfl
@[simp] theorem State.modPwr_root (f : Power → Power) : (s.modPwr f).root = s.root := rfl
@[simp] theorem State.modPwr_notices (f : Power → Power) : (s.modPwr f).notices = s.notices := rfl
@[simp] theorem State.modPwr_travel (f : Power → Power) : (s.modPwr f).travel = s.travel := rfl
@[simp] theorem State.modPwr_streams (f : Power → Power) : (s.modPwr f).streams = s.streams := rfl
@[simp] theorem State.modPwr_pairs (f : Power → Power) : (s.modPwr f).pairs = s.pairs := rfl
@[simp] theorem State.modPwr_saf (f : Power → Power) : (s.modPwr f).saf = s.saf := rfl
@[simp] theorem State.modPwr_cosyView (f : Power → Power) : (s.modPwr f).cosyView = s.cosyView := rfl
@[simp] theorem State.modPwr_cosy (f : Power → Power) : (s.modPwr f).cosy = s.cosy := rfl
@[simp] theorem State.modPwr_recorder (f : Power → Power) : (s.modPwr f).recorder = s.recorder := rfl
@[simp] theorem State.modPwr_evDue (f : Power → Power) : (s.modPwr f).evDue = s.evDue := rfl
@[simp] theorem State.modPwr_doubtDue (f : Power → Power) : (s.modPwr f).doubtDue = s.doubtDue := rfl
@[simp] theorem State.modPwr_ingress (f : Power → Power) : (s.modPwr f).ingress = s.ingress := rfl
@[simp] theorem State.modPwr_ingStreams (f : Power → Power) : (s.modPwr f).ingStreams = s.ingStreams := rfl
@[simp] theorem State.modPwr_ringHold (f : Power → Power) : (s.modPwr f).ringHold = s.ringHold := rfl
@[simp] theorem State.modPwr_ports (f : Power → Power) : (s.modPwr f).ports = s.ports := rfl
@[simp] theorem State.modPwr_ring (f : Power → Power) : (s.modPwr f).ring = s.ring := rfl
@[simp] theorem State.modPwr_sec (f : Power → Power) : (s.modPwr f).sec = s.sec := rfl
@[simp] theorem State.modPwr_frz (f : Power → Power) : (s.modPwr f).frz = s.frz := rfl
@[simp] theorem State.modPwr_out (f : Power → Power) : (s.modPwr f).out = s.out := rfl
@[simp] theorem State.modPwr_tally (f : Power → Power) : (s.modPwr f).tally = s.tally := rfl
@[simp] theorem State.modPwr_perFrame (f : Power → Power) : (s.modPwr f).perFrame = s.perFrame := rfl
@[simp] theorem State.modPwr_freeCtr (f : Power → Power) : (s.modPwr f).freeCtr = s.freeCtr := rfl

end Sys2Proof.Machine
end

