-- ==== Sys2Proof/Laws/Ops.lean ====
section
/-! SUPPORT. The laws of the shared operations: register fields read back as written, other fields and registers stay, bytes read
back as written, and memory keeps its canonical form. -/

namespace Sys2Proof.Machine

open Sys2Proof

/-! ### Fields of a word -/

/-- A word is what stands above a field, the field, and what stands below it. -/
theorem word_split (n lsb width : Nat) :
    n = n / 2 ^ (lsb + width) * 2 ^ (lsb + width) + bits n lsb width * 2 ^ lsb + n % 2 ^ lsb := by
  unfold bits
  have h1 : n / 2 ^ lsb = n / 2 ^ (lsb + width) * 2 ^ width + n / 2 ^ lsb % 2 ^ width := by
    rw [Nat.pow_add, ← Nat.div_div_eq_div_mul]; exact (Nat.div_add_mod' _ _).symm
  have h2 : n = n / 2 ^ lsb * 2 ^ lsb + n % 2 ^ lsb := (Nat.div_add_mod' _ _).symm
  calc n = n / 2 ^ lsb * 2 ^ lsb + n % 2 ^ lsb := h2
    _ = (n / 2 ^ (lsb + width) * 2 ^ width + n / 2 ^ lsb % 2 ^ width) * 2 ^ lsb + n % 2 ^ lsb := by rw [← h1]
    _ = _ := by rw [Nat.add_mul, Nat.mul_assoc, ← Nat.pow_add, Nat.add_comm width lsb]

/-- The number of a word with a field replaced. -/
theorem toNat_putField (w : Word) (lsb width v : Nat) (h : lsb + width ≤ 32) :
    (putField w lsb width v).toNat =
      w.toNat / 2 ^ (lsb + width) * 2 ^ (lsb + width) + v % 2 ^ width * 2 ^ lsb + w.toNat % 2 ^ lsb := by
  unfold putField
  have hs := word_split w.toNat lsb width
  have hw : w.toNat < 2 ^ 32 := w.isLt
  have hlo : w.toNat % 2 ^ lsb < 2 ^ lsb := Nat.mod_lt _ (Nat.two_pow_pos _)
  have hv : v % 2 ^ width < 2 ^ width := Nat.mod_lt _ (Nat.two_pow_pos _)
  have hhi : w.toNat / 2 ^ (lsb + width) < 2 ^ (32 - (lsb + width)) := by
    rw [Nat.div_lt_iff_lt_mul (Nat.two_pow_pos _), ← Nat.pow_add]
    rwa [Nat.sub_add_cancel h]
  have hm : v % 2 ^ width * 2 ^ lsb + w.toNat % 2 ^ lsb < 2 ^ (lsb + width) := by
    have h1 : (v % 2 ^ width + 1) * 2 ^ lsb ≤ 2 ^ width * 2 ^ lsb := Nat.mul_le_mul_right _ hv
    rw [← Nat.pow_add, Nat.add_comm width lsb] at h1
    rw [Nat.add_mul] at h1; omega
  have ht : w.toNat / 2 ^ (lsb + width) * 2 ^ (lsb + width) + 2 ^ (lsb + width) ≤ 2 ^ 32 := by
    have h1 : (w.toNat / 2 ^ (lsb + width) + 1) * 2 ^ (lsb + width) ≤ 2 ^ (32 - (lsb + width)) * 2 ^ (lsb + width) :=
      Nat.mul_le_mul_right _ hhi
    rw [← Nat.pow_add, Nat.sub_add_cancel h, Nat.add_mul] at h1; omega
  rw [BitVec.toNat_ofNat]
  generalize w.toNat / 2 ^ (lsb + width) * 2 ^ (lsb + width) = hi at *
  generalize bits w.toNat lsb width * 2 ^ lsb = mid at *
  generalize v % 2 ^ width * 2 ^ lsb = new at *
  generalize w.toNat % 2 ^ lsb = lo at *
  have e : w.toNat - mid + new = hi + new + lo := by omega
  rw [e, Nat.mod_eq_of_lt]
  omega

/-- A field reads back as written, cut to its width. -/
theorem fieldOf_putField_same (w : Word) (lsb width v : Nat) (h : lsb + width ≤ 32) :
    fieldOf (putField w lsb width v) lsb width = v % 2 ^ width := by
  unfold fieldOf bits
  rw [toNat_putField w lsb width v h]
  have hlo : w.toNat % 2 ^ lsb < 2 ^ lsb := Nat.mod_lt _ (Nat.two_pow_pos _)
  have e : w.toNat / 2 ^ (lsb + width) * 2 ^ (lsb + width) + v % 2 ^ width * 2 ^ lsb + w.toNat % 2 ^ lsb
      = (w.toNat / 2 ^ (lsb + width) * 2 ^ width + v % 2 ^ width) * 2 ^ lsb + w.toNat % 2 ^ lsb := by
    rw [Nat.add_mul, Nat.mul_assoc, ← Nat.pow_add, Nat.add_comm width lsb]
  rw [e, Nat.add_comm, Nat.add_mul_div_right _ _ (Nat.two_pow_pos _), Nat.div_eq_of_lt hlo, Nat.zero_add,
    Nat.mul_add_mod_of_lt' (Nat.mod_lt _ (Nat.two_pow_pos _))]
where
  Nat.mul_add_mod_of_lt' {a b c : Nat} (h : c < b) : (a * b + c) % b = c := by
    rw [Nat.add_comm, Nat.add_mul_mod_self_right, Nat.mod_eq_of_lt h]

/-- A field that lies above the one written stays. -/
theorem fieldOf_putField_above (w : Word) (lsb width v l n : Nat) (h : lsb + width ≤ 32) (hl : lsb + width ≤ l) :
    fieldOf (putField w lsb width v) l n = fieldOf w l n := by
  unfold fieldOf bits
  rw [toNat_putField w lsb width v h]
  have hlo : w.toNat % 2 ^ lsb < 2 ^ lsb := Nat.mod_lt _ (Nat.two_pow_pos _)
  have hv : v % 2 ^ width < 2 ^ width := Nat.mod_lt _ (Nat.two_pow_pos _)
  have hm : v % 2 ^ width * 2 ^ lsb + w.toNat % 2 ^ lsb < 2 ^ (lsb + width) := by
    have h1 : (v % 2 ^ width + 1) * 2 ^ lsb ≤ 2 ^ width * 2 ^ lsb := Nat.mul_le_mul_right _ hv
    rw [← Nat.pow_add, Nat.add_comm width lsb] at h1
    rw [Nat.add_mul] at h1; omega
  have key : ∀ m, m < 2 ^ (lsb + width) →
      (w.toNat / 2 ^ (lsb + width) * 2 ^ (lsb + width) + m) / 2 ^ l = w.toNat / 2 ^ l := by
    intro m hm'
    obtain ⟨k, rfl⟩ := Nat.exists_eq_add_of_le hl
    rw [Nat.pow_add 2 (lsb + width) k, ← Nat.div_div_eq_div_mul, ← Nat.div_div_eq_div_mul, Nat.add_comm,
      Nat.add_mul_div_right _ _ (Nat.two_pow_pos _), Nat.div_eq_of_lt hm', Nat.zero_add]
  rw [Nat.add_assoc, key _ hm]

/-- A field that lies below the one written stays. -/
theorem fieldOf_putField_below (w : Word) (lsb width v l n : Nat) (h : lsb + width ≤ 32) (hl : l + n ≤ lsb) :
    fieldOf (putField w lsb width v) l n = fieldOf w l n := by
  unfold fieldOf bits
  rw [toNat_putField w lsb width v h]
  have e : w.toNat / 2 ^ (lsb + width) * 2 ^ (lsb + width) + v % 2 ^ width * 2 ^ lsb + w.toNat % 2 ^ lsb
      = (w.toNat / 2 ^ (lsb + width) * 2 ^ width + v % 2 ^ width) * 2 ^ lsb + w.toNat % 2 ^ lsb := by
    rw [Nat.add_mul, Nat.mul_assoc, ← Nat.pow_add, Nat.add_comm width lsb]
  rw [e]
  generalize w.toNat / 2 ^ (lsb + width) * 2 ^ width + v % 2 ^ width = q
  have key : ∀ a, a / 2 ^ l % 2 ^ n = a % 2 ^ lsb / 2 ^ l % 2 ^ n := by
    intro a
    obtain ⟨k, rfl⟩ := Nat.exists_eq_add_of_le hl
    rw [Nat.add_assoc l n k, Nat.mod_pow_succ_div]
    rw [Nat.mod_mod_of_dvd _ (Nat.pow_dvd_pow 2 (Nat.le_add_right n k))]
  rw [key, key w.toNat, Nat.add_comm, Nat.add_mul_mod_self_right, Nat.mod_mod]
where
  Nat.mod_pow_succ_div {a l k : Nat} : a % 2 ^ (l + k) / 2 ^ l = a / 2 ^ l % 2 ^ k := by
    rw [Nat.pow_add, Nat.mod_mul_right_div_self]

/-! ### Registers -/

/-- Registers of different dies, places or selected entries have different keys. -/
theorem regKey_inj {d b x d' b' x' : Nat} (hb : b < 2 ^ 24) (hb' : b' < 2 ^ 24) (hx : x < 2 ^ 16) (hx' : x' < 2 ^ 16) :
    regKey d b x = regKey d' b' x' ↔ d = d' ∧ b = b' ∧ x = x' := by
  unfold regKey; constructor
  · intro h; omega
  · rintro ⟨rfl, rfl, rfl⟩; rfl

@[simp] theorem State.reg_setReg_same (s : State) (d b x r : Nat) (w : Word) : (s.setReg d b x r w).reg d b x r = w := by
  simp [State.reg, State.setReg]

theorem State.reg_setReg_ne (s : State) (d b x r d' b' x' r' : Nat) (w : Word) (h : regKey d' b' x' ≠ regKey d b x) :
    (s.setReg d b x r w).reg d' b' x' r' = s.reg d' b' x' r' := by
  simp only [State.reg, State.setReg]; exact Map.get_set_ne' _ _ _ _ _ _ h

/-- A field written reads back, cut to its width. -/
theorem State.getF_setF_same (s : State) (d : Nat) (f : Fld) (v i x : Nat) (h : f.lsb + f.width ≤ 32) :
    (s.setF d f v i x).getF d f i x = v % 2 ^ f.width := by
  simp only [State.getF, State.setF, State.reg_setReg_same]
  exact fieldOf_putField_same _ _ _ _ h

/-- A field of another register stays. -/
theorem State.getF_setF_ne (s : State) (d : Nat) (f : Fld) (v i x d' : Nat) (g : Fld) (j y : Nat)
    (h : regKey d' (g.base + j * g.stride) y ≠ regKey d (f.base + i * f.stride) x) :
    (s.setF d f v i x).getF d' g j y = s.getF d' g j y := by
  simp only [State.getF, State.setF, State.reg_setReg_ne _ _ _ _ _ _ _ _ _ _ h]

/-- Another field of the same register, above or below the one written, stays. -/
theorem State.getF_setF_disjoint (s : State) (d : Nat) (f : Fld) (v i x : Nat) (g : Fld) (j : Nat)
    (hk : g.base + j * g.stride = f.base + i * f.stride) (hr : g.rst = f.rst) (hf : f.lsb + f.width ≤ 32)
    (h : f.lsb + f.width ≤ g.lsb ∨ g.lsb + g.width ≤ f.lsb) :
    (s.setF d f v i x).getF d g j x = s.getF d g j x := by
  simp only [State.getF, State.setF, hk, hr, State.reg_setReg_same]
  rcases h with h | h
  · exact fieldOf_putField_above _ _ _ _ _ _ hf h
  · exact fieldOf_putField_below _ _ _ _ _ _ hf h

/-- A counter advanced reads its old value plus the amount, saturating. -/
theorem State.getF_bumpF_same (s : State) (d : Nat) (f : Fld) (i x n : Nat) (h : f.lsb + f.width ≤ 32) :
    (s.bumpF d f i x n).getF d f i x = cap (2 ^ f.width - 1) (s.getF d f i x + n) := by
  unfold State.bumpF
  rw [State.getF_setF_same _ _ _ _ _ _ h, Nat.mod_eq_of_lt]
  have := Nat.two_pow_pos f.width
  unfold cap; split <;> omega

/-- A counter advanced leaves every other register. -/
theorem State.getF_bumpF_ne (s : State) (d : Nat) (f : Fld) (i x n d' : Nat) (g : Fld) (j y : Nat)
    (h : regKey d' (g.base + j * g.stride) y ≠ regKey d (f.base + i * f.stride) x) :
    (s.bumpF d f i x n).getF d' g j y = s.getF d' g j y := State.getF_setF_ne _ _ _ _ _ _ _ _ _ _ h

/-! ### Dies -/

theorem State.die_modDie_same (s : State) (d : Nat) (f : Die → Die) (h : d < s.dies.length) :
    (s.modDie d f).die d = f (s.die d) := by
  simp [State.die, State.modDie, List.getD, h]

theorem State.die_modDie_ne (s : State) (d e : Nat) (f : Die → Die) (h : e ≠ d) : (s.modDie d f).die e = s.die e := by
  simp only [State.die, State.modDie, List.getD, List.getElem?_modify]
  have : ¬ d = e := fun c => h c.symm
  cases s.dies[e]? <;> simp [this]

/-! ### Bytes -/

theorem leNat_toLE (n v : Nat) : leNat (toLE n v) = v % 256 ^ n := by
  induction n generalizing v with
  | zero => simp [toLE, leNat, Nat.mod_one]
  | succ n ih =>
    have h : (BitVec.ofNat 8 v).toNat = v % 256 := rfl
    rw [toLE, leNat, ih, h, Nat.pow_succ, Nat.mul_comm (256 ^ n) 256, Nat.mod_mul]

@[simp] theorem length_toLE (n v : Nat) : (toLE n v).length = n := by
  induction n generalizing v with
  | zero => rfl
  | succ n ih => simp [toLE, ih]

/-- A byte outside what is written stays. -/
theorem get_mapPut_out (d : Byte) (m : Map Byte) (k : Nat) (l : List Byte) (a : Nat) (h : a < k ∨ k + l.length ≤ a) :
    Map.get d (mapPut m k l) a = Map.get d m a := by
  induction l generalizing m k with
  | nil => rfl
  | cons b l ih =>
    simp only [List.length_cons] at h
    rw [mapPut, ih _ _ (by omega), Map.get_set_ne' _ _ _ _ _ _ (by omega)]

/-- A byte inside what is written reads as written. -/
theorem get_mapPut_in (m : Map Byte) (k : Nat) (l : List Byte) (i : Nat) (h : i < l.length) :
    Map.get 0 (mapPut m k l) (k + i) = l[i] := by
  induction l generalizing m k i with
  | nil => exact absurd h (Nat.not_lt_zero _)
  | cons b l ih =>
    cases i with
    | zero => rw [mapPut, get_mapPut_out _ _ _ _ _ (by omega)]; simp
    | succ i =>
      rw [mapPut, show k + (i + 1) = k + 1 + i by omega, ih _ _ _ (by simpa using h)]; rfl

/-- Bytes written are read back. -/
theorem mapBytes_mapPut (m : Map Byte) (k : Nat) (l : List Byte) : mapBytes (mapPut m k l) k l.length = l := by
  have key : ∀ (n j : Nat) (m' : Map Byte), (∀ i, i < n → Map.get 0 m' (k + j + i) = l.getD (j + i) 0) → j + n = l.length →
      mapBytes m' (k + j) n = l.drop j := by
    intro n
    induction n with
    | zero => intro j m' _ hj; simp [mapBytes, ← hj]
    | succ n ih =>
      intro j m' hg hj
      have hlt : j < l.length := by omega
      rw [mapBytes, List.drop_eq_getElem_cons hlt]
      congr 1
      · have := hg 0 (by omega)
        simpa [List.getD, hlt] using this
      · rw [show k + j + 1 = k + (j + 1) by omega]
        refine ih (j + 1) m' (fun i hi => ?_) (by omega)
        have := hg (i + 1) (by omega)
        rw [show k + (j + 1) + i = k + j + (i + 1) by omega, show j + 1 + i = j + (i + 1) by omega]; exact this
  have := key l.length 0 (mapPut m k l) (fun i hi => by
    rw [Nat.add_zero, get_mapPut_in _ _ _ _ hi, Nat.zero_add]; simp [List.getD, hi]) (by omega)
  simpa using this

theorem State.byteAt_putBytes_out (s : State) (k : Nat) (l : List Byte) (a : Nat) (h : a < k ∨ k + l.length ≤ a) :
    (s.putBytes k l).byteAt a = s.byteAt a := get_mapPut_out _ _ _ _ _ h

@[simp] theorem State.bytesAt_putBytes (s : State) (k : Nat) (l : List Byte) : (s.putBytes k l).bytesAt k l.length = l :=
  mapBytes_mapPut _ _ _

/-! ### Memory keeps its canonical form -/

theorem wf_mapPut {m : Map Byte} {k : Nat} {l : List Byte} (h : Map.wf 0 m = true) : Map.wf 0 (mapPut m k l) = true := by
  induction l generalizing m k with
  | nil => exact h
  | cons b l ih => exact ih (Map.wf_set h)

theorem Memory.wf_reset : Memory.wf State.reset.mem = true := rfl

theorem Memory.wf_putBytes {s : State} {k : Nat} {l : List Byte} (h : Memory.wf s.mem = true) :
    Memory.wf (s.putBytes k l).mem = true := wf_mapPut h

theorem Memory.wf_clearMem {s : State} {lo hi : Nat} (h : Memory.wf s.mem = true) :
    Memory.wf (s.clearMem lo hi).mem = true := Map.wf_clearRange h

end Sys2Proof.Machine
end

