-- ==== Sys2Proof/Laws/Memory.lean ====
section
/-! SUPPORT. Every operation that writes the module's memory or its poison marks keeps their canonical form: bytes written and cleared, a range
copied, bytes loaded from flash, the mailbox kept through a cold start, a mark set or cleared. -/

namespace Sys2Proof.Machine

open Sys2Proof

/-- The canonical form of a map, said of all its pairs at once. -/
theorem Map.wf_iff {α : Type} [DecidableEq α] {d : α} {m : Map α} :
    Map.wf d m = true ↔ m.Pairwise (fun p q => p.1 < q.1) ∧ ∀ p ∈ m, p.2 ≠ d := by
  induction m with
  | nil => simp [Map.wf]
  | cons p m ih =>
    rw [Map.wf_cons, ih, List.pairwise_cons]
    simp only [Map.above, List.all_eq_true, decide_eq_true_eq, List.mem_cons, forall_eq_or_imp]
    exact ⟨fun h => ⟨⟨h.2.1, h.2.2.1⟩, h.1, h.2.2.2⟩, fun h => ⟨h.2.1, h.1.1, h.1.2, h.2.2⟩⟩

/-- The pairs of a canonical map from the first that does not lie below k have keys of at least k. -/
theorem Map.ge_of_mem_dropWhile {α : Type} {m : Map α} {k : Nat} (h : m.Pairwise (fun p q => p.1 < q.1)) :
    ∀ p ∈ m.dropWhile (fun p => decide (p.1 < k)), k ≤ p.1 := by
  induction m with
  | nil => simp
  | cons q m ih =>
    rw [List.pairwise_cons] at h
    rw [List.dropWhile_cons]
    split
    · exact ih h.2
    · rename_i hq
      simp only [decide_eq_true_eq, Nat.not_lt] at hq
      intro p hp
      rcases List.mem_cons.mp hp with rfl | hp
      · exact hq
      · have := h.1 p hp; omega

theorem Map.lt_of_mem_takeWhile {α : Type} {m : Map α} {k : Nat} : ∀ p ∈ m.takeWhile (fun p => decide (p.1 < k)), p.1 < k := by
  induction m with
  | nil => simp
  | cons q m ih =>
    rw [List.takeWhile_cons]
    split
    · rename_i hq
      intro p hp
      rcases List.mem_cons.mp hp with rfl | hp
      · simpa using hq
      · exact ih p hp
    · simp

/-- A block of pairs put in the place of a range of keys keeps the canonical form. -/
theorem Map.wf_splice {m b : Map Byte} {pos n : Nat} (hm : Map.wf 0 m = true) (hb : Map.wf 0 b = true)
    (h : ∀ p ∈ b, pos ≤ p.1 ∧ p.1 < pos + n) :
    Map.wf (0 : Byte) ((Map.clearRange pos (pos + n) m).takeWhile (fun p => decide (p.1 < pos)) ++ b ++
      (Map.clearRange pos (pos + n) m).dropWhile (fun p => decide (p.1 < pos))) = true := by
  have hr : Map.wf (0 : Byte) (Map.clearRange pos (pos + n) m) = true := Map.wf_clearRange hm
  have hout : ∀ p ∈ Map.clearRange pos (pos + n) m, p.1 < pos ∨ pos + n ≤ p.1 := by
    intro p hp
    have := (List.mem_filter.mp hp).2
    simpa only [Bool.or_eq_true, decide_eq_true_eq] using this
  generalize Map.clearRange pos (pos + n) m = r at hr hout
  rw [Map.wf_iff] at hr
  have htake : ∀ p ∈ r.takeWhile (fun p => decide (p.1 < pos)), p.1 < pos := by
    exact Map.lt_of_mem_takeWhile
  have hdrop : ∀ p ∈ r.dropWhile (fun p => decide (p.1 < pos)), pos + n ≤ p.1 := by
    intro p hp
    have h1 := Map.ge_of_mem_dropWhile hr.1 p hp
    have h2 := hout p ((List.dropWhile_sublist _).subset hp)
    omega
  have hwt : Map.wf (0 : Byte) (r.takeWhile (fun p => decide (p.1 < pos))) = true := Map.wf_iff.mpr
    ⟨hr.1.sublist (List.takeWhile_sublist _), fun p hp => hr.2 p ((List.takeWhile_sublist _).subset hp)⟩
  have hwd : Map.wf (0 : Byte) (r.dropWhile (fun p => decide (p.1 < pos))) = true := Map.wf_iff.mpr
    ⟨hr.1.sublist (List.dropWhile_sublist _), fun p hp => hr.2 p ((List.dropWhile_sublist _).subset hp)⟩
  refine Map.wf_append (Map.wf_append hwt hb ?_) hwd ?_
  · intro p hp q hq; have := htake p hp; have := h q hq; omega
  · intro p hp q hq
    have := hdrop q hq
    rcases List.mem_append.mp hp with hp | hp
    · have := htake p hp; omega
    · have := h p hp; omega

/-- The pairs of a range of a canonical map, moved to another place, are canonical and lie in that place. -/
theorem Map.wf_moved {m : Map Byte} {src dst n : Nat} (hm : Map.wf 0 m = true) :
    Map.wf (0 : Byte) ((m.filter (fun (p : Nat × Byte) => decide (src ≤ p.1 ∧ p.1 < src + n))).map
      (fun p => (p.1 - src + dst, p.2))) = true ∧
    ∀ p ∈ (m.filter (fun (p : Nat × Byte) => decide (src ≤ p.1 ∧ p.1 < src + n))).map (fun p => (p.1 - src + dst, p.2)),
      dst ≤ p.1 ∧ p.1 < dst + n := by
  rw [Map.wf_iff] at hm
  have hin : ∀ p ∈ m.filter (fun (p : Nat × Byte) => decide (src ≤ p.1 ∧ p.1 < src + n)), src ≤ p.1 ∧ p.1 < src + n := by
    intro p hp; simpa only [decide_eq_true_eq] using (List.mem_filter.mp hp).2
  have hp0 := hm.1.filter (fun (p : Nat × Byte) => decide (src ≤ p.1 ∧ p.1 < src + n))
  refine ⟨Map.wf_iff.mpr ⟨?_, ?_⟩, ?_⟩
  · rw [List.pairwise_map]
    refine hp0.imp_of_mem ?_
    intro p q hp hq hlt
    have := hin p hp; have := hin q hq
    show p.1 - src + dst < q.1 - src + dst
    omega
  · intro p hp
    obtain ⟨q, hq, rfl⟩ := List.mem_map.mp hp
    exact hm.2 q (List.mem_filter.mp hq).1
  · intro p hp
    obtain ⟨q, hq, rfl⟩ := List.mem_map.mp hp
    have := hin q hq
    show dst ≤ q.1 - src + dst ∧ q.1 - src + dst < dst + n
    omega

/-- A copy from one byte map into another keeps the canonical form. -/
theorem wf_mapCopy {src dst : Map Byte} {off n pos : Nat} (hs : Map.wf 0 src = true) (hd : Map.wf 0 dst = true) :
    Map.wf 0 (mapCopy src off n dst pos) = true :=
  Map.wf_splice hd (Map.wf_moved hs).1 (Map.wf_moved hs).2

/-- Bytes loaded from flash. -/
theorem Memory.wf_loadBytes {s : State} {m : Map Byte} {off n pos : Nat} (hm : Map.wf 0 m = true) (h : Memory.wf s.mem = true) :
    Memory.wf (s.loadBytes m off n pos).mem = true := wf_mapCopy hm h

/-- A range copied within memory. -/
theorem Memory.wf_copyRange {s : State} {src dst n : Nat} (h : Memory.wf s.mem = true) :
    Memory.wf (s.copyRange src dst n).mem = true := wf_mapCopy (src := s.mem) (dst := s.mem) h h

/-- A fold of operations that leave memory and its marks alone leaves them alone. -/
theorem foldl_memory {α : Type} (f : State → α → State) (hf : ∀ s a, (f s a).mem = s.mem ∧ (f s a).poison = s.poison)
    (l : List α) (s : State) : (l.foldl f s).mem = s.mem ∧ (l.foldl f s).poison = s.poison := by
  induction l generalizing s with
  | nil => exact ⟨rfl, rfl⟩
  | cons a l ih => exact ⟨(ih (f s a)).1.trans (hf s a).1, (ih (f s a)).2.trans (hf s a).2⟩

theorem State.memory_idAndOtp (s : State) : s.idAndOtp.mem = s.mem ∧ s.idAndOtp.poison = s.poison := by
  unfold State.idAndOtp
  extract_lets s0 n s1 s2
  have h1 : s1.mem = s.mem ∧ s1.poison = s.poison := by
    refine foldl_memory _ (fun t a => ?_) _ s0
    refine (foldl_memory _ ?_ _ _).imp (fun h => h.trans ?_) (fun h => h.trans ?_)
    · exact fun t a => ⟨by simp only [State.setF_mem], by simp only [State.setF_poison]⟩
    · simp only [State.setF_mem]
    · simp only [State.setF_poison]
  clear_value s1
  have h2 : s2.mem = s.mem ∧ s2.poison = s.poison := by
    refine (foldl_memory _ ?_ _ s1).imp (fun h => h.trans h1.1) (fun h => h.trans h1.2)
    exact fun t a => ⟨by simp only [State.setF_mem], by simp only [State.setF_poison]⟩
  clear_value s2
  unfold State.secRegs
  simp only [State.setF_mem, State.setF_poison]
  exact h2

/-- A cold start keeps of memory only the Cosy's mailbox, and no mark (R61). -/
theorem State.memory_mainReset (s : State) (requested : Bool) : (s.mainReset requested).poison = [] ∧
    (s.mainReset requested).mem = s.mem.filter (fun (p : Nat × Byte) => match s.region p.1 with
      | .mailbox _ => true
      | _ => false) := by
  unfold State.mainReset
  simp only [State.setF_mem, State.setF_poison, State.memory_idAndOtp]
  exact ⟨rfl, by first | rfl | trivial⟩

theorem Memory.wf_mainReset {s : State} {requested : Bool} (h : Memory.wf s.mem = true) :
    Memory.wf (s.mainReset requested).mem = true := by
  rw [(s.memory_mainReset requested).2]; exact Map.wf_filter _ h

/-! ### Poison marks -/

/-- The canonical form of a set of numbers, said of all of them at once. -/
theorem rising_iff {l : List Nat} : rising l = true ↔ l.Pairwise (· < ·) := by
  induction l with
  | nil => simp [rising]
  | cons a l ih =>
    cases l with
    | nil => simp [rising]
    | cons b l =>
      rw [rising, Bool.and_eq_true, ih, List.pairwise_cons (a := a), List.pairwise_cons, decide_eq_true_eq]
      constructor
      · rintro ⟨hab, hb, hl⟩
        refine ⟨fun c hc => ?_, hb, hl⟩
        rcases List.mem_cons.mp hc with rfl | hc
        · exact hab
        · have := hb c hc; omega
      · rintro ⟨ha, hb, hl⟩
        exact ⟨ha b (List.mem_cons_self ..), hb, hl⟩

theorem rising_filter {l : List Nat} (f : Nat → Bool) (h : rising l = true) : rising (l.filter f) = true :=
  rising_iff.mpr ((rising_iff.mp h).filter f)

theorem mem_setInsert {k j : Nat} {l : List Nat} : j ∈ setInsert k l ↔ j = k ∨ j ∈ l := by
  induction l with
  | nil => simp [setInsert]
  | cons a l ih =>
    unfold setInsert
    split
    · rename_i h; subst h; simp
    · split
      · simp
      · simp only [List.mem_cons, ih]
        exact ⟨fun h => by rcases h with h | h | h <;> simp [h], fun h => by rcases h with h | h | h <;> simp [h]⟩

theorem rising_setInsert {k : Nat} {l : List Nat} (h : rising l = true) : rising (setInsert k l) = true := by
  rw [rising_iff] at *
  induction l with
  | nil => simp [setInsert]
  | cons a l ih =>
    have h' := List.pairwise_cons.mp h
    unfold setInsert
    split
    · exact h
    · split
      · rename_i hk
        refine List.pairwise_cons.mpr ⟨fun c hc => ?_, h⟩
        rcases List.mem_cons.mp hc with rfl | hc
        · exact hk
        · have := h'.1 c hc; omega
      · refine List.pairwise_cons.mpr ⟨fun c hc => ?_, ih h'.2⟩
        rcases mem_setInsert.mp hc with rfl | hc
        · omega
        · exact h'.1 c hc

theorem rising_insertAll {m l : List Nat} (h : rising l = true) : rising (m.foldl (fun l c => setInsert c l) l) = true := by
  induction m generalizing l with
  | nil => exact h
  | cons c m ih => exact ih (rising_setInsert h)

/-! ### Memory and its marks together -/

theorem State.memOk_iff {s : State} : s.memOk = true ↔ Memory.wf s.mem = true ∧ rising s.poison = true := by
  simp [State.memOk]

theorem State.memOk_reset : State.reset.memOk = true := rfl

theorem State.memOk_putBytes {s : State} {a : Nat} {l : List Byte} (h : s.memOk = true) : (s.putBytes a l).memOk = true := by
  rw [State.memOk_iff] at *; exact ⟨Memory.wf_putBytes h.1, h.2⟩

theorem State.memOk_setPoison {s : State} {a : Nat} {p : Bool} (h : s.memOk = true) : (s.setPoison a p).memOk = true := by
  rw [State.memOk_iff] at *
  refine ⟨h.1, ?_⟩
  unfold State.setPoison
  cases p
  · exact rising_filter _ h.2
  · exact rising_setInsert h.2

theorem State.memOk_clearMem {s : State} {lo hi : Nat} (h : s.memOk = true) : (s.clearMem lo hi).memOk = true := by
  rw [State.memOk_iff] at *; exact ⟨Memory.wf_clearMem h.1, rising_filter _ h.2⟩

theorem State.memOk_copyRange {s : State} {src dst n : Nat} (h : s.memOk = true) : (s.copyRange src dst n).memOk = true := by
  rw [State.memOk_iff] at *; exact ⟨Memory.wf_copyRange h.1, rising_insertAll (rising_filter _ h.2)⟩

theorem State.memOk_loadBytes {s : State} {m : Map Byte} {off n pos : Nat} (hm : Map.wf 0 m = true) (h : s.memOk = true) :
    (s.loadBytes m off n pos).memOk = true := by
  rw [State.memOk_iff] at *; exact ⟨Memory.wf_loadBytes hm h.1, rising_filter _ h.2⟩

end Sys2Proof.Machine
end

