-- ==== Sys2Proof/WellFormed.lean ====
section
/-! DEFINITION. Well-formedness of a command as syntax: the places that it names exist in the largest module (four C-dies).  What of
them is fitted, enabled or up is the state's, and the meanings ask it there. -/

namespace Sys2Proof

open Sys2Proof.Machine

/-- A place that a command names. -/
inductive Place where
  | die (d : Nat) | anyDie (d : Nat) | core (d c : Nat) | unit (u : Nat) | group (g : Nat) | engine (i : Nat)
  | channel (d e c : Nat) | controller (k : Nat) | bank (b : Nat) | flag (f : Nat) | slot (k : Nat) | queue (q : Nat)
  | node (n : Nat) | camLink (l : Nat) | ctx (c : Nat) | pipePos (p : Nat) | hostPort (p : Nat) | ringPort (p : Nat)
  | vport (p : Nat) | stream (i : Nat) | inStream (i : Nat) | pair (p : Nat) | address (a : Nat) | init (w : Init)
  | flagSrc (f : FlagSrc) | dieLink (l : DieLink)
  deriving DecidableEq, Repr

/-- The dies with register windows of commands: C-dies 0–3, the hub 6 and the Cosy 7 (R3). -/
def dieNumber (d : Nat) : Bool := decide (d < 4 ∨ d = 6 ∨ d = 7)

/-- The initiator names a control core or unit of a C-die (R27). -/
def initExists : Init → Bool
  | .ctrl d c => decide (d < 4 ∧ c < 4)
  | .other d _ => dieNumber d
  | _ => true

/-- The place exists in the largest module: the numbers that R2–R6, R25, R106, R110, R112, R128, R133, R250, R254, R360, R389,
R419 and R510 give each kind. -/
def Place.exist : Place → Bool
  | .die d => decide (d < 4)
  | .anyDie d => dieNumber d
  | .core d c => decide (d < 4 ∧ c < 72)
  | .unit u => decide (u < 90)
  | .group g => decide (g < 13)
  | .engine i => decide (i < 3)
  | .channel d e c => decide (d < 4 ∧ e < 8 ∧ c < 64)
  | .controller k => decide (k < 8)
  | .bank b => decide (b < 64)
  | .flag f => decide (f < 4096)
  | .slot k => decide (k < 2048)
  | .queue q => decide (q < 65536)
  | .node n => decide (n < 65536)
  | .camLink l => decide (l < 16)
  | .ctx c => decide (c < 64)
  | .pipePos p => decide (p < 4)
  | .hostPort p => decide (p < 3)
  | .ringPort p => decide (p < 4)
  | .vport p => decide (p < 2)
  | .stream i => decide (i < 64)
  | .inStream i => decide (i < 32)
  | .pair p => decide (p < 32)
  | .address a => decide (a < 2 ^ 40)
  | .init w => initExists w
  | .flagSrc (.sequencer d) => decide (d < 4)
  | .flagSrc (.dma d) => decide (d < 4)
  | .flagSrc .ingress => true
  | .flagSrc (.reg w) => initExists w
  | .flagSrc (.write w) => initExists w
  | .dieLink (.hub d) => decide (d < 4)
  | .dieLink (.ring d) => decide (d < 4)
  | .dieLink .cosy => true

/-- The places that a command names. -/
def Instr.places : Instr → List Place
  | .registerWrite who addr _ _ => [.init who, .address addr]
  | .regLoRead who addr => [.init who, .address addr]
  | .regHiRead who addr => [.init who, .address addr]
  | .regLoWrite who addr _ => [.init who, .address addr]
  | .regHiWrite who addr _ => [.init who, .address addr]
  | .cosyMailboxRead addr => [.address addr]
  | .ingressBufferWrite addr _ => [.address addr]
  | .linkRetrain l _ => [.dieLink l]
  | .cosyLinkTrain => []
  | .powerGood _ => []
  | .hubSelftestDone _ => []
  | .cosySelftestReport => []
  | .cosyResultTimeout => []
  | .ufsLinkUp _ _ _ _ => []
  | .cdieSelftestDone die _ => [.die die]
  | .sectionHashed _ => []
  | .firmwareRunning => []
  | .rollbackBurnStep => []
  | .upload _ _ _ => []
  | .commit => []
  | .commitReadbackDone _ => []
  | .holdingColdStart => []
  | .cosyPowerGood _ => []
  | .cosyImage _ _ => []
  | .bootReqWarm who => [.init who]
  | .bootReqCold who _ => [.init who]
  | .dieRestart die => [.die die]
  | .dieRejoin die => [.die die]
  | .dieRestartEscalate die => [.die die]
  | .warmRestart => []
  | .warmRejoin => []
  | .warmRestartTimeout => []
  | .rehashComplete die => [.die die]
  | .numberingMark => []
  | .frameStart => []
  | .frameStartEffect die => [.die die]
  | .heldStartEffect die => [.die die]
  | .cameraTrigger ctx => [.ctx ctx]
  | .frameTriggerOffset die node _ => [.die die, .node node]
  | .completionNotice src dst => [.die src, .die dst]
  | .ingressWindowOpen die node _ => [.die die, .node node]
  | .winClose die node _ => [.die die, .node node]
  | .variantLoad die => [.die die]
  | .shadowRefresh die => [.anyDie die]
  | .slotGrant die => [.die die]
  | .dispatch die unit => [.die die, .unit unit]
  | .unitEndReport die unit _ => [.die die, .unit unit]
  | .completionRecordWrite die slot => [.die die, .slot slot]
  | .queueRetry die queue => [.die die, .queue queue]
  | .dspPush who die list => [.init who, .die die, .queue list]
  | .dspCancelNode who die node => [.init who, .die die, .node node]
  | .dspCancelSlot who die slot => [.init who, .die die, .slot slot]
  | .dspQHeadWrite who die _ => [.init who, .die die]
  | .aphyLinkTrain link _ _ => [.camLink link]
  | .csi2LongPacket link _ _ _ _ => [.camLink link]
  | .csi2Fs link _ _ => [.camLink link]
  | .csi2Fe link _ _ => [.camLink link]
  | .acceptWindowClose ctx => [.ctx ctx]
  | .pipeLineDone pos _ => [.pipePos pos]
  | .stripPost ctx die => [.ctx ctx, .die die]
  | .dropFlagRaise ctx die => [.ctx ctx, .die die]
  | .goldenLineStart pos => [.pipePos pos]
  | .pipeHandover pos => [.pipePos pos]
  | .handoverForced pos => [.pipePos pos]
  | .ingI2cCmd who _ => [.init who]
  | .i2cComplete _ _ => []
  | .pyrTask die inst => [.die die, .engine inst]
  | .wrpMeshTask die inst => [.die die, .engine inst]
  | .wrpSamplerTask die inst => [.die die, .engine inst]
  | .ftrDetectMatch die inst _ => [.die die, .engine inst]
  | .ftrDetect die inst => [.die die, .engine inst]
  | .ftrReset die inst => [.die die, .engine inst]
  | .ftrDump die inst => [.die die, .engine inst]
  | .ftrTrackSelWrite who die inst _ => [.init who, .die die, .engine inst]
  | .ftrTrackDataRead who die inst => [.init who, .die die, .engine inst]
  | .flwTask die inst => [.die die, .engine inst]
  | .steSgm die inst => [.die die, .engine inst]
  | .steTestFill die inst => [.die die, .engine inst]
  | .remoteRequest die core _ => [.core die core]
  | .remoteAccess die core => [.core die core]
  | .spdPatrol die core _ => [.core die core]
  | .cmnPatrol die bank _ => [.die die, .bank bank]
  | .flagAdd src die flag _ _ => [.flagSrc src, .die die, .flag flag]
  | .flagSet src die flag _ _ => [.flagSrc src, .die die, .flag flag]
  | .watchArrive src dst => [.die src, .die dst]
  | .watchMetNotice src dst => [.die src, .die dst]
  | .watchRetry src dst => [.die src, .die dst]
  | .watchWithdraw src dst slot => [.die src, .die dst, .slot slot]
  | .restartTaggedAccess die addr _ => [.die die, .address addr]
  | .gset c => [.core c.die c.core]
  | .st c => [.core c.die c.core]
  | .lda c => [.core c.die c.core]
  | .ldb c => [.core c.die c.core]
  | .run c => [.core c.die c.core]
  | .blockClose c _ _ => [.core c.die c.core]
  | .store c _ => [.core c.die c.core]
  | .accin c => [.core c.die c.core]
  | .loop c => [.core c.die c.core]
  | .endBundle c => [.core c.die c.core]
  | .vectorLoad c port => [.core c.die c.core, .vport port]
  | .vectorStore c => [.core c.die c.core]
  | .add v => [.core v.core.die v.core.core]
  | .sub v => [.core v.core.die v.core.core]
  | .mul v => [.core v.core.die v.core.core]
  | .fma v => [.core v.core.die v.core.core]
  | .max v => [.core v.core.die v.core.core]
  | .min v => [.core v.core.die v.core.core]
  | .abs v => [.core v.core.die v.core.core]
  | .neg v => [.core v.core.die v.core.core]
  | .cmplt v => [.core v.core.die v.core.core]
  | .cmpeq v => [.core v.core.die v.core.core]
  | .sel v => [.core v.core.die v.core.core]
  | .rcp v => [.core v.core.die v.core.core]
  | .rsqrt v => [.core v.core.die v.core.core]
  | .sqrt v => [.core v.core.die v.core.core]
  | .exp2 v => [.core v.core.die v.core.core]
  | .log2 v => [.core v.core.die v.core.core]
  | .tanh v => [.core v.core.die v.core.core]
  | .sigmoid v => [.core v.core.die v.core.core]
  | .rsum v => [.core v.core.die v.core.core]
  | .rmax v => [.core v.core.die v.core.core]
  | .bcast v => [.core v.core.die v.core.core]
  | .perm v => [.core v.core.die v.core.core]
  | .movi v => [.core v.core.die v.core.core]
  | .packbf v => [.core v.core.die v.core.core]
  | .unpkbf v => [.core v.core.die v.core.core]
  | .packh v => [.core v.core.die v.core.core]
  | .unpkh v => [.core v.core.die v.core.core]
  | .cvtmx v => [.core v.core.die v.core.core]
  | .scins v => [.core v.core.die v.core.core]
  | .iadd v => [.core v.core.die v.core.core]
  | .isub v => [.core v.core.die v.core.core]
  | .imul v => [.core v.core.die v.core.core]
  | .shl v => [.core v.core.die v.core.core]
  | .shra v => [.core v.core.die v.core.core]
  | .shrl v => [.core v.core.die v.core.core]
  | .vand v => [.core v.core.die v.core.core]
  | .vor v => [.core v.core.die v.core.core]
  | .vxor v => [.core v.core.die v.core.core]
  | .imin v => [.core v.core.die v.core.core]
  | .imax v => [.core v.core.die v.core.core]
  | .icmplt v => [.core v.core.die v.core.core]
  | .cvtif v => [.core v.core.die v.core.core]
  | .cvtfi v => [.core v.core.die v.core.core]
  | .iota v => [.core v.core.die v.core.core]
  | .dmaDoorbell who die eng ch => [.init who, .die die, .channel die eng ch]
  | .copy ch => [.channel ch.die ch.eng ch.ch]
  | .linear ch => [.channel ch.die ch.eng ch.ch]
  | .fill ch => [.channel ch.die ch.eng ch.ch]
  | .gather ch => [.channel ch.die ch.eng ch.ch]
  | .scatter ch => [.channel ch.die ch.eng ch.ch]
  | .scatterAdd ch => [.channel ch.die ch.eng ch.ch]
  | .dmaFlagOp ch => [.channel ch.die ch.eng ch.ch]
  | .jump ch => [.channel ch.die ch.eng ch.ch]
  | .pop ch => [.channel ch.die ch.eng ch.ch]
  | .dmaNorespTimeout ch addr _ _ => [.channel ch.die ch.eng ch.ch, .address addr]
  | .dmaPause who ch _ _ => [.init who, .channel ch.die ch.eng ch.ch]
  | .dmaResume who ch => [.init who, .channel ch.die ch.eng ch.ch]
  | .dmaRetry who ch => [.init who, .channel ch.die ch.eng ch.ch]
  | .dmaSkip who ch => [.init who, .channel ch.die ch.eng ch.ch]
  | .dmaRequestMismatch ch _ _ => [.channel ch.die ch.eng ch.ch]
  | .hungUnit die unit => [.die die, .unit unit]
  | .relayTask die => [.die die]
  | .relayPathTake die _ => [.die die]
  | .relayData die _ => [.die die]
  | .relayFlagEntry die _ => [.die die]
  | .relayCommit die _ => [.die die]
  | .relayResync die _ => [.die die]
  | .relayAck die => [.die die]
  | .forwardRetry die _ => [.die die]
  | .flitIdle port _ => [.ringPort port]
  | .flitHead port _ _ => [.ringPort port]
  | .flitData port _ _ _ => [.ringPort port]
  | .flitDelivered port _ => [.ringPort port]
  | .flitWatch port _ die flag _ => [.ringPort port, .die die, .flag flag]
  | .flitMet port _ => [.ringPort port]
  | .flitNak port _ => [.ringPort port]
  | .flitIdent port _ _ => [.ringPort port]
  | .flitCensus port _ _ _ => [.ringPort port]
  | .flitBreak port _ _ => [.ringPort port]
  | .ringBreak => []
  | .relayLaneFail port _ => [.ringPort port]
  | .relayPortSilent port => [.ringPort port]
  | .relayPortTrainTimeout port => [.ringPort port]
  | .dramRead die addr _ => [.die die, .address addr]
  | .dramWrite die addr _ _ => [.die die, .address addr]
  | .dramMerge die addr _ => [.die die, .address addr]
  | .dramPatrol die ctl _ => [.die die, .controller ctl]
  | .dramRetire die ctl => [.die die, .controller ctl]
  | .dramRefresh die ctl => [.die die, .controller ctl]
  | .dramTempRead die ctl _ => [.die die, .controller ctl]
  | .calibrationDue die ctl => [.die die, .controller ctl]
  | .quietWindowOpen die ctl _ _ => [.die die, .controller ctl]
  | .calibrationForced die ctl _ _ => [.die die, .controller ctl]
  | .selfRefreshEnter die ctl => [.die die, .controller ctl]
  | .selfRefreshExit die ctl _ => [.die die, .controller ctl]
  | .hostPortLink port _ => [.hostPort port]
  | .gateCycleStart port => [.hostPort port]
  | .outputAccept die node _ _ _ => [.die die, .node node]
  | .fragmentSend stream => [.stream stream]
  | .gptpSync port _ => [.hostPort port]
  | .syncTimeout => []
  | .ingressFrame port _ => [.hostPort port]
  | .reassemblyTimeout stream => [.inStream stream]
  | .ingressHoldRetry die ring => [.die die, .queue ring]
  | .cbReset stream => [.inStream stream]
  | .modeRequest stream _ => [.inStream stream]
  | .tsnWallLoRead who => [.init who]
  | .tsnTimeRead who => [.init who]
  | .doubtLatch d => [.anyDie d.die]
  | .streamDeadline stream => [.stream stream]
  | .cosyMessage m => [.stream m.stream]
  | .diversityVerdict pair _ => [.pair pair]
  | .hubLockstepFail => []
  | .rotationStep die group => [.anyDie die, .group group]
  | .sliceDone die unit _ => [.anyDie die, .unit unit]
  | .segmentStart die unit => [.anyDie die, .unit unit]
  | .segmentDone die unit _ => [.anyDie die, .unit unit]
  | .coverageExpiry die unit => [.anyDie die, .unit unit]
  | .suspectClear die unit => [.anyDie die, .unit unit]
  | .rowRepair die => [.die die]
  | .repairRecordWrite => []
  | .checkerTest die _ _ => [.anyDie die]
  | .eventArrive e => [.anyDie e.die]
  | .accumulatorClose _ => []
  | .evrRaiseCode who _ _ => [.init who]
  | .evrFreezeSet who => [.init who]
  | .evrFreezeClear who => [.init who]
  | .evrFreezeExpire => []
  | .logPersist _ => []
  | .openSession _ _ _ => []
  | .prove _ => []
  | .close => []
  | .sessionTimeout => []
  | .authLockoutEnd => []
  | .attest _ => []
  | .attestSigned => []
  | .regRead addr _ => [.address addr]
  | .regWrite addr _ => [.address addr]
  | .logRead _ _ => []
  | .cakSet _ => []
  | .provision _ => []
  | .unlock _ _ => []
  | .loaderWrite _ _ => []
  | .scrap => []
  | .otpReread _ _ => []
  | .securityKat _ _ => []
  | .trngSample _ => []
  | .bladeContact => []
  | .inrushStart => []
  | .removalRequest => []
  | .inputOutOfRange _ _ => []
  | .lowInputTick _ => []
  | .powerWindow _ => []
  | .phaseFail die group => [.anyDie die, .group group]
  | .domainSwitch die _ _ => [.anyDie die]
  | .clockCompare _ _ _ _ => []
  | .holdoverEnd => []
  | .monitorTrip die _ _ _ => [.anyDie die]
  | .monitorTest die _ _ => [.anyDie die]
  | .thermalCut die => [.anyDie die]
  | .modResetN _ => []
  | .presentNMake => []
  | .freezePin => []
  | .frzCtlFreeze who => [.init who]
  | .freeze => []
  | .clockStop => []
  | .readState => []
  | .readDram die _ _ => [.anyDie die]
  | .resume => []
  | .freezeStatus => []
  | .registerRead who addr _ => [.init who, .address addr]
  | .censusTimeout => []
  | .cosyFrame _ _ => []
  | .aphyLinkLost link _ => [.camLink link]
  | .tapAccess _ => []
  | .rootPllLock => []
  | .loaderRunning => []

/-- A command is well-formed: every place it names exists. -/
def Instr.wf (i : Instr) : Bool := i.places.all Place.exist

end Sys2Proof
end

