-- ==== Sys2Proof/Laws/PerInstr.lean ====
section
/-! SUPPORT. A statement about every command as syntax, command by command: a well-formed command names only places that exist in the
largest module. -/

namespace Sys2Proof

open Sys2Proof.Machine

/-- A well-formed command names only places that exist. -/
def Laws.Places.Statement (i : Instr) : Prop := i.wf = true → ∀ p ∈ i.places, p.exist = true

theorem Laws.Places.of_wf (i : Instr) : Laws.Places.Statement i := fun h => List.all_eq_true.mp h

theorem Laws.Places.registerWrite (x0 : Init) (x1 : Nat) (x2 : Word) (x3 : Nat) : Laws.Places.Statement (.registerWrite x0 x1 x2 x3) := Laws.Places.of_wf _
theorem Laws.Places.regLoRead (x0 : Init) (x1 : Nat) : Laws.Places.Statement (.regLoRead x0 x1) := Laws.Places.of_wf _
theorem Laws.Places.regHiRead (x0 : Init) (x1 : Nat) : Laws.Places.Statement (.regHiRead x0 x1) := Laws.Places.of_wf _
theorem Laws.Places.regLoWrite (x0 : Init) (x1 : Nat) (x2 : Word) : Laws.Places.Statement (.regLoWrite x0 x1 x2) := Laws.Places.of_wf _
theorem Laws.Places.regHiWrite (x0 : Init) (x1 : Nat) (x2 : Word) : Laws.Places.Statement (.regHiWrite x0 x1 x2) := Laws.Places.of_wf _
theorem Laws.Places.cosyMailboxRead (x0 : Nat) : Laws.Places.Statement (.cosyMailboxRead x0) := Laws.Places.of_wf _
theorem Laws.Places.ingressBufferWrite (x0 : Nat) (x1 : List Byte) : Laws.Places.Statement (.ingressBufferWrite x0 x1) := Laws.Places.of_wf _
theorem Laws.Places.linkRetrain (x0 : DieLink) (x1 : Bool) : Laws.Places.Statement (.linkRetrain x0 x1) := Laws.Places.of_wf _
theorem Laws.Places.cosyLinkTrain : Laws.Places.Statement .cosyLinkTrain := Laws.Places.of_wf _
theorem Laws.Places.powerGood (x0 : BitVec 4) : Laws.Places.Statement (.powerGood x0) := Laws.Places.of_wf _
theorem Laws.Places.hubSelftestDone (x0 : List Nat) : Laws.Places.Statement (.hubSelftestDone x0) := Laws.Places.of_wf _
theorem Laws.Places.cosySelftestReport : Laws.Places.Statement .cosySelftestReport := Laws.Places.of_wf _
theorem Laws.Places.cosyResultTimeout : Laws.Places.Statement .cosyResultTimeout := Laws.Places.of_wf _
theorem Laws.Places.ufsLinkUp (x0 : Bool) (x1 : Bool) (x2 : List (List (Option (BitVec 24)))) (x3 : Bool) : Laws.Places.Statement (.ufsLinkUp x0 x1 x2 x3) := Laws.Places.of_wf _
theorem Laws.Places.cdieSelftestDone (x0 : Nat) (x1 : List StartFault) : Laws.Places.Statement (.cdieSelftestDone x0 x1) := Laws.Places.of_wf _
theorem Laws.Places.sectionHashed (x0 : Nat) : Laws.Places.Statement (.sectionHashed x0) := Laws.Places.of_wf _
theorem Laws.Places.firmwareRunning : Laws.Places.Statement .firmwareRunning := Laws.Places.of_wf _
theorem Laws.Places.rollbackBurnStep : Laws.Places.Statement .rollbackBurnStep := Laws.Places.of_wf _
theorem Laws.Places.upload (x0 : Bool) (x1 : Nat) (x2 : List Byte) : Laws.Places.Statement (.upload x0 x1 x2) := Laws.Places.of_wf _
theorem Laws.Places.commit : Laws.Places.Statement .commit := Laws.Places.of_wf _
theorem Laws.Places.commitReadbackDone (x0 : Bool) : Laws.Places.Statement (.commitReadbackDone x0) := Laws.Places.of_wf _
theorem Laws.Places.holdingColdStart : Laws.Places.Statement .holdingColdStart := Laws.Places.of_wf _
theorem Laws.Places.cosyPowerGood (x0 : Bool) : Laws.Places.Statement (.cosyPowerGood x0) := Laws.Places.of_wf _
theorem Laws.Places.cosyImage (x0 : Nat) (x1 : List Byte) : Laws.Places.Statement (.cosyImage x0 x1) := Laws.Places.of_wf _
theorem Laws.Places.bootReqWarm (x0 : Init) : Laws.Places.Statement (.bootReqWarm x0) := Laws.Places.of_wf _
theorem Laws.Places.bootReqCold (x0 : Init) (x1 : Bool) : Laws.Places.Statement (.bootReqCold x0 x1) := Laws.Places.of_wf _
theorem Laws.Places.dieRestart (x0 : Nat) : Laws.Places.Statement (.dieRestart x0) := Laws.Places.of_wf _
theorem Laws.Places.dieRejoin (x0 : Nat) : Laws.Places.Statement (.dieRejoin x0) := Laws.Places.of_wf _
theorem Laws.Places.dieRestartEscalate (x0 : Nat) : Laws.Places.Statement (.dieRestartEscalate x0) := Laws.Places.of_wf _
theorem Laws.Places.warmRestart : Laws.Places.Statement .warmRestart := Laws.Places.of_wf _
theorem Laws.Places.warmRejoin : Laws.Places.Statement .warmRejoin := Laws.Places.of_wf _
theorem Laws.Places.warmRestartTimeout : Laws.Places.Statement .warmRestartTimeout := Laws.Places.of_wf _
theorem Laws.Places.rehashComplete (x0 : Nat) : Laws.Places.Statement (.rehashComplete x0) := Laws.Places.of_wf _
theorem Laws.Places.numberingMark : Laws.Places.Statement .numberingMark := Laws.Places.of_wf _
theorem Laws.Places.frameStart : Laws.Places.Statement .frameStart := Laws.Places.of_wf _
theorem Laws.Places.frameStartEffect (x0 : Nat) : Laws.Places.Statement (.frameStartEffect x0) := Laws.Places.of_wf _
theorem Laws.Places.heldStartEffect (x0 : Nat) : Laws.Places.Statement (.heldStartEffect x0) := Laws.Places.of_wf _
theorem Laws.Places.cameraTrigger (x0 : Nat) : Laws.Places.Statement (.cameraTrigger x0) := Laws.Places.of_wf _
theorem Laws.Places.frameTriggerOffset (x0 : Nat) (x1 : Nat) (x2 : Word) : Laws.Places.Statement (.frameTriggerOffset x0 x1 x2) := Laws.Places.of_wf _
theorem Laws.Places.completionNotice (x0 : Nat) (x1 : Nat) : Laws.Places.Statement (.completionNotice x0 x1) := Laws.Places.of_wf _
theorem Laws.Places.ingressWindowOpen (x0 : Nat) (x1 : Nat) (x2 : Word) : Laws.Places.Statement (.ingressWindowOpen x0 x1 x2) := Laws.Places.of_wf _
theorem Laws.Places.winClose (x0 : Nat) (x1 : Nat) (x2 : Word) : Laws.Places.Statement (.winClose x0 x1 x2) := Laws.Places.of_wf _
theorem Laws.Places.variantLoad (x0 : Nat) : Laws.Places.Statement (.variantLoad x0) := Laws.Places.of_wf _
theorem Laws.Places.shadowRefresh (x0 : Nat) : Laws.Places.Statement (.shadowRefresh x0) := Laws.Places.of_wf _
theorem Laws.Places.slotGrant (x0 : Nat) : Laws.Places.Statement (.slotGrant x0) := Laws.Places.of_wf _
theorem Laws.Places.dispatch (x0 : Nat) (x1 : Nat) : Laws.Places.Statement (.dispatch x0 x1) := Laws.Places.of_wf _
theorem Laws.Places.unitEndReport (x0 : Nat) (x1 : Nat) (x2 : TaskEnd) : Laws.Places.Statement (.unitEndReport x0 x1 x2) := Laws.Places.of_wf _
theorem Laws.Places.completionRecordWrite (x0 : Nat) (x1 : Nat) : Laws.Places.Statement (.completionRecordWrite x0 x1) := Laws.Places.of_wf _
theorem Laws.Places.queueRetry (x0 : Nat) (x1 : Nat) : Laws.Places.Statement (.queueRetry x0 x1) := Laws.Places.of_wf _
theorem Laws.Places.dspPush (x0 : Init) (x1 : Nat) (x2 : Nat) : Laws.Places.Statement (.dspPush x0 x1 x2) := Laws.Places.of_wf _
theorem Laws.Places.dspCancelNode (x0 : Init) (x1 : Nat) (x2 : Nat) : Laws.Places.Statement (.dspCancelNode x0 x1 x2) := Laws.Places.of_wf _
theorem Laws.Places.dspCancelSlot (x0 : Init) (x1 : Nat) (x2 : Nat) : Laws.Places.Statement (.dspCancelSlot x0 x1 x2) := Laws.Places.of_wf _
theorem Laws.Places.dspQHeadWrite (x0 : Init) (x1 : Nat) (x2 : Word) : Laws.Places.Statement (.dspQHeadWrite x0 x1 x2) := Laws.Places.of_wf _
theorem Laws.Places.aphyLinkTrain (x0 : Nat) (x1 : Nat) (x2 : Nat) : Laws.Places.Statement (.aphyLinkTrain x0 x1 x2) := Laws.Places.of_wf _
theorem Laws.Places.csi2LongPacket (x0 : Nat) (x1 : Nat) (x2 : Nat) (x3 : List Byte) (x4 : PktState) : Laws.Places.Statement (.csi2LongPacket x0 x1 x2 x3 x4) := Laws.Places.of_wf _
theorem Laws.Places.csi2Fs (x0 : Nat) (x1 : Nat) (x2 : PktState) : Laws.Places.Statement (.csi2Fs x0 x1 x2) := Laws.Places.of_wf _
theorem Laws.Places.csi2Fe (x0 : Nat) (x1 : Nat) (x2 : PktState) : Laws.Places.Statement (.csi2Fe x0 x1 x2) := Laws.Places.of_wf _
theorem Laws.Places.acceptWindowClose (x0 : Nat) : Laws.Places.Statement (.acceptWindowClose x0) := Laws.Places.of_wf _
theorem Laws.Places.pipeLineDone (x0 : Nat) (x1 : List (Nat × Nat)) : Laws.Places.Statement (.pipeLineDone x0 x1) := Laws.Places.of_wf _
theorem Laws.Places.stripPost (x0 : Nat) (x1 : Nat) : Laws.Places.Statement (.stripPost x0 x1) := Laws.Places.of_wf _
theorem Laws.Places.dropFlagRaise (x0 : Nat) (x1 : Nat) : Laws.Places.Statement (.dropFlagRaise x0 x1) := Laws.Places.of_wf _
theorem Laws.Places.goldenLineStart (x0 : Nat) : Laws.Places.Statement (.goldenLineStart x0) := Laws.Places.of_wf _
theorem Laws.Places.pipeHandover (x0 : Nat) : Laws.Places.Statement (.pipeHandover x0) := Laws.Places.of_wf _
theorem Laws.Places.handoverForced (x0 : Nat) : Laws.Places.Statement (.handoverForced x0) := Laws.Places.of_wf _
theorem Laws.Places.ingI2cCmd (x0 : Init) (x1 : Word) : Laws.Places.Statement (.ingI2cCmd x0 x1) := Laws.Places.of_wf _
theorem Laws.Places.i2cComplete (x0 : Bool) (x1 : BitVec 24) : Laws.Places.Statement (.i2cComplete x0 x1) := Laws.Places.of_wf _
theorem Laws.Places.pyrTask (x0 : Nat) (x1 : Nat) : Laws.Places.Statement (.pyrTask x0 x1) := Laws.Places.of_wf _
theorem Laws.Places.wrpMeshTask (x0 : Nat) (x1 : Nat) : Laws.Places.Statement (.wrpMeshTask x0 x1) := Laws.Places.of_wf _
theorem Laws.Places.wrpSamplerTask (x0 : Nat) (x1 : Nat) : Laws.Places.Statement (.wrpSamplerTask x0 x1) := Laws.Places.of_wf _
theorem Laws.Places.ftrDetectMatch (x0 : Nat) (x1 : Nat) (x2 : List Nat) : Laws.Places.Statement (.ftrDetectMatch x0 x1 x2) := Laws.Places.of_wf _
theorem Laws.Places.ftrDetect (x0 : Nat) (x1 : Nat) : Laws.Places.Statement (.ftrDetect x0 x1) := Laws.Places.of_wf _
theorem Laws.Places.ftrReset (x0 : Nat) (x1 : Nat) : Laws.Places.Statement (.ftrReset x0 x1) := Laws.Places.of_wf _
theorem Laws.Places.ftrDump (x0 : Nat) (x1 : Nat) : Laws.Places.Statement (.ftrDump x0 x1) := Laws.Places.of_wf _
theorem Laws.Places.ftrTrackSelWrite (x0 : Init) (x1 : Nat) (x2 : Nat) (x3 : Word) : Laws.Places.Statement (.ftrTrackSelWrite x0 x1 x2 x3) := Laws.Places.of_wf _
theorem Laws.Places.ftrTrackDataRead (x0 : Init) (x1 : Nat) (x2 : Nat) : Laws.Places.Statement (.ftrTrackDataRead x0 x1 x2) := Laws.Places.of_wf _
theorem Laws.Places.flwTask (x0 : Nat) (x1 : Nat) : Laws.Places.Statement (.flwTask x0 x1) := Laws.Places.of_wf _
theorem Laws.Places.steSgm (x0 : Nat) (x1 : Nat) : Laws.Places.Statement (.steSgm x0 x1) := Laws.Places.of_wf _
theorem Laws.Places.steTestFill (x0 : Nat) (x1 : Nat) : Laws.Places.Statement (.steTestFill x0 x1) := Laws.Places.of_wf _
theorem Laws.Places.remoteRequest (x0 : Nat) (x1 : Nat) (x2 : RemoteReq) : Laws.Places.Statement (.remoteRequest x0 x1 x2) := Laws.Places.of_wf _
theorem Laws.Places.remoteAccess (x0 : Nat) (x1 : Nat) : Laws.Places.Statement (.remoteAccess x0 x1) := Laws.Places.of_wf _
theorem Laws.Places.spdPatrol (x0 : Nat) (x1 : Nat) (x2 : List Ecc) : Laws.Places.Statement (.spdPatrol x0 x1 x2) := Laws.Places.of_wf _
theorem Laws.Places.cmnPatrol (x0 : Nat) (x1 : Nat) (x2 : List Ecc) : Laws.Places.Statement (.cmnPatrol x0 x1 x2) := Laws.Places.of_wf _
theorem Laws.Places.flagAdd (x0 : FlagSrc) (x1 : Nat) (x2 : Nat) (x3 : Word) (x4 : Bool) : Laws.Places.Statement (.flagAdd x0 x1 x2 x3 x4) := Laws.Places.of_wf _
theorem Laws.Places.flagSet (x0 : FlagSrc) (x1 : Nat) (x2 : Nat) (x3 : Word) (x4 : Bool) : Laws.Places.Statement (.flagSet x0 x1 x2 x3 x4) := Laws.Places.of_wf _
theorem Laws.Places.watchArrive (x0 : Nat) (x1 : Nat) : Laws.Places.Statement (.watchArrive x0 x1) := Laws.Places.of_wf _
theorem Laws.Places.watchMetNotice (x0 : Nat) (x1 : Nat) : Laws.Places.Statement (.watchMetNotice x0 x1) := Laws.Places.of_wf _
theorem Laws.Places.watchRetry (x0 : Nat) (x1 : Nat) : Laws.Places.Statement (.watchRetry x0 x1) := Laws.Places.of_wf _
theorem Laws.Places.watchWithdraw (x0 : Nat) (x1 : Nat) (x2 : Nat) : Laws.Places.Statement (.watchWithdraw x0 x1 x2) := Laws.Places.of_wf _
theorem Laws.Places.restartTaggedAccess (x0 : Nat) (x1 : Nat) (x2 : Option (List Byte)) : Laws.Places.Statement (.restartTaggedAccess x0 x1 x2) := Laws.Places.of_wf _
theorem Laws.Places.gset (x0 : CoreRef) : Laws.Places.Statement (.gset x0) := Laws.Places.of_wf _
theorem Laws.Places.st (x0 : CoreRef) : Laws.Places.Statement (.st x0) := Laws.Places.of_wf _
theorem Laws.Places.lda (x0 : CoreRef) : Laws.Places.Statement (.lda x0) := Laws.Places.of_wf _
theorem Laws.Places.ldb (x0 : CoreRef) : Laws.Places.Statement (.ldb x0) := Laws.Places.of_wf _
theorem Laws.Places.run (x0 : CoreRef) : Laws.Places.Statement (.run x0) := Laws.Places.of_wf _
theorem Laws.Places.blockClose (x0 : CoreRef) (x1 : List (Nat × Nat × Int)) (x2 : Option MxFault) : Laws.Places.Statement (.blockClose x0 x1 x2) := Laws.Places.of_wf _
theorem Laws.Places.store (x0 : CoreRef) (x1 : Option MxFault) : Laws.Places.Statement (.store x0 x1) := Laws.Places.of_wf _
theorem Laws.Places.accin (x0 : CoreRef) : Laws.Places.Statement (.accin x0) := Laws.Places.of_wf _
theorem Laws.Places.loop (x0 : CoreRef) : Laws.Places.Statement (.loop x0) := Laws.Places.of_wf _
theorem Laws.Places.endBundle (x0 : CoreRef) : Laws.Places.Statement (.endBundle x0) := Laws.Places.of_wf _
theorem Laws.Places.vectorLoad (x0 : CoreRef) (x1 : Nat) : Laws.Places.Statement (.vectorLoad x0 x1) := Laws.Places.of_wf _
theorem Laws.Places.vectorStore (x0 : CoreRef) : Laws.Places.Statement (.vectorStore x0) := Laws.Places.of_wf _
theorem Laws.Places.add (x0 : VOp) : Laws.Places.Statement (.add x0) := Laws.Places.of_wf _
theorem Laws.Places.sub (x0 : VOp) : Laws.Places.Statement (.sub x0) := Laws.Places.of_wf _
theorem Laws.Places.mul (x0 : VOp) : Laws.Places.Statement (.mul x0) := Laws.Places.of_wf _
theorem Laws.Places.fma (x0 : VOp) : Laws.Places.Statement (.fma x0) := Laws.Places.of_wf _
theorem Laws.Places.max (x0 : VOp) : Laws.Places.Statement (.max x0) := Laws.Places.of_wf _
theorem Laws.Places.min (x0 : VOp) : Laws.Places.Statement (.min x0) := Laws.Places.of_wf _
theorem Laws.Places.abs (x0 : VOp) : Laws.Places.Statement (.abs x0) := Laws.Places.of_wf _
theorem Laws.Places.neg (x0 : VOp) : Laws.Places.Statement (.neg x0) := Laws.Places.of_wf _
theorem Laws.Places.cmplt (x0 : VOp) : Laws.Places.Statement (.cmplt x0) := Laws.Places.of_wf _
theorem Laws.Places.cmpeq (x0 : VOp) : Laws.Places.Statement (.cmpeq x0) := Laws.Places.of_wf _
theorem Laws.Places.sel (x0 : VOp) : Laws.Places.Statement (.sel x0) := Laws.Places.of_wf _
theorem Laws.Places.rcp (x0 : VOp) : Laws.Places.Statement (.rcp x0) := Laws.Places.of_wf _
theorem Laws.Places.rsqrt (x0 : VOp) : Laws.Places.Statement (.rsqrt x0) := Laws.Places.of_wf _
theorem Laws.Places.sqrt (x0 : VOp) : Laws.Places.Statement (.sqrt x0) := Laws.Places.of_wf _
theorem Laws.Places.exp2 (x0 : VOp) : Laws.Places.Statement (.exp2 x0) := Laws.Places.of_wf _
theorem Laws.Places.log2 (x0 : VOp) : Laws.Places.Statement (.log2 x0) := Laws.Places.of_wf _
theorem Laws.Places.tanh (x0 : VOp) : Laws.Places.Statement (.tanh x0) := Laws.Places.of_wf _
theorem Laws.Places.sigmoid (x0 : VOp) : Laws.Places.Statement (.sigmoid x0) := Laws.Places.of_wf _
theorem Laws.Places.rsum (x0 : VOp) : Laws.Places.Statement (.rsum x0) := Laws.Places.of_wf _
theorem Laws.Places.rmax (x0 : VOp) : Laws.Places.Statement (.rmax x0) := Laws.Places.of_wf _
theorem Laws.Places.bcast (x0 : VOp) : Laws.Places.Statement (.bcast x0) := Laws.Places.of_wf _
theorem Laws.Places.perm (x0 : VOp) : Laws.Places.Statement (.perm x0) := Laws.Places.of_wf _
theorem Laws.Places.movi (x0 : VOp) : Laws.Places.Statement (.movi x0) := Laws.Places.of_wf _
theorem Laws.Places.packbf (x0 : VOp) : Laws.Places.Statement (.packbf x0) := Laws.Places.of_wf _
theorem Laws.Places.unpkbf (x0 : VOp) : Laws.Places.Statement (.unpkbf x0) := Laws.Places.of_wf _
theorem Laws.Places.packh (x0 : VOp) : Laws.Places.Statement (.packh x0) := Laws.Places.of_wf _
theorem Laws.Places.unpkh (x0 : VOp) : Laws.Places.Statement (.unpkh x0) := Laws.Places.of_wf _
theorem Laws.Places.cvtmx (x0 : VOp) : Laws.Places.Statement (.cvtmx x0) := Laws.Places.of_wf _
theorem Laws.Places.scins (x0 : VOp) : Laws.Places.Statement (.scins x0) := Laws.Places.of_wf _
theorem Laws.Places.iadd (x0 : VOp) : Laws.Places.Statement (.iadd x0) := Laws.Places.of_wf _
theorem Laws.Places.isub (x0 : VOp) : Laws.Places.Statement (.isub x0) := Laws.Places.of_wf _
theorem Laws.Places.imul (x0 : VOp) : Laws.Places.Statement (.imul x0) := Laws.Places.of_wf _
theorem Laws.Places.shl (x0 : VOp) : Laws.Places.Statement (.shl x0) := Laws.Places.of_wf _
theorem Laws.Places.shra (x0 : VOp) : Laws.Places.Statement (.shra x0) := Laws.Places.of_wf _
theorem Laws.Places.shrl (x0 : VOp) : Laws.Places.Statement (.shrl x0) := Laws.Places.of_wf _
theorem Laws.Places.vand (x0 : VOp) : Laws.Places.Statement (.vand x0) := Laws.Places.of_wf _
theorem Laws.Places.vor (x0 : VOp) : Laws.Places.Statement (.vor x0) := Laws.Places.of_wf _
theorem Laws.Places.vxor (x0 : VOp) : Laws.Places.Statement (.vxor x0) := Laws.Places.of_wf _
theorem Laws.Places.imin (x0 : VOp) : Laws.Places.Statement (.imin x0) := Laws.Places.of_wf _
theorem Laws.Places.imax (x0 : VOp) : Laws.Places.Statement (.imax x0) := Laws.Places.of_wf _
theorem Laws.Places.icmplt (x0 : VOp) : Laws.Places.Statement (.icmplt x0) := Laws.Places.of_wf _
theorem Laws.Places.cvtif (x0 : VOp) : Laws.Places.Statement (.cvtif x0) := Laws.Places.of_wf _
theorem Laws.Places.cvtfi (x0 : VOp) : Laws.Places.Statement (.cvtfi x0) := Laws.Places.of_wf _
theorem Laws.Places.iota (x0 : VOp) : Laws.Places.Statement (.iota x0) := Laws.Places.of_wf _
theorem Laws.Places.dmaDoorbell (x0 : Init) (x1 : Nat) (x2 : Nat) (x3 : Nat) : Laws.Places.Statement (.dmaDoorbell x0 x1 x2 x3) := Laws.Places.of_wf _
theorem Laws.Places.copy (x0 : ChanRef) : Laws.Places.Statement (.copy x0) := Laws.Places.of_wf _
theorem Laws.Places.linear (x0 : ChanRef) : Laws.Places.Statement (.linear x0) := Laws.Places.of_wf _
theorem Laws.Places.fill (x0 : ChanRef) : Laws.Places.Statement (.fill x0) := Laws.Places.of_wf _
theorem Laws.Places.gather (x0 : ChanRef) : Laws.Places.Statement (.gather x0) := Laws.Places.of_wf _
theorem Laws.Places.scatter (x0 : ChanRef) : Laws.Places.Statement (.scatter x0) := Laws.Places.of_wf _
theorem Laws.Places.scatterAdd (x0 : ChanRef) : Laws.Places.Statement (.scatterAdd x0) := Laws.Places.of_wf _
theorem Laws.Places.dmaFlagOp (x0 : ChanRef) : Laws.Places.Statement (.dmaFlagOp x0) := Laws.Places.of_wf _
theorem Laws.Places.jump (x0 : ChanRef) : Laws.Places.Statement (.jump x0) := Laws.Places.of_wf _
theorem Laws.Places.pop (x0 : ChanRef) : Laws.Places.Statement (.pop x0) := Laws.Places.of_wf _
theorem Laws.Places.dmaNorespTimeout (x0 : ChanRef) (x1 : Nat) (x2 : Nat) (x3 : BitVec 64) : Laws.Places.Statement (.dmaNorespTimeout x0 x1 x2 x3) := Laws.Places.of_wf _
theorem Laws.Places.dmaPause (x0 : Init) (x1 : ChanRef) (x2 : Nat) (x3 : BitVec 64) : Laws.Places.Statement (.dmaPause x0 x1 x2 x3) := Laws.Places.of_wf _
theorem Laws.Places.dmaResume (x0 : Init) (x1 : ChanRef) : Laws.Places.Statement (.dmaResume x0 x1) := Laws.Places.of_wf _
theorem Laws.Places.dmaRetry (x0 : Init) (x1 : ChanRef) : Laws.Places.Statement (.dmaRetry x0 x1) := Laws.Places.of_wf _
theorem Laws.Places.dmaSkip (x0 : Init) (x1 : ChanRef) : Laws.Places.Statement (.dmaSkip x0 x1) := Laws.Places.of_wf _
theorem Laws.Places.dmaRequestMismatch (x0 : ChanRef) (x1 : Nat) (x2 : BitVec 64) : Laws.Places.Statement (.dmaRequestMismatch x0 x1 x2) := Laws.Places.of_wf _
theorem Laws.Places.hungUnit (x0 : Nat) (x1 : Nat) : Laws.Places.Statement (.hungUnit x0 x1) := Laws.Places.of_wf _
theorem Laws.Places.relayTask (x0 : Nat) : Laws.Places.Statement (.relayTask x0) := Laws.Places.of_wf _
theorem Laws.Places.relayPathTake (x0 : Nat) (x1 : Bool) : Laws.Places.Statement (.relayPathTake x0 x1) := Laws.Places.of_wf _
theorem Laws.Places.relayData (x0 : Nat) (x1 : Bool) : Laws.Places.Statement (.relayData x0 x1) := Laws.Places.of_wf _
theorem Laws.Places.relayFlagEntry (x0 : Nat) (x1 : Bool) : Laws.Places.Statement (.relayFlagEntry x0 x1) := Laws.Places.of_wf _
theorem Laws.Places.relayCommit (x0 : Nat) (x1 : Bool) : Laws.Places.Statement (.relayCommit x0 x1) := Laws.Places.of_wf _
theorem Laws.Places.relayResync (x0 : Nat) (x1 : Bool) : Laws.Places.Statement (.relayResync x0 x1) := Laws.Places.of_wf _
theorem Laws.Places.relayAck (x0 : Nat) : Laws.Places.Statement (.relayAck x0) := Laws.Places.of_wf _
theorem Laws.Places.forwardRetry (x0 : Nat) (x1 : Bool) : Laws.Places.Statement (.forwardRetry x0 x1) := Laws.Places.of_wf _
theorem Laws.Places.flitIdle (x0 : Nat) (x1 : FlitHdr) : Laws.Places.Statement (.flitIdle x0 x1) := Laws.Places.of_wf _
theorem Laws.Places.flitHead (x0 : Nat) (x1 : FlitHdr) (x2 : List Byte) : Laws.Places.Statement (.flitHead x0 x1 x2) := Laws.Places.of_wf _
theorem Laws.Places.flitData (x0 : Nat) (x1 : FlitHdr) (x2 : List Byte) (x3 : BitVec 16) : Laws.Places.Statement (.flitData x0 x1 x2 x3) := Laws.Places.of_wf _
theorem Laws.Places.flitDelivered (x0 : Nat) (x1 : FlitHdr) : Laws.Places.Statement (.flitDelivered x0 x1) := Laws.Places.of_wf _
theorem Laws.Places.flitWatch (x0 : Nat) (x1 : FlitHdr) (x2 : Nat) (x3 : Nat) (x4 : Word) : Laws.Places.Statement (.flitWatch x0 x1 x2 x3 x4) := Laws.Places.of_wf _
theorem Laws.Places.flitMet (x0 : Nat) (x1 : FlitHdr) : Laws.Places.Statement (.flitMet x0 x1) := Laws.Places.of_wf _
theorem Laws.Places.flitNak (x0 : Nat) (x1 : FlitHdr) : Laws.Places.Statement (.flitNak x0 x1) := Laws.Places.of_wf _
theorem Laws.Places.flitIdent (x0 : Nat) (x1 : FlitHdr) (x2 : IdentInfo) : Laws.Places.Statement (.flitIdent x0 x1 x2) := Laws.Places.of_wf _
theorem Laws.Places.flitCensus (x0 : Nat) (x1 : FlitHdr) (x2 : List CensusEntry) (x3 : Bool) : Laws.Places.Statement (.flitCensus x0 x1 x2 x3) := Laws.Places.of_wf _
theorem Laws.Places.flitBreak (x0 : Nat) (x1 : FlitHdr) (x2 : Word) : Laws.Places.Statement (.flitBreak x0 x1 x2) := Laws.Places.of_wf _
theorem Laws.Places.ringBreak : Laws.Places.Statement .ringBreak := Laws.Places.of_wf _
theorem Laws.Places.relayLaneFail (x0 : Nat) (x1 : Nat) : Laws.Places.Statement (.relayLaneFail x0 x1) := Laws.Places.of_wf _
theorem Laws.Places.relayPortSilent (x0 : Nat) : Laws.Places.Statement (.relayPortSilent x0) := Laws.Places.of_wf _
theorem Laws.Places.relayPortTrainTimeout (x0 : Nat) : Laws.Places.Statement (.relayPortTrainTimeout x0) := Laws.Places.of_wf _
theorem Laws.Places.dramRead (x0 : Nat) (x1 : Nat) (x2 : List Ecc) : Laws.Places.Statement (.dramRead x0 x1 x2) := Laws.Places.of_wf _
theorem Laws.Places.dramWrite (x0 : Nat) (x1 : Nat) (x2 : List Byte) (x3 : Bool) : Laws.Places.Statement (.dramWrite x0 x1 x2 x3) := Laws.Places.of_wf _
theorem Laws.Places.dramMerge (x0 : Nat) (x1 : Nat) (x2 : MergeOp) : Laws.Places.Statement (.dramMerge x0 x1 x2) := Laws.Places.of_wf _
theorem Laws.Places.dramPatrol (x0 : Nat) (x1 : Nat) (x2 : List Ecc) : Laws.Places.Statement (.dramPatrol x0 x1 x2) := Laws.Places.of_wf _
theorem Laws.Places.dramRetire (x0 : Nat) (x1 : Nat) : Laws.Places.Statement (.dramRetire x0 x1) := Laws.Places.of_wf _
theorem Laws.Places.dramRefresh (x0 : Nat) (x1 : Nat) : Laws.Places.Statement (.dramRefresh x0 x1) := Laws.Places.of_wf _
theorem Laws.Places.dramTempRead (x0 : Nat) (x1 : Nat) (x2 : BitVec 8) : Laws.Places.Statement (.dramTempRead x0 x1 x2) := Laws.Places.of_wf _
theorem Laws.Places.calibrationDue (x0 : Nat) (x1 : Nat) : Laws.Places.Statement (.calibrationDue x0 x1) := Laws.Places.of_wf _
theorem Laws.Places.quietWindowOpen (x0 : Nat) (x1 : Nat) (x2 : Nat) (x3 : Bool) : Laws.Places.Statement (.quietWindowOpen x0 x1 x2 x3) := Laws.Places.of_wf _
theorem Laws.Places.calibrationForced (x0 : Nat) (x1 : Nat) (x2 : Nat) (x3 : Bool) : Laws.Places.Statement (.calibrationForced x0 x1 x2 x3) := Laws.Places.of_wf _
theorem Laws.Places.selfRefreshEnter (x0 : Nat) (x1 : Nat) : Laws.Places.Statement (.selfRefreshEnter x0 x1) := Laws.Places.of_wf _
theorem Laws.Places.selfRefreshExit (x0 : Nat) (x1 : Nat) (x2 : Bool) : Laws.Places.Statement (.selfRefreshExit x0 x1 x2) := Laws.Places.of_wf _
theorem Laws.Places.hostPortLink (x0 : Nat) (x1 : Bool) : Laws.Places.Statement (.hostPortLink x0 x1) := Laws.Places.of_wf _
theorem Laws.Places.gateCycleStart (x0 : Nat) : Laws.Places.Statement (.gateCycleStart x0) := Laws.Places.of_wf _
theorem Laws.Places.outputAccept (x0 : Nat) (x1 : Nat) (x2 : Word) (x3 : List Byte) (x4 : Bool) : Laws.Places.Statement (.outputAccept x0 x1 x2 x3 x4) := Laws.Places.of_wf _
theorem Laws.Places.fragmentSend (x0 : Nat) : Laws.Places.Statement (.fragmentSend x0) := Laws.Places.of_wf _
theorem Laws.Places.gptpSync (x0 : Nat) (x1 : Int) : Laws.Places.Statement (.gptpSync x0 x1) := Laws.Places.of_wf _
theorem Laws.Places.syncTimeout : Laws.Places.Statement .syncTimeout := Laws.Places.of_wf _
theorem Laws.Places.ingressFrame (x0 : Nat) (x1 : IngFrame) : Laws.Places.Statement (.ingressFrame x0 x1) := Laws.Places.of_wf _
theorem Laws.Places.reassemblyTimeout (x0 : Nat) : Laws.Places.Statement (.reassemblyTimeout x0) := Laws.Places.of_wf _
theorem Laws.Places.ingressHoldRetry (x0 : Nat) (x1 : Nat) : Laws.Places.Statement (.ingressHoldRetry x0 x1) := Laws.Places.of_wf _
theorem Laws.Places.cbReset (x0 : Nat) : Laws.Places.Statement (.cbReset x0) := Laws.Places.of_wf _
theorem Laws.Places.modeRequest (x0 : Nat) (x1 : List Byte) : Laws.Places.Statement (.modeRequest x0 x1) := Laws.Places.of_wf _
theorem Laws.Places.tsnWallLoRead (x0 : Init) : Laws.Places.Statement (.tsnWallLoRead x0) := Laws.Places.of_wf _
theorem Laws.Places.tsnTimeRead (x0 : Init) : Laws.Places.Statement (.tsnTimeRead x0) := Laws.Places.of_wf _
theorem Laws.Places.doubtLatch (x0 : DoubtCause) : Laws.Places.Statement (.doubtLatch x0) := Laws.Places.of_wf _
theorem Laws.Places.streamDeadline (x0 : Nat) : Laws.Places.Statement (.streamDeadline x0) := Laws.Places.of_wf _
theorem Laws.Places.cosyMessage (x0 : CosyMsg) : Laws.Places.Statement (.cosyMessage x0) := Laws.Places.of_wf _
theorem Laws.Places.diversityVerdict (x0 : Nat) (x1 : Word) : Laws.Places.Statement (.diversityVerdict x0 x1) := Laws.Places.of_wf _
theorem Laws.Places.hubLockstepFail : Laws.Places.Statement .hubLockstepFail := Laws.Places.of_wf _
theorem Laws.Places.rotationStep (x0 : Nat) (x1 : Nat) : Laws.Places.Statement (.rotationStep x0 x1) := Laws.Places.of_wf _
theorem Laws.Places.sliceDone (x0 : Nat) (x1 : Nat) (x2 : SliceResult) : Laws.Places.Statement (.sliceDone x0 x1 x2) := Laws.Places.of_wf _
theorem Laws.Places.segmentStart (x0 : Nat) (x1 : Nat) : Laws.Places.Statement (.segmentStart x0 x1) := Laws.Places.of_wf _
theorem Laws.Places.segmentDone (x0 : Nat) (x1 : Nat) (x2 : SliceResult) : Laws.Places.Statement (.segmentDone x0 x1 x2) := Laws.Places.of_wf _
theorem Laws.Places.coverageExpiry (x0 : Nat) (x1 : Nat) : Laws.Places.Statement (.coverageExpiry x0 x1) := Laws.Places.of_wf _
theorem Laws.Places.suspectClear (x0 : Nat) (x1 : Nat) : Laws.Places.Statement (.suspectClear x0 x1) := Laws.Places.of_wf _
theorem Laws.Places.rowRepair (x0 : Nat) : Laws.Places.Statement (.rowRepair x0) := Laws.Places.of_wf _
theorem Laws.Places.repairRecordWrite : Laws.Places.Statement .repairRecordWrite := Laws.Places.of_wf _
theorem Laws.Places.checkerTest (x0 : Nat) (x1 : CheckerAt) (x2 : Bool) : Laws.Places.Statement (.checkerTest x0 x1 x2) := Laws.Places.of_wf _
theorem Laws.Places.eventArrive (x0 : Event) : Laws.Places.Statement (.eventArrive x0) := Laws.Places.of_wf _
theorem Laws.Places.accumulatorClose (x0 : BitVec 16) : Laws.Places.Statement (.accumulatorClose x0) := Laws.Places.of_wf _
theorem Laws.Places.evrRaiseCode (x0 : Init) (x1 : Bool) (x2 : BitVec 16) : Laws.Places.Statement (.evrRaiseCode x0 x1 x2) := Laws.Places.of_wf _
theorem Laws.Places.evrFreezeSet (x0 : Init) : Laws.Places.Statement (.evrFreezeSet x0) := Laws.Places.of_wf _
theorem Laws.Places.evrFreezeClear (x0 : Init) : Laws.Places.Statement (.evrFreezeClear x0) := Laws.Places.of_wf _
theorem Laws.Places.evrFreezeExpire : Laws.Places.Statement .evrFreezeExpire := Laws.Places.of_wf _
theorem Laws.Places.logPersist (x0 : Bool) : Laws.Places.Statement (.logPersist x0) := Laws.Places.of_wf _
theorem Laws.Places.openSession (x0 : Nat) (x1 : Hash) (x2 : Hash) : Laws.Places.Statement (.openSession x0 x1 x2) := Laws.Places.of_wf _
theorem Laws.Places.prove (x0 : List Byte) : Laws.Places.Statement (.prove x0) := Laws.Places.of_wf _
theorem Laws.Places.close : Laws.Places.Statement .close := Laws.Places.of_wf _
theorem Laws.Places.sessionTimeout : Laws.Places.Statement .sessionTimeout := Laws.Places.of_wf _
theorem Laws.Places.authLockoutEnd : Laws.Places.Statement .authLockoutEnd := Laws.Places.of_wf _
theorem Laws.Places.attest (x0 : Hash) : Laws.Places.Statement (.attest x0) := Laws.Places.of_wf _
theorem Laws.Places.attestSigned : Laws.Places.Statement .attestSigned := Laws.Places.of_wf _
theorem Laws.Places.regRead (x0 : Nat) (x1 : Nat) : Laws.Places.Statement (.regRead x0 x1) := Laws.Places.of_wf _
theorem Laws.Places.regWrite (x0 : Nat) (x1 : List Word) : Laws.Places.Statement (.regWrite x0 x1) := Laws.Places.of_wf _
theorem Laws.Places.logRead (x0 : Nat) (x1 : Nat) : Laws.Places.Statement (.logRead x0 x1) := Laws.Places.of_wf _
theorem Laws.Places.cakSet (x0 : List Byte) : Laws.Places.Statement (.cakSet x0) := Laws.Places.of_wf _
theorem Laws.Places.provision (x0 : Bool) : Laws.Places.Statement (.provision x0) := Laws.Places.of_wf _
theorem Laws.Places.unlock (x0 : List Byte) (x1 : List Byte) : Laws.Places.Statement (.unlock x0 x1) := Laws.Places.of_wf _
theorem Laws.Places.loaderWrite (x0 : Nat) (x1 : List Byte) : Laws.Places.Statement (.loaderWrite x0 x1) := Laws.Places.of_wf _
theorem Laws.Places.scrap : Laws.Places.Statement .scrap := Laws.Places.of_wf _
theorem Laws.Places.otpReread (x0 : Nat) (x1 : Bool) : Laws.Places.Statement (.otpReread x0 x1) := Laws.Places.of_wf _
theorem Laws.Places.securityKat (x0 : Nat) (x1 : Bool) : Laws.Places.Statement (.securityKat x0 x1) := Laws.Places.of_wf _
theorem Laws.Places.trngSample (x0 : Bool) : Laws.Places.Statement (.trngSample x0) := Laws.Places.of_wf _
theorem Laws.Places.bladeContact : Laws.Places.Statement .bladeContact := Laws.Places.of_wf _
theorem Laws.Places.inrushStart : Laws.Places.Statement .inrushStart := Laws.Places.of_wf _
theorem Laws.Places.removalRequest : Laws.Places.Statement .removalRequest := Laws.Places.of_wf _
theorem Laws.Places.inputOutOfRange (x0 : Bool) (x1 : Nat) : Laws.Places.Statement (.inputOutOfRange x0 x1) := Laws.Places.of_wf _
theorem Laws.Places.lowInputTick (x0 : Nat) : Laws.Places.Statement (.lowInputTick x0) := Laws.Places.of_wf _
theorem Laws.Places.powerWindow (x0 : Nat) : Laws.Places.Statement (.powerWindow x0) := Laws.Places.of_wf _
theorem Laws.Places.phaseFail (x0 : Nat) (x1 : Nat) : Laws.Places.Statement (.phaseFail x0 x1) := Laws.Places.of_wf _
theorem Laws.Places.domainSwitch (x0 : Nat) (x1 : Nat) (x2 : Bool) : Laws.Places.Statement (.domainSwitch x0 x1 x2) := Laws.Places.of_wf _
theorem Laws.Places.clockCompare (x0 : Bool) (x1 : Bool) (x2 : Bool) (x3 : Bool) : Laws.Places.Statement (.clockCompare x0 x1 x2 x3) := Laws.Places.of_wf _
theorem Laws.Places.holdoverEnd : Laws.Places.Statement .holdoverEnd := Laws.Places.of_wf _
theorem Laws.Places.monitorTrip (x0 : Nat) (x1 : MonitorKind) (x2 : Nat) (x3 : Int) : Laws.Places.Statement (.monitorTrip x0 x1 x2 x3) := Laws.Places.of_wf _
theorem Laws.Places.monitorTest (x0 : Nat) (x1 : MonitorKind) (x2 : Bool) : Laws.Places.Statement (.monitorTest x0 x1 x2) := Laws.Places.of_wf _
theorem Laws.Places.thermalCut (x0 : Nat) : Laws.Places.Statement (.thermalCut x0) := Laws.Places.of_wf _
theorem Laws.Places.modResetN (x0 : Bool) : Laws.Places.Statement (.modResetN x0) := Laws.Places.of_wf _
theorem Laws.Places.presentNMake : Laws.Places.Statement .presentNMake := Laws.Places.of_wf _
theorem Laws.Places.freezePin : Laws.Places.Statement .freezePin := Laws.Places.of_wf _
theorem Laws.Places.frzCtlFreeze (x0 : Init) : Laws.Places.Statement (.frzCtlFreeze x0) := Laws.Places.of_wf _
theorem Laws.Places.freeze : Laws.Places.Statement .freeze := Laws.Places.of_wf _
theorem Laws.Places.clockStop : Laws.Places.Statement .clockStop := Laws.Places.of_wf _
theorem Laws.Places.readState : Laws.Places.Statement .readState := Laws.Places.of_wf _
theorem Laws.Places.readDram (x0 : Nat) (x1 : Nat) (x2 : Nat) : Laws.Places.Statement (.readDram x0 x1 x2) := Laws.Places.of_wf _
theorem Laws.Places.resume : Laws.Places.Statement .resume := Laws.Places.of_wf _
theorem Laws.Places.freezeStatus : Laws.Places.Statement .freezeStatus := Laws.Places.of_wf _
theorem Laws.Places.registerRead (x0 : Init) (x1 : Nat) (x2 : Nat) : Laws.Places.Statement (.registerRead x0 x1 x2) := Laws.Places.of_wf _
theorem Laws.Places.censusTimeout : Laws.Places.Statement .censusTimeout := Laws.Places.of_wf _
theorem Laws.Places.cosyFrame (x0 : List CosyOut) (x1 : Nat) : Laws.Places.Statement (.cosyFrame x0 x1) := Laws.Places.of_wf _
theorem Laws.Places.aphyLinkLost (x0 : Nat) (x1 : Bool) : Laws.Places.Statement (.aphyLinkLost x0 x1) := Laws.Places.of_wf _
theorem Laws.Places.tapAccess (x0 : TapInstr) : Laws.Places.Statement (.tapAccess x0) := Laws.Places.of_wf _
theorem Laws.Places.rootPllLock : Laws.Places.Statement .rootPllLock := Laws.Places.of_wf _
theorem Laws.Places.loaderRunning : Laws.Places.Statement .loaderRunning := Laws.Places.of_wf _

end Sys2Proof
end

