-- ==== Sys2Proof/Tests/Slice0.lean ====
section
/-! SUPPORT. The package's own tests: ill-formed commands that WellFormed refuses, a few values that the manual works out, and for every
statement with hypotheses a concrete state and operands that meet each of its clauses' hypotheses together. -/

namespace Sys2Proof.Tests

open Sys2Proof Sys2Proof.Machine

set_option Elab.async false

/-! ### Ill-formed commands (one for each kind of place, R2–R6, R25, R27) -/

theorem test_wf_die : (Instr.dieRestart 4).wf = false ∧ (Instr.dieRestart 3).wf = true := by decide
theorem test_wf_anyDie : (Instr.shadowRefresh 5).wf = false ∧ (Instr.shadowRefresh 6).wf = true := by decide
theorem test_wf_core : (Instr.remoteAccess 0 72).wf = false ∧ (Instr.remoteAccess 3 71).wf = true := by decide
theorem test_wf_unit : (Instr.hungUnit 0 90).wf = false ∧ (Instr.hungUnit 0 89).wf = true := by decide
theorem test_wf_group : (Instr.rotationStep 0 13).wf = false ∧ (Instr.rotationStep 0 12).wf = true := by decide
theorem test_wf_engine : (Instr.steSgm 0 3).wf = false ∧ (Instr.steSgm 0 2).wf = true := by decide
theorem test_wf_channel : (Instr.pop ⟨0, 8, 0⟩).wf = false ∧ (Instr.pop ⟨0, 7, 64⟩).wf = false := by decide
theorem test_wf_controller : (Instr.dramRetire 0 8).wf = false ∧ (Instr.dramRetire 0 7).wf = true := by decide
theorem test_wf_bank : (Instr.cmnPatrol 0 64 []).wf = false := by decide
theorem test_wf_flag : (Instr.flagAdd .ingress 0 4096 1 false).wf = false := by decide
theorem test_wf_slot : (Instr.completionRecordWrite 0 2048).wf = false := by decide
theorem test_wf_queue : (Instr.queueRetry 0 65536).wf = false := by decide
theorem test_wf_node : (Instr.winClose 0 65536 0).wf = false := by decide
theorem test_wf_camLink : (Instr.aphyLinkLost 16 true).wf = false := by decide
theorem test_wf_ctx : (Instr.cameraTrigger 64).wf = false := by decide
theorem test_wf_pipePos : (Instr.pipeHandover 4).wf = false := by decide
theorem test_wf_hostPort : (Instr.gateCycleStart 3).wf = false := by decide
theorem test_wf_ringPort : (Instr.relayPortSilent 4).wf = false := by decide
theorem test_wf_vport : (Instr.vectorLoad ⟨0, 0, 0⟩ 2).wf = false := by decide
theorem test_wf_stream : (Instr.fragmentSend 64).wf = false := by decide
theorem test_wf_inStream : (Instr.cbReset 32).wf = false := by decide
theorem test_wf_pair : (Instr.diversityVerdict 32 0).wf = false := by decide
theorem test_wf_address : (Instr.cosyMailboxRead (2 ^ 40)).wf = false := by decide
theorem test_wf_init : (Instr.bootReqWarm (.ctrl 0 4)).wf = false ∧ (Instr.bootReqWarm (.ctrl 4 0)).wf = false := by decide
theorem test_wf_flagSrc : (Instr.flagSet (.dma 4) 0 0 1 false).wf = false := by decide
theorem test_wf_dieLink : (Instr.linkRetrain (.ring 4) true).wf = false ∧ (Instr.linkRetrain .cosy true).wf = true := by decide

/-! ### Values that the manual works out -/

/-- R258: a wait for 0xFFFF_FFFF is met by 0, which lies one past it, and not by 0x7FFF_FFFE. -/
theorem test_wait_wraps : waitMet 0 0xFFFFFFFF = true ∧ waitMet 0x7FFFFFFF 0xFFFFFFFF = false := by decide
/-- R321, Table NUM-1: FP32 adds 1 and 2. -/
theorem test_fp32_add : f32add 0x3F800000 0x40000000 = 0x40400000 := by decide +kernel
/-- R322: infinity minus infinity is the canonical NaN. -/
theorem test_fp32_nan : f32sub 0x7F800000 0x7F800000 = 0x7FC00000 := by decide +kernel
/-- Table ORG-9 and ORG-10: die 2 of an ILK2-M4 says so. -/
theorem test_id_regs : State.reset.getF 2 .idDie_die = 2 ∧ State.reset.getF 2 .idModule_cdies = 4 := by decide +kernel
/-- R26: a read of the Cosy mailbox returns zero. -/
theorem test_mailbox_reads_zero : (match exec (.cosyMailboxRead 0xC400000010) State.reset with
    | .next t => t.out.reads.getLast?
    | _ => none) = some 0 := by decide +kernel
/-- R562: MOD_RESET_N low is seen by the next state. -/
theorem test_reset_pin : (match exec (.modResetN false) State.reset with
    | .next t => t.pwr.resetN
    | _ => true) = false := by decide +kernel
/-- Table ORG-6: an address between the commons and the scratchpads is reserved. -/
theorem test_reserved_region : State.reset.region 0x8002000000 = .reserved := by decide +kernel

/-! ### The states that the witnesses stand on -/

/-- The cells of bytes from an address on. -/
def cells (a : Nat) : List Byte → List Host.Cell
  | [] => []
  | b :: l => if b = 0 then cells (a + 1) l else (a, b) :: cells (a + 1) l

/-- A module that runs: power good, the start done, the first frame started, every C-die up, and hours on the clock. -/
def up : State := { State.reset with
  deviceTime := 1000000000000
  boot := { Boot.fresh false with step := 9, framed := true, tested := [0, 1, 2, 3] }
  dies := List.replicate 4 { Die.fresh with inReset := false }
  root := { State.reset.root with running := true }
  sec := { State.reset.sec with lifecycle := 1 }
  pwr := { State.reset.pwr with contact := true, inrush := true, good := true } }

/-- The module out of service, where debugging, restarts on request and freezes are allowed. -/
def idleUp : State := { up with saf := { up.saf with outOfService := true } }

/-- A session of a role by its number, on a state. -/
def sess (role : Nat) : Session := ⟨role, role, 0, 0, none, 0, none, false⟩

def withSess (s : State) (role : Nat) : State := { s with sec := { s.sec with session := some (sess role) } }

/-- Change die 0. -/
def onDie (s : State) (f : Die → Die) : State := s.modDie 0 f

/-- The register at a place of a die, and of the hub. -/
def regAtDie (d p : Nat) : RegSpec := ((regSpecAt d p).map (·.1)).getD ⟨0, 0, 0, 0, .hub, none, []⟩

def regOf (p : Nat) : RegSpec := regAtDie 6 p

def atStep (n : Nat) : State := { State.reset with boot := { State.reset.boot with step := n } }

/-- Every C-die has loaded the sections as released. -/
def loadAll (s : State) : State := { s with dies := s.dies.map (fun (x : Die) => { x with loaded := s.caddy }) }

def shaEmpty : List Byte := Hash.bytes (sha256 [])

def magics : List Host.Cell := ([(secGRAPH, 0x47524146), (secISP, 0x49535030), (secMESH, 0x4D455348), (secSCHED, 0x53434844),
  (secSAFETY, 0x53414654), (secCOSYLINK, 0x4353594C), (secPOWER, 0x50575230)] : List (Nat × Nat)).foldl (fun m p => mapPut m (cadKey p.1 0) (toLE 4 p.2))
  (mapPut [] (cadKey secTSN 0) (toBE 4 0x54534E30))

def called (r : Recovery) : State := { up with saf := { up.saf with doubts := [⟨⟨dREHASH, 1, 0, .plain, 3⟩, 3, r⟩] } }

def restarting (warm ready : Bool) : State := up.modDie 1 (fun x => { x with restart := some ⟨0, warm, ready⟩ })

def shaCaddy : Map Byte :=
  (List.range 11).flatMap (fun i => cells (cadKey 0 (0x120 + 64 * i)) (Hash.bytes 38772261170797515502142737251560910253885555854579348417967781179871348437219))

def challenged (role : Nat) : State := { up with sec := { up.sec with ikey := sha256 (Hash.bytes 0), session := some { sess 0 with asked := role, challenge := some 999000000000 } } }

def zeros (n : Nat) : List Byte := List.replicate n 0

def made (k : Hash) : State := { atStep 5 with pwr := up.pwr, boot := { (atStep 5).boot with holding := true }, sec := { State.reset.sec with ikey := k, session := some (sess 1) } }

def unlocked (n : Nat) : State := { idleUp with sec := { up.sec with unlocked := true, scope := n } }

def quiet : State := { idleUp with frz := { idleUp.frz with requested := true }, dies := idleUp.dies.map (fun x => { x with mems := (List.range 8).map (fun k => (k, { MemCtl.fresh with selfRefresh := true })) }) }

def frozen : State := { quiet with frz := ⟨true, true, 0, 2, true, true, false, []⟩, sec := { up.sec with session := some (sess 1) } }

def inst0 : Inst := ⟨5, 7, 0, 0, 0, false, false, 0, false, false, false, false, none, 1, false, false, false, false, .done, false⟩

def withInst (i : Inst) : State := onDie up (fun x => { x with seq := { x.seq with insts := [i] } })

def start (dt : Nat) : DieFrame := ⟨⟨7, dt, 0, 0, false, 0, [], []⟩, 0, false⟩

def withStart (l m : List DieFrame) : State := onDie up (fun x => { x with seq := { x.seq with starts := l, heldStarts := m } })

def note0 : Notice := ⟨1, 0, ⟨5, 7, false, false, 0⟩⟩

def noted : State := { withInst inst0 with notices := [note0] }

def cut (s : State) : State := s.modDie 0 (fun x => { x with inReset := true })

def kindIngress : List Byte := toLE 4 0x3005

def withNode (s : State) (l : List Byte) : State := loadAll { s with caddy := mapPut (mapPut s.caddy (cadKey secGRAPH 0x210) (toLE 8 0x8000)) (cadKey secGRAPH (0x8000 + 64 * 5)) l }

def fenced : State := onDie up (fun x => { x with seq := { x.seq with insts := [inst0], frames := [start 0], fence := true } })

def desc0 : TaskDesc := { TaskDesc.ofBytes (List.replicate 32 0) with node := 5, frame := 7, kind := 8 }

def held0 : HeldTask := ⟨desc0, false, false, false⟩

def heldIn (h : HeldTask) : State := onDie up (fun x => { x with seq := { x.seq with heldTasks := [h] } })

def held1 : HeldTask := ⟨{ desc0 with waitEn := true, waitDie := 1 }, false, false, false⟩

def pushable : State := loadAll { up with caddy := mapPut up.caddy (cadKey secGRAPH 0x2202) (toLE 2 4 ++ List.replicate 12 0 ++ toLE 8 0x3000) }

def slot0 : Slot := ⟨desc0, .ready, false, 0x2F8, 0, 86, 0, false, 0, false, false, 0, 0, 0, false, false, false, false, 0, 0⟩

def ready0 : State := (((up.modSeq 0 (fun q => { q with slots := [(0, slot0)] })).modUnit 0 86 (fun x => { x with position := some (((List.range 100).find? (fun p => (candidateLists p).any (fun c => c.1 == 0x300))).getD 0) })).setReadyList 0 0x300 [0])

def runs0 (y : Slot) : State := (up.modSeq 0 (fun q => { q with slots := [(0, y)], insts := [inst0] })).modUnit 0 86 (fun x => { x with running := some 0 })

def clean0 : TaskEnd := ⟨.clean, 3, false⟩

def run1 : Slot := { slot0 with state := .running }

def run2 : Slot := { run1 with stopped := true }

def owed0 : Owed := { (runs0 run2).endRecord 0 0 86 run2 .done 0 with cq := 0x400, slot := some 0 }

def owes (l : List Inst) : State := up.modSeq 0 (fun q => { q with slots := [(0, run2)], insts := l, owed := [owed0] })

def inst6 : Inst := { inst0 with frame := 6 }

def cqs : State := (loadAll { up with caddy := mapPut up.caddy (cadKey secGRAPH 0x2200) [0,0,0,0,0,0,1,0,0,0,0,0,0,0,0,0,0,0x30,0,0,0,0,0,0] }).setF 0 .dspQSel_queue 0x400

def toCancel : State := (withInst inst0).setF 0 .dspCancelFrame_frame 7

def swSlot : State := up.modSeq 0 (fun q => { q with slots := [(0, { slot0 with sw := true, list := 0x300 })], lists := [(0x300, [0])] })

def addT : Travel := ⟨.add, 1, 0, 0, 3, 5, false⟩

def flagBad : State := onDie up (fun x => { x with flagHeld := [3] })

def watch0 (k : TravelKind) (v : Word) : Travel := ⟨k, 1, 0, 2, 3, v, false⟩

def trav (w : Travel) : State := { up with travel := [w] }

def waits : State := (trav ⟨.met, 1, 0, 2, 3, 5, false⟩).modSeq 0 (fun q => { q with slots := [(2, { slot0 with state := .waiting, desc := { desc0 with waitEn := true, waitDie := 1, waitFlag := 3, waitValue := 5 } })] })

def watchLost : State := ((((trav (watch0 .watch 1)).setLink (.ring 0) .lost).setLink (.ring 3) .lost).setLink (.ring 1) .lost).setLink (.hub 1) .lost

def item0 : RemoteItem := ⟨0x100, none, 0, 0⟩

def item1 : RemoteItem := ⟨0x110, some [1, 2, 3], 15, 0⟩

def queued (r : RemoteItem) : State := up.modCore 0 3 (fun x => { x with remote := [r] })

def accepted : State := up.modCore 0 3 (fun x => { x with acceptDt := some up.deviceTime })

def downDie : State := onDie up (fun x => { x with restart := some ⟨0, false, false⟩ })

def lastEntry : State := up.modCore 0 3 (fun x => { x with phase := 1 })

def lockedS : State := { up with locked := [(0x1000, 0x2000)] }

def ctl0 (f : MemCtl → MemCtl) : State := up.modCtl 0 2 f

def quietCtl : State := { ctl0 (fun c => { c with due := true }) with caddy := mapPut [] (cadKey secPOWER 0x100) (toLE 2 1 ++ toLE 2 100), root := { up.root with startDt := up.deviceTime - 2000 } }

def rotating : State := (((up.modUnit 0 64 (fun u => { u with position := none })).modUnit 0 0 (fun u => { u with position := some 0 }))).modDie 0 (fun x => { x with rotation := [] })

def unitS (u : Nat) (f : UnitState → UnitState) : State := up.modUnit 0 u f

def passR : SliceResult := ⟨true, 0, 0, 0, 0, 0⟩

def failR : SliceResult := ⟨false, 0, 0, 0, 0, 0⟩

def ev0 : Event := ⟨0x0F10, 1, 6, 0, 50, 3⟩

def acc0 : Accum := ⟨0x0F10, 0, 100, 0, 0, 0, 0, 0, 0, 0, 0, 0, 0, List.replicate 32 0, false, 0, 0, false⟩

def lostHub : State := up.setLink (.hub 1) .lost

def recS (f : Recorder → Recorder) : State := { up with recorder := f up.recorder }

def recOf (s : State) : RecEntry := s.recEntry 0x0F10

def accS : State := recS (fun r => { r with accums := [acc0] })

def pyr : State := onDie up (fun x => { x with units := [(72, { UnitState.fresh with position := some 64 }), (73, { UnitState.fresh with position := some 65 })] })

def degr : State := { (onDie up (fun x => { x with units := [(72, { UnitState.fresh with position := some 64 }), (73, { UnitState.fresh with position := some 65 }), (74, { UnitState.fresh with retired := true })], seq := { x.seq with frames := [⟨⟨7, up.deviceTime - 2000, 0, 0, false, 0, [], []⟩, 0, false⟩] } })) with caddy := mapPut [] (cadKey secPOWER 0x110) (toLE 2 1 ++ toLE 2 2000) }

/-- A queue plan on dies 0 and 1: two DMA rings, a completion queue, a relay queue and an ingress ring of four entries each. -/
def entry16 (base n b params : Nat) : List Byte := toLE 5 base ++ toLE 1 n ++ toLE 2 b ++ toLE 8 params

def planOf (d : Nat) : List Byte := toLE 2 0 ++ toLE 2 8 ++ toLE 2 2 ++ toLE 2 1 ++ toLE 2 1 ++ toLE 2 1 ++ toLE 4 0 ++ toLE 8 (0x3000 + 0x100 * d)

def tableOf (d params : Nat) : List Byte :=
  entry16 (chipBase d + 0x1000) 2 6 0 ++ entry16 (chipBase d + 0x2000) 2 6 0 ++ entry16 (chipBase d + 0x3000) 2 4 0 ++
    entry16 (chipBase d + 0x4000) 2 6 params ++ entry16 (chipBase d + 0x5000) 2 8 0

def planned (params : Nat) : State := loadAll (({ up with
  caddy := [0, 1].foldl (fun (m : Map Byte) d => mapPut (mapPut m (cadKey secGRAPH (0x2200 + 64 * d)) (planOf d)) (cadKey secGRAPH (0x3000 + 0x100 * d)) (tableOf d params)) []
  links := up.links }).modPort 1 (fun x => { x with trained := true }))

def chan0 : ChanRef := ⟨0, 0, 0⟩

/-- A descriptor at the head of channel 0's ring. -/
def descOf (op flags flag val src dst aux len : Nat) : List Byte :=
  toLE 1 op ++ toLE 1 flags ++ toLE 2 flag ++ toLE 4 val ++ toLE 8 src ++ toLE 8 dst ++ toLE 8 aux ++ toLE 4 len ++ toLE 28 0

def withDesc (l : List Byte) : State := ((planned 0).putBytes (chipBase 0 + 0x1000) l).modDma chan0 (fun y => { y with pending := true })

def chanIn (st : ChState) : State := (planned 0).modDma chan0 (fun y => { y with state := st })

def lin : State := withDesc (descOf 2 1 0 0 0x1000 0x2000 0 96)

def linM : DescMoves := ((lin.withRead chan0).descMoves (lin.headBytes chan0)).getD ⟨[], none, 0, .none⟩

def farM : State := (withDesc (descOf 2 1 0 0 (chipBase 1 + 0x1000) 0x2000 0 96)).setLink (.hub 1) .lost

def lostM : State := (farM.setLink (.ring 0) .lost).setLink (.ring 1) .lost

def fl (flags die : Nat) : State := withDesc (descOf 7 flags (5 + die * 4096) 9 0 0 0 0)

def popS : State := withDesc (descOf 9 1 0 0 0 (chipBase 0 + 0x8000) 0x404 0)

def popF : State := popS.setRing 0 0x404 ⟨1, 0⟩

def popM : DescMoves := { moves := linearMoves (popF.head chan0).dst (2 ^ (popF.queue 0 0x404).log2b) (fun (k _ : Nat) => (some ((popF.queue 0 0x404).addr (popF.ringOf 0 0x404).cons + 64 * k), [])), add := none, oor := 0, index := .none }

def act : State := (withDesc (descOf 2 1 0 0 0x1000 0x2000 0 256)).modDma chan0 (fun y => { y with state := .active })

def actM : DescMoves := (act.descMoves (act.headBytes chan0)).getD ⟨[], none, 0, .none⟩

def relDesc : TaskDesc := { TaskDesc.ofBytes (List.replicate 32 0) with kind := 7, program := 0x1000 }

def relSlot : Slot := { Slot.of relDesc false 0 false with state := .running, unit := 85 }

def rentry (kind dir hops more queue src dst len arrive done mods epoch : Nat) : List Byte :=
  toLE 1 kind ++ toLE 1 dir ++ toLE 1 hops ++ toLE 1 more ++ toLE 2 queue ++ toLE 2 queue ++ toLE 8 src ++ toLE 8 dst ++ toLE 4 len ++ toLE 2 arrive ++ toLE 2 done ++ toLE 2 0 ++ toLE 1 mods ++ toLE 1 0 ++ toLE 16 0 ++ toLE 4 epoch ++ toLE 8 0

def ent0 : List Byte := rentry 0 0 1 0 0x403 (chipBase 0 + 0x8000) (chipBase 0 + 0x9000) 64 0 0x8004 1 0

def relS : State := (((planned 0).putBytes 0x1000 ent0).modSeq 0 (fun q => { q with slots := [(0, relSlot)] })).modUnit 0 85 (fun u => { u with running := some 0 })

def headS (mods : Nat) : State := { ((((planned 0).putBytes (chipBase 0 + 0x4000) (rentry 0 0 1 0 0x403 (chipBase 0 + 0x8000) (chipBase 0 + 0x9000) 64 0 0x8004 mods 0)).setRing 0 0x403 ⟨1, 0⟩).modRelay 0 (fun r => { r with marks := [(0x403, [false])] })) with ring := { up.ring with up := true } }

def hl : List Byte := (((headS 1).relayHeads 0 false).getD 0 (0, [], false)).2.1

def carry (l : List Byte) (params : Nat) : State := ((planned params).putBytes (chipBase 0 + 0x8000) [1, 2, 3]).modRelay 0 (fun r => { r with next := ⟨some l, 0⟩ })

def ackS (f : Option Nat) : State := up.modRelay 0 (fun r => { r with acks := [f] })

def heldS : State := (planned 0).modRelay 0 (fun r => { r with held := [(0, ent0)] })

def flagE (e : Nat) : List Byte := rentry 1 0 1 0 0x403 0 0 0 0x8007 0x8004 1 e

def comE (e : Nat) : List Byte := rentry 2 0 1 0 0x403 0 0 0 0 0x8004 1 e

def resE (e : Nat) : List Byte := rentry 3 0 1 0 0x403 (chipBase 0 + 0x8000) (chipBase 0 + 0x9000) 64 0 0x8004 1 e

def two : Nat := 0x100000000

def carryP (l : List Byte) : State := ((planned two).modRelay 0 (fun r => { r with prev := ⟨some l, 0⟩ }))

def hdr (last ok : Bool) : FlitHdr := ⟨0, 65535, 5, 0, 0, last, ok, 0⟩

def ringS (f : RingLink → RingLink) : State := { planned two with ring := f (planned two).ring }

def rx0 : RxEntry := ⟨5, ent0, []⟩

def hdr5 (last ok : Bool) : FlitHdr := { hdr last ok with tag := 5 }

def okCensus : List CensusEntry := [⟨0, 1, (planned two).getF 6 .idModule_part, (planned two).paramsId⟩, ⟨1, 2, (planned two).getF 6 .idModule_part, (planned two).paramsId⟩]

def pos1 : Nat := two + 1

def noWay (s : State) : State := (((s.setLink (.ring 0) .lost).setLink (.ring 3) .lost).setLink (.hub 0) .lost).setLink (.ring 1) .lost

/-- Place bytes in a released section. -/
def inSec (s : State) (kind off : Nat) (l : List Byte) : State := { s with caddy := mapPut s.caddy (cadKey kind off) l }

/-- Context 0: link 2, virtual channel 1, RAW8, 8 × 4 pixels in strips of 2 rows, to die 0, triggered, with one embedded line and golden entry 1. -/
def ctxBytes : List Byte := [1, 2, 1, 0x2A, 8, 0, 4, 0, 0, 0, 0, 0, 0, 2, 1, 0, 1, 4, 0, 2, 10, 0, 1, 1, 0, 0, 1, 1, 3, 0, 100, 0] ++ toLE 4 0 ++ toLE 4 0x1000

def cam : State := { inSec (inSec up secISP 0x300 (ctxBytes ++ List.replicate 24 0 ++ toLE 8 0x10000)) secISP 0x140 [1, 3, 0, 5] with
  ingress := { up.ingress with gear := [(2, 1)], trained := [2] } }

def cfrm (n : Nat) : SFrame := ⟨7, 100, 0, 0, n, [], 0, 0, 0, false, false, false, []⟩

def camCtx (f : Ctx → Ctx) : State := cam.modCtx 0 f

def inFrame (x : SFrame) : State := camCtx (fun c => { c with frames := [x], cur := some 7 })

def fs0 : FrameStart := ⟨7, 5, 0, 0, false, 0, [], []⟩

def row8 : List Byte := [1,2,3,4,5,6,7,8]

def line0 : Line := ⟨50, 0, 7, 0⟩

def inPipe : State := (inFrame (cfrm 1)).modPos 0 (fun p => { p with line := some line0 })

def goldIn (n : Nat) (b : Bool) : State := (inSec cam secGOLDEN 0 (toLE 2 8 ++ toLE 2 3)).modPos 0 (fun p => { p with golds := [⟨0, n, 7⟩], gold := b })

def done1 : SFrame := { cfrm 4 with done := 4 }

def strips3 (x : SFrame) : State := inSec (inFrame x) secISP 0x30D [1]

def done2 : SFrame := { cfrm 4 with done := 4, posted := [(0, 1)] }

def hand (r : Bool) : State := cam.modPos 0 (fun p => { p with handover := some 5, retire := r })

def outNode : State := inSec (inSec (inSec (withNode (withInst { inst0 with released := true }) (toLE 4 0x2005 ++ List.replicate 20 0 ++ toLE 4 0x30000)) secTSN (0x280 + 64 * 3) [1]) secTSN (0x280 + 64 * 3 + 0x14) [0, 0, 1, 0]) secSAFETY (0x100 + 48) [100, 0, 0, 0, 2]

def startsS : State := inSec { outNode with root := { outNode.root with starts := [fs0] } } secSAFETY 0xF00 ([1] ++ List.replicate 39 0 ++ [8])

def cosyUp : State := { outNode with cosyView := { outNode.cosyView with linkUp := true }, cosy := { outNode.cosy with running := true } }

def divS : State := inSec (onDie up (fun x => { x with seq := { x.seq with insts := [{ inst0 with complete := true }, { inst0 with node := 6, complete := true }] } })) secSAFETY 0xF00 [1, 0, 5, 0, 6, 0]

def modeS : State := inSec up secTSN 0x1280 [1, 1]

def beB (n v : Nat) : List Byte := (toLE n v).reverse

def portOn : State := inSec up secTSN 0x100 [1, 4]

def linkUp (s : State) : State := s.setF 6 .ethStatus_link_up 1 0

def netS : State := linkUp portOn

def gated : State := inSec (inSec netS secTSN 0x10A [0, 1]) secGRAPH 4 (toLE 4 33333333)

def synced (b : Bool) : State := { netS with time := { netS.time with everSynced := true, seg := { netS.time.seg with synced := true }, holdover := b } }

def msg0 : OutMsg := ⟨7, 3, .result, 100, List.replicate 2000 1, 0, [], []⟩

def msg1 : OutMsg := ⟨7, 3, .result, 100, List.replicate 200 1, 0, [], []⟩

def sending (s : State) (m : OutMsg) : State := s.modStream 3 (fun x => { x with queue := [m] })

def fr0 (n i c : Nat) (data : List Byte) : IngFrame := ⟨true, true, true, 0x1234, n, 9, 5, i, c, data⟩

def listening : State := inSec netS secTSN 0x1280 ([1, 0, 1, 0] ++ beB 8 0x1234 ++ beB 2 2000 ++ beB 2 0x404 ++ beB 4 100 ++ beB 4 5000)

def mfull (x : IngStream) (s : State) (n : Nat) : IngStream := (x.meter (s.ingCfg 0) s.deviceTime n).1

def seenS : State := listening.modIngStream 0 (fun x => { x with rtagLast := some 9, rtagSeen := [9] })

def whole : List Byte := let h := List.replicate 36 0 ++ beB 4 4 ++ List.replicate 8 0 ++ [1, 2, 3, 4]
  List.replicate 36 0 ++ beB 4 4 ++ beB 4 (crc32c h).toNat ++ [0, 0, 0, 0] ++ [1, 2, 3, 4]

def part0 : Partial := ⟨5, 0, 1, 2, [(1, [1])]⟩

def holdS (p : Nat) : State := { planned 0 with ringHold := [(holdKey 0 0x404, [[1, 2, 3]])] }.setRing 0 0x404 ⟨p, 0⟩

def pw (f : Power → Power) : State := { up with pwr := f up.pwr }

/-- A planar descriptor of an image: format, width, height, base, stride in 64-byte granules. -/
def imgDesc (fmt w h base stride : Nat) : List Byte :=
  [BitVec.ofNat 8 fmt, 0, 2, 0, 0, 0, 0, 0] ++ toLE 8 base ++ List.replicate 16 0 ++ toLE 4 w ++ toLE 4 h ++ (List.replicate 4 [1, 0, 0, 0]).flatten ++ toLE 4 stride

/-- An engine of die 0 at work on a task: parameters at 0, argument block at 0x100, descriptor k at 0x200 + 128 k, all in the commons of die 0. -/
def latched (t : TaskDesc) (unit : Nat) (s : State) : State := s.modUnit 0 unit (fun u => { u with latch := some (s.engineTask t) })

def taskAt (kind : Nat) : TaskDesc := { TaskDesc.ofBytes [] with kind := kind, frame := 7, program := chipBase 0, args := chipBase 0 + 0x100 }

def atWork (kind unit : Nat) (params : List Byte) (descs : List (List Byte)) : State :=
  let a := chipBase 0
  let t := taskAt kind
  let s := (up.modSeq 0 (fun q => { q with slots := [(0, { Slot.of t false 0 false with state := .running, unit := unit })] })).modUnit 0 unit
    (fun u => { u with running := some 0 })
  latched t unit { s with mem := cells a params ++ (List.range descs.length).flatMap (fun k => cells (a + 0x100 + 8 * k) (toLE 8 (a + 0x200 + 128 * k))) ++
      (List.range descs.length).flatMap (fun k => cells (a + 0x200 + 128 * k) (descs.getD k [])) }

def jobOf (s : State) (kind : Nat) : Job := (s.job 0 kind 0).getD ⟨0, 0, TaskDesc.ofBytes [], ⟨⟨0, [], false, false⟩, [], ⟨0, [], false, false⟩⟩⟩

def bufAt (k : Nat) : Nat := chipBase 0 + 0x10000 + 0x4000 * k

/-- A buffer of die 1, and the ways to it lost. -/
def farAt (k : Nat) : Nat := chipBase 1 + 0x10000 + 0x4000 * k

def pyrS : State := atWork 1 72 ([1, 0, 0, 0] ++ toLE 2 0x8000 ++ List.replicate 10 0 ++ toLE 2 0xFFFF) [imgDesc 0 4 4 (bufAt 0) 1, imgDesc 0 2 2 (bufAt 1) 1]

def pyrBad : State := atWork 1 72 ([1, 0, 0, 0] ++ toLE 2 0x8001 ++ List.replicate 10 0 ++ toLE 2 0xFFFF) [imgDesc 0 4 4 (bufAt 0) 1, imgDesc 0 2 2 (bufAt 1) 1]

def meshS : State := atWork 2 75 ([0, 0, 0, 0, 1, 2, 0, 0] ++ toLE 2 4 ++ toLE 2 4 ++ toLE 2 0xFFFF ++ toLE 2 0 ++ toLE 8 (bufAt 3) ++ toLE 2 2 ++ toLE 2 2) [imgDesc 0 4 4 (bufAt 0) 1, imgDesc 0 4 4 (bufAt 1) 1]

def cvDesc (fmt c w h base sx sy : Nat) : List Byte := [BitVec.ofNat 8 fmt, 1, 3, 0, 0, 0, 0, 0] ++ toLE 8 base ++ List.replicate 16 0 ++ toLE 4 c ++ toLE 4 w ++ toLE 4 h ++ (List.replicate 3 [1, 0, 0, 0]).flatten ++ toLE 4 sx ++ toLE 4 sy

def smpS : State := atWork 2 75 ([1, 0, 0, 2, 1, 0, 0, 0] ++ toLE 2 4 ++ toLE 2 1 ++ toLE 2 0xFFFF ++ List.replicate 14 0 ++ [1, 0] ++ toLE 2 32)
  [cvDesc 2 32 2 2 (bufAt 0) 1 2, imgDesc 0xB 16 1 (bufAt 1) 1, cvDesc 2 32 4 1 (bufAt 2) 1 4]

def flwS : State := atWork 4 80 ([1, 0, 2, 1, 0, 1, 0, 0, 0, 0, 0, 0, 0, 0] ++ toLE 2 0xFFFF) [imgDesc 0 8 4 (bufAt 0) 1, imgDesc 0 8 4 (bufAt 1) 1, imgDesc 0xB 8 4 (bufAt 2) 1]

def steP (mode : Nat) : List Byte := toLE 1 mode ++ List.replicate 19 0 ++ toLE 2 0xFFFF

def steS (p : List Byte) : State := atWork 5 82 p [imgDesc 0 64 16 (bufAt 0) 1, imgDesc 0 64 16 (bufAt 1) 1, imgDesc 1 64 16 (bufAt 2) 2]

def sgmP : List Byte := [0, 0, 0, 0, 0, 0, 0, 0, 4, 32, 8, 0, 1, 0, 5, 0, 0, 0, 0, 0] ++ toLE 2 3 ++ toLE 2 3

def meshBad : State := latched (taskAt 2) 75 (meshS.putBytes (chipBase 0 + 4) [0])

def smpBad : State := latched (taskAt 2) 75 (smpS.putBytes (chipBase 0 + 4) [0])

def flwBad : State := latched (taskAt 4) 80 (flwS.putBytes (chipBase 0) [0])

def steBad : State := latched (taskAt 5) 82 ((steS sgmP).putBytes (chipBase 0 + 8) [0])

def steBad1 : State := latched (taskAt 5) 82 ((steS (steP 1)).putBytes (chipBase 0 + 1) [7])

def pyrFar : State := noWay (atWork 1 72 ([1, 0, 0, 0] ++ toLE 2 0x8000 ++ List.replicate 10 0 ++ toLE 2 0xFFFF) [imgDesc 0 4 4 (farAt 0) 1, imgDesc 0 2 2 (bufAt 1) 1])

def meshFar : State := noWay (atWork 2 75 ([0, 0, 0, 0, 1, 2, 0, 0] ++ toLE 2 4 ++ toLE 2 4 ++ toLE 2 0xFFFF ++ toLE 2 0 ++ toLE 8 (bufAt 3) ++ toLE 2 2 ++ toLE 2 2) [imgDesc 0 4 4 (farAt 0) 1, imgDesc 0 4 4 (bufAt 1) 1])

def smpFar : State := noWay (atWork 2 75 ([1, 0, 0, 2, 1, 0, 0, 0] ++ toLE 2 4 ++ toLE 2 1 ++ toLE 2 0xFFFF ++ List.replicate 14 0 ++ [1, 0] ++ toLE 2 32)
  [cvDesc 2 32 2 2 (farAt 0) 1 2, imgDesc 0xB 16 1 (bufAt 1) 1, cvDesc 2 32 4 1 (bufAt 2) 1 4])

def flwFar : State := noWay (atWork 4 80 ([1, 0, 2, 1, 0, 1, 0, 0, 0, 0, 0, 0, 0, 0] ++ toLE 2 0xFFFF) [imgDesc 0 8 4 (farAt 0) 1, imgDesc 0 8 4 (bufAt 1) 1, imgDesc 0xB 8 4 (bufAt 2) 1])

def steFar : State := noWay (atWork 5 82 sgmP [imgDesc 0 64 16 (farAt 0) 1, imgDesc 0 64 16 (bufAt 1) 1, imgDesc 1 64 16 (bufAt 2) 2])

def ftrP (mode : Nat) : List Byte := [BitVec.ofNat 8 mode, 0, 1, 9] ++ toLE 2 20 ++ [0, 0, 4, 4, 1, 1] ++ toLE 2 4 ++ toLE 2 50 ++ [4, 0, 1, 1, 0, 0] ++ toLE 2 0 ++ toLE 2 256 ++ List.replicate 6 0 ++ toLE 8 0x1000 ++ toLE 2 16384

def ftrS (mode : Nat) : State := atWork 3 78 (ftrP mode) [imgDesc 0 16 16 (bufAt 0) 1, imgDesc 0 16384 1 (bufAt 3) 1]

def ftrD : State := atWork 3 78 (ftrP 3) [imgDesc 0 16384 1 (bufAt 3) 1]

def ftrBad : State := latched (taskAt 3) 78 ((ftrS 0).putBytes (chipBase 0 + 2) [9])

def cref : CoreRef := ⟨0, 3, 0⟩

/-- Core 3 of die 0 in cycle 0 of a program whose first bundle holds four words. -/
def coreW (w0 w1 w2 w3 : Nat) (f : Core → Core) : State :=
  let s := loadAll (inSec (inSec (inSec up secSCHED 0x48 (toLE 8 0x1000 ++ toLE 8 0x2000 ++ toLE 8 0x10000)) secSCHED 0x1002 [16]) secSCHED 0x2000
    (toLE 8 w0 ++ toLE 8 w1 ++ toLE 8 w2 ++ toLE 8 w3))
  (s.modUnit 0 3 (fun u => { u with running := some 0 })).modCore 0 3 (fun x => f { x with issuing := true })

def here (s : State) : State := match s.atCycle cref with | .here t => t | _ => s

def vop : VOp := ⟨cref, none⟩

def g1 : State := coreW 0 0 0 (1 + 2 * 4 + 100 * 32 + 3 * 2 ^ 18 + 4 * 2 ^ 24 + 3 * 2 ^ 36) id

def loop1 : State := coreW (1 + 1 * 4 + 2 * 16 + 5 * 2 ^ 16) 0 0 0 id

def end1 : State := coreW 2 0 0 0 id

def chan1 : Chan := ⟨0, imgDesc 0 256 1 (bufAt 0) 4, [], 1⟩

def st1 : State := coreW 0 0 0 (2 + 2 * 4 + 0 * 32 + 1 * 2 ^ 18) (fun x => { x with chans := [chan1] })

def lda1 : State := coreW 0 (1 + 2 * 1 + 3 * 4 + 2 * 2 ^ 15) 0 0 id

def lda2 : State := coreW 0 (1 + 2 * 1 + 3 * 4 + 4 * 2 ^ 15) 0 0 id

def ldb1 : State := coreW 0 (32 + 64 + 3 * 128 + 4 * 2 ^ 19) 0 0 id

def grp (f : Nat) : Group := ⟨List.replicate (groupGranules f) (List.replicate 64 0), [], 0, 64⟩

def run0 (fa fb : Nat) : State := coreW 0 (2 ^ 10 + 2 ^ 13 + 2 ^ 14 + fa * 2 ^ 15 + fb * 2 ^ 19) 0 0 (fun x => { x with bufA := [(0, grp fa)], bufB := [(0, grp fb)] })

def rst : RunState := ⟨0, 64, 1, true, 4, 4, 0, 0, grp 4, grp 4, 0⟩

def blk : State := coreW 0 0 0 0 (fun x => { x with runs := [rst] })

def accin1 : State := coreW 0 (2 ^ 35 + 2 ^ 36 + 3 * 2 ^ 37) 0 0 (fun x => { x with gens := [(3, { Gen.fresh with width := 3 })] })

def store1 : State := coreW 0 (2 ^ 23 + 2 ^ 24 + 4 * 2 ^ 25 + 3 * 2 ^ 29) 0 0 id

def store2 : State := coreW 0 (2 ^ 23 + 2 ^ 24 + 0xA * 2 ^ 25 + 3 * 2 ^ 29) 0 0 (fun x => { x with gens := [(3, { Gen.fresh with width := 1 })] })

def vl : State := coreW 0 0 (2 ^ 23 + 5 * 2 ^ 24 + 3 * 2 ^ 28) 0 id

def vl1 : State := coreW 0 0 (2 ^ 31 + 5 * 2 ^ 32 + 3 * 2 ^ 36) 0 id

def vs : State := coreW 0 0 (2 ^ 39 + 5 * 2 ^ 40 + 3 * 2 ^ 44) 0 id

def vc (code half : Nat) : State := coreW 0 0 (code + 5 * 64 + 1 * 2 ^ 10 + 2 * 2 ^ 14 + 3 * 2 ^ 18 + half * 2 ^ 22 + 4 * 2 ^ 48) 0 (fun x => { x with v := (List.range 192).map (fun k => (64 + k, Word.ofNat (0x3F800001 + 0x12345 * k))) })

def la (s : State) (o : Nat) : List Nat := (List.range 64).map (fun l => ((here s).vsrc cref o l).toNat)

def vcr : State := coreW 0 0 (0x1C + 5 * 64 + 1 * 2 ^ 10 + 2 * 2 ^ 14 + 3 * 2 ^ 18 + 1 * 2 ^ 48) 0 id

/-! ### What the kernel does not compute quickly -/

theorem restart_none (s : State) (h : s.dies.all (fun x => x.restart.isNone) = true) (d : Nat) : (s.die d).restart = none := by
  unfold State.die
  cases e : s.dies[d]? with
  | none => simp [List.getD, e, Die.fresh]
  | some x =>
    simp only [List.all_eq_true, Option.isNone_iff_eq_none] at h
    simpa [List.getD, e] using h x (List.mem_of_getElem? e)


/-- A byte of a die that a write reaches. -/
def reachesByte (s : State) (d a : Nat) : Bool :=
  match s.region a with
  | .commons x _ => x == d
  | .dram x o => x == d && !(s.ctl d (dramCtl o)).failed && !(s.ctl d (dramCtl o)).selfRefresh && !s.lockedAt a
  | _ => false

theorem landsAt_of {s : State} {d a n : Nat} (h1 : s.dieUp d = true)
    (h2 : (List.range n).all (fun i => reachesByte s d (a + i)) = true) : s.landsAt d a n := by
  refine ⟨h1, fun i hi => ?_⟩
  have h := List.all_eq_true.mp h2 i (List.mem_range.mpr hi)
  unfold reachesByte at h
  split at h
  · rename_i e
    exact .inl ⟨_, e.trans (by rw [eq_of_beq h])⟩
  · rename_i e
    simp only [Bool.and_eq_true, Bool.not_eq_true', beq_iff_eq] at h
    exact .inr ⟨_, e.trans (by rw [h.1.1.1]), h.1.1.2, h.1.2, h.2⟩
  · cases h

theorem entryAt_of {s : State} {d a : Nat} (h0 : a % 64 = 0) (h1 : s.dieUp d = true)
    (h2 : (List.range 64).all (fun i => reachesByte s d (a + i)) = true) : s.entryAt d a := ⟨h0, landsAt_of h1 h2⟩

theorem landsAt_all {s : State} {d b : Nat} {l : List (Nat × List Byte)} (h1 : s.dieUp d = true)
    (h2 : l.all (fun q => (List.range q.2.length).all (fun i => reachesByte s d (b + q.1 + i))) = true) :
    ∀ q ∈ l, s.landsAt d (b + q.1) q.2.length :=
  fun q hq => landsAt_of h1 (List.all_eq_true.mp h2 q hq)

theorem commons_rows {s : State} {d n : Nat} {rows : List Nat} {f : Nat → Nat}
    (h : rows.all (fun y => !s.inStretch (f y) n &&
      (List.range n).all (fun k => match s.region (f y + k) with | .commons x _ => x == d | _ => false)) = true) :
    ∀ y ∈ rows, s.inStretch (f y) n = false ∧ ∀ k < n, ∃ o, s.region (f y + k) = .commons d o := by
  intro y hy
  have h := List.all_eq_true.mp h y hy
  simp only [Bool.and_eq_true, Bool.not_eq_true'] at h
  refine ⟨h.1, fun k hk => ?_⟩
  have h := List.all_eq_true.mp h.2 k (List.mem_range.mpr hk)
  split at h
  · rename_i e
    exact ⟨_, e.trans (by rw [eq_of_beq h])⟩
  · cases h

theorem granules_data {t : State} {n : Nat} {q : Nat → Option (Nat × Nat × List Byte)}
    (h : (List.range n).all (fun k => match q k with
      | none => true
      | some p => (List.range 64).all (fun j => t.dataAddr (p.1 + j) && (match t.region (p.1 + j) with | .mailbox _ => false | _ => true))) = true) :
    ∀ k < n, ∀ p : Nat × Nat × List Byte, q k = some p → ∀ j < 64, t.dataAddr (p.1 + j) = true ∧ ∀ o, t.region (p.1 + j) ≠ .mailbox o := by
  intro k hk p hp j hj
  have h := List.all_eq_true.mp h k (List.mem_range.mpr hk)
  simp only [hp] at h
  have h := List.all_eq_true.mp h j (List.mem_range.mpr hj)
  simp only [Bool.and_eq_true] at h
  refine ⟨h.1, fun o e => ?_⟩
  simp [e] at h

theorem patternOk_blank {l : List Byte} (h : l = List.replicate 1024 0) : patternOk (pattern l) = true := by
  have e : ∀ k, nth (0 : Byte) (List.replicate 1024 0) k = 0 := by
    intro k
    unfold nth
    simp only [List.getD_eq_getElem?_getD, List.getElem?_replicate]
    split <;> rfl
  subst h
  unfold pattern
  simp only [e]
  decide +kernel

theorem featureError_none {s : State} {d : Nat} {j : Job} {m : Bool} (h1 : (detectOk j && (!m || partitionOk j)) = true)
    (h2 : (featureSrcs j).all (fun t => decide (t.format ≤ 1) && s.image t (t.ext 0) (t.ext 1)) = true)
    (h3 : j.latch.table.bytes = List.replicate 1024 0)
    (h4 : (!s.listOut (j.arg (j.p 2 1)) || decide ((j.arg (j.p 2 1)).size < 64 + 64 * j.p 0xC 2)) = false)
    (h5 : (m && ((s.partitionTracks d j).any (fun e => e.2.valid && !precedes e.2.lastFrame j.task.frame) ||
      (s.die d).trackTasks.contains (j.p 0x16 2, j.p 0x18 2, j.task.frame))) = false) :
    s.featureError d j m = none := by
  have h3 := patternOk_blank h3
  unfold State.featureError
  simp only [h1, h2, h3, h4, h5, Bool.not_true, Bool.false_eq_true, if_false]

theorem free_none (c : MemCtl) (h : c.unusable = List.range' slicesMain (slicesAll - slicesMain)) : c.free = none := by
  have key : ∀ k n, slicesMain ≤ n → n + k ≤ slicesAll → c.freeFrom k n = none := by
    intro k
    induction k with
    | zero => intros; rfl
    | succ k ih =>
      intro n h1 h2
      unfold MemCtl.freeFrom
      rw [if_pos]
      · exact ih (n + 1) (by omega) (by omega)
      · rw [h, Bool.or_eq_true]
        left
        rw [List.contains_iff_mem, List.mem_range'_1]
        unfold slicesMain slicesAll at *
        omega
  exact key _ _ (Nat.le_refl _) (by decide)

/-! ### Witnesses -/

theorem witness_StepRunsFrontCommandOrIdles :
    (∃ (s : State), s.pending = [] ∧ s.pwr.removal = none ∧ (s.pwr.good = false ∨ s.pwr.resetN = false ∨ s.frz.stopped = true)) ∧
    (∃ (s : State), s.pending = [] ∧ s.pwr.removal = none ∧ s.pwr.good = true ∧ s.pwr.resetN = true ∧ s.frz.stopped = false) :=
  ⟨⟨State.reset, rfl, rfl, .inl rfl⟩, ⟨{ up with pwr := { up.pwr with resetN := true } }, rfl, rfl, rfl, rfl, rfl⟩⟩

theorem witness_StepLeavesWaitingCommands :
    (∃ (c : Instr) (s t : State), exec c s = .next t) ∧
    (∃ (c : Instr) (rest : List Instr) (s t : State), s.pending = c :: rest ∧ step s = .next t) :=
  ⟨⟨.modResetN false, up, _, rfl⟩, ⟨.modResetN false, [], { up with pending := [.modResetN false] }, _, rfl, rfl⟩⟩

theorem witness_OtpMovesForward : ∃ (s t : State), s.sec.lifecycle ≤ 2 ∧ step s = .next t ∧ s.sec.ikey ≠ 0 :=
  ⟨{ up with sec := { up.sec with ikey := 1 } }, _, by decide, rfl, by decide⟩

theorem witness_ResetIsCleanStart : ∃ (d : Nat), d ∈ [0, 1, 2, 3, 6] := ⟨6, by decide⟩

theorem witness_DramMaintenanceKeepsMemory_no_spare :
    ∃ (s : State) (d k p : Nat) (rest : List Nat) (f : Nat), s.dieUp d = true ∧ d < s.dies.length ∧ k < 8 ∧ (s.ctl d k).selfRefresh = false ∧
      (s.ctl d k).queue = p :: rest ∧ (s.ctl d k).frame p = some f ∧ (s.ctl d k).free = none ∧ s.getF d .memStatus_exhausted k = 0 :=
  ⟨ctl0 (fun c => { c with queue := [9], unusable := List.range' slicesMain (slicesAll - slicesMain) }), 0, 2, 9, [], 9,
   by decide +kernel, by decide +kernel, by decide +kernel, by decide +kernel, by decide +kernel, by decide +kernel, free_none _ rfl,
   by decide +kernel⟩

theorem witness_RegisterWriteFollowsAccess :
    ∃ (s : State), ∃ (who : Init), ∃ (p : Nat), ∃ (r : RegSpec), ∃ (i : Nat), ∃ (v : Word), s.frz.stopped = false ∧ who.canAccess = true ∧
      s.privileged who = true ∧ s.reach who.die 6 = true ∧ p < 2 ^ 24 ∧ p % 4 = 0 ∧ regSpecAt 6 p = some (r, i) ∧ (¬p ∈
      [Fld.evrRaiseValue_value.base, Fld.evrRaiseCode_code.base, Fld.bootReq_warm.base, Fld.ingI2cCmd_addr.base, Fld.evrFreeze_freeze.base,
      Fld.frzCtl_freeze.base]) ∧ BitVec.toNat v &&& 2 ^ 32 - 1 - r.mask = 0 :=
  ⟨up, .mgmt, 0x330004, regOf 0x330004, 0, 5, by decide +kernel⟩

theorem witness_RegisterReadAnswersFields :
    ∃ (s : State), ∃ (who : Init), ∃ (p : Nat), ∃ (r : RegSpec), ∃ (i : Nat), s.frz.stopped = false ∧ who.canAccess = true ∧ s.privileged who = true
      ∧ s.reach who.die 6 = true ∧ p < 2 ^ 24 ∧ p % 4 = 0 ∧ regSpecAt 6 p = some (r, i) ∧ (¬p ∈ [Fld.tsnWallLo_wall.base, Fld.tsnWallHi_wall.base,
      Fld.tsnTime_epoch.base, Fld.evrRaiseValue_value.base]) ∧ r.base ≠ Fld.evrWindow_word.base ∧ (¬p / 65536 ∈ [50, 58, 1, 3, 51, 48]) ∧ r.isLo =
      false ∧ r.isHi = false ∧ (∀ (f : FieldSpec), f ∈ r.fields → f.access ≠ Access.wo) :=
  ⟨up, .safety, 0x310004, regOf 0x310004, 0, by decide +kernel⟩

theorem witness_PairsAreReadAndWrittenWhole :
    (∃ (s : State), ∃ (who : Init), ∃ (p : Nat), ∃ (r : RegSpec), ∃ (h : RegSpec), ∃ (i : Nat), ∃ (j : Nat), ∃ (k : Nat), ∃ (c : Word), s.frz.stopped
      = false ∧ who.canAccess = true ∧ s.privileged who = true ∧ s.reach who.die 6 = true ∧ p + 4 < 2 ^ 24 ∧ p % 4 = 0 ∧ regSpecAt 6 p = some (r, i)
      ∧ regSpecAt 6 (p + 4) = some (h, j) ∧ r.isLo = true ∧ r.isHi = false ∧ h.isHi = true ∧ h.isLo = false ∧ p ≠ Fld.tsnWallLo_wall.base ∧ (¬p /
      65536 ∈ [50, 58, 1, 3, 51, 48]) ∧ (¬(p + 4) / 65536 ∈ [50, 58, 1, 3, 51, 48]) ∧ (∀ (f : FieldSpec), f ∈ r.fields ++ h.fields → f.access ≠
      Access.wo ∧ f.access ≠ Access.rc) ∧ (List.find? (fun q => q.fst == pairKey who 6 p) s.captures = some (k, c))) ∧
    (∃ (s : State), ∃ (who : Init), ∃ (d : Nat), ∃ (p : Nat), ∃ (r : RegSpec), ∃ (h : RegSpec), ∃ (i : Nat), ∃ (j : Nat), ∃ (lo : Word), ∃ (hi :
      Word), s.frz.stopped = false ∧ who.canAccess = true ∧ s.privileged who = true ∧ s.reach who.die d = true ∧ (d = 6 ∨ s.dieUp d = true) ∧ p + 4 <
      2 ^ 24 ∧ p % 4 = 0 ∧ regSpecAt d p = some (r, i) ∧ regSpecAt d (p + 4) = some (h, j) ∧ r.isLo = true ∧ h.isHi = true ∧ r.sel = none ∧ h.sel =
      none ∧ BitVec.toNat lo &&& 2 ^ 32 - 1 - r.mask = 0 ∧ BitVec.toNat hi &&& 2 ^ 32 - 1 - h.mask = 0 ∧ (List.find? (fun q => q.fst == pairKey who d
      p) s.loHeld = some (pairKey who d p, lo))) :=
  ⟨⟨{ up with captures := [(pairKey .mgmt 6 0x310010, 7)] }, .mgmt, 0x310010, regOf 0x310010, regOf 0x310014, 0, 0, pairKey .mgmt 6 0x310010, 7,
     by decide +kernel⟩,
   ⟨{ up with loHeld := [(pairKey (.ctrl 0 1) 0 0x10003C, 0)] }, .ctrl 0 1, 0, 0x10003C, regAtDie 0 0x10003C, regAtDie 0 0x100040, 0, 0, 0,
     0x80000000, by decide +kernel⟩⟩

theorem witness_MailboxReadsZeroIngressWritesDiscarded :
    (∃ (s : State), ∃ (addr : Nat), ∃ (off : Nat), s.frz.stopped = false ∧ s.region addr = Region.mailbox off) ∧
    (∃ (s : State), ∃ (addr : Nat), ∃ (off : Nat), s.frz.stopped = false ∧ s.region addr = Region.ingress off) :=
  ⟨⟨up, mailboxBase, 0, by decide +kernel⟩,
   ⟨up, 0xC010000000, 0, by decide +kernel⟩⟩

theorem witness_StartStepsUpToTheLoader :
    (∃ (s : State), s.pwr.inrush = true ∧ s.pwr.good = false ∧ s.pwr.cut = false ∧ s.pwr.resetN = true) ∧
    (∃ (s : State), s.boot.step = 1) ∧
    (∃ (s : State), ∃ (bad : List Nat), s.boot.step = 2 ∧ s.boot.hubPass = false ∧ s.boot.failed = false ∧ (16 ∈ bad ∨ 17 ∈ bad ∨ 19 ∈ bad ∨ 13 ∈ bad
      ∧ 14 ∈ bad)) ∧
    (∃ (s : State), ∃ (bad : List Nat), s.boot.step = 2 ∧ s.boot.hubPass = false ∧ s.boot.failed = false ∧ (¬(16 ∈ bad ∨ 17 ∈ bad ∨ 19 ∈ bad ∨ 13 ∈
      bad ∧ 14 ∈ bad))) ∧
    (∃ (s : State), 1 ≤ s.boot.step ∧ s.boot.step ≤ 2 ∧ s.cosyView.reported = false ∧ s.boot.waited = false ∧ 135000000 ≤ s.deviceTime) ∧
    (∃ (s : State), s.boot.step = 3) ∧
    (∃ (s : State), s.frz.stopped = false ∧ s.cosy.powered = true ∧ s.boot.step ≠ 0 ∧ s.cosyView.linkUp = true) ∧
    (∃ (s : State), s.frz.stopped = false ∧ s.cosy.powered = true ∧ s.boot.step ≠ 0 ∧ s.cosyView.linkUp = false) ∧
    (∃ (s : State), s.cosy.running = true) :=
  ⟨⟨{ State.reset with pwr := { State.reset.pwr with inrush := true } }, by decide +kernel⟩,
   ⟨atStep 1, by decide +kernel⟩,
   ⟨atStep 2, [13, 14], by decide +kernel⟩,
   ⟨atStep 2, [3, 13], by decide +kernel⟩,
   ⟨{ atStep 2 with deviceTime := 135000000 }, by decide +kernel⟩,
   ⟨atStep 3, by decide +kernel⟩,
   ⟨{ atStep 2 with cosy := { up.cosy with powered := true }, cosyView := { up.cosyView with linkUp := true } }, by decide +kernel⟩,
   ⟨{ atStep 2 with cosy := { up.cosy with powered := true } }, by decide +kernel⟩,
   ⟨{ up with cosy := { up.cosy with powered := true, running := true, selfTest := true } }, by decide +kernel⟩⟩

theorem witness_SlotsAreTriedAndSectionsReleased :
    (∃ (s : State), s.boot.step = 4) ∧
    (∃ (s : State), ∃ (k : Nat), ∃ (e : SecEntry), s.boot.step = 6 ∧ k = s.boot.hashed ∧ k < 10 ∧ e = nth { kind := 0, flags := 0, offset := 0, length := 0, load := 0, hash := 0 }
      s.sections k ∧ e.kind ≠ secWEIGHTS ∧ s.boot.slot ∈ s.boot.tried ∧ sectionMatches (s.slotBytes s.boot.slot) e = true) ∧
    (∃ (s : State), ∃ (k : Nat), ∃ (e : SecEntry), s.boot.step = 6 ∧ k = s.boot.hashed ∧ k < 10 ∧ e = nth { kind := 0, flags := 0, offset := 0, length := 0, load := 0, hash := 0 }
      s.sections k ∧ e.kind ≠ secWEIGHTS ∧ s.boot.slot ∈ s.boot.tried ∧ sectionMatches (s.slotBytes s.boot.slot) e = false) ∧
    (∃ (s : State), s.boot.step = 6 ∧ s.boot.hashed = 10 ∧ (∀ (d : Nat), d < s.nDies → d ∈ s.boot.tested) ∧ sectionMatches (s.slotBytes s.boot.slot)
      (nth { kind := 0, flags := 0, offset := 0, length := 0, load := 0, hash := 0 } s.sections 10) = true ∧ (s.boot.check9 = true → s.cosyView.ident
      = Hash.ofBytes (s.cadBytes secCOSYLINK 8 32))) ∧
    (∃ (s : State), s.boot.step = 8 ∧ s.magicsOk = true) ∧
    (∃ (s : State), ∃ (d : Nat), d < s.nDies ∧ d < s.dies.length ∧ (s.die d).failed = false ∧ (s.die d).restart = none ∧ 5 ≤ s.boot.step ∧
      s.boot.step ≤ 8 ∧ (¬d ∈ s.boot.tested) ∧ (s.die d).inReset = false) :=
  ⟨⟨atStep 4, by decide +kernel⟩,
   ⟨{ atStep 6 with boot := { (atStep 6).boot with tried := [false] }, caddy := mapPut [] (cadKey 0 0x120) shaEmpty }, 0, nth ⟨0,0,0,0,0,0⟩ ({ atStep 6 with caddy := mapPut [] (cadKey 0 0x120) shaEmpty }
     : State).sections 0, by decide +kernel⟩,
   ⟨{ atStep 6 with boot := { (atStep 6).boot with tried := [false] } }, 0, ⟨0,0,0,0,0,0⟩, by decide +kernel⟩,
   ⟨{ atStep 6 with boot := { (atStep 6).boot with hashed := 10, tested := [0, 1, 2, 3] }, caddy := mapPut [] (cadKey 0 (0x100 + 64 * 10 + 0x20)) shaEmpty },
     by decide +kernel⟩,
   ⟨{ atStep 8 with caddy := magics }, by decide +kernel⟩,
   ⟨{ atStep 5 with dies := up.dies }, 3, by decide +kernel⟩⟩

theorem witness_BurnStepsAndNumberingMarks :
    (∃ (s : State), s.frz.stopped = false ∧ s.boot.framed = true ∧ s.sec.counter < s.getF 6 Fld.bootImage_rollback_index) ∧
    (∃ (s : State), s.frz.stopped = false ∧ (s.boot.framed = false ∨ s.getF 6 Fld.bootImage_rollback_index ≤ s.sec.counter)) ∧
    (∃ (s : State), ∃ (m : Mark), s.frz.stopped = false ∧ s.root.running = true ∧ BitVec.toNat s.frame % 65536 = 0 ∧ (m = { frame := s.frame, epoch := BitVec.ofNat 16 s.epoch, seqs := List.map (fun k => (s.stream k).seq) (List.range 64) })) :=
  ⟨⟨up.setF 6 .bootImage_rollback_index 1, by decide +kernel⟩,
   ⟨up, by decide +kernel⟩,
   ⟨up, ⟨up.frame, BitVec.ofNat 16 up.epoch, (List.range 64).map (fun k => (up.stream k).seq)⟩, by decide +kernel⟩⟩

theorem witness_LinksRetrainAndDoubtsLatch :
    (∃ (s : State), ∃ (d : Nat), s.frz.stopped = false ∧ d < s.nDies ∧ s.boot.step ≠ 0 ∧ s.link (DieLink.hub d) ≠ LinkWidth.lost) ∧
    (∃ (s : State), ∃ (d : Nat), s.frz.stopped = false ∧ d < s.nDies ∧ s.boot.step ≠ 0 ∧ s.link (DieLink.ring d) ≠ LinkWidth.lost) ∧
    (∃ (s : State), s.frz.stopped = false ∧ s.cosyView.linkUp = true ∧ s.boot.step ≠ 0 ∧ s.link DieLink.cosy ≠ LinkWidth.lost) ∧
    (∃ (s : State), ∃ (d : DoubtCause), s.frz.stopped = false ∧ d ∈ s.doubtDue ∧ s.saf.outOfService = false) :=
  ⟨⟨up, 3, by decide +kernel⟩,
   ⟨up, 3, by decide +kernel⟩,
   ⟨{ up with cosyView := { up.cosyView with linkUp := true } }, by decide +kernel⟩,
   ⟨up.doubt dFLAG 2 5, ⟨dFLAG, 2, 0, .plain, 5⟩, by decide +kernel⟩⟩

theorem witness_DieRestartsClearAndRejoin :
    (∃ (s : State), ∃ (d : Nat), s.calls (Recovery.dieRestart d) = true ∧ s.calls Recovery.warmRestart = false ∧ s.dieUp d = true ∧ d <
      s.dies.length) ∧
    (∃ (s : State), ∃ (d : Nat), ∃ (r : Restart), (s.die d).restart = some r ∧ r.warm = false ∧ s.dieReady d = true ∧ d < s.dies.length ∧ (s.die
      d).testFaults ≠ []) ∧
    (∃ (s : State), ∃ (d : Nat), ∃ (r : Restart), (s.die d).restart = some r ∧ r.warm = false ∧ s.dieReady d = true ∧ d < s.dies.length ∧ (s.die
      d).testFaults = []) ∧
    (∃ (s : State), ∃ (d : Nat), ∃ (r : Restart), s.frz.stopped = false ∧ (s.die d).restart = some r ∧ r.warm = false ∧ r.since + 27000000 ≤
      s.deviceTime) ∧
    (∃ (s : State), ∃ (d : Nat), s.frz.stopped = false ∧ d ∈ s.boot.rehash) :=
  ⟨⟨called (.dieRestart 1), 1, by decide +kernel⟩,
   ⟨(restarting false false).modDie 1 (fun x => { x with testFaults := [3] }), 1, ⟨0, false, false⟩, by decide +kernel⟩,
   ⟨restarting false false, 1, ⟨0, false, false⟩, by decide +kernel⟩,
   ⟨restarting false false, 1, ⟨0, false, false⟩, by decide +kernel⟩,
   ⟨{ up with boot := { up.boot with rehash := [1] } }, 1, by decide +kernel⟩⟩

theorem witness_WarmAndRequestedRestarts :
    (∃ (s : State), s.frz.stopped = false ∧ s.calls Recovery.warmRestart = true ∧ s.warming = false ∧ s.saf.dead = false ∧ s.boot.framed = true ∧
      s.nDies ≤ s.dies.length ∧ ((List.filter (fun t => decide (s.deviceTime < t + 54000000000)) s.saf.warmAt).length < 2)) ∧
    (∃ (s : State), s.frz.stopped = false ∧ s.calls Recovery.warmRestart = true ∧ s.warming = false ∧ s.saf.dead = false ∧ s.boot.framed = true ∧
      s.nDies ≤ s.dies.length ∧ (2 ≤ (List.filter (fun t => decide (s.deviceTime < t + 54000000000)) s.saf.warmAt).length)) ∧
    (∃ (s : State), (∃ d, d < s.nDies ∧ ∃ r, (s.die d).restart = some r ∧ r.warm = true ∧ r.ready = false) ∧ (∀ (d : Nat), d < s.nDies → ∀ (r :
      Restart), (s.die d).restart = some r → r.warm = true → r.ready = false → s.dieReady d = true ∧ s.reloadIntact d = true ∧ (s.die d).testFaults =
      [])) ∧
    (∃ (s : State), s.frz.stopped = false ∧ (∃ x, x ∈ s.dies ∧ ∃ r, x.restart = some r ∧ r.warm = true ∧ r.since + 225000000 ≤ s.deviceTime)) ∧
    (∃ (s : State), ∃ (who : Init), s.frz.stopped = false ∧ who.canAccess = true ∧ s.privileged who = true ∧ s.saf.outOfService = false) ∧
    (∃ (s : State), ∃ (who : Init), s.frz.stopped = false ∧ who.canAccess = true ∧ s.privileged who = true ∧ s.saf.outOfService = true ∧ s.warming =
      false ∧ s.saf.dead = false ∧ s.nDies ≤ s.dies.length ∧ ((List.filter (fun t => decide (s.deviceTime < t + 54000000000)) s.saf.warmAt).length <
      2)) ∧
    (∃ (s : State), ∃ (who : Init), s.frz.stopped = false ∧ who.canAccess = true ∧ s.privileged who = true ∧ s.saf.outOfService = true) :=
  ⟨⟨called .warmRestart, by decide +kernel⟩,
   ⟨{ called .warmRestart with saf := { (called .warmRestart).saf with warmAt := [999000000000, 1000000000000] } }, by decide +kernel⟩,
   ⟨{ restarting true false with caddy := shaCaddy }, ⟨⟨1, by decide +kernel, _, rfl, by decide +kernel, by decide +kernel⟩,
     fun d hd _ _ _ _ => (show ∀ d, d < 4 → State.dieReady { restarting true false with caddy := shaCaddy } d = true ∧ State.reloadIntact { restarting true false with caddy := shaCaddy } d = true ∧ (State.die { restarting true false with caddy := shaCaddy } d).testFaults = [] from by decide +kernel) d hd⟩⟩,
   ⟨restarting true false, ⟨by decide +kernel, ⟨_, List.mem_of_getElem? (i := 1) rfl, _, rfl, by decide +kernel, by decide +kernel⟩⟩⟩,
   ⟨up, .mgmt, by decide +kernel⟩,
   ⟨idleUp, .safety, by decide +kernel⟩,
   ⟨idleUp, .safety, by decide +kernel⟩⟩

theorem witness_OpenChallengesAndProveGrants :
    (∃ (s : State), ∃ (role : Nat), s.served = true ∧ (role = 1 ∨ role = 2) ∧ s.sec.lockout = none ∧ s.sec.trngOk = true) ∧
    (∃ (s : State), ∃ (role : Nat), s.served = true ∧ (s.sec.lockout ≠ none ∨ s.sec.trngOk = false ∨ role ≠ 1 ∧ role ≠ 2)) ∧
    (∃ (s : State), ∃ (x : Session), ∃ (at_ : Nat), s.served = true ∧ s.sec.session = some x ∧ x.role ≤ 2 ∧ s.sec.lifecycle ≠ 2 ∧ x.challenge = some
      at_ ∧ s.deviceTime ≤ at_ + 9000000000 ∧ s.keyAllowed x.asked x.key = true) ∧
    (∃ (s : State), ∃ (x : Session), ∃ (at_ : Nat), s.served = true ∧ s.sec.session = some x ∧ x.role ≤ 2 ∧ s.sec.lifecycle ≠ 2 ∧ x.challenge = some
      at_ ∧ (at_ + 9000000000 < s.deviceTime ∨ s.keyAllowed x.asked x.key = false)) ∧
    (∃ (s : State), ∃ (x : Session), s.served = true ∧ s.sec.session = some x ∧ x.role ≤ 2) ∧
    (∃ (s : State), ∃ (x : Session), s.sec.session = some x ∧ x.lastDt + 54000000000 ≤ s.deviceTime) ∧
    (∃ (s : State), ∃ (u : Nat), s.sec.lockout = some u ∧ u ≤ s.deviceTime) :=
  ⟨⟨up, 2, by decide +kernel⟩,
   ⟨up, 3, by decide +kernel⟩,
   ⟨challenged 1, { sess 0 with asked := 1, challenge := some 999000000000 }, 999000000000, by decide +kernel⟩,
   ⟨{ challenged 2 with sec := { (challenged 2).sec with failed := 7 } }, { sess 0 with asked := 2, challenge := some 999000000000 }, 999000000000,
     by decide +kernel⟩,
   ⟨withSess up 1, sess 1, by decide +kernel⟩,
   ⟨withSess up 1, sess 1, by decide +kernel⟩,
   ⟨{ up with sec := { up.sec with lockout := some 5 } }, 5, by decide +kernel⟩⟩

theorem witness_SessionsActWithTheirRole :
    (∃ (s : State), ∃ (x : Session), ∃ (role : Nat), ∃ (c : Instr), InSession s x role ∧ (role ≠ 1 ∧ ((∃ slot off data, c = Instr.upload slot off
      data) ∨ c = Instr.commit ∨ (∃ off data, c = Instr.cosyImage off data) ∨ (∃ keys, c = Instr.cakSet keys) ∨ ∃ off len, c = Instr.logRead off len)
      ∨ role ≠ 2 ∧ (c = Instr.scrap ∨ ∃ off data, c = Instr.loaderWrite off data) ∨ (role ≠ 3 ∧ ∃ powerLost, c = Instr.provision powerLost) ∨ role =
      4 ∧ ((∃ addr n, c = Instr.regRead addr n) ∨ ∃ sig, c = Instr.prove sig) ∨ role ≠ 1 ∧ role ≠ 2 ∧ ((∃ addr words, c = Instr.regWrite addr words)
      ∨ (∃ token sig, c = Instr.unlock token sig) ∨ c = Instr.readState ∨ (∃ d a b, c = Instr.readDram d a b) ∨ c = Instr.resume ∨ c =
      Instr.freezeStatus))) ∧
    (∃ (s : State), ∃ (x : Session), ∃ (role : Nat), ∃ (c : Instr), InSession s x role ∧ (role ≠ 1 ∧ ((∃ slot off data, c = Instr.upload slot off
      data) ∨ c = Instr.commit ∨ (∃ off data, c = Instr.cosyImage off data) ∨ (∃ keys, c = Instr.cakSet keys) ∨ ∃ off len, c = Instr.logRead off len)
      ∨ role ≠ 2 ∧ (c = Instr.scrap ∨ ∃ off data, c = Instr.loaderWrite off data) ∨ (role ≠ 3 ∧ ∃ powerLost, c = Instr.provision powerLost) ∨ role =
      4 ∧ ((∃ addr n, c = Instr.regRead addr n) ∨ ∃ sig, c = Instr.prove sig) ∨ role ≠ 1 ∧ role ≠ 2 ∧ ((∃ addr words, c = Instr.regWrite addr words)
      ∨ (∃ token sig, c = Instr.unlock token sig) ∨ c = Instr.readState ∨ (∃ d a b, c = Instr.readDram d a b) ∨ c = Instr.resume ∨ c =
      Instr.freezeStatus))) ∧
    (∃ (s : State), ∃ (x : Session), ∃ (role : Nat), ∃ (c : Instr), InSession s x role ∧ (role ≠ 1 ∧ ((∃ slot off data, c = Instr.upload slot off
      data) ∨ c = Instr.commit ∨ (∃ off data, c = Instr.cosyImage off data) ∨ (∃ keys, c = Instr.cakSet keys) ∨ ∃ off len, c = Instr.logRead off len)
      ∨ role ≠ 2 ∧ (c = Instr.scrap ∨ ∃ off data, c = Instr.loaderWrite off data) ∨ (role ≠ 3 ∧ ∃ powerLost, c = Instr.provision powerLost) ∨ role =
      4 ∧ ((∃ addr n, c = Instr.regRead addr n) ∨ ∃ sig, c = Instr.prove sig) ∨ role ≠ 1 ∧ role ≠ 2 ∧ ((∃ addr words, c = Instr.regWrite addr words)
      ∨ (∃ token sig, c = Instr.unlock token sig) ∨ c = Instr.readState ∨ (∃ d a b, c = Instr.readDram d a b) ∨ c = Instr.resume ∨ c =
      Instr.freezeStatus))) ∧
    (∃ (s : State), ∃ (x : Session), ∃ (role : Nat), ∃ (c : Instr), InSession s x role ∧ (role ≠ 1 ∧ ((∃ slot off data, c = Instr.upload slot off
      data) ∨ c = Instr.commit ∨ (∃ off data, c = Instr.cosyImage off data) ∨ (∃ keys, c = Instr.cakSet keys) ∨ ∃ off len, c = Instr.logRead off len)
      ∨ role ≠ 2 ∧ (c = Instr.scrap ∨ ∃ off data, c = Instr.loaderWrite off data) ∨ (role ≠ 3 ∧ ∃ powerLost, c = Instr.provision powerLost) ∨ role =
      4 ∧ ((∃ addr n, c = Instr.regRead addr n) ∨ ∃ sig, c = Instr.prove sig) ∨ role ≠ 1 ∧ role ≠ 2 ∧ ((∃ addr words, c = Instr.regWrite addr words)
      ∨ (∃ token sig, c = Instr.unlock token sig) ∨ c = Instr.readState ∨ (∃ d a b, c = Instr.readDram d a b) ∨ c = Instr.resume ∨ c =
      Instr.freezeStatus))) ∧
    (∃ (s : State), ∃ (x : Session), ∃ (role : Nat), ∃ (p : Nat), ∃ (i : Nat), ∃ (r : RegSpec), InSession s x role ∧ role ≤ 3 ∧ s.privileged
      Init.session = true ∧ p < 2 ^ 24 ∧ p % 4 = 0 ∧ regSpecAt 6 p = some (r, i) ∧ (¬p ∈ [Fld.tsnWallLo_wall.base, Fld.tsnWallHi_wall.base,
      Fld.tsnTime_epoch.base, Fld.evrRaiseValue_value.base]) ∧ r.base ≠ Fld.evrWindow_word.base ∧ (¬p / 65536 ∈ [50, 58, 1, 3, 51, 48]) ∧ r.isLo =
      false ∧ r.isHi = false ∧ (∀ (f : FieldSpec), f ∈ r.fields → f.access ≠ Access.wo ∧ f.access ≠ Access.rc)) ∧
    (∃ (s : State), ∃ (x : Session), ∃ (role : Nat), ∃ (p : Nat), ∃ (i : Nat), ∃ (r : RegSpec), ∃ (v : Word), InSession s x role ∧ (role = 1 ∨ role =
      2) ∧ s.privileged Init.session = true ∧ p < 2 ^ 24 ∧ p % 4 = 0 ∧ regSpecAt 6 p = some (r, i) ∧ (¬p ∈ [Fld.evrRaiseValue_value.base,
      Fld.evrRaiseCode_code.base, Fld.bootReq_warm.base, Fld.ingI2cCmd_addr.base, Fld.evrFreeze_freeze.base, Fld.frzCtl_freeze.base]) ∧ BitVec.toNat
      v &&& 2 ^ 32 - 1 - r.mask = 0) ∧
    (∃ (s : State), ∃ (x : Session), InSession s x 1) :=
  ⟨⟨withSess up 0, sess 0, 0, .commit, ⟨by unfold InSession; decide +kernel, by simp⟩⟩,
   ⟨withSess up 1, sess 1, 1, .scrap, ⟨by unfold InSession; decide +kernel, by simp⟩⟩,
   ⟨withSess up 2, sess 2, 2, .provision false, ⟨by unfold InSession; decide +kernel, by simp⟩⟩,
   ⟨{ withSess up 1 with sec := { (withSess up 1).sec with lifecycle := 0 } }, sess 1, 3, .readState, ⟨by unfold InSession; decide +kernel, by simp⟩⟩,
   ⟨withSess up 1, sess 1, 1, 0x310004, 0, regOf 0x310004, by unfold InSession; decide +kernel⟩,
   ⟨withSess up 2, sess 2, 2, 0x330004, 0, regOf 0x330004, 9, by unfold InSession; decide +kernel⟩,
   ⟨withSess up 1, sess 1, by unfold InSession; decide +kernel⟩⟩

theorem witness_UploadAndCommitGuardTheSlots :
    (∃ (s : State), ∃ (x : Session), ∃ (slot : Bool), ∃ (off : Nat), ∃ (data : List Byte), InSession s x 1 ∧ off % 4096 = 0 ∧ data.length % 4096 = 0
      ∧ off + data.length ≤ 2 ^ 37 ∧ (s.boot.holding = true ∨ x.slot.getD slot ≠ s.boot.slot)) ∧
    (∃ (s : State), ∃ (x : Session), ∃ (slot : Bool), ∃ (off : Nat), ∃ (data : List Byte), InSession s x 1 ∧ (off % 4096 ≠ 0 ∨ data.length % 4096 ≠ 0
      ∨ 2 ^ 37 < off + data.length ∨ s.boot.holding = false ∧ x.slot.getD slot = s.boot.slot)) ∧
    (∃ (s : State), ∃ (x : Session), ∃ (slot : Bool), ∃ (off : Nat), ∃ (data : List Byte), InSession s x 1 ∧ (off % 4096 ≠ 0 ∨ data.length % 4096 ≠ 0
      ∨ 2 ^ 37 < off + data.length ∨ s.boot.holding = false ∧ x.slot.getD slot = s.boot.slot)) ∧
    (∃ (s : State), ∃ (x : Session), ∃ (b : Bool), InSession s x 1 ∧ x.slot = some b ∧ s.boot.commit = none) ∧
    (∃ (s : State), ∃ (b : Bool), ∃ (readErr : Bool), ∃ (c : Nat), s.frz.stopped = false ∧ s.boot.commit = some b ∧ (c = if readErr = true then 1
      else s.commitCause b)) ∧
    (∃ (s : State), s.frz.stopped = false ∧ s.boot.holding = true ∧ s.slotRecord.pending ≠ none ∧ s.boot.commit = none) ∧
    (∃ (s : State), ∃ (x : Session), ∃ (off : Nat), ∃ (data : List Byte), ∃ (w : Nat), InSession s x 1 ∧ off % 524288 + data.length ≤ 524288 ∧ off +
      data.length ≤ 2 ^ 27 ∧ w = mailboxBase + 524288 + off % 524288) :=
  ⟨⟨withSess up 1, sess 1, true, 4096, zeros 4096, by unfold InSession; decide +kernel⟩,
   ⟨withSess up 1, sess 1, false, 4096, zeros 4096, by unfold InSession; decide +kernel⟩,
   ⟨withSess up 1, sess 1, true, 2 ^ 37, zeros 4096, by unfold InSession; decide +kernel⟩,
   ⟨{ up with sec := { up.sec with session := some { sess 1 with slot := some true } } }, { sess 1 with slot := some true }, true,
     by unfold InSession; decide +kernel⟩,
   ⟨{ withSess up 1 with boot := { up.boot with commit := some true } }, true, true, 1, by decide +kernel⟩,
   ⟨{ atStep 5 with boot := { (atStep 5).boot with holding := true }, flash := { up.flash with record := ⟨some ⟨1, true, ⟨false, some true⟩⟩, none⟩ } },
     by decide +kernel⟩,
   ⟨withSess up 1, sess 1, 0x7FFFF, [7], mailboxBase + 0x80000 + 0x7FFFF, by unfold InSession; decide +kernel⟩⟩

theorem witness_AttestationKeysAndLifecycle :
    (∃ (s : State), ∃ (x : Session), ∃ (role : Nat), InSession s x role ∧ role ≤ 4 ∧ s.sec.trngOk = true ∧ s.sec.attest = none) ∧
    (∃ (s : State), ∃ (x : Session), ∃ (role : Nat), InSession s x role ∧ role ≤ 4 ∧ s.sec.trngOk = true ∧ s.sec.attest ≠ none) ∧
    (∃ (s : State), ∃ (x : Session), ∃ (body : List Byte), s.frz.stopped = false ∧ s.sec.attest = some body ∧ s.sec.session = some x) ∧
    (∃ (s : State), ∃ (x : Session), InSession s x 1) ∧
    (∃ (s : State), ∃ (x : Session), InSession s x 3 ∧ (s.sec.ikey = 0 ∨ s.sec.ikey = sha256 (Hash.bytes x.key))) ∧
    (∃ (s : State), ∃ (x : Session), InSession s x 3 ∧ s.sec.ikey ≠ 0 ∧ s.sec.ikey ≠ sha256 (Hash.bytes x.key)) ∧
    (∃ (s : State), ∃ (x : Session), ∃ (role : Nat), ∃ (scope : Nat), ∃ (token : List Byte), InSession s x role ∧ (role = 1 ∨ role = 2) ∧ scope < 8 ∧
      token = toLE 4 1431194699 ++ toLE 1 scope ++ List.replicate 11 0 ++ toLE 16 s.sec.serial.toNat ++ Hash.bytes x.nonce ∧ s.saf.outOfService =
      true) ∧
    (∃ (s : State), ∃ (x : Session), InSession s x 2) ∧
    (∃ (s : State), ∃ (x : Session), InSession s x 2) :=
  ⟨⟨withSess up 0, sess 0, 0, by unfold InSession; decide +kernel⟩,
   ⟨{ up with sec := { up.sec with session := some (sess 2), attest := some [1] } }, sess 2, 2, by unfold InSession; decide +kernel⟩,
   ⟨{ up with sec := { up.sec with session := some (sess 2), attest := some [1] } }, sess 2, [1], by decide +kernel⟩,
   ⟨withSess up 1, sess 1, by unfold InSession; decide +kernel⟩,
   ⟨made 0, sess 1, by unfold InSession; decide +kernel⟩,
   ⟨made 1, sess 1, by unfold InSession; decide +kernel⟩,
   ⟨withSess idleUp 2, sess 2, 2, 7, toLE 4 0x554E4C4B ++ toLE 1 7 ++ List.replicate 11 0 ++ toLE 16 0 ++ Hash.bytes 0,
     by unfold InSession; decide +kernel⟩,
   ⟨withSess up 2, sess 2, by unfold InSession; decide +kernel⟩,
   ⟨withSess up 2, sess 2, by unfold InSession; decide +kernel⟩⟩

theorem witness_SecurityChecksAndTapScopes :
    (∃ (s : State), s.frz.stopped = false ∧ s.boot.step ≠ 0) ∧
    (∃ (s : State), s.frz.stopped = false ∧ s.boot.step ≠ 0) ∧
    (∃ (s : State), ∃ (c : Instr), ∃ (sec : Security), ∃ (code : Nat), s.frz.stopped = false ∧ s.boot.step ≠ 0 ∧ ((∃ field, c = Instr.otpReread field
      false ∧ (sec = { s.sec with otpOk := false : Security }) ∧ code = 0) ∨ (∃ which, which < 3 ∧ c = Instr.securityKat which false ∧ (sec = { s.sec with katOk := false : Security })
      ∧ code = which + 1) ∨ c = Instr.trngSample false ∧ (sec = { s.sec with trngOk := false : Security }) ∧ code = 4)) ∧
    (∃ (s : State), ∃ (i : TapInstr), s.pwr.good = true ∧ (i = TapInstr.bypass ∨ i = TapInstr.idcode ∨ i = TapInstr.samplePreload ∨ i =
      TapInstr.extest ∧ s.sec.unlocked = true ∧ testBit s.sec.scope 0 = true ∨ ∃ n, i = TapInstr.instrument n ∧ s.sec.unlocked = true ∧ testBit
      s.sec.scope 1 = true)) ∧
    (∃ (s : State), ∃ (i : TapInstr), s.pwr.good = true ∧ (i = TapInstr.extest ∧ (s.sec.unlocked = false ∨ testBit s.sec.scope 0 = false) ∨ ∃ n, i =
      TapInstr.instrument n ∧ (s.sec.unlocked = false ∨ testBit s.sec.scope 1 = false))) :=
  ⟨⟨up, by decide +kernel⟩,
   ⟨up, by decide +kernel⟩,
   ⟨up, .trngSample false, { up.sec with trngOk := false }, 4, ⟨by decide +kernel, by decide +kernel, .inr (.inr ⟨rfl, rfl, rfl⟩)⟩⟩,
   ⟨unlocked 1, .extest, ⟨by decide +kernel, .inr (.inr (.inr (.inl ⟨rfl, by decide +kernel, by decide +kernel⟩)))⟩⟩,
   ⟨unlocked 4, .extest, ⟨by decide +kernel, .inl ⟨rfl, by decide +kernel⟩⟩⟩⟩

theorem witness_FreezesAreTakenReadAndResumed :
    (∃ (s : State), s.mayFreeze = true ∧ s.pinArmed = true) ∧
    (∃ (s : State), ∃ (who : Init), s.mayFreeze = true ∧ who.canAccess = true ∧ s.privileged who = true) ∧
    (∃ (s : State), ∃ (x : Session), ∃ (role : Nat), s.mayFreeze = true ∧ InSession s x role ∧ (role = 1 ∨ role = 2)) ∧
    (∃ (s : State), s.frz.requested = true ∧ s.frz.stopped = false ∧ (∀ (d : Nat), d < s.nDies → s.dieUp d = true → ∀ (k : Nat), k < 8 → (s.ctl d
      k).selfRefresh = true)) ∧
    (∃ (s : State), ∃ (x : Session), ∃ (d : Nat), ∃ (first : Nat), ∃ (last : Nat), s.served = true ∧ s.sec.session = some x ∧ (x.role = 1 ∨ x.role =
      2) ∧ s.sec.lifecycle ≠ 0 ∧ s.sec.lifecycle ≠ 2 ∧ s.frz.stopped = true ∧ d < s.nDies ∧ first ≤ last ∧ last < 1835008 ∧ s.frz.image = true) ∧
    (∃ (s : State), ∃ (x : Session), s.served = true ∧ s.sec.session = some x ∧ (x.role = 1 ∨ x.role = 2) ∧ s.sec.lifecycle ≠ 0 ∧ s.sec.lifecycle ≠ 2
      ∧ s.frz.stopped = true ∧ s.frz.intact = true) :=
  ⟨⟨unlocked 4, by decide +kernel⟩,
   ⟨idleUp, .safety, by decide +kernel⟩,
   ⟨withSess idleUp 2, sess 2, 2, by unfold InSession; decide +kernel⟩,
   ⟨quiet, by decide +kernel⟩,
   ⟨frozen, sess 1, 3, 1835006, 1835007, by decide +kernel⟩,
   ⟨frozen, sess 1, by decide +kernel⟩⟩

theorem witness_RefusedFreezeRequestsAreOnlyCounted :
    (∃ (s : State), ∃ (t : Nat → State), s.frz.stopped = false ∧ (t = fun source => (s.bumpF 6 Fld.frzRefused_refused).raise 3856 source) ∧
      (s.mayFreeze = false ∨ s.pinArmed = false)) ∧
    (∃ (s : State), ∃ (t : Nat → State), ∃ (who : Init), s.frz.stopped = false ∧ (t = fun source => (s.bumpF 6 Fld.frzRefused_refused).raise 3856
      source) ∧ who.canAccess = true ∧ s.privileged who = true ∧ s.mayFreeze = false) ∧
    (∃ (s : State), ∃ (t : Nat → State), ∃ (x : Session), ∃ (role : Nat), s.frz.stopped = false ∧ (t = fun source => (s.bumpF 6
      Fld.frzRefused_refused).raise 3856 source) ∧ InSession s x role ∧ role ≤ 4 ∧ (s.mayFreeze = false ∨ role ≠ 1 ∧ role ≠ 2)) ∧
    (∃ (s : State), ∃ (who : Init), s.frz.stopped = true ∧ who.canAccess = true ∧ s.privileged who = true) ∧
    (∃ (s : State), ∃ (x : Session), s.frz.stopped = true ∧ s.served = true ∧ s.sec.session = some x ∧ x.role ≤ 2) :=
  ⟨⟨up, fun source => (up.bumpF 6 .frzRefused_refused).raise 0x0F10 source, ⟨by decide +kernel, rfl, by decide +kernel⟩⟩,
   ⟨up, fun source => (up.bumpF 6 .frzRefused_refused).raise 0x0F10 source, .mgmt, ⟨by decide +kernel, rfl, by decide +kernel, by decide +kernel,
     by decide +kernel⟩⟩,
   ⟨withSess idleUp 0, fun source => ((withSess idleUp 0).bumpF 6 .frzRefused_refused).raise 0x0F10 source, sess 0, 0, ⟨by decide +kernel, rfl,
     by unfold InSession; decide +kernel, by decide +kernel, by decide +kernel⟩⟩,
   ⟨frozen, .mgmt, by decide +kernel⟩,
   ⟨frozen, sess 1, by decide +kernel⟩⟩

theorem witness_FrameStartsAdvanceAndTakeEffect :
    (∃ (s : State), s.startDue = true ∧ (∀ (d : Nat), (s.die d).restart = none) ∧ s.saf.outOfService = false ∧ s.saf.nextMode = none) ∧
    (∃ (s : State), ∃ (d : Nat), ∃ (g : DieFrame), ∃ (rest : List DieFrame), (s.die d).seq.starts = g :: rest ∧ d < s.dies.length ∧ s.dieUp d = true
      ∧ g.start.dt + 32 ≤ s.deviceTime ∧ s.mustHold d g.start.frame = false ∧ (s.die d).seq.heldStarts = []) ∧
    (∃ (s : State), ∃ (d : Nat), ∃ (g : DieFrame), ∃ (rest : List DieFrame), (s.die d).seq.starts = g :: rest ∧ d < s.dies.length ∧ s.dieUp d = true
      ∧ g.start.dt + 32 ≤ s.deviceTime ∧ (s.mustHold d g.start.frame = true ∨ (s.die d).seq.heldStarts ≠ [])) ∧
    (∃ (s : State), ∃ (d : Nat), ∃ (g : DieFrame), ∃ (rest : List DieFrame), (s.die d).seq.heldStarts = g :: rest ∧ s.dieUp d = true ∧ s.mustHold d
      g.start.frame = false) :=
  ⟨⟨up, ⟨by decide +kernel, restart_none _ (by decide +kernel), by decide +kernel, by decide +kernel⟩⟩,
   ⟨withStart [start 0] [], 0, start 0, [], by decide +kernel⟩,
   ⟨withStart [start 0] [start 0], 0, start 0, [], by decide +kernel⟩,
   ⟨withStart [] [start 0], 0, start 0, [], by decide +kernel⟩⟩

theorem witness_InstancesMoveOnByTheirEvents :
    (∃ (s : State), ∃ (d : Nat), ∃ (node : Nat), ∃ (f : Word), ∃ (i : Inst), s.frz.stopped = false ∧ s.inst d node f = some i ∧ i.complete = false ∧
      i.startDt + (s.node i.variant node).offset ≤ s.deviceTime) ∧
    (∃ (s : State), ∃ (src : Nat), ∃ (dst : Nat), ∃ (n : Notice), (List.find? (fun m => m.src == src && m.dst == dst) s.notices = some n) ∧ s.dieUp
      dst = true ∧ s.reach src dst = true) ∧
    (∃ (s : State), ∃ (src : Nat), ∃ (dst : Nat), ∃ (n : Notice), (List.find? (fun m => m.src == src && m.dst == dst) s.notices = some n) ∧ (s.dieUp
      dst = false ∨ s.reach src dst = false)) ∧
    (∃ (s : State), ∃ (d : Nat), ∃ (node : Nat), ∃ (f : Word), ∃ (i : Inst), s.frz.stopped = false ∧ s.inst d node f = some i ∧ i.complete = false ∧
      i.ended = none ∧ (s.node i.variant node).kind = NodeKind.ingress ∧ i.startDt + (s.node i.variant node).winOpen ≤ s.deviceTime) ∧
    (∃ (s : State), ∃ (d : Nat), ∃ (node : Nat), ∃ (f : Word), ∃ (i : Inst), s.frz.stopped = false ∧ s.inst d node f = some i ∧ i.complete = false ∧
      i.late = false ∧ i.startDt + (s.node i.variant node).winClose ≤ s.deviceTime) ∧
    (∃ (s : State), ∃ (d : Nat), ∃ (g : DieFrame), s.frz.stopped = false ∧ (List.find? (fun g => some g.variant != (s.die d).seq.loaded && (s.die
      d).seq.live g.start.frame) (s.die d).seq.frames = some g) ∧ (s.die d).seq.fence = true ∧ (∀ (i : Inst), i ∈ (s.die d).seq.insts → i.complete =
      true ∨ precedes i.frame g.start.frame = false) ∧ (∀ (p : Nat × DieFrame), p ∈ (s.die d).seq.toCreate → precedes p.snd.start.frame g.start.frame
      = false)) :=
  ⟨⟨withInst inst0, 0, 5, 7, inst0, by decide +kernel⟩,
   ⟨noted, 1, 0, note0, by decide +kernel⟩,
   ⟨cut noted, 1, 0, note0, by decide +kernel⟩,
   ⟨withNode (withInst inst0) kindIngress, 0, 5, 7, inst0, by decide +kernel⟩,
   ⟨withInst inst0, 0, 5, 7, inst0, by decide +kernel⟩,
   ⟨fenced, 0, start 0, by decide +kernel⟩⟩

theorem witness_TasksTakeSlotsAndAreDispatched :
    (∃ (s : State), ∃ (d : Nat), ∃ (k : Nat), ∃ (h : HeldTask), d < s.dies.length ∧ s.dieUp d = true ∧ (s.die d).seq.grantDt ≠ some s.deviceTime ∧
      s.nextHeld d = some h ∧ s.freeSlot d = some k ∧ h.desc.placed = true ∧ h.desc.kind ≠ 6 ∧ h.desc.waitEn = false) ∧
    (∃ (s : State), ∃ (d : Nat), ∃ (k : Nat), ∃ (h : HeldTask), d < s.dies.length ∧ s.dieUp d = true ∧ (s.die d).seq.grantDt ≠ some s.deviceTime ∧
      s.nextHeld d = some h ∧ s.freeSlot d = some k ∧ h.desc.placed = true ∧ h.desc.kind ≠ 6 ∧ h.desc.waitEn = true ∧ h.desc.waitDie ≠ d ∧
      h.desc.waitDie < s.nDies) ∧
    (∃ (s : State), ∃ (who : Init), ∃ (d : Nat), ∃ (list : Nat),  let desc := TaskDesc.ofBytes (List.map (fun i => toLE 4 (s.getF d
      Fld.dspPushData_word i)) (List.range 8)).flatten;  let used := (List.filter (fun p => p.snd.sw) (s.die d).seq.slots).length; ∃ (k : Nat),
      who.canAccess = true ∧ s.privileged who = true ∧ d < s.nDies ∧ d < s.dies.length ∧ readyListDefined list = true ∧ s.dieUp d = true ∧ s.freeSlot
      d = some k ∧ used < (s.plan d).swLimit ∧ s.nextHeld d = none ∧ s.cancelWaits d true k = false ∧ desc.waitEn = false ∧ desc.kind ≠ 6) ∧
    (∃ (s : State), ∃ (who : Init), ∃ (d : Nat), ∃ (list : Nat),  let used := (List.filter (fun p => p.snd.sw) (s.die d).seq.slots).length;
      who.canAccess = true ∧ s.privileged who = true ∧ d < s.nDies ∧ d < s.dies.length ∧ readyListDefined list = true ∧ s.dieUp d = true ∧
      (s.freeSlot d = none ∨ (s.plan d).swLimit ≤ used)) ∧
    (∃ (s : State), ∃ (d : Nat), ∃ (u : Nat), ∃ (q : Nat), ∃ (r : Nat), ∃ (k : Nat), ∃ (tied : List Nat), ∃ (rest : List Nat), ∃ (x : Slot), d <
      s.dies.length ∧ s.dieUp d = true ∧ s.unitFree d u = true ∧ s.choose d u = some (q, r, tied) ∧ s.readyList d q = k :: rest ∧ s.slot d k = some x
      ∧ (arbPick (s.arbiter d (listHeadKey q)) (List.map (fun v => s.headRank d v r) (s.contenders d q)) = some (s.headRank d u r)) ∧ Map.get 0
      (s.die d).seq.gave q ≠ s.deviceTime + 1 ∧ s.slotClosing d k x = false ∧ s.beginOk d u x.desc = true) :=
  ⟨⟨heldIn held0, 0, 0, held0, by decide +kernel⟩,
   ⟨heldIn held1, 0, 0, held1, by decide +kernel⟩,
   ⟨pushable, .mgmt, 0, 0x2F8, 0, by decide +kernel⟩,
   ⟨up, .mgmt, 0, 0x2F8, by decide +kernel⟩,
   ⟨ready0, 0, 86, 0x300, ((ready0.choose 0 86).getD (0,0,[])).2.1, 0, ((ready0.choose 0 86).getD (0,0,[])).2.2, [], slot0, by decide +kernel⟩⟩

theorem witness_TaskEndsReachTheirQueues :
    (∃ (s : State), ∃ (d : Nat), ∃ (u : Nat), ∃ (k : Nat), ∃ (y : Slot), ∃ (e : TaskEnd), ∃ (w : State), ∃ (oor : Nat), s.dieUp d = true ∧ (s.unit d
      u).running = some k ∧ s.slot d k = some y ∧ (s.unitDone d u = true ∨ y.stopped = true ∨ 86 ≤ u) ∧ (w = if u < 72 then s.portsAll d u else s) ∧
      endKind (w.unit d u) e = EndKind.clean ∧ (oor = if 86 ≤ u then cap 65535 e.oor else (w.unit d u).oor)) ∧
    (∃ (s : State), ∃ (d : Nat), ∃ (u : Nat), ∃ (k : Nat), ∃ (y : Slot), ∃ (e : TaskEnd), ∃ (w : State), ∃ (oor : Nat), s.dieUp d = true ∧ (s.unit d
      u).running = some k ∧ s.slot d k = some y ∧ (s.unitDone d u = true ∨ y.stopped = true ∨ 86 ≤ u) ∧ (w = if u < 72 then s.portsAll d u else s) ∧
      endKind (w.unit d u) e = EndKind.clean ∧ (oor = if 86 ≤ u then cap 65535 e.oor else (w.unit d u).oor)) ∧
    (∃ (s : State), ∃ (d : Nat), ∃ (u : Nat), ∃ (k : Nat), ∃ (y : Slot), ∃ (s1 : State), s.dieUp d = true ∧ (s.unit d u).running = some k ∧ s.slot d
      k = some y ∧ y.stopped = true ∧ y.stopDt + 2048 ≤ s.deviceTime ∧ s1 = ((s.closeTracks d u false).freeUnit d u).endTask d k u y Status.timeout
      (s.unit d u).oor) ∧
    (∃ (s : State), ∃ (d : Nat), ∃ (k : Nat), ∃ (u : Nat), ∃ (y : Slot), d < s.dies.length ∧ s.slot d k = some y ∧ (s.unit d u).writes = []) ∧
    (∃ (s : State), ∃ (d : Nat), ∃ (k : Nat), ∃ (o : Owed), s.dieUp d = true ∧ s.owedIn d k = some o ∧ s.mayWrite d o = true ∧ s.cqFull d o.cq =
      false ∧ (List.filter (fun p => p.slot.isSome && p.cq == o.cq && p.record.dt == o.record.dt && s.mayWrite d p) (s.die d).seq.owed = [o]) ∧
      s.arbiter d (65536 + o.cq) = none) ∧
    (∃ (s : State), ∃ (d : Nat), ∃ (k : Nat), ∃ (o : Owed), s.dieUp d = true ∧ s.owedIn d k = some o ∧ s.mayWrite d o = false) ∧
    (∃ (s : State), ∃ (d : Nat), s.dieUp d = true) ∧
    (∃ (s : State), ∃ (who : Init), ∃ (d : Nat), ∃ (q : Nat), ∃ (v : Word), who.canAccess = true ∧ s.privileged who = true ∧ d < s.nDies ∧ s.dieUp d
      = true ∧ q = s.getF d Fld.dspQSel_queue ∧ (s.queueKind d q = QueueKind.cq ∨ s.queueKind d q = QueueKind.ingress) ∧ (Sys2Proof.Machine.Ring.mk
      ((s.ringOf d q).prod) (BitVec.toNat v % (2 * (s.queue d q).size))).depth (s.queue d q) ≤ (s.ringOf d q).depth (s.queue d q)) :=
  ⟨⟨runs0 run1, 0, 86, 0, run1, clean0, runs0 run1, 3, by decide +kernel⟩,
   ⟨runs0 run2, 0, 86, 0, run2, clean0, runs0 run2, 3, by decide +kernel⟩,
   ⟨runs0 run2, 0, 86, 0, run2, (((runs0 run2).closeTracks 0 86 false).freeUnit 0 86).endTask 0 0 86 run2 .timeout ((runs0 run2).unit 0 86).oor,
     by decide +kernel⟩,
   ⟨runs0 run2, 0, 0, 86, run2, by decide +kernel⟩,
   ⟨owes [inst0], 0, 0, owed0, by decide +kernel⟩,
   ⟨owes [inst6, inst0], 0, 0, owed0, by decide +kernel⟩,
   ⟨up, 0, by decide +kernel⟩,
   ⟨cqs, .mgmt, 0, 0x400, 0, by decide +kernel⟩⟩

theorem witness_SoftwareCancelsWork :
    (∃ (s : State), ∃ (who : Init), ∃ (d : Nat), ∃ (node : Nat), who.canAccess = true ∧ s.privileged who = true ∧ d < s.nDies ∧ s.dieUp d = true ∧
      (List.find? (fun i => i.node == node && i.frame == Word.ofNat (s.getF d Fld.dspCancelFrame_frame) && !i.complete) (s.die d).seq.insts = none)) ∧
    (∃ (s : State), ∃ (who : Init), ∃ (d : Nat), ∃ (node : Nat), ∃ (i : Inst), who.canAccess = true ∧ s.privileged who = true ∧ d < s.nDies ∧ s.dieUp
      d = true ∧ (List.find? (fun i => i.node == node && i.frame == Word.ofNat (s.getF d Fld.dspCancelFrame_frame) && !i.complete) (s.die
      d).seq.insts = some i) ∧ (s.node i.variant i.node).kind = NodeKind.tasks ∧ i.released = false ∧ i.late = false ∧ i.cancelAtRelease = false ∧
      s.saf.outOfService = false ∧ 0 < (s.node i.variant i.node).tasks) ∧
    (∃ (s : State), ∃ (who : Init), ∃ (d : Nat), ∃ (slot : Nat), who.canAccess = true ∧ s.privileged who = true ∧ d < s.nDies ∧ s.dieUp d = true ∧ (∀
      (x : Slot), s.slot d slot = some x → x.sw = false ∨ x.state ≠ SlotState.waiting ∧ x.state ≠ SlotState.ready)) ∧
    (∃ (s : State), ∃ (who : Init), ∃ (d : Nat), ∃ (slot : Nat), ∃ (x : Slot), who.canAccess = true ∧ s.privileged who = true ∧ d < s.nDies ∧ s.dieUp
      d = true ∧ s.slot d slot = some x ∧ x.sw = true ∧ (x.state = SlotState.waiting ∨ x.state = SlotState.ready)) :=
  ⟨⟨up, .mgmt, 0, 5, by decide +kernel⟩,
   ⟨toCancel, .mgmt, 0, 5, inst0, by decide +kernel⟩,
   ⟨up, .mgmt, 0, 5, by decide +kernel⟩,
   ⟨swSlot, .mgmt, 0, 0, { slot0 with sw := true, list := 0x300 }, by decide +kernel⟩⟩

theorem witness_FlagAddAndSet :
    (∃ (s : State), ∃ (src : FlagSrc), ∃ (d : Nat), ∃ (f : Nat), ∃ (v : Word), s.frz.stopped = false ∧ d < s.nDies ∧ d < s.dies.length ∧ f < 4096 ∧
      s.flagMiss src = false ∧ s.dieUp d = true ∧ s.reach src.die d = true ∧ manyWrong (Map.get 0 s.upsets (flagWord d f)) = false ∧ (¬f ∈ (s.die
      d).flagHeld) ∧ FlagSrc.allowed false src = true ∧ (src.travels = true → { kind := TravelKind.add, src := src.die, dst := d, slot := 0, flag := f, value := v, counted := false }
      ∈ s.travel)) ∧
    (∃ (s : State), ∃ (src : FlagSrc), ∃ (d : Nat), ∃ (f : Nat), ∃ (v : Word), s.frz.stopped = false ∧ d < s.nDies ∧ d < s.dies.length ∧ f < 4096 ∧
      s.flagMiss src = false ∧ s.dieUp d = true ∧ s.reach src.die d = true ∧ manyWrong (Map.get 0 s.upsets (flagWord d f)) = false ∧ (¬f ∈ (s.die
      d).flagHeld) ∧ FlagSrc.allowed false src = true ∧ (src.travels = true → { kind := TravelKind.add, src := src.die, dst := d, slot := 0, flag := f, value := v, counted := false }
      ∈ s.travel)) ∧
    (∃ (s : State), ∃ (src : FlagSrc), ∃ (d : Nat), ∃ (f : Nat), s.frz.stopped = false ∧ d < s.nDies ∧ d < s.dies.length ∧ f < 4096 ∧ s.flagMiss src
      = false ∧ s.dieUp d = true ∧ s.reach src.die d = true ∧ manyWrong (Map.get 0 s.upsets (flagWord d f)) = false ∧ (¬f ∈ (s.die d).flagHeld) ∧
      FlagSrc.allowed true src = true) ∧
    (∃ (s : State), ∃ (src : FlagSrc), ∃ (d : Nat), ∃ (f : Nat), s.frz.stopped = false ∧ d < s.nDies ∧ d < s.dies.length ∧ f < 4096 ∧ s.flagMiss src
      = false ∧ s.dieUp d = true ∧ s.reach src.die d = true ∧ manyWrong (Map.get 0 s.upsets (flagWord d f)) = false ∧ (¬f ∈ (s.die d).flagHeld) ∧
      FlagSrc.allowed true src = true) ∧
    (∃ (s : State), ∃ (src : FlagSrc), ∃ (d : Nat), ∃ (f : Nat), s.frz.stopped = false ∧ d < s.nDies ∧ d < s.dies.length ∧ f < 4096 ∧ s.flagMiss src
      = false ∧ FlagSrc.allowed true src = true ∧ s.dieUp d = true ∧ s.reach src.die d = true ∧ f ∈ (s.die d).flagHeld ∧ manyWrong (Map.get 0
      s.upsets (flagWord d f)) = false) ∧
    (∃ (s : State), ∃ (src : FlagSrc), ∃ (d : Nat), ∃ (f : Nat), ∃ (bad : Bool), s.frz.stopped = false ∧ d < s.nDies ∧ d < s.dies.length ∧ f < 4096 ∧
      s.flagMiss src = false ∧ FlagSrc.allowed true src = true ∧ s.dieUp d = true ∧ s.reach src.die d = true ∧ (¬f ∈ (s.die d).flagHeld) ∧ (bad =
      true ∨ manyWrong (Map.get 0 s.upsets (flagWord d f)) = true)) ∧
    (∃ (s : State), ∃ (src : FlagSrc), ∃ (d : Nat), ∃ (f : Nat), s.frz.stopped = false ∧ d < s.nDies ∧ d < s.dies.length ∧ f < 4096 ∧ s.flagMiss src
      = false ∧ FlagSrc.allowed true src = true ∧ (s.dieUp d = false ∨ s.reach src.die d = false)) ∧
    (∃ (s : State), ∃ (src : FlagSrc), ∃ (d : Nat), ∃ (f : Nat), s.frz.stopped = false ∧ d < s.nDies ∧ d < s.dies.length ∧ f < 4096 ∧ s.flagMiss src
      = false ∧ FlagSrc.allowed false src = true ∧ src.travels = false ∧ (s.dieUp d = false ∨ s.reach src.die d = false)) :=
  ⟨⟨{ up with travel := [addT] }, .sequencer 1, 0, 3, 5, by decide +kernel⟩,
   ⟨up, .reg .mgmt, 0, 3, 5, by decide +kernel⟩,
   ⟨up, .ingress, 0, 3, by decide +kernel⟩,
   ⟨up, .reg .mgmt, 0, 3, by decide +kernel⟩,
   ⟨flagBad, .reg .mgmt, 0, 3, by decide +kernel⟩,
   ⟨up, .reg .mgmt, 0, 3, true, by decide +kernel⟩,
   ⟨{ up with dies := (up.dies.set 2 { Die.fresh with failed := true }) }, .reg .mgmt, 2, 3, by decide +kernel⟩,
   ⟨{ up with dies := (up.dies.set 2 { Die.fresh with failed := true }) }, .reg .mgmt, 2, 3, by decide +kernel⟩⟩

theorem witness_WatchesAreMetHeldOrRefused :
    (∃ (s : State), ∃ (src : Nat), ∃ (dst : Nat), ∃ (w : Travel), (List.find? (fun t => t.kind == TravelKind.watch && t.src == src && t.dst == dst)
      s.travel = some w) ∧ dst < s.dies.length ∧ src < 8 ∧ s.reach src dst = false) ∧
    (∃ (s : State), ∃ (src : Nat), ∃ (dst : Nat), ∃ (w : Travel), (List.find? (fun t => t.kind == TravelKind.watch && t.src == src && t.dst == dst)
      s.travel = some w) ∧ dst < s.dies.length ∧ (s.reach src dst = true ∨ 8 ≤ src) ∧ s.dieUp dst = true ∧ (s.die dst).watches.length < 1024 ∧
      manyWrong (Map.get 0 s.upsets (flagWord dst w.flag)) = false ∧ s.flagMeets dst w.flag w.value = true) ∧
    (∃ (s : State), ∃ (src : Nat), ∃ (dst : Nat), ∃ (w : Travel), (List.find? (fun t => t.kind == TravelKind.watch && t.src == src && t.dst == dst)
      s.travel = some w) ∧ dst < s.dies.length ∧ (s.reach src dst = true ∨ 8 ≤ src) ∧ s.dieUp dst = true ∧ (s.die dst).watches.length < 1024 ∧
      manyWrong (Map.get 0 s.upsets (flagWord dst w.flag)) = false ∧ s.flagMeets dst w.flag w.value = false) ∧
    (∃ (s : State), ∃ (src : Nat), ∃ (dst : Nat), ∃ (w : Travel), (List.find? (fun t => t.kind == TravelKind.watch && t.src == src && t.dst == dst)
      s.travel = some w) ∧ dst < s.dies.length ∧ (s.reach src dst = true ∨ 8 ≤ src) ∧ (s.dieUp dst = false ∨ 1024 ≤ (s.die dst).watches.length)) ∧
    (∃ (s : State), ∃ (src : Nat), ∃ (dst : Nat), ∃ (w : Travel), (List.find? (fun t => t.kind == TravelKind.watch && t.src == src && t.dst == dst)
      s.travel = some w) ∧ dst < s.dies.length ∧ (s.reach src dst = true ∨ 8 ≤ src) ∧ (s.dieUp dst = false ∨ 1024 ≤ (s.die dst).watches.length)) ∧
    (∃ (s : State), ∃ (src : Nat), ∃ (dst : Nat), ∃ (w : Travel), s.frz.stopped = false ∧ (List.find? (fun t => t.kind == TravelKind.refused && t.src
      == src && t.dst == dst) s.travel = some w)) ∧
    (∃ (s : State), ∃ (src : Nat), ∃ (dst : Nat), ∃ (slot : Nat), s.frz.stopped = false ∧ (∀ (x : Slot), s.slot src slot = some x → x.state ≠
      SlotState.waiting ∨ x.desc.waitDie ≠ dst) ∧ dst < s.dies.length) ∧
    (∃ (s : State), ∃ (src : Nat), ∃ (dst : Nat), ∃ (w : Travel), ∃ (x : Slot), s.frz.stopped = false ∧ (List.find? (fun t => t.kind ==
      TravelKind.met && t.src == src && t.dst == dst) s.travel = some w) ∧ s.reach src dst = true ∧ dst < 8 ∧ w.slot < 4096 ∧ s.slot dst w.slot =
      some x ∧ x.state = SlotState.waiting ∧ x.desc.waitDie = src ∧ x.desc.waitFlag = w.flag ∧ x.desc.waitValue = w.value) :=
  ⟨⟨watchLost, 1, 0, watch0 .watch 1, by decide +kernel⟩,
   ⟨trav (watch0 .watch 0), 1, 0, watch0 .watch 0, by decide +kernel⟩,
   ⟨trav (watch0 .watch 1), 1, 0, watch0 .watch 1, by decide +kernel⟩,
   ⟨onDie (trav (watch0 .watch 1)) (fun x => { x with restart := some ⟨0, false, false⟩ }), 1, 0, watch0 .watch 1, by decide +kernel⟩,
   ⟨onDie (trav (watch0 .watch 1)) (fun x => { x with watches := List.replicate 1024 ⟨0, 0, 0, 9, false⟩ }), 1, 0, watch0 .watch 1,
     by decide +kernel⟩,
   ⟨trav (watch0 .refused 1), 1, 0, watch0 .refused 1, by decide +kernel⟩,
   ⟨trav (watch0 .watch 1), 0, 1, 2, by decide +kernel⟩,
   ⟨waits, 1, 0, ⟨.met, 1, 0, 2, 3, 5, false⟩, { slot0 with state := .waiting, desc := { desc0 with waitEn := true, waitDie := 1, waitFlag := 3, waitValue := 5 } },
     by decide +kernel⟩⟩

theorem witness_RemotePortsAndPatrols :
    (∃ (s : State), ∃ (d : Nat), ∃ (c : Nat), ∃ (req : RemoteReq), d < s.nDies ∧ c < 72 ∧ req.addr < 393216 ∧ ((req.addr % 64 + match req.write with
      | some l => l.length | none => 64) ≤ 64) ∧ s.dieUp d = true ∧ (s.unit d c).underTest = false ∧ (s.core d c).remote.length < 32 ∧ d <
      s.dies.length ∧ (s.core d c).acceptDt ≠ some s.deviceTime) ∧
    (∃ (s : State), ∃ (d : Nat), ∃ (c : Nat), ∃ (req : RemoteReq), d < s.nDies ∧ c < 72 ∧ req.addr < 393216 ∧ ((req.addr % 64 + match req.write with
      | some l => l.length | none => 64) ≤ 64) ∧ s.dieUp d = true ∧ (s.unit d c).underTest = false ∧ (s.core d c).remote.length < 32 ∧ d <
      s.dies.length ∧ (s.core d c).acceptDt ≠ some s.deviceTime) ∧
    (∃ (s : State), ∃ (d : Nat), ∃ (c : Nat), ∃ (req : RemoteReq), d < s.nDies ∧ c < 72 ∧ req.addr < 393216 ∧ ((req.addr % 64 + match req.write with
      | some l => l.length | none => 64) ≤ 64) ∧ s.dieUp d = true ∧ (s.unit d c).underTest = false ∧ (s.core d c).remote.length < 32 ∧ d <
      s.dies.length ∧ (s.core d c).acceptDt = some s.deviceTime) ∧
    (∃ (s : State), ∃ (d : Nat), ∃ (c : Nat), ∃ (r : RemoteItem), s.dieUp d = true ∧ d < s.nDies ∧ d < s.dies.length ∧ c < 72 ∧ r.addr < 393216 ∧
      (s.core d c).remoteDt ≠ some s.deviceTime ∧ s.nextRemote d c = some r) ∧
    (∃ (s : State), ∃ (d : Nat), ∃ (c : Nat), ∃ (r : RemoteItem), s.dieUp d = true ∧ d < s.nDies ∧ d < s.dies.length ∧ c < 72 ∧ r.addr < 393216 ∧
      (s.core d c).remoteDt ≠ some s.deviceTime ∧ s.nextRemote d c = some r) ∧
    (∃ (s : State), ∃ (d : Nat), ∃ (addr : Nat), s.addrDie addr = some d ∧ (s.die d).restart ≠ none) ∧
    (∃ (s : State), ∃ (d : Nat), ∃ (c : Nat), s.dieUp d = true ∧ d < s.dies.length ∧ c < 72 ∧ (s.unit d c).retired = false ∧ s.hyperEntry d c = 255 ∧
      (s.core d c).patrolDt ≠ some s.deviceTime) ∧
    (∃ (s : State), ∃ (d : Nat), ∃ (c : Nat), s.dieUp d = true ∧ d < s.dies.length ∧ c < 72 ∧ (s.unit d c).retired = false ∧ s.hyperEntry d c = 255 ∧
      (s.core d c).patrolDt ≠ some s.deviceTime) ∧
    (∃ (s : State), ∃ (d : Nat), ∃ (c : Nat), s.dieUp d = true ∧ d < s.dies.length ∧ c < 72 ∧ (s.unit d c).retired = false ∧ (s.hyperEntry d c ≠ 255
      ∨ (s.core d c).patrolDt = some s.deviceTime)) ∧
    (∃ (s : State), ∃ (d : Nat), ∃ (bank : Nat), s.dieUp d = true ∧ d < s.dies.length ∧ bank < 64 ∧ Map.get 0 (s.die d).cmnDt bank ≤ s.deviceTime) ∧
    (∃ (s : State), ∃ (d : Nat), ∃ (bank : Nat), s.dieUp d = true ∧ d < s.dies.length ∧ bank < 64 ∧ Map.get 0 (s.die d).cmnDt bank ≤ s.deviceTime) ∧
    (∃ (s : State), ∃ (d : Nat), ∃ (bank : Nat), s.dieUp d = true ∧ d < s.dies.length ∧ bank < 64 ∧ s.deviceTime < Map.get 0 (s.die d).cmnDt bank) :=
  ⟨⟨up, 0, 3, ⟨0x100, none, 0⟩, by decide +kernel⟩,
   ⟨up, 0, 3, ⟨0x110, some [1,2,3], 15⟩, by decide +kernel⟩,
   ⟨accepted, 0, 3, ⟨0x100, none, 0⟩, by decide +kernel⟩,
   ⟨queued item0, 0, 3, item0, by decide +kernel⟩,
   ⟨queued item1, 0, 3, item1, by decide +kernel⟩,
   ⟨downDie, 0, spdBase 0 3, by decide +kernel⟩,
   ⟨lastEntry, 0, 3, by decide +kernel⟩,
   ⟨lastEntry, 0, 3, by decide +kernel⟩,
   ⟨up, 0, 3, by decide +kernel⟩,
   ⟨onDie up (fun x => { x with cmnFix := [(5, 7)] }), 0, 5, by decide +kernel⟩,
   ⟨up, 0, 5, by decide +kernel⟩,
   ⟨onDie up (fun x => { x with cmnDt := [(5, up.deviceTime + 1)] }), 0, 5, by decide +kernel⟩⟩

theorem witness_DramWriteThenRead :
    (∃ (s : State), ∃ (d : Nat), ∃ (addr : Nat), ∃ (off : Nat), ∃ (data : List Byte), s.frz.stopped = false ∧ s.region addr = Region.dram d off ∧
      addr % 16 = 0 ∧ data.length % 16 = 0 ∧ 0 < data.length ∧ addr % 128 + data.length ≤ 128 ∧ s.dieUp d = true ∧ (s.ctl d (dramCtl
      off)).selfRefresh = false ∧ (s.ctl d (dramCtl off)).failed = false ∧ (∀ (a : Nat), addr ≤ a → a < addr + data.length → s.lockedAt a = false)) ∧
    (∃ (s : State), ∃ (d : Nat), ∃ (addr : Nat), ∃ (off : Nat), ∃ (data : List Byte), s.frz.stopped = false ∧ s.region addr = Region.dram d off ∧
      addr % 16 = 0 ∧ data.length % 16 = 0 ∧ 0 < data.length ∧ addr % 128 + data.length ≤ 128 ∧ s.dieUp d = true ∧ (s.ctl d (dramCtl
      off)).selfRefresh = false ∧ (s.ctl d (dramCtl off)).failed = false ∧ (∀ (a : Nat), addr ≤ a → a < addr + data.length → s.lockedAt a = false)) ∧
    (∃ (s : State), ∃ (d : Nat), ∃ (addr : Nat), ∃ (off : Nat), s.region addr = Region.dram d off ∧ s.dieUp d = true ∧ (s.die d).restart = none ∧
      (s.ctl d (dramCtl off)).selfRefresh = false ∧ (s.ctl d (dramCtl off)).failed = false ∧ (∀ (i : Nat), i < 8 → s.poisonAt (addr / 128 * 128 + 16
      * i) = false ∧ Map.get 0 s.upsets (addr / 128 * 8 + i) = 0)) ∧
    (∃ (s : State), ∃ (d : Nat), ∃ (addr : Nat), ∃ (off : Nat), s.region addr = Region.dram d off ∧ (s.die d).restart ≠ none) ∧
    (∃ (s : State), ∃ (d : Nat), ∃ (addr : Nat), ∃ (c : Instr), s.frz.stopped = false ∧ ((∃ obs, c = Instr.dramRead d addr obs) ∨ (∃ data poison, c =
      Instr.dramWrite d addr data poison) ∨ ∃ m, c = Instr.dramMerge d addr m) ∧ s.region addr = Region.reserved ∧ addr < 2 ^ 40) ∧
    (∃ (s : State), ∃ (d : Nat), ∃ (addr : Nat), ∃ (c : Instr), s.frz.stopped = false ∧ ((∃ obs, c = Instr.dramRead d addr obs) ∨ (∃ data poison, c =
      Instr.dramWrite d addr data poison) ∨ ∃ m, c = Instr.dramMerge d addr m) ∧ s.region addr = Region.reserved ∧ addr < 2 ^ 40) ∧
    (∃ (s : State), ∃ (d : Nat), ∃ (addr : Nat), ∃ (c : Instr), s.frz.stopped = false ∧ ((∃ obs, c = Instr.dramRead d addr obs) ∨ (∃ data poison, c =
      Instr.dramWrite d addr data poison) ∨ ∃ m, c = Instr.dramMerge d addr m) ∧ 2 ^ 40 ≤ addr) :=
  ⟨⟨up, 0, 0x1000, 0x1000, List.replicate 32 7, ⟨by decide +kernel, by decide +kernel, by decide +kernel, by decide +kernel, by decide +kernel,
     by decide +kernel, by decide +kernel, by decide +kernel, by decide +kernel, fun _ _ _ => rfl⟩⟩,
   ⟨up, 3, dramBase 3 + 0x1BFFFFFFF0, 0x1BFFFFFFF0, List.replicate 16 7, ⟨by decide +kernel, by decide +kernel, by decide +kernel, by decide +kernel,
     by decide +kernel, by decide +kernel, by decide +kernel, by decide +kernel, by decide +kernel, fun _ _ _ => rfl⟩⟩,
   ⟨up, 0, 0x1010, 0x1010, by decide +kernel⟩,
   ⟨downDie, 0, 0x1000, 0x1000, by decide +kernel⟩,
   ⟨up, 0, 0x1C00000000, .dramRead 0 0x1C00000000 [], ⟨by decide +kernel, by simp, by decide +kernel, by decide +kernel⟩⟩,
   ⟨up, 0, 0x1C00000000, .dramWrite 0 0x1C00000000 [1] false, ⟨by decide +kernel, by simp, by decide +kernel, by decide +kernel⟩⟩,
   ⟨up, 0, 2 ^ 40, .dramMerge 0 (2 ^ 40) (.addI32 0 5), ⟨by decide +kernel, by simp, by decide +kernel⟩⟩⟩

theorem witness_DramMergesAndLockedWrites :
    (∃ (s : State), ∃ (d : Nat), ∃ (addr : Nat), ∃ (off : Nat), ∃ (data : List Byte), s.frz.stopped = false ∧ s.region addr = Region.dram d off ∧
      addr % 16 = 0 ∧ data.length = 16 ∧ s.dieUp d = true ∧ (s.ctl d (dramCtl off)).selfRefresh = false ∧ (s.ctl d (dramCtl off)).failed = false ∧
      s.lockedAt addr = true) ∧
    (∃ (s : State), ∃ (d : Nat), ∃ (addr : Nat), ∃ (off : Nat), ∃ (o : Nat), ∃ (l : List Byte), s.frz.stopped = false ∧ s.region addr = Region.dram d
      off ∧ addr % 16 = 0 ∧ s.dieUp d = true ∧ (s.ctl d (dramCtl off)).selfRefresh = false ∧ (s.ctl d (dramCtl off)).failed = false ∧ (∀ (a : Nat),
      addr ≤ a → a < addr + 16 → s.lockedAt a = false) ∧ 0 < l.length ∧ o + l.length ≤ 16 ∧ (¬(o = 0 ∧ l.length = 16))) ∧
    (∃ (s : State), ∃ (d : Nat), ∃ (addr : Nat), ∃ (off : Nat), ∃ (o : Nat), s.frz.stopped = false ∧ s.region addr = Region.dram d off ∧ addr % 16 =
      0 ∧ s.dieUp d = true ∧ (s.ctl d (dramCtl off)).selfRefresh = false ∧ (s.ctl d (dramCtl off)).failed = false ∧ (∀ (a : Nat), addr ≤ a → a < addr
      + 16 → s.lockedAt a = false) ∧ o % 4 = 0 ∧ o < 16) ∧
    (∃ (s : State), ∃ (d : Nat), ∃ (addr : Nat), ∃ (off : Nat), ∃ (o : Nat), s.frz.stopped = false ∧ s.region addr = Region.dram d off ∧ addr % 16 =
      0 ∧ s.dieUp d = true ∧ (s.ctl d (dramCtl off)).selfRefresh = false ∧ (s.ctl d (dramCtl off)).failed = false ∧ (∀ (a : Nat), addr ≤ a → a < addr
      + 16 → s.lockedAt a = false) ∧ o % 4 ≠ 0) :=
  ⟨⟨lockedS, 0, 0x1000, 0x1000, List.replicate 16 7, by decide +kernel⟩,
   ⟨up, 0, 0x1000, 0x1000, 3, [1, 2, 3], ⟨by decide +kernel, by decide +kernel, by decide +kernel, by decide +kernel, by decide +kernel,
     by decide +kernel, fun _ _ _ => rfl, by decide +kernel, by decide +kernel, by decide +kernel⟩⟩,
   ⟨up, 0, 0x1000, 0x1000, 12, ⟨by decide +kernel, by decide +kernel, by decide +kernel, by decide +kernel, by decide +kernel, by decide +kernel,
     fun _ _ _ => rfl, by decide +kernel, by decide +kernel⟩⟩,
   ⟨up, 0, 0x1000, 0x1000, 3, ⟨by decide +kernel, by decide +kernel, by decide +kernel, by decide +kernel, by decide +kernel, by decide +kernel,
     fun _ _ _ => rfl, by decide +kernel⟩⟩⟩

theorem witness_DramMaintenanceKeepsMemory :
    (∃ (s : State), ∃ (d : Nat), ∃ (k : Nat), s.dieUp d = true ∧ d < s.dies.length ∧ k < 8 ∧ (s.ctl d k).selfRefresh = false ∧ (s.ctl d k).failed =
      false ∧ (s.ctl d k).fix ≠ []) ∧
    (∃ (s : State), ∃ (d : Nat), ∃ (k : Nat), s.dieUp d = true ∧ d < s.dies.length ∧ k < 8 ∧ (s.ctl d k).selfRefresh = false ∧ (s.ctl d k).failed =
      false ∧ (s.ctl d k).fix = []) ∧
    (∃ (s : State), ∃ (d : Nat), ∃ (k : Nat), s.dieUp d = true ∧ d < s.dies.length ∧ k < 8 ∧ (s.ctl d k).selfRefresh = false ∧ (s.ctl d k).failed =
      false ∧ (s.ctl d k).fix = []) ∧
    (∃ (s : State), ∃ (d : Nat), ∃ (k : Nat), ∃ (p : Nat), ∃ (rest : List Nat), ∃ (f : Nat), ∃ (q : Nat), s.dieUp d = true ∧ d < s.dies.length ∧ k <
      8 ∧ (s.ctl d k).selfRefresh = false ∧ (s.ctl d k).queue = p :: rest ∧ (s.ctl d k).frame p = some f ∧ (s.ctl d k).free = some q) ∧
    (∃ (s : State), ∃ (d : Nat), ∃ (k : Nat), d < s.nDies ∧ d < s.dies.length ∧ k < 8 ∧ s.dieUp d = true) ∧
    (∃ (s : State), ∃ (d : Nat), ∃ (k : Nat), d < s.nDies ∧ d < s.dies.length ∧ k < 8 ∧ s.dieUp d = true ∧ (s.ctl d k).lastCalDt + 28800000 ≤
      s.deviceTime) ∧
    (∃ (s : State), ∃ (d : Nat), ∃ (k : Nat), ∃ (w : Nat), ∃ (o : Nat), ∃ (c : Nat), d < s.nDies ∧ d < s.dies.length ∧ k < 8 ∧ s.dieUp d = true ∧
      (s.ctl d k).selfRefresh = false ∧ (s.ctl d k).due = true ∧ w < 4 ∧ s.quietWindow d w = some (o, c) ∧ s.root.startDt + o ≤ s.deviceTime ∧
      s.deviceTime + calCycles ≤ s.root.startDt + c) ∧
    (∃ (s : State), ∃ (d : Nat), ∃ (k : Nat), d < s.nDies ∧ d < s.dies.length ∧ k < 8 ∧ s.dieUp d = true ∧ (s.ctl d k).selfRefresh = false ∧ (s.ctl d
      k).due = true ∧ (s.ctl d k).dueDt + 90000000 ≤ s.deviceTime) ∧
    (∃ (s : State), ∃ (d : Nat), ∃ (k : Nat), d < s.nDies ∧ d < s.dies.length ∧ k < 8 ∧ ((s.die d).restart ≠ none ∨ s.frz.requested = true ∨
      s.frz.stopped = true)) ∧
    (∃ (s : State), ∃ (d : Nat), ∃ (k : Nat), d < s.nDies ∧ d < s.dies.length ∧ k < 8 ∧ (s.ctl d k).selfRefresh = true ∧ s.frz.requested = false) ∧
    (∃ (s : State), ∃ (d : Nat), ∃ (k : Nat), d < s.nDies ∧ d < s.dies.length ∧ k < 8 ∧ (s.ctl d k).selfRefresh = true ∧ s.frz.requested = false) :=
  ⟨⟨ctl0 (fun c => { c with fix := [4, 5] }), 0, 2, by decide +kernel⟩,
   ⟨up, 0, 2, by decide +kernel⟩,
   ⟨ctl0 (fun c => { c with patrol := slicesAll * 64 - 1 }), 0, 2, by decide +kernel⟩,
   ⟨ctl0 (fun c => { c with queue := [9] }), 0, 2, 9, [], 9, slicesMain, by decide +kernel⟩,
   ⟨up, 0, 2, by decide +kernel⟩,
   ⟨up, 0, 2, by decide +kernel⟩,
   ⟨quietCtl, 0, 2, 0, 1024, 102400, by decide +kernel⟩,
   ⟨quietCtl, 0, 2, by decide +kernel⟩,
   ⟨downDie, 0, 2, by decide +kernel⟩,
   ⟨ctl0 (fun c => { c with selfRefresh := true }), 0, 2, by decide +kernel⟩,
   ⟨ctl0 (fun c => { c with selfRefresh := true, failed := true }), 0, 2, by decide +kernel⟩⟩

theorem witness_RotationSlicesAndSegments :
    (∃ (s : State), ∃ (d : Nat), ∃ (g : Nat), ∃ (u : Nat), ∃ (h : Nat), ∃ (p : Nat), s.frz.stopped = false ∧ d ≠ 6 ∧ d < s.dies.length ∧ s.dieUp d =
      true ∧ g < 13 ∧ Map.get 0 (s.die d).rotation (g + 100) < gridIndex g s.deviceTime ∧ s.tested d g = some u ∧ u ≠ h ∧ (List.find? (fun u =>
      (s.unit d u).abandoned && (s.unit d u).position.isSome) (s.alive d g) = none) ∧ p = nth 0 (groupPositions (s.variantCores d) g) (Map.get 0
      (s.die d).rotation g) ∧ s.holder d p = some h ∧ (s.unit d h).running = none ∧ (s.unit d h).forced = false ∧ (s.unit d h).segmentOpen = false) ∧
    (∃ (s : State), ∃ (k : Nat), s.frz.stopped = false ∧ s.sparePipe = some k ∧ (Map.get PipeTest.fresh s.ingress.tests k).underTest = false ∧
      s.ingress.rotGrid * 4500000 ≤ s.deviceTime ∧ 9 ≤ s.boot.step) ∧
    (∃ (s : State), ∃ (d : Nat), ∃ (u : Nat), ∃ (r : SliceResult), s.frz.stopped = false ∧ d < s.nDies ∧ d < s.dies.length ∧ s.dieUp d = true ∧ u <
      85 ∧ (s.unit d u).underTest = true ∧ (s.unit d u).testDt + sliceCycles d u ≤ s.deviceTime ∧ r.pass = true ∧ r.kind ≠ 2 ∧ (s.unit d u).uncovered
      = false) ∧
    (∃ (s : State), ∃ (d : Nat), ∃ (u : Nat), ∃ (r : SliceResult), s.frz.stopped = false ∧ d < s.nDies ∧ d < s.dies.length ∧ s.dieUp d = true ∧ u <
      85 ∧ (s.unit d u).underTest = true ∧ (s.unit d u).testDt + sliceCycles d u ≤ s.deviceTime ∧ r.pass = false ∧ (s.unit d u).retired = false) ∧
    (∃ (s : State), ∃ (d : Nat), ∃ (u : Nat), ∃ (g : Nat), ∃ (p : Nat), unitGroup u = some g ∧ (s.unit d u).position = some p ∧ d < s.dies.length ∧
      s.dieUp d = true ∧ s.degraded d g = true ∧ s.unitFree d u = true ∧ (∀ (v : Nat), v ∈ s.alive d g → (s.unit d u).fullDt ≤ (s.unit d v).fullDt) ∧
      (∀ (c : Nat × Nat), c ∈ candidateLists p → s.readyList d c.fst = []) ∧ s.inTestWindow d (s.unit d u).segmentCycles = true) ∧
    (∃ (s : State), ∃ (d : Nat), ∃ (u : Nat), ∃ (r : SliceResult), d < s.dies.length ∧ s.dieUp d = true ∧ (s.unit d u).segmentOpen = true ∧ (s.unit d
      u).testDt + (s.unit d u).segmentCycles ≤ s.deviceTime ∧ r.pass = true ∧ (s.unit d u).segments < 16) ∧
    (∃ (s : State), ∃ (d : Nat), ∃ (u : Nat), ∃ (r : SliceResult), d < s.dies.length ∧ s.dieUp d = true ∧ (s.unit d u).segmentOpen = true ∧ (s.unit d
      u).testDt + (s.unit d u).segmentCycles ≤ s.deviceTime ∧ r.pass = true ∧ (s.unit d u).segments = 16 ∧ (s.unit d u).uncovered = false) ∧
    (∃ (s : State), ∃ (d : Nat), ∃ (u : Nat), ∃ (r : SliceResult), d < s.dies.length ∧ s.dieUp d = true ∧ (s.unit d u).segmentOpen = true ∧ (s.unit d
      u).testDt + (s.unit d u).segmentCycles ≤ s.deviceTime ∧ r.pass = false ∧ (s.unit d u).retired = false) ∧
    (∃ (s : State), ∃ (d : Nat), ∃ (u : Nat), s.frz.stopped = false ∧ d ≠ 6 ∧ d < s.dies.length ∧ s.dieUp d = true ∧ u < 85 ∧ (s.unit d u).retired =
      false ∧ (s.unit d u).uncovered = false ∧ (s.unit d u).fullDt + 900000000 ≤ s.deviceTime) ∧
    (∃ (s : State), ∃ (d : Nat), ∃ (u : Nat), s.frz.stopped = false ∧ d < s.dies.length ∧ (s.unit d u).suspect = true ∧ (s.unit d u).failDt +
      9000000000 ≤ s.deviceTime) :=
  ⟨⟨pyr, 0, 8, 74, 72, 64, by decide +kernel⟩,
   ⟨up, 4, by decide +kernel⟩,
   ⟨unitS 3 (fun u => { u with underTest := true, targeted := true }), 0, 3, passR, by decide +kernel⟩,
   ⟨unitS 3 (fun u => { u with underTest := true, targeted := true }), 0, 3, failR, by decide +kernel⟩,
   ⟨degr, 0, 72, 8, 64, by decide +kernel⟩,
   ⟨unitS 3 (fun u => { u with segmentOpen := true, segments := 4 }), 0, 3, passR, by decide +kernel⟩,
   ⟨unitS 3 (fun u => { u with segmentOpen := true, segments := 16 }), 0, 3, passR, by decide +kernel⟩,
   ⟨unitS 3 (fun u => { u with segmentOpen := true, segments := 16 }), 0, 3, failR, by decide +kernel⟩,
   ⟨up, 0, 3, by decide +kernel⟩,
   ⟨unitS 3 (fun u => { u with suspect := true }), 0, 3, by decide +kernel⟩⟩

theorem witness_RepairsAndCheckerTests :
    (∃ (s : State), ∃ (d : Nat), ∃ (q : Nat), ∃ (r : Nat), ∃ (j : Nat), d < s.dies.length ∧ s.dieUp d = true ∧ (List.find? (fun q => (s.repairCmnRow
      d (q % 64) (q / 64)).snd || s.getF d Fld.cmnSpare_exhausted 0 (q % 64) == 0) (s.die d).cmnQueue = some q) ∧ servedRow (Map.get [] (s.die
      d).cmnRows (q % 64)) 8192 (q / 64) = some r ∧ freeSpare (Map.get [] (s.die d).cmnRows (q % 64)) 16 = some j) ∧
    (∃ (s : State), ∃ (d : Nat), ∃ (q : Nat), ∃ (r : Nat), d < s.dies.length ∧ s.dieUp d = true ∧ (List.find? (fun q => (s.repairCmnRow d (q % 64) (q
      / 64)).snd || s.getF d Fld.cmnSpare_exhausted 0 (q % 64) == 0) (s.die d).cmnQueue = some q) ∧ servedRow (Map.get [] (s.die d).cmnRows (q % 64))
      8192 (q / 64) = some r ∧ freeSpare (Map.get [] (s.die d).cmnRows (q % 64)) 16 = none) ∧
    (∃ (s : State), ∃ (d : Nat), ∃ (r : List Byte), ∃ (rest : List (List Byte)), s.frz.stopped = false ∧ d < s.nDies ∧ d < s.dies.length ∧ (∀ (e :
      Nat), e < d → (s.die e).repairDue = []) ∧ (s.die d).repairDue = r :: rest) ∧
    (∃ (s : State), ∃ (d : Nat), ∃ (k : CheckerAt), s.frz.stopped = false ∧ s.dieUp d = true ∧ d ≠ 6 ∧ k.on d = true ∧ (∀ (u : Nat), k ≠
      CheckerAt.ofUnit u)) ∧
    (∃ (s : State), ∃ (k : CheckerAt), s.frz.stopped = false ∧ 3 ≤ s.boot.step ∧ (k = CheckerAt.golden ∨ k = CheckerAt.diversity ∨ k =
      CheckerAt.lockstep) ∧ s.saf.hubCheckFailed = false) :=
  ⟨⟨onDie up (fun x => { x with cmnQueue := [70] }), 0, 70, 1, 0, by decide +kernel⟩,
   ⟨onDie up (fun x => { x with cmnQueue := [70], cmnRows := [(6, List.replicate 16 spareBad)] }), 0, 70, 1, by decide +kernel⟩,
   ⟨onDie up (fun x => { x with repairDue := [[1, 2]] }), 0, [1, 2], [], by decide +kernel⟩,
   ⟨up, 0, .commons, ⟨by decide +kernel, by decide +kernel, by decide +kernel, by decide +kernel, fun _ h => nomatch h⟩⟩,
   ⟨up, .golden, by decide +kernel⟩⟩

theorem witness_EventsAccumulateAndClose :
    (∃ (s : State), ∃ (e : Event), s.frz.stopped = false ∧ codeDefined e.code = true ∧ s.reach e.die 6 = false) ∧
    (∃ (s : State), ∃ (e : Event), ∃ (a : Accum), s.frz.stopped = false ∧ codeDefined e.code = true ∧ s.reach e.die 6 = true ∧ s.recorder.accum
      e.code = some a ∧ e.dt < a.closeDt) ∧
    (∃ (s : State), ∃ (e : Event), ∃ (a : Accum), s.frz.stopped = false ∧ codeDefined e.code = true ∧ s.reach e.die 6 = true ∧ s.recorder.accum
      e.code = some a ∧ a.closeDt ≤ e.dt ∧ s.recorder.freezeFrom = none) ∧
    (∃ (s : State), ∃ (e : Event), s.frz.stopped = false ∧ codeDefined e.code = true ∧ s.reach e.die 6 = true ∧ s.recorder.accum e.code = none ∧
      ((List.filter (fun a => a.code != 4352) s.recorder.accums).length < 1023)) ∧
    (∃ (s : State), ∃ (code : BitVec 16), ∃ (a : Accum), s.frz.stopped = false ∧ s.recorder.accum code.toNat = some a ∧ a.due ≤ s.deviceTime ∧
      s.recorder.freezeFrom = none ∧ s.ilk1 = false ∧ (∀ (e : Event), e ∈ s.recorder.later → e.code ≠ code.toNat)) ∧
    (∃ (s : State), s.recorder.freezeFrom ≠ none) ∧
    (∃ (s : State), ∃ (slot : Nat), ∃ (rest : List Nat), s.frz.stopped = false ∧ s.recorder.unwritten = slot :: rest) :=
  ⟨⟨lostHub, { ev0 with die := 1 }, by decide +kernel⟩,
   ⟨recS (fun r => { r with accums := [acc0] }), ev0, acc0, by decide +kernel⟩,
   ⟨recS (fun r => { r with accums := [{ acc0 with closeDt := 50 }] }), ev0, { acc0 with closeDt := 50 }, by decide +kernel⟩,
   ⟨up, ev0, by decide +kernel⟩,
   ⟨recS (fun r => { r with accums := [acc0] }), 0x0F10, acc0, by decide +kernel⟩,
   ⟨recS (fun r => { r with freezeFrom := some 5 }), by decide +kernel⟩,
   ⟨recS (fun r => { r with unwritten := [5, 6] }), 5, [6], by decide +kernel⟩⟩

theorem witness_EventBinsFollowTheEntry :
    ∃ (s : State), ∃ (e : Event), ∃ (a : Accum), ∃ (r : RecEntry), ∃ (d : Int), s.frz.stopped = false ∧ s.reach e.die 6 = true ∧ codeDefined e.code =
      true ∧ s.recorder.accum e.code = some a ∧ e.dt < a.closeDt ∧ a.bins.length = 32 ∧ r = s.recEntry e.code ∧ d = e.val - r.base :=
  ⟨accS, ev0, acc0, recOf accS, ev0.val - (recOf accS).base, by decide +kernel⟩

theorem witness_RaisingAndHoldingEvents :
    (∃ (s : State), ∃ (who : Init), ∃ (code : BitVec 16), s.frz.stopped = false ∧ who.canAccess = true ∧ s.privileged who = true ∧ codeDefined
      code.toNat = true) ∧
    (∃ (s : State), ∃ (who : Init), s.frz.stopped = false ∧ who.canAccess = true ∧ s.privileged who = true ∧ s.m2 = false ∧ s.recorder.freezeFrom =
      none) ∧
    (∃ (s : State), ∃ (who : Init), s.frz.stopped = false ∧ who.canAccess = true ∧ s.privileged who = true ∧ (s.m2 = true ∨ s.recorder.freezeFrom ≠
      none)) ∧
    (∃ (s : State), ∃ (who : Init), ∃ (f : Nat), s.frz.stopped = false ∧ who.canAccess = true ∧ s.privileged who = true ∧ s.recorder.freezeFrom =
      some f) ∧
    (∃ (s : State), ∃ (f : Nat), s.frz.stopped = false ∧ s.recorder.freezeFrom = some f ∧ f + 900000000 ≤ s.deviceTime) :=
  ⟨⟨up, .mgmt, 0x0F10, by decide +kernel⟩,
   ⟨up, .mgmt, by decide +kernel⟩,
   ⟨{ up with m2 := true }, .mgmt, by decide +kernel⟩,
   ⟨recS (fun r => { r with freezeFrom := some 5 }), .mgmt, 5, by decide +kernel⟩,
   ⟨recS (fun r => { r with freezeFrom := some 5 }), 5, by decide +kernel⟩⟩

theorem witness_DmaDescriptorsComplete_0 :
    ∃ (s : State), ∃ (c : ChanRef), ∃ (p : Nat × Instr), ∃ (m : DescMoves), ∃ (g : State), p ∈ [(1, Instr.copy c), (2, Instr.linear c), (3,
      Instr.fill c), (4, Instr.gather c), (5, Instr.scatter c), (6, Instr.scatterAdd c)] ∧ DmaReady s c p.fst ∧ (s.withRead c).descMoves (s.headBytes
      c) = some m ∧ ((m.moves.all fun v => (s.withRead c).moveCarried c.die v) = true) ∧ (g = ((s.withRead c).doGranules m fun k => !(s.dma
      c).confirmed k).fst) ∧ g.ringOk c :=
  ⟨lin, chan0, (2, .linear chan0), linM, _, ⟨by decide +kernel, by unfold DmaReady; decide +kernel, by decide +kernel, by decide +kernel, rfl,
    entryAt_of (by decide +kernel) (by decide +kernel) (by decide +kernel)⟩⟩

theorem witness_DmaDescriptorsComplete_1 :
    ∃ (s : State), ∃ (c : ChanRef), ∃ (p : Nat × Instr), ∃ (m : DescMoves), p ∈ [(1, Instr.copy c), (2, Instr.linear c), (3, Instr.fill c), (4,
      Instr.gather c), (5, Instr.scatter c), (6, Instr.scatterAdd c)] ∧ DmaReady s c p.fst ∧ (s.withRead c).descMoves (s.headBytes c) = some m ∧
      ((m.moves.all fun v => (s.withRead c).moveCarried c.die v) = false) :=
  ⟨lostM, chan0, (2, .linear chan0), ((lostM.withRead chan0).descMoves (lostM.headBytes chan0)).getD ⟨[], none, 0, .none⟩,
    by unfold DmaReady; decide +kernel⟩

theorem witness_DmaDescriptorsComplete_2 :
    ∃ (s : State), ∃ (c : ChanRef), ∃ (p : Nat × Instr), p ∈ [(1, Instr.copy c), (2, Instr.linear c), (3, Instr.fill c), (4, Instr.gather c), (5,
      Instr.scatter c), (6, Instr.scatterAdd c)] ∧ DmaReady s c p.fst ∧ (s.withRead c).descMoves (s.headBytes c) = none :=
  ⟨withDesc (descOf 2 1 0 0 0x1000 0x2003 0 96), chan0, (2, .linear chan0), by unfold DmaReady; decide +kernel⟩

theorem witness_DmaDescriptorsComplete_3 :
    ∃ (s : State), ∃ (c : ChanRef), s.ringOk c ∧ DmaReady s c 7 :=
  ⟨fl 1 0, chan0, ⟨entryAt_of (by decide +kernel) (by decide +kernel) (by decide +kernel), by unfold DmaReady; decide +kernel⟩⟩

theorem witness_DmaDescriptorsComplete_4 :
    ∃ (s : State), ∃ (c : ChanRef), s.ringOk c ∧ s.canStart c = true ∧ s.owned c = true ∧ (s.head c).op = 7 ∧ c.die < s.dies.length ∧ testBit (s.head
      c).flags 1 = false ∧ testBit (s.head c).flags 2 = true ∧ Map.get [] (s.die c.die).seq.dmaOwners c.ring = [] :=
  ⟨fl 5 0, chan0, ⟨entryAt_of (by decide +kernel) (by decide +kernel) (by decide +kernel), by decide +kernel, by decide +kernel, by decide +kernel,
    by decide +kernel, by decide +kernel, by decide +kernel, by decide +kernel⟩⟩

theorem witness_DmaDescriptorsComplete_5 :
    ∃ (s : State), ∃ (c : ChanRef), s.ringOk c ∧ s.canStart c = true ∧ s.owned c = true ∧ (s.head c).op = 7 ∧ c.die < s.dies.length ∧ testBit (s.head
      c).flags 1 = false ∧ testBit (s.head c).flags 2 = true ∧ Map.get [] (s.die c.die).seq.dmaOwners c.ring = [] :=
  ⟨fl 5 1, chan0, ⟨entryAt_of (by decide +kernel) (by decide +kernel) (by decide +kernel), by decide +kernel, by decide +kernel, by decide +kernel,
    by decide +kernel, by decide +kernel, by decide +kernel, by decide +kernel⟩⟩

theorem witness_DmaDescriptorsComplete_6 :
    ∃ (s : State), ∃ (c : ChanRef), s.ringOk c ∧ DmaReady s c 8 ∧ s.ringFed c = false ∧ bits (s.head c).aux 0 16 < (s.queue c.die c.ring).size :=
  ⟨withDesc (descOf 8 1 0 0 0 0 3 0), chan0, ⟨entryAt_of (by decide +kernel) (by decide +kernel) (by decide +kernel),
    by unfold DmaReady; decide +kernel, by decide +kernel, by decide +kernel⟩⟩

theorem witness_DmaDescriptorsComplete_7 :
    ∃ (s : State), ∃ (c : ChanRef), ∃ (q : Nat), s.ringOk c ∧ DmaReady s c 9 ∧ q = bits (s.head c).aux 0 14 ∧ s.queueKind c.die q = QueueKind.ingress
      ∧ (s.head c).dst % 64 = 0 ∧ s.dataAddr (s.head c).dst = true ∧ (s.ringOf c.die q).depth (s.queue c.die q) = 0 :=
  ⟨popS, chan0, 0x404, ⟨entryAt_of (by decide +kernel) (by decide +kernel) (by decide +kernel), by unfold DmaReady; decide +kernel,
    by decide +kernel, by decide +kernel, by decide +kernel, by decide +kernel, by decide +kernel⟩⟩

theorem witness_DmaDescriptorsComplete_8 :
    ∃ (s : State), ∃ (c : ChanRef), ∃ (q : Nat), ∃ (m : DescMoves), ∃ (g : State), s.ringOk c ∧ DmaReady s c 9 ∧ q = bits (s.head c).aux 0 14 ∧
      s.queueKind c.die q = QueueKind.ingress ∧ (s.head c).dst % 64 = 0 ∧ s.dataAddr (s.head c).dst = true ∧ (s.ringOf c.die q).depth (s.queue c.die
      q) ≠ 0 ∧ (m = { moves := linearMoves (s.head c).dst (2 ^ (s.queue c.die q).log2b) fun k x => (some ((s.queue c.die q).addr (s.ringOf c.die q).cons + 64 * k), []), add := none, oor := 0, index := Taint.none })
      ∧ ((m.moves.all fun v => (s.withRead c).moveCarried c.die v) = true) ∧ (g = ((s.withRead c).doGranules m fun k => !(s.dma c).confirmed k).fst)
      ∧ g.ringOk c :=
  ⟨popF, chan0, 0x404, popM, _, ⟨entryAt_of (by decide +kernel) (by decide +kernel) (by decide +kernel), by unfold DmaReady; decide +kernel,
    by decide +kernel, by decide +kernel, by decide +kernel, by decide +kernel, by decide +kernel, by decide +kernel, by decide +kernel, rfl,
    entryAt_of (by decide +kernel) (by decide +kernel) (by decide +kernel)⟩⟩

theorem witness_ChannelsStopAndResumeExactly :
    (∃ (s : State), ∃ (c : ChanRef), ∃ (who : Init), c.die < s.nDies ∧ c.die < s.dies.length ∧ s.chanUsed c = true ∧ s.frz.stopped = false ∧
      who.canAccess = true ∧ s.privileged who = true ∧ (s.dma c).state = ChState.paused) ∧
    (∃ (s : State), ∃ (c : ChanRef), ∃ (who : Init), c.die < s.nDies ∧ c.die < s.dies.length ∧ s.chanUsed c = true ∧ s.frz.stopped = false ∧
      who.canAccess = true ∧ s.privileged who = true ∧ (s.dma c).state = ChState.halted ∧ s.ringOk c ∧ testBit (s.head c).flags 1 = false ∧ testBit
      (s.head c).flags 2 = false ∧ Map.get [] (s.die c.die).seq.dmaOwners c.ring = []) ∧
    (∃ (s : State), ∃ (c : ChanRef), ∃ (who : Init), ∃ (off : Nat), c.die < s.nDies ∧ c.die < s.dies.length ∧ s.chanUsed c = true ∧ s.frz.stopped =
      false ∧ who.canAccess = true ∧ s.privileged who = true ∧ s.inProgress c = true ∧ off % 64 = 0) ∧
    (∃ (s : State), ∃ (c : ChanRef), ∃ (who : Init), c.die < s.nDies ∧ c.die < s.dies.length ∧ s.chanUsed c = true ∧ s.frz.stopped = false ∧
      who.canAccess = true ∧ s.privileged who = true ∧ s.inProgress c = false ∧ (s.dma c).state = ChState.idle) ∧
    (∃ (s : State), ∃ (c : ChanRef), ∃ (who : Init), c.die < s.nDies ∧ c.die < s.dies.length ∧ s.chanUsed c = true ∧ s.frz.stopped = false ∧
      who.canAccess = true ∧ s.privileged who = false) ∧
    (∃ (s : State), ∃ (c : ChanRef), ∃ (off : Nat), ∃ (mask : BitVec 64), ∃ (m : DescMoves), ∃ (g : State), c.die < s.nDies ∧ c.die < s.dies.length ∧
      s.chanUsed c = true ∧ s.inProgress c = true ∧ off % 64 = 0 ∧ s.descMoves (s.headBytes c) = some m ∧ (g = (s.doGranules m fun k => ({ s.dma c with offset := off, mask := mask }).confirmed
      k && !(s.dma c).confirmed k).fst)) :=
  ⟨⟨chanIn .paused, chan0, .mgmt, by decide +kernel⟩,
   ⟨chanIn .halted, chan0, .mgmt, ⟨by decide +kernel, by decide +kernel, by decide +kernel, by decide +kernel, by decide +kernel, by decide +kernel,
     by decide +kernel, entryAt_of (by decide +kernel) (by decide +kernel) (by decide +kernel), by decide +kernel, by decide +kernel,
     by decide +kernel⟩⟩,
   ⟨act, chan0, .mgmt, 64, by decide +kernel⟩,
   ⟨chanIn .idle, chan0, .mgmt, by decide +kernel⟩,
   ⟨withSess (chanIn .idle) 0, chan0, .session, by decide +kernel⟩,
   ⟨act, chan0, 64, 2, actM, _, ⟨by decide +kernel, by decide +kernel, by decide +kernel, by decide +kernel, by decide +kernel, by decide +kernel,
     rfl⟩⟩⟩

theorem witness_RelayEntriesMoveAndLand :
    (∃ (s : State), ∃ (d : Nat), ∃ (k : Nat), ∃ (y : Slot), ∃ (l : List Byte), ∃ (e : RelayEntry), (s.unit d 85).running = some k ∧ (s.unit d
      85).done = false ∧ s.slot d k = some y ∧ s.dieUp d = true ∧ y.stopped = false ∧ y.desc.kind = 7 ∧ d < s.dies.length ∧ (s.die d).relay.appended
      = 0 ∧ l = s.read y.desc.program 64 ∧ (s.taintOf y.desc.program 64).poison = false ∧ e = RelayEntry.ofBytes l ∧ s.queueKind d e.queue =
      QueueKind.relay ∧ e.kind ≤ 3 ∧ e.dir ≤ 1 ∧ (s.ringOf d e.queue).full (s.queue d e.queue) = false ∧ e.more = false ∧ s.entryAt d (s.nextEntry d
      e.queue)) ∧
    (∃ (s : State), ∃ (d : Nat), ∃ (k : Nat), ∃ (y : Slot), ∃ (l : List Byte), ∃ (e : RelayEntry), (s.unit d 85).running = some k ∧ (s.unit d
      85).done = false ∧ s.slot d k = some y ∧ s.dieUp d = true ∧ y.stopped = false ∧ y.desc.kind = 7 ∧ d < s.dies.length ∧ (s.die d).relay.appended
      = 0 ∧ l = s.read y.desc.program 64 ∧ (s.taintOf y.desc.program 64).poison = false ∧ e = RelayEntry.ofBytes l ∧ s.queueKind d e.queue =
      QueueKind.relay ∧ e.kind ≤ 3 ∧ e.dir ≤ 1 ∧ (s.ringOf d e.queue).full (s.queue d e.queue) = true) ∧
    (∃ (s : State), ∃ (d : Nat), ∃ (dir : Bool), ∃ (h : Nat × List Byte × Bool), s.dieUp d = true ∧ s.ring.up = true ∧ d < s.dies.length ∧ ((s.die
      d).relay.path dir).busy = none ∧ (List.find? (fun h => (RelayEntry.ofBytes h.snd.fst).modules != s.ringModules) (s.relayHeads d dir) = some h)) ∧
    (∃ (s : State), ∃ (d : Nat), ∃ (dir : Bool), ∃ (q : Nat), ∃ (l : List Byte), ∃ (fwd : Bool), ∃ (l' : List Byte), ∃ (e : RelayEntry), s.dieUp d =
      true ∧ s.ring.up = true ∧ d < s.dies.length ∧ ((s.die d).relay.path dir).busy = none ∧ (List.find? (fun h => (RelayEntry.ofBytes
      h.snd.fst).modules != s.ringModules) (s.relayHeads d dir) = none) ∧ (List.filter (fun h => s.creditMet d h.fst (RelayEntry.ofBytes h.snd.fst))
      (s.relayHeads d dir) = [(q, l, fwd)]) ∧ (l' = if fwd = true then l else putEntry l 52 (toLE 4 (s.ringEpoch d))) ∧ e = RelayEntry.ofBytes l' ∧
      s.entryOk d fwd e = true) ∧
    (∃ (s : State), ∃ (d : Nat), ∃ (r : Nat), ∃ (o : Nat), ∃ (o' : Nat), ∃ (dir : Bool), ∃ (l : List Byte), ∃ (e : RelayEntry), s.frz.stopped = false
      ∧ ((s.die d).relay.path dir).busy = some l ∧ e = RelayEntry.ofBytes l ∧ s.dieUp d = true ∧ d < s.dies.length ∧ e.kind = 0 ∧ s.hop d dir =
      Hop.die r ∧ s.dieUp r = true ∧ s.reach d r = true ∧ s.arrivalHeld r dir = false ∧ e.epoch = Word.ofNat (s.ringEpoch r) ∧ e.hops = 1 ∧ relayFlag
      e.arrive = none ∧ s.region e.dst = Region.commons d o ∧ s.region e.src = Region.commons d o' ∧ e.dst % 16 = 0 ∧ e.src % 16 = 0 ∧ e.length % 16
      = 0 ∧ o + e.length ≤ 33538048 ∧ o' + e.length ≤ 33538048 ∧ s.relayDest (s.onDie e.dst r) e.length = true) ∧
    (∃ (s : State), ∃ (d : Nat), ∃ (rest : List (Option Nat)), s.frz.stopped = false ∧ d < s.dies.length ∧ (s.die d).relay.acks = none :: rest) ∧
    (∃ (s : State), ∃ (d : Nat), ∃ (rest : List (Option Nat)), ∃ (f : Nat), s.frz.stopped = false ∧ d < s.dies.length ∧ (s.die d).relay.acks = some f
      :: rest ∧ s.dieUp d = true ∧ (¬f ∈ (s.die d).flagHeld) ∧ manyWrong (Map.get 0 s.upsets (flagWord d f)) = false ∧ (¬relayKey d ∈ (s.flagCyc d
      f).froms)) ∧
    (∃ (s : State), ∃ (d : Nat), ∃ (q : Nat), ∃ (dir : Bool), ∃ (p : Nat × List Byte), (List.find? (fun p => p.fst == bit dir) (s.die d).relay.held =
      some p) ∧ q = (RelayEntry.ofBytes p.snd).fwdQueue ∧ s.dieUp d = true ∧ d < s.dies.length ∧ (s.ringOf d q).full (s.queue d q) = false ∧
      p.snd.length = 64 ∧ s.entryAt d (s.nextEntry d q) ∧ (∀ (p : Nat), p < 4 → (s.port p).rxq = [])) :=
  ⟨⟨relS, 0, 0, relSlot, relS.read 0x1000 64, RelayEntry.ofBytes (relS.read 0x1000 64), ⟨by decide +kernel, by decide +kernel, by decide +kernel,
     by decide +kernel, by decide +kernel, by decide +kernel, by decide +kernel, by decide +kernel, by decide +kernel, by decide +kernel,
     by decide +kernel, by decide +kernel, by decide +kernel, by decide +kernel, by decide +kernel, by decide +kernel,
     entryAt_of (by decide +kernel) (by decide +kernel) (by decide +kernel)⟩⟩,
   ⟨relS.setRing 0 0x403 ⟨4, 0⟩, 0, 0, relSlot, relS.read 0x1000 64, RelayEntry.ofBytes (relS.read 0x1000 64), by decide +kernel⟩,
   ⟨headS 3, 0, false, ((headS 3).relayHeads 0 false).getD 0 (0, [], false), by decide +kernel⟩,
   ⟨headS 1, 0, false, 0x403, hl, false, putEntry hl 52 (toLE 4 ((headS 1).ringEpoch 0)), RelayEntry.ofBytes (putEntry hl 52 (toLE 4 ((headS
     1).ringEpoch 0))), by decide +kernel⟩,
   ⟨carry ent0 0, 0, 1, 0x9000, 0x8000, false, ent0, RelayEntry.ofBytes ent0, by decide +kernel⟩,
   ⟨ackS none, 0, [], by decide +kernel⟩,
   ⟨ackS (some 5), 0, [], 5, by decide +kernel⟩,
   ⟨heldS, 0, 0x403, false, (0, ent0), ⟨by decide +kernel, by decide +kernel, by decide +kernel, by decide +kernel, by decide +kernel,
     by decide +kernel, entryAt_of (by decide +kernel) (by decide +kernel) (by decide +kernel), by decide +kernel⟩⟩⟩

theorem witness_PathsDeliverOrSendOff :
    (∃ (s : State), ∃ (d : Nat), ∃ (dir : Bool), ∃ (l : List Byte), ∃ (e : RelayEntry), ∃ (p : Nat × Instr), ∃ (r : Nat), s.frz.stopped = false ∧
      ((s.die d).relay.path dir).busy = some l ∧ e = RelayEntry.ofBytes l ∧ s.dieUp d = true ∧ d < s.dies.length ∧ p ∈ [(0, Instr.relayData d dir),
      (1, Instr.relayFlagEntry d dir), (2, Instr.relayCommit d dir), (3, Instr.relayResync d dir)] ∧ e.kind = p.fst ∧ s.hop d dir = Hop.die r ∧
      s.arrivalHeld r dir = false ∧ s.dieUp r = true ∧ s.reach d r = true) ∧
    (∃ (s : State), ∃ (d : Nat), ∃ (dir : Bool), ∃ (l : List Byte), ∃ (e : RelayEntry), ∃ (p : Nat × Instr), ∃ (r : Nat), s.frz.stopped = false ∧
      ((s.die d).relay.path dir).busy = some l ∧ e = RelayEntry.ofBytes l ∧ s.dieUp d = true ∧ d < s.dies.length ∧ p ∈ [(0, Instr.relayData d dir),
      (1, Instr.relayFlagEntry d dir), (2, Instr.relayCommit d dir), (3, Instr.relayResync d dir)] ∧ e.kind = p.fst ∧ s.hop d dir = Hop.die r ∧
      s.arrivalHeld r dir = false ∧ s.dieUp r = true ∧ s.reach d r = true) ∧
    (∃ (s : State), ∃ (d : Nat), ∃ (dir : Bool), ∃ (l : List Byte), ∃ (e : RelayEntry), ∃ (p : Nat × Instr), ∃ (r : Nat), s.frz.stopped = false ∧
      ((s.die d).relay.path dir).busy = some l ∧ e = RelayEntry.ofBytes l ∧ s.dieUp d = true ∧ d < s.dies.length ∧ p ∈ [(0, Instr.relayData d dir),
      (1, Instr.relayFlagEntry d dir), (2, Instr.relayCommit d dir), (3, Instr.relayResync d dir)] ∧ e.kind = p.fst ∧ s.hop d dir = Hop.die r ∧
      s.arrivalHeld r dir = false ∧ s.dieUp r = true ∧ s.reach d r = true) ∧
    (∃ (s : State), ∃ (d : Nat), ∃ (dir : Bool), ∃ (l : List Byte), ∃ (e : RelayEntry), ∃ (p : Nat × Instr), ∃ (r : Nat), s.frz.stopped = false ∧
      ((s.die d).relay.path dir).busy = some l ∧ e = RelayEntry.ofBytes l ∧ s.dieUp d = true ∧ d < s.dies.length ∧ p ∈ [(0, Instr.relayData d dir),
      (1, Instr.relayFlagEntry d dir), (2, Instr.relayCommit d dir), (3, Instr.relayResync d dir)] ∧ e.kind = p.fst ∧ s.hop d dir = Hop.die r ∧
      s.arrivalHeld r dir = false ∧ s.dieUp r = true ∧ s.reach d r = true) ∧
    (∃ (s : State), ∃ (d : Nat), ∃ (dir : Bool), ∃ (l : List Byte), ∃ (e : RelayEntry), ∃ (p : Nat × Instr), ∃ (r : Nat), s.frz.stopped = false ∧
      ((s.die d).relay.path dir).busy = some l ∧ e = RelayEntry.ofBytes l ∧ s.dieUp d = true ∧ d < s.dies.length ∧ p ∈ [(0, Instr.relayData d dir),
      (1, Instr.relayFlagEntry d dir), (2, Instr.relayCommit d dir), (3, Instr.relayResync d dir)] ∧ e.kind = p.fst ∧ s.hop d dir = Hop.die r ∧
      s.arrivalHeld r dir = false ∧ s.dieUp r = true ∧ s.reach d r = true) ∧
    (∃ (s : State), ∃ (d : Nat), ∃ (dir : Bool), ∃ (l : List Byte), ∃ (e : RelayEntry), ∃ (p : Nat × Instr), ∃ (r : Nat), s.frz.stopped = false ∧
      ((s.die d).relay.path dir).busy = some l ∧ e = RelayEntry.ofBytes l ∧ s.dieUp d = true ∧ d < s.dies.length ∧ p ∈ [(0, Instr.relayData d dir),
      (1, Instr.relayFlagEntry d dir), (2, Instr.relayCommit d dir), (3, Instr.relayResync d dir)] ∧ e.kind = p.fst ∧ s.hop d dir = Hop.die r ∧
      s.arrivalHeld r dir = false ∧ (s.dieUp r = false ∨ s.reach d r = false)) ∧
    (∃ (s : State), ∃ (d : Nat), ∃ (dir : Bool), ∃ (l : List Byte), ∃ (e : RelayEntry), ∃ (p : Nat × Instr), ∃ (r : Nat), s.frz.stopped = false ∧
      ((s.die d).relay.path dir).busy = some l ∧ e = RelayEntry.ofBytes l ∧ s.dieUp d = true ∧ d < s.dies.length ∧ p ∈ [(0, Instr.relayData d dir),
      (1, Instr.relayFlagEntry d dir), (2, Instr.relayCommit d dir), (3, Instr.relayResync d dir)] ∧ e.kind = p.fst ∧ s.hop d dir = Hop.die r ∧
      s.arrivalHeld r dir = false ∧ (s.dieUp r = false ∨ s.reach d r = false)) ∧
    (∃ (s : State), ∃ (d : Nat), ∃ (dir : Bool), ∃ (l : List Byte), ∃ (e : RelayEntry), ∃ (p : Nat × Instr), ∃ (k : Nat), s.frz.stopped = false ∧
      ((s.die d).relay.path dir).busy = some l ∧ e = RelayEntry.ofBytes l ∧ s.dieUp d = true ∧ d < s.dies.length ∧ p ∈ [(0, Instr.relayData d dir),
      (1, Instr.relayFlagEntry d dir), (2, Instr.relayCommit d dir), (3, Instr.relayResync d dir)] ∧ e.kind = p.fst ∧ s.hop d dir = Hop.pair k ∧
      s.reach d 6 = true) ∧
    (∃ (s : State), ∃ (d : Nat), ∃ (dir : Bool), ∃ (l : List Byte), ∃ (e : RelayEntry), ∃ (p : Nat × Instr), ∃ (k : Nat), s.frz.stopped = false ∧
      ((s.die d).relay.path dir).busy = some l ∧ e = RelayEntry.ofBytes l ∧ s.dieUp d = true ∧ d < s.dies.length ∧ p ∈ [(0, Instr.relayData d dir),
      (1, Instr.relayFlagEntry d dir), (2, Instr.relayCommit d dir), (3, Instr.relayResync d dir)] ∧ e.kind = p.fst ∧ s.hop d dir = Hop.pair k ∧
      s.reach d 6 = true) ∧
    (∃ (s : State), ∃ (d : Nat), ∃ (dir : Bool), ∃ (l : List Byte), ∃ (e : RelayEntry), ∃ (p : Nat × Instr), ∃ (k : Nat), s.frz.stopped = false ∧
      ((s.die d).relay.path dir).busy = some l ∧ e = RelayEntry.ofBytes l ∧ s.dieUp d = true ∧ d < s.dies.length ∧ p ∈ [(0, Instr.relayData d dir),
      (1, Instr.relayFlagEntry d dir), (2, Instr.relayCommit d dir), (3, Instr.relayResync d dir)] ∧ e.kind = p.fst ∧ s.hop d dir = Hop.pair k ∧
      s.reach d 6 = true) ∧
    (∃ (s : State), ∃ (d : Nat), ∃ (dir : Bool), ∃ (l : List Byte), ∃ (e : RelayEntry), ∃ (p : Nat × Instr), ∃ (k : Nat), s.frz.stopped = false ∧
      ((s.die d).relay.path dir).busy = some l ∧ e = RelayEntry.ofBytes l ∧ s.dieUp d = true ∧ d < s.dies.length ∧ p ∈ [(0, Instr.relayData d dir),
      (1, Instr.relayFlagEntry d dir), (2, Instr.relayCommit d dir), (3, Instr.relayResync d dir)] ∧ e.kind = p.fst ∧ s.hop d dir = Hop.pair k ∧
      s.reach d 6 = false) :=
  ⟨⟨carry ent0 0, 0, false, ent0, RelayEntry.ofBytes ent0, (0, .relayData 0 false), 1, by decide +kernel⟩,
   ⟨carry (flagE 0) 0, 0, false, flagE 0, RelayEntry.ofBytes (flagE 0), (1, .relayFlagEntry 0 false), 1, by decide +kernel⟩,
   ⟨carry (flagE 2) 0, 0, false, flagE 2, RelayEntry.ofBytes (flagE 2), (1, .relayFlagEntry 0 false), 1, by decide +kernel⟩,
   ⟨carry (comE 0) 0, 0, false, comE 0, RelayEntry.ofBytes (comE 0), (2, .relayCommit 0 false), 1, by decide +kernel⟩,
   ⟨carry (resE 0) 0, 0, false, resE 0, RelayEntry.ofBytes (resE 0), (3, .relayResync 0 false), 1, by decide +kernel⟩,
   ⟨noWay (carry ent0 0), 0, false, ent0, RelayEntry.ofBytes ent0, (0, .relayData 0 false), 1, by decide +kernel⟩,
   ⟨noWay (carry (flagE 0) 0), 0, false, flagE 0, RelayEntry.ofBytes (flagE 0), (1, .relayFlagEntry 0 false), 1, by decide +kernel⟩,
   ⟨carryP ent0, 0, true, ent0, RelayEntry.ofBytes ent0, (0, .relayData 0 true), 1, by decide +kernel⟩,
   ⟨carryP (flagE 0), 0, true, flagE 0, RelayEntry.ofBytes (flagE 0), (1, .relayFlagEntry 0 true), 1, by decide +kernel⟩,
   ⟨carryP (resE 0), 0, true, resE 0, RelayEntry.ofBytes (resE 0), (3, .relayResync 0 true), 1, by decide +kernel⟩,
   ⟨noWay (carryP ent0), 0, true, ent0, RelayEntry.ofBytes ent0, (0, .relayData 0 true), 1, by decide +kernel⟩⟩

theorem witness_FlitsTakeTheirEffect :
    (∃ (s : State), ∃ (p : Nat), ∃ (h : FlitHdr), ∃ (e : List Byte), ∃ (data : List Byte), ∃ (m : BitVec 16), ∃ (die : Nat), ∃ (f : Nat), ∃ (ep :
      Nat), ∃ (v : Word), ∃ (id : IdentInfo), ∃ (l : List CensusEntry), ∃ (b : Bool), ∃ (c : Instr), s.frz.stopped = false ∧ s.portAllowed p = true ∧
      h.ok = false ∧ c ∈ [Instr.flitIdle p h, Instr.flitDelivered p h, Instr.flitWatch p h die f v, Instr.flitMet p h, Instr.flitNak p h,
      Instr.flitIdent p h id, Instr.flitCensus p h l b, Instr.flitBreak p h (Word.ofNat ep), Instr.flitHead p h e, Instr.flitData p h data m]) ∧
    (∃ (s : State), ∃ (p : Nat), ∃ (h : FlitHdr), ∃ (e : List Byte), ∃ (data : List Byte), ∃ (m : BitVec 16), ∃ (die : Nat), ∃ (f : Nat), ∃ (ep :
      Nat), ∃ (v : Word), ∃ (id : IdentInfo), ∃ (l : List CensusEntry), ∃ (b : Bool), ∃ (c : Instr), s.frz.stopped = false ∧ s.portAllowed p = true ∧
      h.ok = false ∧ c ∈ [Instr.flitIdle p h, Instr.flitDelivered p h, Instr.flitWatch p h die f v, Instr.flitMet p h, Instr.flitNak p h,
      Instr.flitIdent p h id, Instr.flitCensus p h l b, Instr.flitBreak p h (Word.ofNat ep), Instr.flitHead p h e, Instr.flitData p h data m]) ∧
    (∃ (s : State), ∃ (p : Nat), ∃ (h : FlitHdr), s.frz.stopped = false ∧ s.portAllowed p = true ∧ (s.port p).trained = false ∧ h.ok = true ∧
      PortQuiet s p) ∧
    (∃ (s : State), ∃ (p : Nat), ∃ (h : FlitHdr), FlitOk s p h ∧ s.rxHeld (pairOf p) = false ∧ h.last = false) ∧
    (∃ (s : State), ∃ (p : Nat), ∃ (h : FlitHdr), ∃ (x : RxEntry), ∃ (j : Nat), FlitOk s p h ∧ s.rxHeld (pairOf p) = false ∧ h.last = false ∧
      (List.find? (fun e => e.fst == pairOf p) s.ring.rx = some (j, x)) ∧ x.tag = h.tag) ∧
    (∃ (s : State), ∃ (p : Nat), ∃ (h : FlitHdr), ∃ (d : Nat), ∃ (f : Option Nat), FlitOk s p h ∧ (List.find? (fun e => e.fst == h.tag) s.ring.sent =
      some (h.tag, d, f)) ∧ d < s.dies.length) ∧
    (∃ (s : State), ∃ (p : Nat), ∃ (h : FlitHdr), ∃ (die : Nat), ∃ (f : Nat), FlitOk s p h ∧ die < s.nDies ∧ f < 4096) ∧
    (∃ (s : State), ∃ (p : Nat), ∃ (h : FlitHdr), ∃ (d : Nat), ∃ (q : Nat), ∃ (a : Nat × Nat), FlitOk s p h ∧ (List.find? (fun e => e.fst == h.tag)
      s.ring.watches = some (h.tag, d, q)) ∧ d < s.dies.length ∧ (List.find? (fun x => x.fst == q) (s.die d).relay.asked = some a)) ∧
    (∃ (s : State), ∃ (p : Nat), ∃ (h : FlitHdr), FlitOk s p h) ∧
    (∃ (s : State), ∃ (p : Nat), ∃ (h : FlitHdr), ∃ (g : FlitHdr), FlitOk s p h ∧ g.ok = true ∧ g.seq ≠ (s.port p).rxSeq) ∧
    (∃ (s : State), ∃ (p : Nat), ∃ (h : FlitHdr), ∃ (c : Instr), ∃ (x : RxEntry), FlitOk s p h ∧ s.rxHeld (pairOf p) = false ∧ h.last = true ∧ ((∃ e,
      c = Instr.flitHead p h e ∧ x.entry = List.take 64 e) ∨ ∃ data m j, c = Instr.flitData p h data m ∧ List.find? (fun e => e.fst == pairOf p)
      s.ring.rx = some (j, x) ∧ x.tag = h.tag)) ∧
    (∃ (s : State), ∃ (p : Nat), ∃ (h : FlitHdr), ∃ (c : Instr), ∃ (x : RxEntry), FlitOk s p h ∧ s.rxHeld (pairOf p) = false ∧ h.last = true ∧ ((∃ e,
      c = Instr.flitHead p h e ∧ x.entry = List.take 64 e) ∨ ∃ data m j, c = Instr.flitData p h data m ∧ List.find? (fun e => e.fst == pairOf p)
      s.ring.rx = some (j, x) ∧ x.tag = h.tag)) :=
  ⟨⟨planned two, 1, hdr false false, [], [], 0, 0, 0, 0, 0, ⟨0, 0, 0, 0, 0, 0⟩, [], false, .flitIdle 1 (hdr false false), by decide +kernel⟩,
   ⟨planned two, 1, hdr false false, [], [], 0, 0, 0, 0, 0, ⟨0, 0, 0, 0, 0, 0⟩, [], false, .flitData 1 (hdr false false) [] 0, by decide +kernel⟩,
   ⟨(planned two).modPort 1 (fun x => { x with trained := false }), 0, hdr true true, by unfold PortQuiet; decide +kernel⟩,
   ⟨planned two, 1, hdr false true, by unfold FlitOk PortQuiet; decide +kernel⟩,
   ⟨ringS (fun r => { r with rx := [(0, rx0)] }), 1, hdr5 false true, rx0, 0, by unfold FlitOk PortQuiet; decide +kernel⟩,
   ⟨ringS (fun r => { r with sent := [(5, 0, some 4)] }), 1, hdr5 false true, 0, some 4, by unfold FlitOk PortQuiet; decide +kernel⟩,
   ⟨planned two, 1, hdr false true, 0, 7, by unfold FlitOk PortQuiet; decide +kernel⟩,
   ⟨(ringS (fun r => { r with watches := [(5, 0, 0x403)] })).modRelay 0 (fun r => { r with asked := [(0x403, 100)] }), 1, hdr5 false true, 0, 0x403,
     (0x403, 100), by unfold FlitOk PortQuiet; decide +kernel⟩,
   ⟨(planned two).modPort 1 (fun x => { x with replay := [(3, ⟨0, 0, 0, 0, false, []⟩, [1]), (6, ⟨0, 0, 0, 0, false, []⟩, [2])], txSeq := 7 }), 1,
     hdr false true, by unfold FlitOk PortQuiet; decide +kernel⟩,
   ⟨planned two, 1, hdr true true, { hdr true true with seq := 9 }, by unfold FlitOk PortQuiet; decide +kernel⟩,
   ⟨ringS (fun r => { r with rx := [(0, rx0)] }), 1, hdr5 true true, .flitData 1 (hdr5 true true) [1, 2] 0, rx0,
     ⟨by unfold FlitOk PortQuiet; decide +kernel, by decide +kernel, by decide +kernel, .inr ⟨_, _, _, rfl, rfl, rfl⟩⟩⟩,
   ⟨planned two, 1, hdr5 true true, .flitHead 1 (hdr5 true true) ent0, rx0, ⟨by unfold FlitOk PortQuiet; decide +kernel, by decide +kernel,
     by decide +kernel, .inl ⟨_, rfl, rfl⟩⟩⟩⟩

theorem witness_RingsFormBreakAndRetrain :
    (∃ (s : State), ∃ (p : Nat), ∃ (h : FlitHdr), ∃ (l : List CensusEntry), FlitOk s p h ∧ s.ringPos = 0 ∧ s.censusOk l = true) ∧
    (∃ (s : State), ∃ (p : Nat), ∃ (h : FlitHdr), ∃ (l : List CensusEntry), FlitOk s p h ∧ s.ringPos = 0 ∧ s.censusOk l = false) ∧
    (∃ (s : State), ∃ (p : Nat), ∃ (h : FlitHdr), FlitOk s p h ∧ s.ringPos ≠ 0 ∧ s.ringModules ≠ 1) ∧
    (∃ (s : State), ∃ (p : Nat), ∃ (h : FlitHdr), FlitOk s p h ∧ s.ring.up = true ∧ s.ringModules ≠ 1 ∧ s.nDies ≤ s.dies.length) ∧
    (∃ (s : State), ∃ (p : Nat), ∃ (h : FlitHdr), FlitOk s p h ∧ s.ring.up = false) ∧
    (∃ (s : State), s.frz.stopped = false ∧ s.ring.breakDue = true ∧ s.nDies ≤ s.dies.length ∧ s.ring.up = false) ∧
    (∃ (s : State), s.frz.stopped = false ∧ s.ring.breakDue = true ∧ s.nDies ≤ s.dies.length ∧ s.ring.up = true ∧ s.ringModules ≠ 1) ∧
    (∃ (s : State), ∃ (dt : Nat), s.frz.stopped = false ∧ s.ring.censusDt = some dt ∧ dt + 9000000 ≤ s.deviceTime) ∧
    (∃ (s : State), ∃ (p : Nat), ∃ (lane : Nat), s.frz.stopped = false ∧ s.portAllowed p = true ∧ lane < 9 ∧ (¬lane ∈ (s.port p).lanesFailed)) ∧
    (∃ (s : State), ∃ (p : Nat), ∃ (lane : Nat), s.frz.stopped = false ∧ s.portAllowed p = true ∧ lane < 9 ∧ (¬lane ∈ (s.port p).lanesFailed)) ∧
    (∃ (s : State), ∃ (p : Nat), ∃ (lane : Nat), s.frz.stopped = false ∧ s.portAllowed p = true ∧ lane < 9 ∧ (¬lane ∈ (s.port p).lanesFailed)) ∧
    (∃ (s : State), ∃ (p : Nat), s.frz.stopped = false ∧ s.portAllowed p = true ∧ (s.port p).trained = true ∧ (s.port p).lastDt + 9000 ≤
      s.deviceTime) ∧
    (∃ (s : State), ∃ (p : Nat), ∃ (dt : Nat), s.frz.stopped = false ∧ s.portAllowed p = true ∧ (s.port p).silentFrom = some dt ∧ dt + 900000 ≤
      s.deviceTime) ∧
    (∃ (s : State), ∃ (p : Nat), ∃ (dt : Nat), s.frz.stopped = false ∧ s.portAllowed p = true ∧ (s.port p).silentFrom = some dt ∧ dt + 900000 ≤
      s.deviceTime) :=
  ⟨⟨planned two, 1, hdr true true, okCensus, by unfold FlitOk PortQuiet; decide +kernel⟩,
   ⟨planned two, 1, hdr true true, [], by unfold FlitOk PortQuiet; decide +kernel⟩,
   ⟨planned pos1, 1, hdr true true, by unfold FlitOk PortQuiet; decide +kernel⟩,
   ⟨ringS (fun r => { r with up := true }), 1, hdr true true, by unfold FlitOk PortQuiet; decide +kernel⟩,
   ⟨planned two, 1, hdr true true, by unfold FlitOk PortQuiet; decide +kernel⟩,
   ⟨ringS (fun r => { r with breakDue := true }), by decide +kernel⟩,
   ⟨ringS (fun r => { r with breakDue := true, up := true }), by decide +kernel⟩,
   ⟨ringS (fun r => { r with censusDt := some 7 }), 7, by decide +kernel⟩,
   ⟨planned two, 1, 4, by decide +kernel⟩,
   ⟨(planned two).modPort 1 (fun x => { x with lanesFailed := [0, 1, 2, 3, 5] }), 1, 4, by decide +kernel⟩,
   ⟨(planned two).modPort 1 (fun x => { x with lanesFailed := [0], spare := true }), 1, 4, by decide +kernel⟩,
   ⟨(planned two).modPort 1 (fun x => { x with trained := true }), 1, by decide +kernel⟩,
   ⟨(planned two).modPort 1 (fun x => { x with silentFrom := some 5 }), 1, 5, by decide +kernel⟩,
   ⟨((planned two).modPort 1 (fun x => { x with silentFrom := some 5 })).modPort 0 (fun x => { x with lost := true }), 1, 5, by decide +kernel⟩⟩

theorem witness_CameraFramesAndSensorLinks :
    (∃ (s : State), ∃ (c : Nat), ∃ (off : Nat), ∃ (x : FrameStart), s.frz.stopped = false ∧ s.triggerOffset c = some off ∧ (s.ctxCfg c).enable = true
      ∧ s.triggered c = true ∧ (∀ (k : Nat), k < 64 → (s.ctxCfg k).enable = true → s.triggered k = true → (s.ctxCfg k).link = (s.ctxCfg c).link →
      (s.ctxCfg k).gpio % 4 = (s.ctxCfg c).gpio % 4 → s.triggerOffset k = some off) ∧ (List.find? (fun x =>
      (match (s.ctx c).trig with | none => true | some n => precedes n x.frame) && decide (triggerDt x.dt off ≤ s.deviceTime)) s.root.starts = some
      x)) ∧
    (∃ (s : State), ∃ (c : Nat), ∃ (u : Nat), ∃ (f : Word), ∃ (got : Bool), s.frz.stopped = false ∧ (s.ctx c).window = some (f, u, got) ∧ u +
      (s.ctxCfg c).firstLine * 900 < s.deviceTime) ∧
    (∃ (s : State), ∃ (c : Nat), ∃ (u : Nat), ∃ (f : Word), ∃ (got : Bool), s.frz.stopped = false ∧ (s.ctx c).window = some (f, u, got) ∧ u +
      (s.ctxCfg c).firstLine * 900 < s.deviceTime) ∧
    (∃ (s : State), ∃ (link : Nat), ∃ (vc : Nat), s.frz.stopped = false ∧ link < 16 ∧ vc < 4 ∧ Map.get 0 s.ingress.gear link ≠ 0 ∧ s.channelCtxs link
      vc = []) ∧
    (∃ (s : State), ∃ (link : Nat), ∃ (vc : Nat), ∃ (c : Nat), ∃ (st : PktState), ∃ (f : Word), ∃ (u : Nat), s.frz.stopped = false ∧ link < 16 ∧ vc <
      4 ∧ Map.get 0 s.ingress.gear link ≠ 0 ∧ st.bad = false ∧ s.channelCtxs link vc = [c] ∧ (s.ctxCfg c).ok = true ∧ (s.pos (s.ctxCfg
      c).position).pipe ≠ none ∧ (s.ctx c).cur = none ∧ (s.ctx c).frames = [] ∧ (s.ctx c).window = some (f, u, false) ∧ u ≤ s.deviceTime ∧
      s.deviceTime ≤ u + (s.ctxCfg c).firstLine * 900) ∧
    (∃ (s : State), ∃ (link : Nat), ∃ (vc : Nat), ∃ (c : Nat), ∃ (st : PktState), s.frz.stopped = false ∧ link < 16 ∧ vc < 4 ∧ Map.get 0
      s.ingress.gear link ≠ 0 ∧ st.bad = false ∧ s.channelCtxs link vc = [c] ∧ (s.ctxCfg c).ok = true ∧ (s.pos (s.ctxCfg c).position).pipe ≠ none ∧
      (s.ctx c).cur = none ∧ (s.ctx c).frames = [] ∧ (s.ctx c).window = none) ∧
    (∃ (s : State), ∃ (link : Nat), ∃ (vc : Nat), ∃ (c : Nat), ∃ (st : PktState), s.frz.stopped = false ∧ link < 16 ∧ vc < 4 ∧ Map.get 0
      s.ingress.gear link ≠ 0 ∧ st.bad = false ∧ s.channelCtxs link vc = [c] ∧ (s.ctxCfg c).ok = true ∧ (s.pos (s.ctxCfg c).position).pipe ≠ none ∧
      (s.ctx c).cur = none ∧ (s.ctx c).frames = [] ∧ (s.ctx c).window = none) ∧
    (∃ (s : State), ∃ (link : Nat), ∃ (vc : Nat), ∃ (c : Nat), ∃ (f : Word), ∃ (x : SFrame), s.frz.stopped = false ∧ link < 16 ∧ vc < 4 ∧ Map.get 0
      s.ingress.gear link ≠ 0 ∧ s.channelCtxs link vc = [c] ∧ (s.ctx c).cur = some f ∧ s.sframe c f = some x ∧ x.delivered = false) ∧
    (∃ (s : State), ∃ (link : Nat), ∃ (vc : Nat), ∃ (c : Nat), ∃ (f : Word), ∃ (x : SFrame), s.frz.stopped = false ∧ link < 16 ∧ vc < 4 ∧ Map.get 0
      s.ingress.gear link ≠ 0 ∧ s.channelCtxs link vc = [c] ∧ (s.ctx c).cur = some f ∧ s.sframe c f = some x ∧ x.delivered = false) ∧
    (∃ (s : State), ∃ (link : Nat), ∃ (gear : Nat), s.frz.stopped = false ∧ link < 16 ∧ gear ≤ 5 ∧ gear ≤ (s.linkCfg link).gear ∧ (s.linkCfg
      link).used = true ∧ (¬5 + link / 4 ∈ s.pwr.hubOff)) ∧
    (∃ (s : State), ∃ (link : Nat), s.frz.stopped = false ∧ link < 16 ∧ Map.get 0 s.ingress.gear link ≠ 0) ∧
    (∃ (s : State), ∃ (who : Init), ∃ (v : Word), s.frz.stopped = false ∧ who.canAccess = true ∧ s.privileged who = true ∧ s.getF 6
      Fld.ingI2cResult_result ≠ 1 ∧ bits (BitVec.toNat v) 12 2 ≠ 3) ∧
    (∃ (s : State), ∃ (v : Word), s.frz.stopped = false ∧ s.ingress.i2c = some v) :=
  ⟨⟨{ cam with root := { cam.root with starts := [fs0] } }, 0, 0, fs0, ⟨by decide +kernel, by decide +kernel, by decide +kernel, by decide +kernel,
     fun k hk he _ _ _ => by have h : ∀ k, k < 64 → (State.ctxCfg { cam with root := { cam.root with starts := [fs0] } } k).enable = true → k = 0 := (by decide +kernel); rw [h k hk he]; rfl,
     rfl⟩⟩,
   ⟨camCtx (fun c => { c with window := some (7, 5, false) }), 0, 5, 7, false, by decide +kernel⟩,
   ⟨camCtx (fun c => { c with window := some (7, 5, true) }), 0, 5, 7, true, by decide +kernel⟩,
   ⟨cam, 2, 2, by decide +kernel⟩,
   ⟨camCtx (fun c => { c with window := some (7, up.deviceTime, false) }), 2, 1, 0, .good, 7, up.deviceTime, by decide +kernel⟩,
   ⟨cam, 2, 1, 0, .good, by decide +kernel⟩,
   ⟨cam, 2, 1, 0, .headerCorrected, by decide +kernel⟩,
   ⟨inFrame (cfrm 2), 2, 1, 0, 7, cfrm 2, by decide +kernel⟩,
   ⟨inFrame (cfrm 4), 2, 1, 0, 7, cfrm 4, by decide +kernel⟩,
   ⟨cam, 2, 1, by decide +kernel⟩,
   ⟨cam, 2, by decide +kernel⟩,
   ⟨cam, .mgmt, 0x12341234, by decide +kernel⟩,
   ⟨{ cam with ingress := { cam.ingress with i2c := some 0x12341294 } }, 0x12341294, by decide +kernel⟩⟩

theorem witness_PacketsBecomeLines :
    (∃ (s : State), ∃ (link : Nat), ∃ (vc : Nat), ∃ (dt : Nat), s.frz.stopped = false ∧ link < 16 ∧ vc < 4 ∧ Map.get 0 s.ingress.gear link ≠ 0 ∧
      imageType dt = false ∧ dt ≠ 18 ∧ ((s.matchCtx link vc dt).length ≤ 1)) ∧
    (∃ (s : State), ∃ (link : Nat), ∃ (vc : Nat), ∃ (dt : Nat), s.frz.stopped = false ∧ link < 16 ∧ vc < 4 ∧ Map.get 0 s.ingress.gear link ≠ 0 ∧
      (s.matchCtx link vc dt = [])) ∧
    (∃ (s : State), ∃ (u : State), ∃ (link : Nat), ∃ (vc : Nat), ∃ (dt : Nat), ∃ (c : Nat), ∃ (rest : List Nat), s.frz.stopped = false ∧ link < 16 ∧
      vc < 4 ∧ Map.get 0 s.ingress.gear link ≠ 0 ∧ (s.matchCtx link vc dt = c :: rest) ∧ (dt = 18 ∨ imageType dt = true ∧ rest = []) ∧ u = s.pipeTake
      (s.ctxCfg c).position ∧ (u.ctx c).cur = none) ∧
    (∃ (s : State), ∃ (u : State), ∃ (link : Nat), ∃ (vc : Nat), ∃ (dt : Nat), ∃ (c : Nat), ∃ (x : SFrame), ∃ (rest : List Nat), s.frz.stopped =
      false ∧ link < 16 ∧ vc < 4 ∧ Map.get 0 s.ingress.gear link ≠ 0 ∧ (s.matchCtx link vc dt = c :: rest) ∧ (dt = 18 ∨ imageType dt = true ∧ rest =
      []) ∧ u = s.pipeTake (s.ctxCfg c).position ∧ (u.ctx c).cur = some x.frame ∧ u.sframe c x.frame = some x ∧ dt ≠ 18 ∧ x.received < (s.ctxCfg
      c).height ∧ u.held c < 15) ∧
    (∃ (s : State), ∃ (u : State), ∃ (link : Nat), ∃ (vc : Nat), ∃ (dt : Nat), ∃ (c : Nat), ∃ (x : SFrame), ∃ (rest : List Nat), s.frz.stopped =
      false ∧ link < 16 ∧ vc < 4 ∧ Map.get 0 s.ingress.gear link ≠ 0 ∧ (s.matchCtx link vc dt = c :: rest) ∧ (dt = 18 ∨ imageType dt = true ∧ rest =
      []) ∧ u = s.pipeTake (s.ctxCfg c).position ∧ (u.ctx c).cur = some x.frame ∧ u.sframe c x.frame = some x ∧ dt ≠ 18 ∧ x.received < (s.ctxCfg
      c).height ∧ u.held c < 15) ∧
    (∃ (s : State), ∃ (u : State), ∃ (link : Nat), ∃ (vc : Nat), ∃ (dt : Nat), ∃ (c : Nat), ∃ (x : SFrame), ∃ (rest : List Nat), s.frz.stopped =
      false ∧ link < 16 ∧ vc < 4 ∧ Map.get 0 s.ingress.gear link ≠ 0 ∧ (s.matchCtx link vc dt = c :: rest) ∧ (dt = 18 ∨ imageType dt = true ∧ rest =
      []) ∧ u = s.pipeTake (s.ctxCfg c).position ∧ (u.ctx c).cur = some x.frame ∧ u.sframe c x.frame = some x ∧ dt ≠ 18 ∧ (s.ctxCfg c).height ≤
      x.received ∧ ((s.ctxCfg c).long ≠ 2 ∨ x.delivered = true)) ∧
    (∃ (s : State), ∃ (u : State), ∃ (link : Nat), ∃ (vc : Nat), ∃ (dt : Nat), ∃ (c : Nat), ∃ (x : SFrame), ∃ (rest : List Nat), s.frz.stopped =
      false ∧ link < 16 ∧ vc < 4 ∧ Map.get 0 s.ingress.gear link ≠ 0 ∧ (s.matchCtx link vc dt = c :: rest) ∧ (dt = 18 ∨ imageType dt = true ∧ rest =
      []) ∧ u = s.pipeTake (s.ctxCfg c).position ∧ (u.ctx c).cur = some x.frame ∧ u.sframe c x.frame = some x ∧ dt = 18 ∧ x.embedded < (s.ctxCfg
      c).embedded) ∧
    (∃ (s : State), ∃ (u : State), ∃ (link : Nat), ∃ (vc : Nat), ∃ (dt : Nat), ∃ (c : Nat), ∃ (x : SFrame), ∃ (rest : List Nat), ∃ (st : PktState),
      s.frz.stopped = false ∧ link < 16 ∧ vc < 4 ∧ Map.get 0 s.ingress.gear link ≠ 0 ∧ (s.matchCtx link vc dt = c :: rest) ∧ (dt = 18 ∨ imageType dt
      = true ∧ rest = []) ∧ u = s.pipeTake (s.ctxCfg c).position ∧ (u.ctx c).cur = some x.frame ∧ u.sframe c x.frame = some x ∧ x.delivered = false ∧
      (st = PktState.headerBad ∨ st = PktState.crcBad)) ∧
    (∃ (s : State), ∃ (u : State), ∃ (link : Nat), ∃ (vc : Nat), ∃ (dt : Nat), ∃ (c : Nat), ∃ (x : SFrame), ∃ (rest : List Nat), ∃ (st : PktState),
      s.frz.stopped = false ∧ link < 16 ∧ vc < 4 ∧ Map.get 0 s.ingress.gear link ≠ 0 ∧ (s.matchCtx link vc dt = c :: rest) ∧ (dt = 18 ∨ imageType dt
      = true ∧ rest = []) ∧ u = s.pipeTake (s.ctxCfg c).position ∧ (u.ctx c).cur = some x.frame ∧ u.sframe c x.frame = some x ∧ x.delivered = false ∧
      (st = PktState.headerBad ∨ st = PktState.crcBad)) :=
  ⟨⟨cam, 2, 1, 0x10, by decide +kernel⟩,
   ⟨cam, 2, 1, 0x2B, by decide +kernel⟩,
   ⟨cam, cam.pipeTake 0, 2, 1, 0x2A, 0, [], by decide +kernel⟩,
   ⟨inFrame (cfrm 1), (inFrame (cfrm 1)).pipeTake 0, 2, 1, 0x2A, 0, cfrm 1, [], by decide +kernel⟩,
   ⟨inFrame (cfrm 0), (inFrame (cfrm 0)).pipeTake 0, 2, 1, 0x2A, 0, cfrm 0, [], by decide +kernel⟩,
   ⟨inFrame (cfrm 4), (inFrame (cfrm 4)).pipeTake 0, 2, 1, 0x2A, 0, cfrm 4, [], by decide +kernel⟩,
   ⟨inFrame (cfrm 0), (inFrame (cfrm 0)).pipeTake 0, 2, 1, 18, 0, cfrm 0, [], by decide +kernel⟩,
   ⟨inFrame (cfrm 1), (inFrame (cfrm 1)).pipeTake 0, 2, 1, 0x2A, 0, cfrm 1, [], .crcBad, by decide +kernel⟩,
   ⟨inFrame (cfrm 1), (inFrame (cfrm 1)).pipeTake 0, 2, 1, 0x2A, 0, cfrm 1, [], .headerBad, by decide +kernel⟩⟩

theorem witness_PipesFinishLinesAndStripsPost :
    (∃ (s : State), ∃ (u : State), ∃ (p : Nat), ∃ (l : Line), ∃ (x : SFrame), s.frz.stopped = false ∧ p < 4 ∧ p < s.ingress.positions.length ∧ u =
      s.pipeTake p ∧ (u.pos p).startDt + u.inPipeCycles p ≤ s.deviceTime ∧ (u.pos p).line = some l ∧ u.sframe l.ctx l.frame = some x) ∧
    (∃ (s : State), ∃ (u : State), ∃ (p : Nat), ∃ (r : GoldRun), ∃ (rest : List GoldRun), s.frz.stopped = false ∧ p < 4 ∧ p <
      s.ingress.positions.length ∧ u = s.pipeTake p ∧ (u.pos p).startDt + u.inPipeCycles p ≤ s.deviceTime ∧ (u.pos p).line = none ∧ (u.pos p).gold =
      true ∧ (u.pos p).golds = r :: rest) ∧
    (∃ (s : State), ∃ (u : State), ∃ (p : Nat), ∃ (r : GoldRun), ∃ (rest : List GoldRun), s.frz.stopped = false ∧ p < 4 ∧ p <
      s.ingress.positions.length ∧ u = s.pipeTake p ∧ (u.pos p).startDt + u.inPipeCycles p ≤ s.deviceTime ∧ (u.pos p).line = none ∧ (u.pos p).gold =
      true ∧ (u.pos p).golds = r :: rest) ∧
    (∃ (s : State), ∃ (u : State), ∃ (p : Nat), ∃ (r : GoldRun), ∃ (rest : List GoldRun), s.frz.stopped = false ∧ p < 4 ∧ p <
      s.ingress.positions.length ∧ u = s.pipeTake p ∧ (u.pos p).startDt + u.inPipeCycles p ≤ s.deviceTime ∧ (u.pos p).line = none ∧ (u.pos p).gold =
      true ∧ (u.pos p).golds = r :: rest) ∧
    (∃ (s : State), ∃ (u : State), ∃ (p : Nat), s.frz.stopped = false ∧ p < 4 ∧ p < s.ingress.positions.length ∧ u = s.pipeTake p ∧ (u.pos p).line =
      none ∧ (u.pos p).ready = [] ∧ (u.pos p).gold = false ∧ (u.pos p).golds ≠ [] ∧ (u.pos p).pipe ≠ none ∧ (u.pos p).copyEnd ≤ s.deviceTime ∧ (u.pos
      p).startDt ≤ s.deviceTime) ∧
    (∃ (s : State), ∃ (c : Nat), ∃ (d : Nat), ∃ (x : SFrame), s.frz.stopped = false ∧ d ∈ s.ctxDies c ∧ (s.ctx c).frames = [x] ∧ Map.get 0 x.posted d
      + 1 < (s.ctxCfg c).strips ∧ (Map.get 0 x.posted d + 1) * (s.ctxCfg c).strip ≤ (s.ctxCfg c).height ∧ (Map.get 0 x.posted d + 1) * (s.ctxCfg
      c).strip ≤ (s.ctxCfg c).rowsOut x.done ∧ s.takesFrame d x.frame = false) ∧
    (∃ (s : State), ∃ (c : Nat), ∃ (d : Nat), ∃ (x : SFrame), s.frz.stopped = false ∧ d ∈ s.ctxDies c ∧ (s.ctx c).frames = [x] ∧ Map.get 0 x.posted d
      + 1 < (s.ctxCfg c).strips ∧ (Map.get 0 x.posted d + 1) * (s.ctxCfg c).strip ≤ (s.ctxCfg c).height ∧ (Map.get 0 x.posted d + 1) * (s.ctxCfg
      c).strip ≤ (s.ctxCfg c).rowsOut x.done ∧ s.takesFrame d x.frame = true ∧ (¬s.stripFlag c x.frame ∈ (s.die d).flagHeld) ∧ 0 < Map.get 0 x.posted
      d ∧ manyWrong (Map.get 0 s.upsets (flagWord d (s.stripFlag c x.frame))) = false ∧ (¬ingressKey ∈ (s.flagCyc d (s.stripFlag c x.frame)).froms) ∧
      (∀ (q : Nat × List Byte), q ∈ s.stripLines c x (Map.get 0 x.posted d) → s.landsAt d (s.bufferAt c d x.frame + q.fst) q.snd.length)) ∧
    (∃ (s : State), ∃ (c : Nat), ∃ (d : Nat), ∃ (f : Word), (List.find? (fun r => r.fst == d) (s.ctx c).raise = some (d, f)) ∧ s.dieUp d = true ∧
      s.reach 6 d = true ∧ (¬s.stripFlag c f ∈ (s.die d).flagHeld) ∧ manyWrong (Map.get 0 s.upsets (flagWord d (s.stripFlag c f))) = false ∧
      (List.find? (fun p => p.fst == s.stripFlag c f) (s.die d).flagCyc = none)) ∧
    (∃ (s : State), ∃ (u : State), ∃ (p : Nat), ∃ (old : Nat), ∃ (new : Nat), ∃ (since : Nat), s.frz.stopped = false ∧ p < 4 ∧ p <
      s.ingress.positions.length ∧ u.sparePipe = some new ∧ (u.pos p).pipe = some old ∧ (u.pos p).handover = some since ∧ u = s.pipeTake p ∧ (u.pos
      p).ready = [] ∧ (u.pos p).line = none ∧ (u.pos p).gold = false) ∧
    (∃ (s : State), ∃ (u : State), ∃ (p : Nat), ∃ (old : Nat), ∃ (new : Nat), ∃ (since : Nat), s.frz.stopped = false ∧ p < 4 ∧ p <
      s.ingress.positions.length ∧ u.sparePipe = some new ∧ (u.pos p).pipe = some old ∧ (u.pos p).handover = some since ∧ u = s.pipeTake p ∧ (u.pos
      p).ready = [] ∧ (u.pos p).line = none ∧ (u.pos p).gold = false) ∧
    (∃ (s : State), ∃ (u : State), ∃ (p : Nat), ∃ (old : Nat), ∃ (new : Nat), ∃ (since : Nat), s.frz.stopped = false ∧ p < 4 ∧ p <
      s.ingress.positions.length ∧ u.sparePipe = some new ∧ (u.pos p).pipe = some old ∧ (u.pos p).handover = some since ∧ u = s ∧ since +
      s.slotNominal ≤ s.deviceTime ∧ (s.pos p).line = none) :=
  ⟨⟨inPipe, inPipe.pipeTake 0, 0, line0, cfrm 1, by decide +kernel⟩,
   ⟨goldIn 0 true, (goldIn 0 true).pipeTake 0, 0, ⟨0, 0, 7⟩, [], by decide +kernel⟩,
   ⟨goldIn 2 true, (goldIn 2 true).pipeTake 0, 0, ⟨0, 2, 7⟩, [], by decide +kernel⟩,
   ⟨goldIn 2 true, (goldIn 2 true).pipeTake 0, 0, ⟨0, 2, 7⟩, [], by decide +kernel⟩,
   ⟨goldIn 0 false, (goldIn 0 false).pipeTake 0, 0, by decide +kernel⟩,
   ⟨cut (inFrame done1), 0, 0, done1, by decide +kernel⟩,
   ⟨strips3 done2, 0, 0, done2, ⟨by decide +kernel, by decide +kernel, by decide +kernel, by decide +kernel, by decide +kernel, by decide +kernel,
     by decide +kernel, by decide +kernel, by decide +kernel, by decide +kernel, by decide +kernel,
     landsAt_all (by decide +kernel) (by decide +kernel)⟩⟩,
   ⟨camCtx (fun c => { c with raise := [(0, 7)] }), 0, 0, 7, by decide +kernel⟩,
   ⟨hand false, (hand false).pipeTake 0, 0, 0, 4, 5, by decide +kernel⟩,
   ⟨hand true, (hand true).pipeTake 0, 0, 0, 4, 5, by decide +kernel⟩,
   ⟨hand false, hand false, 0, 0, 4, 5, by decide +kernel⟩⟩

theorem witness_StrainerTakesItsInputs :
    (∃ (s : State), ∃ (d : Nat), ∃ (node : Nat), ∃ (f : Word), ∃ (payload : List Byte), ∃ (i : Inst), ∃ (k : Nat), s.inst d node f = some i ∧ (s.node
      i.variant node).kind = NodeKind.output ∧ (s.node i.variant node).stream = k ∧ i.released = true ∧ i.ended = none ∧ i.complete = false ∧ s.dieUp
      d = true ∧ s.reach 6 d = true ∧ (s.outCfg k).enable = true ∧ (s.outCfg k).ranged = true ∧ payload.length ≤ (s.outCfg k).maxPayload) ∧
    (∃ (s : State), ∃ (k : Nat), s.frz.stopped = false ∧ (s.outCfg k).enable = true ∧ (s.outCfg k).ranged = true) ∧
    (∃ (s : State), ∃ (k : Nat), s.frz.stopped = false ∧ (s.outCfg k).enable = true ∧ (s.outCfg k).ranged = true) ∧
    (∃ (s : State), s.frz.stopped = false ∧ s.cosyView.linkUp = true ∧ s.cosy.running = true) ∧
    (∃ (s : State), s.frz.stopped = false ∧ s.cosyView.linkUp = true ∧ s.cosy.running = true) ∧
    (∃ (s : State), ∃ (q : Nat), ∃ (f : Word), ∃ (a : Status), ∃ (b : Status), s.frz.stopped = false ∧ (s.divCfg q).kind ≠ 0 ∧ (s.divCfg q).kind ≤ 2
      ∧ q < 32 ∧ (s.divCfg q).die < s.nDies ∧ s.reach (s.divCfg q).die 6 = true ∧ s.verdict q f = none ∧ s.endedStatus (s.divCfg q).die (s.divCfg
      q).classicalNode f = some a ∧ s.endedStatus (s.divCfg q).die (s.divCfg q).neuralNode f = some b ∧ (∀ (y : FrameStart), y ∈ s.root.starts →
      BitVec.toNat (y.frame - f) < 128 ∨ BitVec.toNat (f - y.frame) < 128)) ∧
    (∃ (s : State), ∃ (stream : Nat), ∃ (p : List Byte), ∃ (m : Byte), ∃ (seq : Byte), s.frz.stopped = false ∧ stream < 32 ∧ s.tsn (4736 + 32 *
      stream) 1 = 1 ∧ s.tsn (4736 + 32 * stream + 1) 1 = 1 ∧ p = [1, m, 0, 0] ++ [0, 0, 0, seq] ++ List.replicate 8 0 ∧ (m = 1 ∨ m = 2) ∧
      (¬(s.sec.unlocked = true ∧ m = 1))) ∧
    (∃ (s : State), ∃ (stream : Nat), ∃ (p : List Byte), s.frz.stopped = false ∧ stream < 32 ∧ s.tsn (4736 + 32 * stream) 1 = 1 ∧ s.tsn (4736 + 32 *
      stream + 1) 1 = 1 ∧ p.length ≠ 16) :=
  ⟨⟨outNode, 0, 5, 7, [1, 2], { inst0 with released := true }, 3, by decide +kernel⟩,
   ⟨outNode, 3, by decide +kernel⟩,
   ⟨startsS, 3, by decide +kernel⟩,
   ⟨cosyUp, by decide +kernel⟩,
   ⟨cosyUp, by decide +kernel⟩,
   ⟨divS, 0, 7, .done, .done, by decide +kernel⟩,
   ⟨modeS, 0, [1, 2, 0, 0, 0, 0, 0, 9, 0, 0, 0, 0, 0, 0, 0, 0], 2, 9, by decide +kernel⟩,
   ⟨modeS, 0, [1, 2], by decide +kernel⟩⟩

theorem witness_PortsGatesAndTimeReads :
    (∃ (s : State), ∃ (p : Nat), s.frz.stopped = false ∧ p < 3 ∧ s.portsReady = true ∧ s.ethUp p = false ∧ (s.portCfg p).enable = true ∧ (¬13 + p ∈
      s.pwr.hubOff) ∧ (p < 2 → (s.portCfg p).macsec = 0 ∨ s.sec.sealedOk = true)) ∧
    (∃ (s : State), ∃ (p : Nat), s.frz.stopped = false ∧ p < 3 ∧ s.portsReady = true ∧ s.ethUp p = true) ∧
    (∃ (s : State), ∃ (p : Nat), ∃ (w : Nat), s.frz.stopped = false ∧ p < 2 ∧ (s.portCfg p).gcl ≠ 0 ∧ s.ethUp p = true ∧ s.gridPoint s.wall = some w
      ∧ Map.get 0 s.time.gateStart p ≠ w + 1) ∧
    (∃ (s : State), ∃ (p : Nat), s.frz.stopped = false ∧ p < 2 ∧ s.ethUp p = true ∧ s.portsReady = true) ∧
    (∃ (s : State), ∃ (p : Nat), s.frz.stopped = false ∧ p < 2 ∧ s.ethUp p = true ∧ s.portsReady = true) ∧
    (∃ (s : State), ∃ (p : Nat), s.frz.stopped = false ∧ p < 2 ∧ s.ethUp p = true ∧ s.portsReady = true) ∧
    (∃ (s : State), s.frz.stopped = false ∧ s.time.everSynced = true ∧ s.time.holdover = false ∧ s.time.lastSyncDt + 337500000 ≤ s.deviceTime) ∧
    (∃ (s : State), ∃ (who : Init), ∃ (e : Word), s.frz.stopped = false ∧ who.canAccess = true ∧ (List.find? (fun p => p.fst == captureKey who 1)
      s.captures = some (captureKey who 1, e))) ∧
    (∃ (s : State), ∃ (who : Init), s.frz.stopped = false ∧ who.canAccess = true ∧ (List.find? (fun p => p.fst == captureKey who 1) s.captures =
      none)) :=
  ⟨⟨portOn, 0, by decide +kernel⟩,
   ⟨netS, 0, by decide +kernel⟩,
   ⟨gated, 0, (gated.gridPoint gated.wall).getD 0, by decide +kernel⟩,
   ⟨netS, 0, by decide +kernel⟩,
   ⟨synced false, 0, by decide +kernel⟩,
   ⟨synced false, 0, by decide +kernel⟩,
   ⟨synced false, by decide +kernel⟩,
   ⟨{ up with captures := [(captureKey .mgmt 1, 7)] }, .mgmt, 7, by decide +kernel⟩,
   ⟨up, .mgmt, by decide +kernel⟩⟩

theorem witness_HostFramesGoOutAndComeIn :
    (∃ (s : State), ∃ (k : Nat), ∃ (m : OutMsg), ∃ (rest : List OutMsg), s.frz.stopped = false ∧ (s.stream k).queue = m :: rest ∧
      s.saf.framingStopped = true) ∧
    (∃ (s : State), ∃ (k : Nat), ∃ (m : OutMsg), ∃ (rest : List OutMsg), s.frz.stopped = false ∧ (s.stream k).queue = m :: rest ∧
      s.saf.framingStopped = false ∧ s.hostUp ≠ [] ∧ m.given = [] ∧ (∀ (p : Nat), p ∈ s.hostUp → s.gateAllows p (s.outCfg k).pcp (lineNs (s.portCfg
      p).speed (frameBytes ((s.portCfg p).macsec != 0) (m.frag m.sent).length)) = true)) ∧
    (∃ (s : State), ∃ (k : Nat), ∃ (m : OutMsg), ∃ (rest : List OutMsg), s.frz.stopped = false ∧ (s.stream k).queue = m :: rest ∧
      s.saf.framingStopped = false ∧ s.hostUp ≠ [] ∧ m.given = [] ∧ (∀ (p : Nat), p ∈ s.hostUp → s.gateAllows p (s.outCfg k).pcp (lineNs (s.portCfg
      p).speed (frameBytes ((s.portCfg p).macsec != 0) (m.frag m.sent).length)) = true)) ∧
    (∃ (s : State), ∃ (k : Nat), ∃ (m : OutMsg), ∃ (rest : List OutMsg), s.frz.stopped = false ∧ (s.stream k).queue = m :: rest ∧
      s.saf.framingStopped = false ∧ s.hostUp = []) ∧
    (∃ (s : State), ∃ (p : Nat), ∃ (f : IngFrame), s.frz.stopped = false ∧ p < 2 ∧ s.ethUp p = true ∧ f.fcsOk = false) ∧
    (∃ (s : State), ∃ (p : Nat), ∃ (f : IngFrame), s.frz.stopped = false ∧ p < 2 ∧ s.ethUp p = true ∧ f.fcsOk = true ∧ ((s.portCfg p).macsec = 0 ∨
      f.icvOk = true ∧ f.replayOk = true) ∧ (∀ (k : Nat), k < 32 → (s.ingCfg k).enable = true → (s.ingCfg k).streamId ≠ f.streamId.toNat)) ∧
    (∃ (s : State), ∃ (p : Nat), ∃ (f : IngFrame), ∃ (k : Nat), ∃ (x : IngStream), ∃ (y : IngStream), ∃ (n : Nat), s.frz.stopped = false ∧ p < 2 ∧
      s.ethUp p = true ∧ f.fcsOk = true ∧ ((s.portCfg p).macsec = 0 ∨ f.icvOk = true ∧ f.replayOk = true) ∧ (List.find? (fun k => (s.ingCfg k).enable
      && (s.ingCfg k).streamId == f.streamId.toNat) (List.range 32) = some k) ∧ f.size ≤ 1536 ∧ f.size ≤ (s.ingCfg k).maxSdu ∧ (s.ingStream k).meter
      (s.ingCfg k) s.deviceTime f.size = (x, true) ∧ x.recover s.deviceTime (f.rtag % 65536) = (y, false, true, n)) ∧
    (∃ (s : State), ∃ (p : Nat), ∃ (f : IngFrame), ∃ (k : Nat), ∃ (x : IngStream), ∃ (y : IngStream), ∃ (n : Nat), s.frz.stopped = false ∧ p < 2 ∧
      s.ethUp p = true ∧ f.fcsOk = true ∧ ((s.portCfg p).macsec = 0 ∨ f.icvOk = true ∧ f.replayOk = true) ∧ (List.find? (fun k => (s.ingCfg k).enable
      && (s.ingCfg k).streamId == f.streamId.toNat) (List.range 32) = some k) ∧ f.size ≤ 1536 ∧ f.size ≤ (s.ingCfg k).maxSdu ∧ (s.ingStream k).meter
      (s.ingCfg k) s.deviceTime f.size = (x, true) ∧ x.recover s.deviceTime (f.rtag % 65536) = (y, true, false, n) ∧ f.fragIndex < f.fragCount ∧ (∀
      (a : Partial), a ∈ y.parts → a.seq ≠ f.msgSeq) ∧ 1 < f.fragCount) ∧
    (∃ (s : State), ∃ (p : Nat), ∃ (f : IngFrame), ∃ (k : Nat), ∃ (x : IngStream), ∃ (y : IngStream), ∃ (n : Nat), ∃ (msg : List Byte), s.frz.stopped
      = false ∧ p < 2 ∧ s.ethUp p = true ∧ f.fcsOk = true ∧ ((s.portCfg p).macsec = 0 ∨ f.icvOk = true ∧ f.replayOk = true) ∧ (List.find? (fun k =>
      (s.ingCfg k).enable && (s.ingCfg k).streamId == f.streamId.toNat) (List.range 32) = some k) ∧ f.size ≤ 1536 ∧ f.size ≤ (s.ingCfg k).maxSdu ∧
      (s.ingStream k).meter (s.ingCfg k) s.deviceTime f.size = (x, true) ∧ x.recover s.deviceTime (f.rtag % 65536) = (y, true, false, n) ∧
      f.fragIndex = 0 ∧ f.fragCount = 1 ∧ f.data ≠ [] ∧ y.parts = [] ∧ messageOf f.data = some msg) ∧
    (∃ (s : State), ∃ (k : Nat), ∃ (a : Partial), s.frz.stopped = false ∧ a ∈ (s.ingStream k).parts ∧ a.firstDt + 1800000 ≤ s.deviceTime) ∧
    (∃ (s : State), ∃ (d : Nat), ∃ (q : Nat), ∃ (l : List Byte), ∃ (rest : List (List Byte)), s.frz.stopped = false ∧ Map.get [] s.ringHold (holdKey
      d q) = l :: rest ∧ s.dieUp d = true ∧ s.reach 6 d = true ∧ (s.ringOf d q).full (s.queue d q) = true) ∧
    (∃ (s : State), ∃ (d : Nat), ∃ (q : Nat), ∃ (l : List Byte), ∃ (rest : List (List Byte)), s.frz.stopped = false ∧ Map.get [] s.ringHold (holdKey
      d q) = l :: rest ∧ s.dieUp d = true ∧ s.reach 6 d = true ∧ (s.ringOf d q).full (s.queue d q) = false) ∧
    (∃ (s : State), ∃ (k : Nat), s.frz.stopped = false ∧ (s.ingStream k).rtagLast ≠ none ∧ (s.ingStream k).lastDt + 90000000 ≤ s.deviceTime) :=
  ⟨⟨{ sending netS msg0 with saf := { netS.saf with framingStopped := true } }, 3, msg0, [], by decide +kernel⟩,
   ⟨sending netS msg0, 3, msg0, [], by decide +kernel⟩,
   ⟨sending netS msg1, 3, msg1, [], by decide +kernel⟩,
   ⟨sending up msg1, 3, msg1, [], by decide +kernel⟩,
   ⟨netS, 0, { fr0 100 0 1 [1] with fcsOk := false }, by decide +kernel⟩,
   ⟨netS, 0, fr0 100 0 1 [1], by decide +kernel⟩,
   ⟨seenS, 0, fr0 100 0 1 [1], 0, mfull (seenS.ingStream 0) seenS 100, ((mfull (seenS.ingStream 0) seenS 100).recover seenS.deviceTime 9).1, 0,
     by decide +kernel⟩,
   ⟨listening, 0, fr0 100 1 2 [1], 0, mfull (listening.ingStream 0) listening 100, ((mfull (listening.ingStream 0) listening 100).recover
     listening.deviceTime 9).1, 0, by decide +kernel⟩,
   ⟨listening, 0, fr0 100 0 1 whole, 0, mfull (listening.ingStream 0) listening 100, ((mfull (listening.ingStream 0) listening 100).recover
     listening.deviceTime 9).1, 0, whole, by decide +kernel⟩,
   ⟨netS.modIngStream 0 (fun x => { x with parts := [part0] }), 0, part0, by decide +kernel⟩,
   ⟨holdS 4, 0, 0x404, [1, 2, 3], [], by decide +kernel⟩,
   ⟨holdS 1, 0, 0x404, [1, 2, 3], [], by decide +kernel⟩,
   ⟨seenS, 0, by decide +kernel⟩⟩

theorem witness_ShadowsTakeTheRegisters :
    (∃ (s : State), ∃ (d : Nat), (s.dieUp d = true ∨ d = 6 ∧ s.pwr.good = true ∧ s.pwr.resetN = true) ∧ (List.Pairwise (fun a b => a.fst < b.fst)
      s.shadow)) ∧
    (∃ (s : State), ∃ (d : Nat), (s.dieUp d = true ∨ d = 6 ∧ s.pwr.good = true ∧ s.pwr.resetN = true) ∧ (List.Pairwise (fun a b => a.fst < b.fst)
      s.shadow)) :=
  ⟨⟨up, 6, by decide +kernel⟩,
   ⟨up, 1, by decide +kernel⟩⟩

theorem witness_InsertionResetAndPowerLoss :
    (∃ (s : State), s.pwr.good = false) ∧
    (∃ (s : State), s.pwr.contact = true ∧ s.pwr.inrush = false ∧ s.pwr.cut = false ∧ s.pwr.safeToRemove = false) ∧
    (∃ (s : State), s.pwr.removal = none ∧ s.pwr.resetN = true ∧ Instr.removalRequest ∈ s.pending) ∧
    (∃ (s : State), s.pwr.removal = none ∧ s.pwr.resetN = true ∧ s.pwr.good = true ∧ (¬Instr.removalRequest ∈ s.pending)) ∧
    (∃ (s : State), s.pwr.removal = none ∧ s.pwr.resetN = false ∧ s.pwr.good = true) ∧
    (∃ (s : State), s.pwr.removal = none ∧ s.pwr.resetN = false ∧ s.pwr.good = false) ∧
    (∃ (s : State), s.pwr.removal ≠ none) ∧
    (∃ (s : State), s.pwr.safeToRemove = true) ∧
    (∃ (mv : Nat), (mv < 34000 ∨ 62000 < mv)) ∧
    (∃ (mv : Nat), (mv < 30000 ∨ 62000 < mv)) ∧
    (∃ (mv : Nat), 34000 ≤ mv ∧ mv ≤ 62000) ∧
    (∃ (s : State), ∃ (d : Nat), s.pwr.good = true ∧ (d < s.nDies ∨ d = 6)) ∧
    (∃ (s : State), ∃ (mv : Nat), s.frz.stopped = false ∧ s.pwr.good = true ∧ 34000 ≤ mv ∧ mv < 36000 ∧ (s.pwr.lowDt = none ∨ ∃ u, s.pwr.lowDt = some
      u ∧ u + 900000000 ≤ s.deviceTime)) ∧
    (∃ (s : State), ∃ (mv : Nat), ∃ (u : Nat), s.frz.stopped = false ∧ s.pwr.good = true ∧ 34000 ≤ mv ∧ mv < 36000 ∧ s.pwr.lowDt = some u ∧
      s.deviceTime < u + 900000000) :=
  ⟨⟨State.reset, by decide +kernel⟩,
   ⟨pw (fun p => { p with inrush := false }), by decide +kernel⟩,
   ⟨{ pw (fun p => { p with resetN := true }) with pending := [.removalRequest] }, by decide +kernel⟩,
   ⟨pw (fun p => { p with resetN := true }), by decide +kernel⟩,
   ⟨pw (fun p => { p with resetN := false }), by decide +kernel⟩,
   ⟨pw (fun p => { p with resetN := false, good := false, cut := true }), by decide +kernel⟩,
   ⟨pw (fun p => { p with removal := some 5 }), by decide +kernel⟩,
   ⟨pw (fun p => { p with safeToRemove := true }), by decide +kernel⟩,
   ⟨33999, by decide +kernel⟩,
   ⟨29999, by decide +kernel⟩,
   ⟨62000, by decide +kernel⟩,
   ⟨up, 2, by decide +kernel⟩,
   ⟨up, 34000, ⟨by decide +kernel, by decide +kernel, by decide +kernel, by decide +kernel, .inl (by decide +kernel)⟩⟩,
   ⟨pw (fun p => { p with lowDt := some 999999999990 }), 35999, 999999999990, by decide +kernel⟩⟩

theorem witness_MonitorsPhasesAndClocks :
    (∃ (s : State), s.frz.stopped = false ∧ s.pwr.good = true) ∧
    (∃ (s : State), s.frz.stopped = false ∧ s.pwr.good = true) ∧
    (∃ (s : State), ∃ (d : Nat), ∃ (sensor : Nat), s.frz.stopped = false ∧ s.pwr.good = true ∧ (d < s.nDies ∨ d = 6) ∧ sensor < 64) ∧
    (∃ (s : State), ∃ (d : Nat), ∃ (m : MonitorKind), s.frz.stopped = false ∧ s.pwr.good = true ∧ (d < s.nDies ∨ d = 6) ∧ (m = MonitorKind.clock ∨ m
      = MonitorKind.power)) ∧
    (∃ (s : State), ∃ (d : Nat), ∃ (m : MonitorKind), s.frz.stopped = false ∧ s.pwr.good = true ∧ (d < s.nDies ∨ d = 6) ∧ (m = MonitorKind.clock ∨ m
      = MonitorKind.power)) ∧
    (∃ (s : State), ∃ (d : Nat), ∃ (m : MonitorKind), s.frz.stopped = false ∧ s.pwr.good = true ∧ d < s.nDies ∧ d ≠ 6 ∧ m ≠ MonitorKind.inlet ∧ m ≠
      MonitorKind.power) ∧
    (∃ (s : State), ∃ (d : Nat), ∃ (g : Nat), s.frz.stopped = false ∧ s.pwr.good = true ∧ (d < s.nDies ∧ g < 6 ∨ d = 6 ∧ g < 5)) ∧
    (∃ (s : State), ∃ (d : Nat), ∃ (n : Nat), ∃ (on : Bool), s.frz.stopped = false ∧ s.pwr.good = true ∧ s.hasDomain d n = true ∧ d ≠ 7 ∧
      s.domainWanted d n = on) ∧
    (∃ (s : State), ∃ (d : Nat), ∃ (n : Nat), ∃ (on : Bool), s.frz.stopped = false ∧ s.pwr.good = true ∧ s.hasDomain d n = true ∧ d ≠ 7 ∧
      s.domainWanted d n ≠ on) ∧
    (∃ (s : State), ∃ (n : Nat), s.frz.stopped = false ∧ s.pwr.good = true ∧ n < 8 ∧ s.cosy.powered = true) ∧
    (∃ (s : State), ∃ (n : Nat), s.frz.stopped = false ∧ s.pwr.good = true ∧ n < 8 ∧ s.cosy.powered = true) ∧
    (∃ (s : State), ∃ (d : Nat), s.pwr.good = false ∧ s.pwr.cut = true ∧ (d < s.nDies ∨ d = 6)) ∧
    (∃ (s : State), ∃ (a : Bool), ∃ (b : Bool), ∃ (c : Bool), s.frz.stopped = false ∧ s.pwr.good = true ∧ 2 ≤ s.boot.step ∧ (if s.pwr.ref = 0 then a
      else b) = true ∧ (if s.pwr.ref = 0 then b else a) = true ∧ c = false ∧ s.pwr.root = 0) ∧
    (∃ (s : State), ∃ (a : Bool), ∃ (b : Bool), ∃ (c : Bool), s.frz.stopped = false ∧ s.pwr.good = true ∧ 2 ≤ s.boot.step ∧ (if s.pwr.ref = 0 then a
      else b) = true ∧ (if s.pwr.ref = 0 then b else a) = false ∧ c = true ∧ s.pwr.refFailed = [] ∧ s.pwr.ref < 2) ∧
    (∃ (s : State), ∃ (a : Bool), ∃ (b : Bool), ∃ (c : Bool), s.frz.stopped = false ∧ s.pwr.good = true ∧ 2 ≤ s.boot.step ∧ a = false ∧ b = false ∧ c
      = false) ∧
    (∃ (s : State), ∃ (h : Nat), s.pwr.holdover = some h) ∧
    (∃ (s : State), s.pwr.good = true ∧ s.pwr.removal = none ∧ s.pwr.resetN = false) ∧
    (∃ (s : State), s.pwr.good = true ∧ s.pwr.removal = none ∧ s.pwr.resetN = true) :=
  ⟨⟨up, by decide +kernel⟩,
   ⟨up, by decide +kernel⟩,
   ⟨up, 2, 5, by decide +kernel⟩,
   ⟨up, 2, .clock, by decide +kernel⟩,
   ⟨up, 2, .power, by decide +kernel⟩,
   ⟨up, 2, .rail, by decide +kernel⟩,
   ⟨up, 2, 5, by decide +kernel⟩,
   ⟨up, 2, 5, up.domainWanted 2 5, by decide +kernel⟩,
   ⟨up, 2, 5, !up.domainWanted 2 5, by decide +kernel⟩,
   ⟨{ up with cosy := { up.cosy with powered := true } }, 3, by decide +kernel⟩,
   ⟨{ up with cosy := { up.cosy with powered := true } }, 3, by decide +kernel⟩,
   ⟨pw (fun p => { p with good := false, cut := true }), 0, by decide +kernel⟩,
   ⟨up, true, true, false, by decide +kernel⟩,
   ⟨up, true, false, true, by decide +kernel⟩,
   ⟨up, false, false, false, by decide +kernel⟩,
   ⟨pw (fun p => { p with holdover := some 5 }), 5, by decide +kernel⟩,
   ⟨pw (fun p => { p with resetN := false }), by decide +kernel⟩,
   ⟨pw (fun p => { p with resetN := true }), by decide +kernel⟩⟩

theorem witness_ImageEnginesCompleteTheirTasks :
    (∃ (s : State), ∃ (d : Nat), ∃ (i : Nat), ∃ (j : Job), d < s.dies.length ∧ s.job d 1 i = some j ∧ s.pyrError j = none ∧ s.spansReach d (allSpans
      (j.arg 0)) = true) ∧
    (∃ (s : State), ∃ (d : Nat), ∃ (i : Nat), ∃ (j : Job), d < s.dies.length ∧ s.job d 1 i = some j ∧ s.pyrError j = none ∧ s.spansReach d (allSpans
      (j.arg 0)) = false) ∧
    (∃ (s : State), ∃ (d : Nat), ∃ (i : Nat), ∃ (j : Job), ∃ (r : Nat), d < s.dies.length ∧ s.job d 1 i = some j ∧ s.pyrError j = some r) ∧
    (∃ (s : State), ∃ (d : Nat), ∃ (i : Nat), ∃ (j : Job), d < s.dies.length ∧ s.job d 2 i = some j ∧ j.p 0 1 ≠ 1 ∧ s.meshError d i j = none ∧
      s.spansReach d (meshReads j (s.mesh d i j)) = true) ∧
    (∃ (s : State), ∃ (d : Nat), ∃ (i : Nat), ∃ (j : Job), d < s.dies.length ∧ s.job d 2 i = some j ∧ j.p 0 1 ≠ 1 ∧ s.meshError d i j = none ∧
      s.spansReach d (meshReads j (s.mesh d i j)) = false) ∧
    (∃ (s : State), ∃ (d : Nat), ∃ (i : Nat), ∃ (j : Job), ∃ (r : Nat), d < s.dies.length ∧ s.job d 2 i = some j ∧ j.p 0 1 ≠ 1 ∧ s.meshError d i j =
      some r) ∧
    (∃ (s : State), ∃ (d : Nat), ∃ (i : Nat), ∃ (j : Job), d < s.dies.length ∧ s.job d 2 i = some j ∧ j.p 0 1 ≠ 0 ∧ s.samplerError j = none ∧
      s.spansReach d (samplerReads j) = true) ∧
    (∃ (s : State), ∃ (d : Nat), ∃ (i : Nat), ∃ (j : Job), d < s.dies.length ∧ s.job d 2 i = some j ∧ j.p 0 1 ≠ 0 ∧ s.samplerError j = none ∧
      s.spansReach d (samplerReads j) = false) ∧
    (∃ (s : State), ∃ (d : Nat), ∃ (i : Nat), ∃ (j : Job), ∃ (r : Nat), d < s.dies.length ∧ s.job d 2 i = some j ∧ j.p 0 1 ≠ 0 ∧ s.samplerError j =
      some r) ∧
    (∃ (s : State), ∃ (d : Nat), ∃ (i : Nat), ∃ (j : Job), d < s.dies.length ∧ s.job d 4 i = some j ∧ s.flowError j = none ∧ s.spansReach d
      (flowReads j) = true) ∧
    (∃ (s : State), ∃ (d : Nat), ∃ (i : Nat), ∃ (j : Job), d < s.dies.length ∧ s.job d 4 i = some j ∧ s.flowError j = none ∧ s.spansReach d
      (flowReads j) = false) ∧
    (∃ (s : State), ∃ (d : Nat), ∃ (i : Nat), ∃ (j : Job), ∃ (r : Nat), d < s.dies.length ∧ s.job d 4 i = some j ∧ s.flowError j = some r) ∧
    (∃ (s : State), ∃ (d : Nat), ∃ (i : Nat), ∃ (j : Job), d < s.dies.length ∧ s.job d 5 i = some j ∧ j.p 0 1 ≠ 1 ∧ s.steError j 0 = none ∧
      s.spansReach d (steReads j) = true) ∧
    (∃ (s : State), ∃ (d : Nat), ∃ (i : Nat), ∃ (j : Job), d < s.dies.length ∧ s.job d 5 i = some j ∧ j.p 0 1 ≠ 1 ∧ s.steError j 0 = none ∧
      s.spansReach d (steReads j) = false) ∧
    (∃ (s : State), ∃ (d : Nat), ∃ (i : Nat), ∃ (j : Job), ∃ (r : Nat), d < s.dies.length ∧ s.job d 5 i = some j ∧ j.p 0 1 ≠ 1 ∧ s.steError j 0 =
      some r) ∧
    (∃ (s : State), ∃ (d : Nat), ∃ (i : Nat), ∃ (j : Job), d < s.dies.length ∧ s.job d 5 i = some j ∧ j.p 0 1 ≠ 0 ∧ s.steError j 1 = none) ∧
    (∃ (s : State), ∃ (d : Nat), ∃ (i : Nat), ∃ (j : Job), ∃ (r : Nat), d < s.dies.length ∧ s.job d 5 i = some j ∧ j.p 0 1 ≠ 0 ∧ s.steError j 1 =
      some r) ∧
    (∃ (s : State), ∃ (d : Nat), ∃ (i : Nat), ∃ (j : Job), ∃ (rows : List Nat), d < s.dies.length ∧ s.job d 5 i = some j ∧ j.p 0 1 = 1 ∧ s.steError j
      1 = none ∧ steConf j = none ∧ steRows j = some rows ∧ (∀ (y : Nat), y ∈ rows → s.inStretch (pixAddr (j.arg 2) 0 y) (64 * (j.arg 2).runGranules)
      = false ∧ ∀ (k : Nat), k < 64 * (j.arg 2).runGranules → ∃ o, s.region (pixAddr (j.arg 2) 0 y + k) = Region.commons d o)) :=
  ⟨⟨pyrS, 0, 0, jobOf pyrS 1, by decide +kernel⟩,
   ⟨pyrFar, 0, 0, jobOf pyrFar 1, by decide +kernel⟩,
   ⟨pyrBad, 0, 0, jobOf pyrBad 1, 166, by decide +kernel⟩,
   ⟨meshS, 0, 0, jobOf meshS 2, by decide +kernel⟩,
   ⟨meshFar, 0, 0, jobOf meshFar 2, by decide +kernel⟩,
   ⟨meshBad, 0, 0, jobOf meshBad 2, (meshBad.meshError 0 0 (jobOf meshBad 2)).getD 0, by decide +kernel⟩,
   ⟨smpS, 0, 0, jobOf smpS 2, by decide +kernel⟩,
   ⟨smpFar, 0, 0, jobOf smpFar 2, by decide +kernel⟩,
   ⟨smpBad, 0, 0, jobOf smpBad 2, (smpBad.samplerError (jobOf smpBad 2)).getD 0, by decide +kernel⟩,
   ⟨flwS, 0, 0, jobOf flwS 4, by decide +kernel⟩,
   ⟨flwFar, 0, 0, jobOf flwFar 4, by decide +kernel⟩,
   ⟨flwBad, 0, 0, jobOf flwBad 4, (flwBad.flowError (jobOf flwBad 4)).getD 0, by decide +kernel⟩,
   ⟨steS sgmP, 0, 0, jobOf (steS sgmP) 5, by decide +kernel⟩,
   ⟨steFar, 0, 0, jobOf steFar 5, by decide +kernel⟩,
   ⟨steBad, 0, 0, jobOf steBad 5, (steBad.steError (jobOf steBad 5) 0).getD 0, by decide +kernel⟩,
   ⟨steS (steP 1), 0, 0, jobOf (steS (steP 1)) 5, by decide +kernel⟩,
   ⟨steBad1, 0, 0, jobOf steBad1 5, (steBad1.steError (jobOf steBad1 5) 1).getD 0, by decide +kernel⟩,
   ⟨steS (steP 1), 0, 0, jobOf (steS (steP 1)) 5, List.range 16, ⟨by decide +kernel, by decide +kernel, by decide +kernel, by decide +kernel,
     by decide +kernel, by decide +kernel, commons_rows (by decide +kernel)⟩⟩⟩

theorem witness_FeatureEngineCompletesItsTasks_0 :
    ∃ (s : State), ∃ (d : Nat), ∃ (i : Nat), ∃ (j : Job), ∃ (matching : Bool), ∃ (r : Nat), d < s.dies.length ∧ s.job d 3 i = some j ∧ (j.p 0 1 = if
      matching = true then 0 else 1) ∧ (s.featureError d j matching = some r) :=
  ⟨ftrBad, 0, 0, jobOf ftrBad 3, true, (ftrBad.featureError 0 (jobOf ftrBad 3) true).getD 0, by decide +kernel⟩

theorem witness_FeatureEngineCompletesItsTasks_1 :
    ∃ (s : State), ∃ (d : Nat), ∃ (i : Nat), ∃ (j : Job), d < s.dies.length ∧ s.job d 3 i = some j ∧ s.spansReach d (List.map allSpans (featureSrcs
      j)).flatten = true ∧ spansMeet (runSpans (j.arg (j.p 2 1))) (List.map allSpans (featureSrcs j)).flatten = false ∧ j.p 0 1 = 0 ∧ s.featureError
      d j true = none :=
  ⟨ftrS 0, 0, 0, jobOf (ftrS 0) 3, ⟨by decide +kernel, by decide +kernel, by decide +kernel, by decide +kernel, by decide +kernel,
    featureError_none (by decide +kernel) (by decide +kernel) (by decide +kernel) (by decide +kernel) (by decide +kernel)⟩⟩

theorem witness_FeatureEngineCompletesItsTasks_2 :
    ∃ (s : State), ∃ (d : Nat), ∃ (i : Nat), ∃ (j : Job), d < s.dies.length ∧ s.job d 3 i = some j ∧ s.spansReach d (List.map allSpans (featureSrcs
      j)).flatten = true ∧ spansMeet (runSpans (j.arg (j.p 2 1))) (List.map allSpans (featureSrcs j)).flatten = false ∧ j.p 0 1 = 1 ∧ s.featureError
      d j false = none :=
  ⟨ftrS 1, 0, 0, jobOf (ftrS 1) 3, ⟨by decide +kernel, by decide +kernel, by decide +kernel, by decide +kernel, by decide +kernel,
    featureError_none (by decide +kernel) (by decide +kernel) (by decide +kernel) (by decide +kernel) (by decide +kernel)⟩⟩

theorem witness_FeatureEngineCompletesItsTasks_3 :
    ∃ (s : State), ∃ (d : Nat), ∃ (i : Nat), ∃ (j : Job), d < s.dies.length ∧ s.job d 3 i = some j ∧ j.p 0 1 = 2 ∧ partitionOk j = true :=
  ⟨ftrS 2, 0, 0, jobOf (ftrS 2) 3, by decide +kernel⟩

theorem witness_FeatureEngineCompletesItsTasks_4 :
    ∃ (s : State), ∃ (d : Nat), ∃ (i : Nat), ∃ (j : Job), d < s.dies.length ∧ s.job d 3 i = some j ∧ j.p 0 1 = 3 ∧ partitionOk j = true ∧ s.dumpOk j
      = true :=
  ⟨ftrD, 0, 0, jobOf ftrD 3, by decide +kernel⟩

theorem witness_FeatureEngineCompletesItsTasks_5 :
    ∃ (s : State), ∃ (who : Init), ∃ (d : Nat), ∃ (i : Nat), who.canAccess = true ∧ d < s.nDies ∧ d < s.dies.length ∧ i < 2 ∧ s.privileged who = true
      ∧ s.dieUp d = true :=
  ⟨up, .mgmt, 0, 0, by decide +kernel⟩

theorem witness_AddressSlotAndSequencer :
    (∃ (s : State), ∃ (t : State), ∃ (c : CoreRef), s.atCycle c = Standing.here t ∧ c.die < t.dies.length ∧ bits (t.slotWord c 3) 0 2 = 1 ∧
      (Gen.ofWord (t.slotWord c 3)).ok = true) ∧
    (∃ (s : State), ∃ (t : State), ∃ (c : CoreRef), ∃ (ls : List LoopState), s.atCycle c = Standing.here t ∧ c.die < t.dies.length ∧ bits (t.slotWord
      c 0) 0 2 = 1 ∧ startLoop (t.core c.die c.core).pc (t.slotWord c 0) (t.core c.die c.core).loops = some ls) ∧
    (∃ (s : State), ∃ (t : State), ∃ (c : CoreRef), s.atCycle c = Standing.here t ∧ c.die < t.dies.length ∧ bits (t.slotWord c 0) 0 2 = 2) ∧
    (∃ (s : State), ∃ (t : State), ∃ (c : CoreRef), ∃ (i : Nat), ∃ (n : Nat), ∃ (gi : Nat), ∃ (ch : Chan), ∃ (e : TDesc), ∃ (q : Nat → Option (Nat ×
      Nat × List Byte)), s.atCycle c = Standing.here t ∧ c.die < t.dies.length ∧ i = bits (t.slotWord c 3) 5 3 ∧ n = bits (t.slotWord c 3) 18 4 + 1 ∧
      gi = bits (t.slotWord c 3) 2 3 ∧ bits (t.slotWord c 3) 0 2 = 2 ∧ (t.core c.die c.core).chans[i]? = some ch ∧ e = TDesc.ofBytes ch.desc ∧
      ch.sent + n ≤ ch.size ∧ ch.ok c.die c.core = true ∧ ch.kind = 0 ∧ ({ t.gen c.die c.core gi with width := n - 1 : Gen }).inLine 1 = true ∧
      (t.core c.die c.core).portFree 8 c.cyc = true ∧ (∀ (k : Nat), q k = chanGranule e (unrank e.storeOuter ((ch.sent + k) / e.storeRun)) ((ch.sent
      + k) % e.storeRun)) ∧ (∀ (k : Nat), k < n → ∀ (p : Nat × Nat × List Byte), q k = some p → ∀ (j : Nat), j < 64 → t.dataAddr (p.fst + j) = true ∧
      ∀ (o : Nat), t.region (p.fst + j) ≠ Region.mailbox o)) :=
  ⟨⟨g1, here g1, cref, by decide +kernel⟩,
   ⟨loop1, here loop1, cref, (startLoop ((here loop1).core 0 3).pc ((here loop1).slotWord cref 0) ((here loop1).core 0 3).loops).getD [],
     by decide +kernel⟩,
   ⟨end1, here end1, cref, by decide +kernel⟩,
   ⟨st1, here st1, cref, 0, 2, 2, chan1, TDesc.ofBytes chan1.desc, fun k => chanGranule (TDesc.ofBytes chan1.desc) (unrank (TDesc.ofBytes
     chan1.desc).storeOuter ((chan1.sent + k) / (TDesc.ofBytes chan1.desc).storeRun)) ((chan1.sent + k) % (TDesc.ofBytes chan1.desc).storeRun),
     ⟨by decide +kernel, by decide +kernel, by decide +kernel, by decide +kernel, by decide +kernel, by decide +kernel, by decide +kernel,
     by decide +kernel, by decide +kernel, by decide +kernel, by decide +kernel, by decide +kernel, by decide +kernel, fun _ => rfl,
     granules_data (by decide +kernel)⟩⟩⟩

theorem witness_MatrixEngineLoadsRunsAndStores :
    (∃ (s : State), ∃ (t : State), ∃ (c : CoreRef), ∃ (i : Nat), ∃ (gi : Nat), ∃ (fmt : Nat), s.atCycle c = Standing.here t ∧ c.die < t.dies.length ∧
      i = bits (t.slotWord c 1) 1 1 ∧ gi = bits (t.slotWord c 1) 2 3 ∧ fmt = bits (t.slotWord c 1) 15 4 ∧ testBit (t.slotWord c 1) 0 = true ∧ (t.gen
      c.die c.core gi).skew = false ∧ (t.core c.die c.core).bufferFree c.cyc true i = true ∧ (t.core c.die c.core).portFree 1 c.cyc = true) ∧
    (∃ (s : State), ∃ (t : State), ∃ (c : CoreRef), ∃ (i : Nat), ∃ (gi : Nat), ∃ (fmt : Nat), s.atCycle c = Standing.here t ∧ c.die < t.dies.length ∧
      i = bits (t.slotWord c 1) 1 1 ∧ gi = bits (t.slotWord c 1) 2 3 ∧ fmt = bits (t.slotWord c 1) 15 4 ∧ testBit (t.slotWord c 1) 0 = true ∧ (t.gen
      c.die c.core gi).skew = false ∧ (t.core c.die c.core).bufferFree c.cyc true i = true ∧ (t.core c.die c.core).portFree 1 c.cyc = true) ∧
    (∃ (s : State), ∃ (t : State), ∃ (c : CoreRef), ∃ (i : Nat), ∃ (gi : Nat), ∃ (fmt : Nat), s.atCycle c = Standing.here t ∧ c.die < t.dies.length ∧
      i = bits (t.slotWord c 1) 6 1 ∧ gi = bits (t.slotWord c 1) 7 3 ∧ fmt = bits (t.slotWord c 1) 19 4 ∧ testBit (t.slotWord c 1) 5 = true ∧ (t.gen
      c.die c.core gi).skew = false ∧ (t.core c.die c.core).bufferFree c.cyc false i = true ∧ (t.core c.die c.core).portFree 2 c.cyc = true) ∧
    (∃ (s : State), ∃ (t : State), ∃ (c : CoreRef), ∃ (fa : Nat), ∃ (fb : Nat), ∃ (acc : Nat), ∃ (a : Group), ∃ (b : Group), ∃ (ia : Nat), ∃ (ib :
      Nat), s.atCycle c = Standing.here t ∧ c.die < t.dies.length ∧ testBit (t.slotWord c 1) 10 = true ∧ fa = bits (t.slotWord c 1) 15 4 ∧ fb = bits
      (t.slotWord c 1) 19 4 ∧ acc = bits (t.slotWord c 1) 13 1 ∧ pairOk fa fb = true ∧ (List.find? (fun p => p.fst == bits (t.slotWord c 1) 11 1)
      (t.core c.die c.core).bufA = some (ia, a)) ∧ (List.find? (fun p => p.fst == bits (t.slotWord c 1) 12 1) (t.core c.die c.core).bufB = some (ib,
      b)) ∧ a.ready ≤ c.cyc ∧ b.ready ≤ c.cyc ∧ a.granules.length = groupGranules fa ∧ b.granules.length = groupGranules fb ∧ (∀ (r : RunState), r ∈
      (t.core c.die c.core).runs → r.start + r.cycles ≤ c.cyc) ∧ Map.get 0 (t.core c.die c.core).accBusy acc ≤ c.cyc) ∧
    (∃ (s : State), ∃ (t : State), ∃ (c : CoreRef), ∃ (fa : Nat), ∃ (fb : Nat), ∃ (acc : Nat), ∃ (a : Group), ∃ (b : Group), ∃ (ia : Nat), ∃ (ib :
      Nat), s.atCycle c = Standing.here t ∧ c.die < t.dies.length ∧ testBit (t.slotWord c 1) 10 = true ∧ fa = bits (t.slotWord c 1) 15 4 ∧ fb = bits
      (t.slotWord c 1) 19 4 ∧ acc = bits (t.slotWord c 1) 13 1 ∧ pairOk fa fb = true ∧ (List.find? (fun p => p.fst == bits (t.slotWord c 1) 11 1)
      (t.core c.die c.core).bufA = some (ia, a)) ∧ (List.find? (fun p => p.fst == bits (t.slotWord c 1) 12 1) (t.core c.die c.core).bufB = some (ib,
      b)) ∧ a.ready ≤ c.cyc ∧ b.ready ≤ c.cyc ∧ a.granules.length = groupGranules fa ∧ b.granules.length = groupGranules fb ∧ (∀ (r : RunState), r ∈
      (t.core c.die c.core).runs → r.start + r.cycles ≤ c.cyc) ∧ Map.get 0 (t.core c.die c.core).accBusy acc ≤ c.cyc) ∧
    (∃ (s : State), ∃ (c : CoreRef), ∃ (r : RunState), ∃ (i : Nat), ∃ (j : Nat), ∃ (n : Int), (List.find? (fun r => decide (r.block < runBlocks
      r.aFmt)) (s.core c.die c.core).runs = some r) ∧ s.dieUp c.die = true ∧ c.die < s.dies.length ∧ (s.unit c.die c.core).failed = false ∧ (s.unit
      c.die c.core).running ≠ none ∧ r.start + (r.block + 1) * (r.cycles / runBlocks r.aFmt) ≤ c.cyc ∧ pairOk r.aFmt r.bFmt = true ∧
      r.a.granules.length = groupGranules r.aFmt ∧ r.b.granules.length = groupGranules r.bFmt ∧ (∀ (g : List Byte), g ∈ r.a.granules ++ r.b.granules
      → g.length = 64) ∧ i < 64 ∧ j < 64 ∧ n % 2 ^ checkBits r.aFmt r.bFmt ≠ 0) ∧
    (∃ (s : State), ∃ (c : CoreRef), ∃ (r : RunState), (List.find? (fun r => decide (r.block < runBlocks r.aFmt)) (s.core c.die c.core).runs = some
      r) ∧ s.dieUp c.die = true ∧ c.die < s.dies.length ∧ (s.unit c.die c.core).failed = false ∧ (s.unit c.die c.core).running ≠ none ∧ r.start +
      (r.block + 1) * (r.cycles / runBlocks r.aFmt) ≤ c.cyc ∧ pairOk r.aFmt r.bFmt = true ∧ r.a.granules.length = groupGranules r.aFmt ∧
      r.b.granules.length = groupGranules r.bFmt ∧ (∀ (g : List Byte), g ∈ r.a.granules ++ r.b.granules → g.length = 64)) ∧
    (∃ (s : State), ∃ (t : State), ∃ (c : CoreRef), ∃ (a : Nat), ∃ (gi : Nat), s.atCycle c = Standing.here t ∧ c.die < t.dies.length ∧ testBit
      (t.slotWord c 1) 35 = true ∧ a = bits (t.slotWord c 1) 36 1 ∧ gi = bits (t.slotWord c 1) 37 3 ∧ (t.gen c.die c.core gi).lanes.length % 4 = 0 ∧
      (t.core c.die c.core).accRest a 8 ≤ c.cyc ∧ Map.get 0 (t.core c.die c.core).accBusy a ≤ c.cyc ∧ (t.core c.die c.core).portFree 3 c.cyc = true ∧
      (t.gen c.die c.core gi).inLine ((256 + (t.gen c.die c.core gi).lanes.length - 1) / (t.gen c.die c.core gi).lanes.length) = true) ∧
    (∃ (s : State), ∃ (t : State), ∃ (c : CoreRef), ∃ (a : Nat), ∃ (gi : Nat), ∃ (fmt : Nat), s.atCycle c = Standing.here t ∧ c.die < t.dies.length ∧
      testBit (t.slotWord c 1) 23 = true ∧ a = bits (t.slotWord c 1) 24 1 ∧ gi = bits (t.slotWord c 1) 29 3 ∧ fmt = bits (t.slotWord c 1) 25 4 ∧ (fmt
      = 11 ∨ fmt = 2 ∨ fmt = 10 ∨ fmt = 4 ∨ fmt = 5 ∨ fmt = 9) ∧ (t.gen c.die c.core gi).lanes.length % storePer fmt = 0 ∧ ((t.core c.die
      c.core).accRest a (if fmt = 4 ∨ fmt = 5 ∨ fmt = 9 then 12 else 8) ≤ c.cyc) ∧ (t.core c.die c.core).portFree 4 c.cyc = true ∧ (t.gen c.die
      c.core gi).inLine ((64 * storePer fmt + (t.gen c.die c.core gi).lanes.length - 1) / (t.gen c.die c.core gi).lanes.length) = true) ∧
    (∃ (s : State), ∃ (t : State), ∃ (c : CoreRef), ∃ (a : Nat), ∃ (gi : Nat), ∃ (fmt : Nat), s.atCycle c = Standing.here t ∧ c.die < t.dies.length ∧
      testBit (t.slotWord c 1) 23 = true ∧ a = bits (t.slotWord c 1) 24 1 ∧ gi = bits (t.slotWord c 1) 29 3 ∧ fmt = bits (t.slotWord c 1) 25 4 ∧ (fmt
      = 11 ∨ fmt = 2 ∨ fmt = 10 ∨ fmt = 4 ∨ fmt = 5 ∨ fmt = 9) ∧ (t.gen c.die c.core gi).lanes.length % storePer fmt = 0 ∧ ((t.core c.die
      c.core).accRest a (if fmt = 4 ∨ fmt = 5 ∨ fmt = 9 then 12 else 8) ≤ c.cyc) ∧ (t.core c.die c.core).portFree 4 c.cyc = true ∧ (t.gen c.die
      c.core gi).inLine ((64 * storePer fmt + (t.gen c.die c.core gi).lanes.length - 1) / (t.gen c.die c.core gi).lanes.length) = true) :=
  ⟨⟨lda1, here lda1, cref, 1, 3, 2, by decide +kernel⟩,
   ⟨lda2, here lda2, cref, 1, 3, 4, by decide +kernel⟩,
   ⟨ldb1, here ldb1, cref, 1, 3, 4, by decide +kernel⟩,
   ⟨run0 2 2, here (run0 2 2), cref, 2, 2, 1, grp 2, grp 2, 0, 0, by decide +kernel⟩,
   ⟨run0 4 4, here (run0 4 4), cref, 4, 4, 1, grp 4, grp 4, 0, 0, by decide +kernel⟩,
   ⟨blk, ⟨0, 3, 64⟩, rst, 1, 5, 7, by decide +kernel⟩,
   ⟨blk, ⟨0, 3, 64⟩, rst, by decide +kernel⟩,
   ⟨accin1, here accin1, cref, 1, 3, by decide +kernel⟩,
   ⟨store1, here store1, cref, 1, 3, 4, by decide +kernel⟩,
   ⟨store2, here store2, cref, 1, 3, 0xA, by decide +kernel⟩⟩

theorem witness_VectorLoadsStoresAndChecks :
    (∃ (s : State), ∃ (t : State), ∃ (c : CoreRef), ∃ (port : Nat), ∃ (reg : Nat), ∃ (gi : Nat), s.atCycle c = Standing.here t ∧ c.die <
      t.dies.length ∧ (port = 0 ∧ testBit (t.slotWord c 2) 23 = true ∧ reg = bits (t.slotWord c 2) 24 4 ∧ gi = bits (t.slotWord c 2) 28 3 ∨ port = 1
      ∧ testBit (t.slotWord c 2) 31 = true ∧ reg = bits (t.slotWord c 2) 32 4 ∧ gi = bits (t.slotWord c 2) 36 3) ∧ (t.gen c.die c.core gi).width ≤ 3
      ∧ (t.gen c.die c.core gi).inLine 1 = true ∧ (t.core c.die c.core).portFree (5 + port) c.cyc = true ∧ (∀ (q : VWrite), q ∈ (t.core c.die
      c.core).vPend → ¬(q.due = c.cyc + 6 ∧ q.reg = reg))) ∧
    (∃ (s : State), ∃ (t : State), ∃ (c : CoreRef), ∃ (port : Nat), ∃ (reg : Nat), ∃ (gi : Nat), s.atCycle c = Standing.here t ∧ c.die <
      t.dies.length ∧ (port = 0 ∧ testBit (t.slotWord c 2) 23 = true ∧ reg = bits (t.slotWord c 2) 24 4 ∧ gi = bits (t.slotWord c 2) 28 3 ∨ port = 1
      ∧ testBit (t.slotWord c 2) 31 = true ∧ reg = bits (t.slotWord c 2) 32 4 ∧ gi = bits (t.slotWord c 2) 36 3) ∧ (t.gen c.die c.core gi).width ≤ 3
      ∧ (t.gen c.die c.core gi).inLine 1 = true ∧ (t.core c.die c.core).portFree (5 + port) c.cyc = true ∧ (∀ (q : VWrite), q ∈ (t.core c.die
      c.core).vPend → ¬(q.due = c.cyc + 6 ∧ q.reg = reg))) ∧
    (∃ (s : State), ∃ (t : State), ∃ (c : CoreRef), ∃ (gi : Nat), s.atCycle c = Standing.here t ∧ c.die < t.dies.length ∧ testBit (t.slotWord c 2) 39
      = true ∧ gi = bits (t.slotWord c 2) 44 3 ∧ (t.gen c.die c.core gi).width ≤ 3 ∧ (t.gen c.die c.core gi).inLine 1 = true ∧ (t.core c.die
      c.core).portFree 7 c.cyc = true) ∧
    (∃ (s : State), ∃ (t : State), ∃ (c : CoreRef), s.atCycle c = Standing.here t ∧ c.die < t.dies.length ∧ bits (t.slotWord c 2) 0 6 = 1) :=
  ⟨⟨vl, here vl, cref, 0, 5, 3, by decide +kernel⟩,
   ⟨vl1, here vl1, cref, 1, 5, 3, by decide +kernel⟩,
   ⟨vs, here vs, cref, 3, by decide +kernel⟩,
   ⟨vc 1 0, here (vc 1 0), cref, by decide +kernel⟩⟩

theorem witness_IntegerLanesFollowTheTable :
    ∃ (s : State), ∃ (t : State), ∃ (v : VOp), ∃ (p : Instr × Nat × Nat × (Word → Word → Word)), (p ∈ [(Instr.iadd v, 32, 2, fun x y => x + y),
      (Instr.isub v, 33, 2, fun x y => x - y), (Instr.imul v, 34, 4, fun x y => x * y), (Instr.shl v, 35, 2, fun x y => x <<< (BitVec.toNat y % 32)),
      (Instr.shra v, 36, 2, fun x y => BitVec.sshiftRight x (BitVec.toNat y % 32)), (Instr.shrl v, 37, 2, fun x y => x >>> (BitVec.toNat y % 32)),
      (Instr.vand v, 38, 2, fun x y => x &&& y), (Instr.vor v, 39, 2, fun x y => x ||| y), (Instr.vxor v, 40, 2, fun x y => x ^^^ y), (Instr.imin v,
      41, 2, fun x y => if BitVec.toInt x ≤ BitVec.toInt y then x else y), (Instr.imax v, 42, 2, fun x y => if BitVec.toInt x ≤ BitVec.toInt y then y
      else x), (Instr.icmplt v, 43, 2, fun x y => if BitVec.toInt x < BitVec.toInt y then 4294967295#32 else 0#32)]) ∧ VectorReady s t v p.snd.fst
      p.snd.snd.fst :=
  ⟨vc 0x20 0, here (vc 0x20 0), vop, (.iadd vop, 0x20, 2, fun x y => x + y), ⟨by simp, by unfold VectorReady; decide +kernel⟩⟩

theorem witness_FloatLanesAreRoundedOnce :
    (∃ (s : State), ∃ (t : State), ∃ (v : VOp), ∃ (p : Instr × Nat × Nat × (FVal → FVal → FVal)), (p ∈ [(Instr.add v, 1, 2, FVal.add), (Instr.sub v,
      2, 2, fun x y => x.add y.negate), (Instr.mul v, 3, 4, FVal.mul), (Instr.max v, 5, 2, FVal.max), (Instr.min v, 6, 2, FVal.min)]) ∧ VectorReady s
      t v p.snd.fst p.snd.snd.fst ∧ testBit (t.slotWord v.core 2) 22 = false) ∧
    (∃ (s : State), ∃ (t : State), ∃ (v : VOp), ∃ (p : Instr × Nat × Nat × (FVal → FVal → FVal)), (p ∈ [(Instr.add v, 1, 2, FVal.add), (Instr.sub v,
      2, 2, fun x y => x.add y.negate), (Instr.mul v, 3, 4, FVal.mul), (Instr.max v, 5, 2, FVal.max), (Instr.min v, 6, 2, FVal.min)]) ∧ VectorReady s
      t v p.snd.fst p.snd.snd.fst ∧ testBit (t.slotWord v.core 2) 22 = false) ∧
    (∃ (s : State), ∃ (t : State), ∃ (v : VOp), ∃ (p : Instr × Nat × Nat × (FVal → FVal → FVal)), (p ∈ [(Instr.add v, 1, 2, FVal.add), (Instr.sub v,
      2, 2, fun x y => x.add y.negate), (Instr.mul v, 3, 4, FVal.mul), (Instr.max v, 5, 2, FVal.max), (Instr.min v, 6, 2, FVal.min)]) ∧ VectorReady s
      t v p.snd.fst p.snd.snd.fst ∧ testBit (t.slotWord v.core 2) 22 = true) ∧
    (∃ (s : State), ∃ (t : State), ∃ (v : VOp), VectorReady s t v 4 4 ∧ testBit (t.slotWord v.core 2) 22 = false) ∧
    (∃ (s : State), ∃ (t : State), ∃ (v : VOp), VectorReady s t v 4 4 ∧ testBit (t.slotWord v.core 2) 22 = true) ∧
    (∃ (s : State), ∃ (t : State), ∃ (v : VOp), ∃ (p : Instr × Nat × (FVal → FVal → Bool)), p ∈ [(Instr.cmplt v, 9, FVal.lt), (Instr.cmpeq v, 10,
      FVal.eqv)] ∧ VectorReady s t v p.snd.fst 2 ∧ testBit (t.slotWord v.core 2) 22 = false) ∧
    (∃ (s : State), ∃ (t : State), ∃ (v : VOp), ∃ (p : Instr × Nat × (FVal → FVal → Bool)), p ∈ [(Instr.cmplt v, 9, FVal.lt), (Instr.cmpeq v, 10,
      FVal.eqv)] ∧ VectorReady s t v p.snd.fst 2 ∧ testBit (t.slotWord v.core 2) 22 = true) ∧
    (∃ (s : State), ∃ (t : State), ∃ (v : VOp), VectorReady s t v 11 2 ∧ testBit (t.slotWord v.core 2) 22 = false) ∧
    (∃ (s : State), ∃ (t : State), ∃ (v : VOp), VectorReady s t v 11 2 ∧ testBit (t.slotWord v.core 2) 22 = true) :=
  ⟨⟨vc 1 0, here (vc 1 0), vop, (.add vop, 1, 2, FVal.add), ⟨by simp, by unfold VectorReady; decide +kernel, by decide +kernel⟩⟩,
   ⟨vc 3 0, here (vc 3 0), vop, (.mul vop, 3, 4, FVal.mul), ⟨by simp, by unfold VectorReady; decide +kernel, by decide +kernel⟩⟩,
   ⟨vc 6 1, here (vc 6 1), vop, (.min vop, 6, 2, FVal.min), ⟨by simp, by unfold VectorReady; decide +kernel, by decide +kernel⟩⟩,
   ⟨vc 4 0, here (vc 4 0), vop, by unfold VectorReady; decide +kernel⟩,
   ⟨vc 4 1, here (vc 4 1), vop, by unfold VectorReady; decide +kernel⟩,
   ⟨vc 9 0, here (vc 9 0), vop, (.cmplt vop, 9, FVal.lt), ⟨by simp, by unfold VectorReady; decide +kernel, by decide +kernel⟩⟩,
   ⟨vc 0xA 1, here (vc 0xA 1), vop, (.cmpeq vop, 0xA, FVal.eqv), ⟨by simp, by unfold VectorReady; decide +kernel, by decide +kernel⟩⟩,
   ⟨vc 0xB 0, here (vc 0xB 0), vop, by unfold VectorReady; decide +kernel⟩,
   ⟨vc 0xB 1, here (vc 0xB 1), vop, by unfold VectorReady; decide +kernel⟩⟩

theorem witness_LanesConvertReduceAndMove :
    (∃ (s : State), ∃ (t : State), ∃ (v : VOp), ∃ (p : Instr × Nat × Nat × (Nat → Nat)), (p ∈ [(Instr.abs v, 7, 2, withSign FFmt.fp32 fun _ =>
      false), (Instr.neg v, 8, 2, withSign FFmt.fp32 not), (Instr.rcp v, 12, 6, f32rcp), (Instr.rsqrt v, 13, 6, f32rsqrt), (Instr.sqrt v, 14, 6,
      f32sqrt), (Instr.exp2 v, 15, 8, f32exp2), (Instr.log2 v, 16, 8, f32log2), (Instr.tanh v, 17, 8, f32tanh), (Instr.sigmoid v, 18, 8,
      f32sigmoid)]) ∧ VectorReady s t v p.snd.fst p.snd.snd.fst ∧ testBit (t.slotWord v.core 2) 22 = false) ∧
    (∃ (s : State), ∃ (t : State), ∃ (v : VOp), ∃ (p : Instr × Nat × Nat × (Nat → Nat)), (p ∈ [(Instr.abs v, 7, 2, withSign FFmt.fp32 fun _ =>
      false), (Instr.neg v, 8, 2, withSign FFmt.fp32 not), (Instr.rcp v, 12, 6, f32rcp), (Instr.rsqrt v, 13, 6, f32rsqrt), (Instr.sqrt v, 14, 6,
      f32sqrt), (Instr.exp2 v, 15, 8, f32exp2), (Instr.log2 v, 16, 8, f32log2), (Instr.tanh v, 17, 8, f32tanh), (Instr.sigmoid v, 18, 8,
      f32sigmoid)]) ∧ VectorReady s t v p.snd.fst p.snd.snd.fst ∧ testBit (t.slotWord v.core 2) 22 = false) ∧
    (∃ (s : State), ∃ (t : State), ∃ (v : VOp), ∃ (p : Instr × Nat × Nat × (Nat → Nat)), (p ∈ [(Instr.abs v, 7, 2, withSign FFmt.bf16 fun _ =>
      false), (Instr.neg v, 8, 2, withSign FFmt.bf16 not), (Instr.rcp v, 12, 6, fun x => FFmt.fp32.convert FFmt.bf16 (f32rcp (FFmt.bf16.convert
      FFmt.fp32 x))), (Instr.rsqrt v, 13, 6, fun x => FFmt.fp32.convert FFmt.bf16 (f32rsqrt (FFmt.bf16.convert FFmt.fp32 x))), (Instr.sqrt v, 14, 6,
      fun x => FFmt.fp32.convert FFmt.bf16 (f32sqrt (FFmt.bf16.convert FFmt.fp32 x))), (Instr.exp2 v, 15, 8, fun x => FFmt.fp32.convert FFmt.bf16
      (f32exp2 (FFmt.bf16.convert FFmt.fp32 x))), (Instr.log2 v, 16, 8, fun x => FFmt.fp32.convert FFmt.bf16 (f32log2 (FFmt.bf16.convert FFmt.fp32
      x))), (Instr.tanh v, 17, 8, fun x => FFmt.fp32.convert FFmt.bf16 (f32tanh (FFmt.bf16.convert FFmt.fp32 x))), (Instr.sigmoid v, 18, 8, fun x =>
      FFmt.fp32.convert FFmt.bf16 (f32sigmoid (FFmt.bf16.convert FFmt.fp32 x)))]) ∧ VectorReady s t v p.snd.fst p.snd.snd.fst ∧ testBit (t.slotWord
      v.core 2) 22 = true) ∧
    (∃ (s : State), ∃ (t : State), ∃ (v : VOp), ∃ (p : Instr × Nat × (Nat → Nat)), (p ∈ [(Instr.cvtif v, 44, fun x => f32ofInt (signed 32 x)),
      (Instr.cvtfi v, 45, f32toInt32), (Instr.unpkbf v, 25, fun x => FFmt.bf16.convert FFmt.fp32 (if testBit (t.slotWord v.core 2) 48 = true then x /
      2 ^ 16 else x % 2 ^ 16)), (Instr.unpkh v, 27, fun x => FFmt.fp16.convert FFmt.fp32 (if testBit (t.slotWord v.core 2) 48 = true then x / 2 ^ 16
      else x % 2 ^ 16))]) ∧ VectorReady s t v p.snd.fst 4) ∧
    (∃ (s : State), ∃ (t : State), ∃ (v : VOp), ∃ (p : Instr × Nat × FFmt), p ∈ [(Instr.packbf v, 24, FFmt.bf16), (Instr.packh v, 26, FFmt.fp16)] ∧
      VectorReady s t v p.snd.fst 4) ∧
    (∃ (s : State), ∃ (t : State), ∃ (v : VOp), ∃ (imm : Nat), ∃ (a : List Nat), ∃ (b : List Nat), ∃ (c : List Nat), imm = bits (t.slotWord v.core 2)
      48 16 ∧ (a = List.map (fun l => BitVec.toNat (t.vsrc v.core 10 l)) (List.range 64)) ∧ (b = List.map (fun l => BitVec.toNat (t.vsrc v.core 14
      l)) (List.range 64)) ∧ (c = List.map (fun l => BitVec.toNat (t.vsrc v.core 18 l)) (List.range 64)) ∧ VectorReady s t v 19 6) ∧
    (∃ (s : State), ∃ (t : State), ∃ (v : VOp), ∃ (imm : Nat), ∃ (a : List Nat), ∃ (b : List Nat), ∃ (c : List Nat), imm = bits (t.slotWord v.core 2)
      48 16 ∧ (a = List.map (fun l => BitVec.toNat (t.vsrc v.core 10 l)) (List.range 64)) ∧ (b = List.map (fun l => BitVec.toNat (t.vsrc v.core 14
      l)) (List.range 64)) ∧ (c = List.map (fun l => BitVec.toNat (t.vsrc v.core 18 l)) (List.range 64)) ∧ VectorReady s t v 20 6) ∧
    (∃ (s : State), ∃ (t : State), ∃ (v : VOp), ∃ (imm : Nat), ∃ (a : List Nat), ∃ (b : List Nat), ∃ (c : List Nat), imm = bits (t.slotWord v.core 2)
      48 16 ∧ (a = List.map (fun l => BitVec.toNat (t.vsrc v.core 10 l)) (List.range 64)) ∧ (b = List.map (fun l => BitVec.toNat (t.vsrc v.core 14
      l)) (List.range 64)) ∧ (c = List.map (fun l => BitVec.toNat (t.vsrc v.core 18 l)) (List.range 64)) ∧ VectorReady s t v 21 2) ∧
    (∃ (s : State), ∃ (t : State), ∃ (v : VOp), ∃ (imm : Nat), ∃ (a : List Nat), ∃ (b : List Nat), ∃ (c : List Nat), imm = bits (t.slotWord v.core 2)
      48 16 ∧ (a = List.map (fun l => BitVec.toNat (t.vsrc v.core 10 l)) (List.range 64)) ∧ (b = List.map (fun l => BitVec.toNat (t.vsrc v.core 14
      l)) (List.range 64)) ∧ (c = List.map (fun l => BitVec.toNat (t.vsrc v.core 18 l)) (List.range 64)) ∧ VectorReady s t v 22 2) ∧
    (∃ (s : State), ∃ (t : State), ∃ (v : VOp), ∃ (imm : Nat), ∃ (a : List Nat), ∃ (b : List Nat), ∃ (c : List Nat), imm = bits (t.slotWord v.core 2)
      48 16 ∧ (a = List.map (fun l => BitVec.toNat (t.vsrc v.core 10 l)) (List.range 64)) ∧ (b = List.map (fun l => BitVec.toNat (t.vsrc v.core 14
      l)) (List.range 64)) ∧ (c = List.map (fun l => BitVec.toNat (t.vsrc v.core 18 l)) (List.range 64)) ∧ VectorReady s t v 23 2) ∧
    (∃ (s : State), ∃ (t : State), ∃ (v : VOp), ∃ (imm : Nat), ∃ (a : List Nat), ∃ (b : List Nat), ∃ (c : List Nat), imm = bits (t.slotWord v.core 2)
      48 16 ∧ (a = List.map (fun l => BitVec.toNat (t.vsrc v.core 10 l)) (List.range 64)) ∧ (b = List.map (fun l => BitVec.toNat (t.vsrc v.core 14
      l)) (List.range 64)) ∧ (c = List.map (fun l => BitVec.toNat (t.vsrc v.core 18 l)) (List.range 64)) ∧ VectorReady s t v 46 2) ∧
    (∃ (s : State), ∃ (t : State), ∃ (v : VOp), ∃ (imm : Nat), ∃ (a : List Nat), ∃ (b : List Nat), ∃ (c : List Nat), imm = bits (t.slotWord v.core 2)
      48 16 ∧ (a = List.map (fun l => BitVec.toNat (t.vsrc v.core 10 l)) (List.range 64)) ∧ (b = List.map (fun l => BitVec.toNat (t.vsrc v.core 14
      l)) (List.range 64)) ∧ (c = List.map (fun l => BitVec.toNat (t.vsrc v.core 18 l)) (List.range 64)) ∧ VectorReady s t v 28 6 ∧ (imm % 16 = 4 ∨
      imm % 16 = 5 ∨ imm % 16 = 9)) ∧
    (∃ (s : State), ∃ (t : State), ∃ (v : VOp), ∃ (imm : Nat), ∃ (a : List Nat), ∃ (b : List Nat), ∃ (c : List Nat), imm = bits (t.slotWord v.core 2)
      48 16 ∧ (a = List.map (fun l => BitVec.toNat (t.vsrc v.core 10 l)) (List.range 64)) ∧ (b = List.map (fun l => BitVec.toNat (t.vsrc v.core 14
      l)) (List.range 64)) ∧ (c = List.map (fun l => BitVec.toNat (t.vsrc v.core 18 l)) (List.range 64)) ∧ VectorReady s t v 28 6 ∧ (¬(imm % 16 = 4 ∨
      imm % 16 = 5 ∨ imm % 16 = 9))) ∧
    (∃ (s : State), ∃ (t : State), ∃ (v : VOp), ∃ (imm : Nat), ∃ (a : List Nat), ∃ (b : List Nat), ∃ (c : List Nat), imm = bits (t.slotWord v.core 2)
      48 16 ∧ (a = List.map (fun l => BitVec.toNat (t.vsrc v.core 10 l)) (List.range 64)) ∧ (b = List.map (fun l => BitVec.toNat (t.vsrc v.core 14
      l)) (List.range 64)) ∧ (c = List.map (fun l => BitVec.toNat (t.vsrc v.core 18 l)) (List.range 64)) ∧ VectorReady s t v 29 2) :=
  ⟨⟨vc 7 0, here (vc 7 0), vop, (.abs vop, 7, 2, withSign .fp32 (fun _ => false)), ⟨by simp, by unfold VectorReady; decide +kernel,
     by decide +kernel⟩⟩,
   ⟨vc 0xC 0, here (vc 0xC 0), vop, (.rcp vop, 0xC, 6, f32rcp), ⟨by simp, by unfold VectorReady; decide +kernel, by decide +kernel⟩⟩,
   ⟨vc 8 1, here (vc 8 1), vop, (.neg vop, 8, 2, withSign .bf16 not), ⟨by simp, by unfold VectorReady; decide +kernel, by decide +kernel⟩⟩,
   ⟨vc 0x2D 0, here (vc 0x2D 0), vop, (.cvtfi vop, 0x2D, f32toInt32), ⟨by simp, by unfold VectorReady; decide +kernel⟩⟩,
   ⟨vc 0x18 0, here (vc 0x18 0), vop, (.packbf vop, 0x18, .bf16), ⟨by simp, by unfold VectorReady; decide +kernel⟩⟩,
   ⟨vc 0x13 0, here (vc 0x13 0), vop, 4, la (vc 0x13 0) 10, la (vc 0x13 0) 14, la (vc 0x13 0) 18, by unfold VectorReady; decide +kernel⟩,
   ⟨vc 0x14 0, here (vc 0x14 0), vop, 4, la (vc 0x14 0) 10, la (vc 0x14 0) 14, la (vc 0x14 0) 18, by unfold VectorReady; decide +kernel⟩,
   ⟨vc 0x15 0, here (vc 0x15 0), vop, 4, la (vc 0x15 0) 10, la (vc 0x15 0) 14, la (vc 0x15 0) 18, by unfold VectorReady; decide +kernel⟩,
   ⟨vc 0x16 0, here (vc 0x16 0), vop, 4, la (vc 0x16 0) 10, la (vc 0x16 0) 14, la (vc 0x16 0) 18, by unfold VectorReady; decide +kernel⟩,
   ⟨vc 0x17 0, here (vc 0x17 0), vop, 4, la (vc 0x17 0) 10, la (vc 0x17 0) 14, la (vc 0x17 0) 18, by unfold VectorReady; decide +kernel⟩,
   ⟨vc 0x2E 0, here (vc 0x2E 0), vop, 4, la (vc 0x2E 0) 10, la (vc 0x2E 0) 14, la (vc 0x2E 0) 18, by unfold VectorReady; decide +kernel⟩,
   ⟨vc 0x1C 0, here (vc 0x1C 0), vop, 4, la (vc 0x1C 0) 10, la (vc 0x1C 0) 14, la (vc 0x1C 0) 18, by unfold VectorReady; decide +kernel⟩,
   ⟨vcr, here vcr, vop, 1, la vcr 10, la vcr 14, la vcr 18, by unfold VectorReady; decide +kernel⟩,
   ⟨vc 0x1D 0, here (vc 0x1D 0), vop, 4, la (vc 0x1D 0) 10, la (vc 0x1D 0) 14, la (vc 0x1D 0) 18, by unfold VectorReady; decide +kernel⟩⟩

end Sys2Proof.Tests
end

section
/-! ## The windows that are no registers (R26)

What the two accesses of rule R26 do once the address map has named the window, and obligation O8 from them. -/

namespace Sys2Proof.Machine

open Sys2Proof

section Windows

variable {s : State} {addr off : Nat}

theorem exec_cosyMailboxRead (addr : Nat) (s : State) : exec (.cosyMailboxRead addr) s = execCosyMailboxRead addr s := rfl

theorem exec_ingressBufferWrite (addr : Nat) (data : List Byte) (s : State) :
    exec (.ingressBufferWrite addr data) s = execIngressBufferWrite addr data s := rfl

/-- R26: in the mailbox's window a read answers zero.  Its only trace is that answer: `State.answer` appends to the reads. -/
theorem execCosyMailboxRead_of_mailbox (running : s.frz.stopped = false) (window : s.region addr = .mailbox off) :
    execCosyMailboxRead addr s = .next (s.answer 0) := by
  simp [execCosyMailboxRead, running, window]

/-- R26: in the ingress window a write leaves the whole state as it was, counters included. -/
theorem execIngressBufferWrite_of_ingress (data : List Byte) (running : s.frz.stopped = false)
    (window : s.region addr = .ingress off) : execIngressBufferWrite addr data s = .next s := by
  simp [execIngressBufferWrite, running, window]

end Windows

/-- Settles O8: each access meets its own window, where the read is an answer of zero and the write is discarded. -/
theorem mailboxReadsZeroIngressWritesDiscarded : Obligations.MailboxReadsZeroIngressWritesDiscarded := by
  intro s addr off data running
  constructor
  · intro window
    rw [exec_cosyMailboxRead, execCosyMailboxRead_of_mailbox running window, State.answer]
  · intro window
    rw [exec_ingressBufferWrite, execIngressBufferWrite_of_ingress data running window]

end Sys2Proof.Machine
end

section
/-! ## The bins of an event (R522)

Which bin a recorder table entry chooses for a value, what an arriving event adds to the open accumulator of its code, and obligation O36
from the two. -/

namespace Sys2Proof.Machine

open Sys2Proof

/-! ### One place of a list -/

theorem nth_setNth_same {α : Type} (d v : α) {l : List α} {n : Nat} (inside : n < l.length) : nth d (setNth l n v) n = v := by
  simp only [nth, setNth, List.getD_eq_getElem?_getD, List.getElem?_set_self inside, Option.getD_some]

theorem nth_setNth_ne {α : Type} (d v : α) (l : List α) {n k : Nat} (other : k ≠ n) : nth d (setNth l n v) k = nth d l k := by
  simp only [nth, setNth, List.getD_eq_getElem?_getD, List.getElem?_set_ne other.symm]

theorem cap_eq_min (m n : Nat) : cap m n = min m n := by
  unfold cap
  by_cases inside : n ≤ m
  · rw [if_pos inside, Nat.min_eq_right inside]
  · rw [if_neg inside, Nat.min_eq_left (Nat.le_of_not_le inside)]

theorem cnt32_eq_min (n : Nat) : cnt32 n = min (2 ^ 32 - 1) n := cap_eq_min _ n

/-! ### The bin that an entry chooses -/

namespace RecEntry

variable (r : RecEntry) {v : Int} {n : Nat}

theorem bin_of_linear (linear : r.log = false) (v : Int) :
    r.bin v = if v - r.base < 0 then 0 else min 31 ((v - r.base).toNat / 2 ^ r.shift) := by
  simp only [bin, linear, cap_eq_min, Bool.false_eq_true, if_false]

theorem bin_of_log (log : r.log = true) (v : Int) :
    r.bin v = if v - r.base < 2 ^ r.shift then 0 else min 31 ((v - r.base).toNat.log2 - r.shift + 1) := by
  simp only [bin, log, cap_eq_min, if_true]

/-- LINEAR below the base: the clamp at 0. -/
theorem bin_linear_of_lt_base (linear : r.log = false) (below : v - r.base < 0) : r.bin v = 0 := by
  rw [r.bin_of_linear linear, if_pos below]

/-- LINEAR from the base on, where d is the natural number n: the quotient is the one of natural numbers. -/
theorem bin_linear (linear : r.log = false) (dist : v - r.base = n) : r.bin v = min 31 (n / 2 ^ r.shift) := by
  rw [r.bin_of_linear linear, dist, if_neg (Int.not_lt.2 (Int.natCast_nonneg n)), Int.toNat_natCast]

/-- LOG below the first bin's end. -/
theorem bin_log_of_lt (log : r.log = true) (below : v - r.base < 2 ^ r.shift) : r.bin v = 0 := by
  rw [r.bin_of_log log, if_pos below]

/-- LOG from 2^s on, where d is the natural number n. -/
theorem bin_log (log : r.log = true) (dist : v - r.base = n) (above : 2 ^ r.shift ≤ n) :
    r.bin v = min 31 (n.log2 - r.shift + 1) := by
  have notBelow : ¬ (n : Int) < 2 ^ r.shift := by exact_mod_cast Nat.not_lt.2 above
  rw [r.bin_of_log log, dist, if_neg notBelow, Int.toNat_natCast]

/-- Both modes clamp: an entry always chooses one of the 32 bins. -/
theorem bin_lt (v : Int) : r.bin v < 32 := by
  cases mode : r.log with
  | false =>
    rw [r.bin_of_linear mode]
    split <;> omega
  | true =>
    rw [r.bin_of_log mode]
    split <;> omega

/-- LINEAR over the range of the 32 bins: bin b holds the distances from b·2^s up to (b + 1)·2^s. -/
theorem bin_linear_bounds (linear : r.log = false) (nonneg : 0 ≤ v - r.base) (inRange : v - r.base < 32 * 2 ^ r.shift) :
    (r.bin v : Int) * 2 ^ r.shift ≤ v - r.base ∧ v - r.base < (r.bin v + 1 : Int) * 2 ^ r.shift := by
  obtain ⟨n, dist⟩ := Int.eq_ofNat_of_zero_le nonneg
  rw [dist] at inRange ⊢
  have quotient : n / 2 ^ r.shift < 32 := (Nat.div_lt_iff_lt_mul (Nat.two_pow_pos _)).2 (by exact_mod_cast inRange)
  have chosen : r.bin v = n / 2 ^ r.shift := by rw [r.bin_linear linear dist]; omega
  rw [chosen]
  constructor
  · exact_mod_cast Nat.div_mul_le_self n _
  · exact_mod_cast Nat.lt_mul_of_div_lt (Nat.lt_succ_self _) (Nat.two_pow_pos r.shift)

/-- LINEAR beyond the range: the clamp at 31. -/
theorem bin_linear_of_ge (linear : r.log = false) (beyond : 32 * 2 ^ r.shift ≤ v - r.base) : r.bin v = 31 := by
  have nonneg : (0 : Int) ≤ 32 * 2 ^ r.shift := by exact_mod_cast Nat.zero_le (32 * 2 ^ r.shift)
  obtain ⟨n, dist⟩ := Int.eq_ofNat_of_zero_le (Int.le_trans nonneg beyond)
  rw [dist] at beyond
  have quotient : 32 ≤ n / 2 ^ r.shift := (Nat.le_div_iff_mul_le (Nat.two_pow_pos _)).2 (by exact_mod_cast beyond)
  rw [r.bin_linear linear dist]
  omega

/-- LOG, octave by octave: the distances from 2^(s+k) up to 2^(s+k+1) go to bin k + 1, clamped. -/
theorem bin_log_octave (log : r.log = true) {k : Nat} (low : 2 ^ (r.shift + k) ≤ v - r.base)
    (high : v - r.base < 2 ^ (r.shift + k + 1)) : r.bin v = min 31 (k + 1) := by
  have nonneg : (0 : Int) ≤ 2 ^ (r.shift + k) := by exact_mod_cast Nat.zero_le (2 ^ (r.shift + k))
  obtain ⟨n, dist⟩ := Int.eq_ofNat_of_zero_le (Int.le_trans nonneg low)
  rw [dist] at low high
  have lowNat : 2 ^ (r.shift + k) ≤ n := by exact_mod_cast low
  have highNat : n < 2 ^ (r.shift + k + 1) := by exact_mod_cast high
  have positive : n ≠ 0 := Nat.ne_of_gt (Nat.lt_of_lt_of_le (Nat.two_pow_pos _) lowNat)
  have octave : n.log2 = r.shift + k := (Nat.log2_eq_iff positive).2 ⟨lowNat, highNat⟩
  have above : 2 ^ r.shift ≤ n := Nat.le_trans (Nat.pow_le_pow_right Nat.two_pos (Nat.le_add_right _ k)) lowNat
  rw [r.bin_log log dist above, octave, Nat.add_sub_cancel_left]

end RecEntry

/-! ### An event joins the open accumulator of its code (R517, R519) -/

section Adding

variable (a : Accum) (r : RecEntry) (e : Event)

@[simp] theorem Accum.add_code : (a.add r e).code = a.code := rfl

/-- The one bin of the event's value counts it, and every other bin stays (R519). -/
theorem Accum.nth_add_bins_bin (has : r.bin e.val < a.bins.length) :
    nth 0 (a.add r e).bins (r.bin e.val) = cnt32 (nth 0 a.bins (r.bin e.val) + 1) :=
  nth_setNth_same 0 _ has

theorem Accum.nth_add_bins_ne {k : Nat} (other : k ≠ r.bin e.val) : nth 0 (a.add r e).bins k = nth 0 a.bins k :=
  nth_setNth_ne 0 _ a.bins other

end Adding

/-- A change that keeps the codes, made at code c alone, changes what is found at c. -/
theorem Accum.find?_map_atCode {f : Accum → Accum} (keeps : ∀ x : Accum, (f x).code = x.code) {l : List Accum} {c : Nat} {a : Accum}
    (found : l.find? (fun x => x.code == c) = some a) :
    (l.map (fun x => if x.code = c then f x else x)).find? (fun x => x.code == c) = some (f a) := by
  have same : (fun x : Accum => x.code == c) ∘ (fun x => if x.code = c then f x else x) = fun x => x.code == c := by
    funext x
    by_cases h : x.code = c
    · simp only [Function.comp_apply, if_pos h, keeps]
    · simp only [Function.comp_apply, if_neg h]
  have atCode : a.code = c := eq_of_beq (List.find?_some (p := fun x : Accum => x.code == c) found)
  rw [List.find?_map, same, found, Option.map_some, if_pos atCode]

namespace State

variable {s : State} {e : Event} {a : Accum}

/-- R517: before its accumulator's interval ends, an event is added to it. -/
theorem intoAccum_accum (opened : s.recorder.accum e.code = some a) (inInterval : e.dt < a.closeDt) :
    (s.intoAccum e).recorder.accum e.code = some (a.add (s.recEntry e.code) e) := by
  simp only [intoAccum, opened, inInterval, if_true]
  exact Accum.find?_map_atCode (f := fun x => x.add (s.recEntry e.code) e) (fun x => x.add_code _ e) opened

end State

theorem exec_eventArrive (e : Event) (s : State) : exec (.eventArrive e) s = execEventArrive e s := rfl

/-- An event of a defined code that reaches the recorder leaves the events under way and goes into the recorder. -/
theorem execEventArrive_of_reach {s : State} {e : Event} (running : s.frz.stopped = false) (reached : s.reach e.die 6 = true)
    (defined : codeDefined e.code = true) :
    execEventArrive e s = .next (State.intoAccum { s with evDue := s.evDue.erase e } e) := by
  simp only [execEventArrive, running, reached, defined, Bool.false_eq_true, if_false, if_true]

/-- Settles O36: the event joins its code's open accumulator, whose bins change at the entry's bin alone; that bin is, mode by mode, the
one of R522. -/
theorem eventBinsFollowTheEntry : Obligations.EventBinsFollowTheEntry := by
  intro s e a r d running reached defined opened inInterval bins hr hd
  subst hd
  have has : r.bin e.val < a.bins.length := bins ▸ r.bin_lt e.val
  rw [exec_eventArrive, execEventArrive_of_reach running reached defined]
  refine ⟨_, a.add r e, r.bin e.val, rfl, ?joins, r.bin_lt e.val, ?counts, fun k => a.nth_add_bins_ne r e, ?linear, ?log⟩
  case joins => exact hr ▸ State.intoAccum_accum opened inInterval
  case counts => rw [a.nth_add_bins_bin r e has, cnt32_eq_min]
  case linear =>
    intro linear
    exact ⟨r.bin_linear_of_lt_base linear, r.bin_linear_bounds linear, r.bin_linear_of_ge linear⟩
  case log =>
    intro log
    exact ⟨r.bin_log_of_lt log, fun k => r.bin_log_octave log⟩

end Sys2Proof.Machine
end

section
/-! ## Freeze requests that are not honoured (R571)

What a request for a freeze and the answer REFUSE do to the state, what each of the three sources of a request does, and obligation O21
from these. -/

namespace Sys2Proof.Machine

open Sys2Proof

/-! ### The messages of a session -/

namespace State

theorem sendMsg_replied (s : State) (type : Nat) (payload : List Byte) : Replied s (s.sendMsg type payload) type payload := ⟨_, _, rfl⟩

theorem refuse_refused (s : State) : Refused s s.refuse :=
  ⟨Config.freeNat s.freeCtr, sendMsg_replied s.free.2 4 _⟩

/-- REFUSE goes out on the session and uses up free values; nothing else changes. -/
theorem refuse_frame (s : State) : s.refuse = { s with out := s.refuse.out, freeCtr := s.refuse.freeCtr } := rfl

/-- R537: a message heard sets the time of the open session, and that alone. -/
theorem heard_of_session {s : State} {x : Session} (opened : s.sec.session = some x) :
    s.heard = { s with sec := { s.sec with session := some { x with lastDt := s.deviceTime } } } := by
  rw [heard, opened, Option.map_some]

@[simp] theorem heard_mayFreeze (s : State) : s.heard.mayFreeze = s.mayFreeze := rfl

@[simp] theorem heard_roleNow (s : State) (x : Session) : s.heard.roleNow x = s.roleNow x := rfl

/-- The session roles 0 to 2 are served under numbers up to 4: those of a MANUFACTURED or SCRAPPED module are 3 and 4 (R535, R538). -/
theorem roleNow_le {s : State} {x : Session} (role : x.role ≤ 2) : s.roleNow x ≤ 4 := by
  unfold roleNow
  split
  · exact Nat.le_refl 4
  · split <;> omega

/-- R537: while a session that is served has one of the roles, its message is heard and acted on, if need be in a freeze too. -/
theorem message_of_role {s : State} {x : Session} {roles : List Nat} (f : Session → State → Result State) (served : s.served = true)
    (opened : s.sec.session = some x) (role : s.roleNow x ∈ roles) : s.message roles true f = f x s.heard := by
  simp [message, served, opened, role]

/-! ### A request from any source -/

/-- R571: a request made while frozen is ignored. -/
theorem askFreeze_of_stopped {s : State} (frozen : s.frz.stopped = true) (source : Nat) (permitted : Bool) :
    s.askFreeze source permitted = s := by
  rw [askFreeze, if_pos frozen]

/-- R571: a request that is not honoured is counted and raises its event. -/
theorem askFreeze_of_not_honoured {s : State} {permitted : Bool} (running : s.frz.stopped = false)
    (cause : s.mayFreeze = false ∨ permitted = false) (source : Nat) :
    s.askFreeze source permitted = (s.bumpF 6 .frzRefused_refused).raise 0x0F10 source := by
  simp only [askFreeze, running, Bool.and_eq_false_iff.mpr cause, Bool.false_eq_true, if_false]

@[simp] theorem askFreeze_out (s : State) (source : Nat) (permitted : Bool) : (s.askFreeze source permitted).out = s.out := by
  unfold askFreeze
  split
  · rfl
  · split <;> rfl

/-- A request is the same whether or not its session's message has been heard. -/
theorem askFreeze_heard (s : State) (source : Nat) (permitted : Bool) :
    s.heard.askFreeze source permitted = { s.askFreeze source permitted with sec := s.heard.sec } := by
  rw [askFreeze, askFreeze, heard_mayFreeze]
  by_cases frozen : s.frz.stopped = true
  · rw [if_pos frozen, if_pos (show s.heard.frz.stopped = true from frozen)]; rfl
  · rw [if_neg frozen, if_neg (show ¬ s.heard.frz.stopped = true from frozen)]
    split <;> rfl

theorem mayFreeze_of_stopped {s : State} (frozen : s.frz.stopped = true) : s.mayFreeze = false := by
  simp [mayFreeze, frozen]

/-- The roles whose sessions may freeze the module: INTEGRATOR and VENDOR (Table FRZ-1). -/
def freezeRole (s : State) (x : Session) : Bool := s.roleNow x == 1 || s.roleNow x == 2

theorem freezeRole_eq_false {s : State} {x : Session} (other : s.roleNow x ≠ 1 ∧ s.roleNow x ≠ 2) : s.freezeRole x = false := by
  simp [freezeRole, other.1, other.2]

end State

/-! ### The three sources -/

section Sources

variable {s : State} {x : Session} {who : Init}

theorem exec_freezePin (s : State) : exec .freezePin s = .next (s.askFreeze 1 s.pinArmed) := rfl

theorem exec_frzCtlFreeze (who : Init) (s : State) : exec (.frzCtlFreeze who) s = execFrzCtlFreeze who s := rfl

theorem exec_freeze (s : State) : exec .freeze s = execFreeze s := rfl

/-- A write of FRZ_CTL.freeze by an initiator with the privilege for it is a request with source 3, frozen or not. -/
theorem execFrzCtlFreeze_of_privileged (reaches : who.canAccess = true) (priv : s.privileged who = true) :
    execFrzCtlFreeze who s = .next (s.askFreeze 3 true) := by
  unfold execFrzCtlFreeze
  split
  case isTrue frozen => rw [State.askFreeze_of_stopped frozen]
  case isFalse => simp [reaches, priv]

/-- FREEZE on a session that is served, where its request is not honoured: the request is made and answered REFUSE. -/
theorem execFreeze_of_not_honoured (served : s.served = true) (opened : s.sec.session = some x) (role : s.roleNow x ≤ 4)
    (cause : s.mayFreeze = false ∨ s.freezeRole x = false) :
    execFreeze s = .next (s.heard.askFreeze 2 (s.freezeRole x)).refuse := by
  have listed : s.roleNow x ∈ [0, 1, 2, 3, 4] := by simp; omega
  rw [execFreeze, State.message_of_role _ served opened listed]
  exact if_neg (ne_true_of_eq_false (Bool.and_eq_false_iff.mpr cause))

/-- Besides what the request itself does, FREEZE that is not honoured only hears the session and answers it REFUSE. -/
theorem execFreeze_refuses (served : s.served = true) (opened : s.sec.session = some x) (role : s.roleNow x ≤ 4)
    (cause : s.mayFreeze = false ∨ s.freezeRole x = false) :
    ∃ u, execFreeze s = .next u ∧ Refused s u ∧
      u = { s.askFreeze 2 (s.freezeRole x) with
        sec := { s.sec with session := some { x with lastDt := s.deviceTime } }
        out := u.out
        freeCtr := u.freeCtr } := by
  refine ⟨_, execFreeze_of_not_honoured served opened role cause, ?_, ?_⟩
  · have answered := State.refuse_refused (s.heard.askFreeze 2 (s.freezeRole x))
    unfold Refused Replied at answered ⊢
    rwa [State.askFreeze_out] at answered
  · rw [State.askFreeze_heard, State.heard_of_session opened]
    exact State.refuse_frame _

end Sources

/-- Settles O21: each of the three commands comes down to `State.askFreeze` with its source, which counts and records a request that is
not honoured and ignores one made while frozen; a session is answered REFUSE besides. -/
theorem refusedFreezeRequestsAreOnlyCounted : Obligations.RefusedFreezeRequestsAreOnlyCounted := by
  refine fun s => ⟨?running, ?frozen⟩
  case running =>
    rintro running t rfl
    refine ⟨State.getF_bumpF_same s 6 .frzRefused_refused 0 0 1 (by decide), ?pin, ?register, ?session⟩
    case pin =>
      intro cause
      rw [exec_freezePin, State.askFreeze_of_not_honoured running cause]
    case register =>
      intro who reaches priv cause
      rw [exec_frzCtlFreeze, execFrzCtlFreeze_of_privileged reaches priv, State.askFreeze_of_not_honoured running (.inl cause)]
    case session =>
      rintro x _ ⟨served, opened, -, rfl⟩ small refused
      have cause := refused.imp_right State.freezeRole_eq_false
      have answer := execFreeze_refuses served opened small cause
      rwa [State.askFreeze_of_not_honoured running cause] at answer
  case frozen =>
    intro frozen
    refine ⟨?pin, ?register, ?session⟩
    case pin => rw [exec_freezePin, State.askFreeze_of_stopped frozen]
    case register =>
      intro who reaches priv
      rw [exec_frzCtlFreeze, execFrzCtlFreeze_of_privileged reaches priv, State.askFreeze_of_stopped frozen]
    case session =>
      intro x served opened role
      have answer := execFreeze_refuses served opened (State.roleNow_le role) (.inl (State.mayFreeze_of_stopped frozen))
      rwa [State.askFreeze_of_stopped frozen] at answer

end Sys2Proof.Machine
end
